-- ==== Sys2Proof/Word.lean ====
section
/-! DEFINITION. The word types of the module and nothing that a rule of the spec fixes.

Register contents, addresses while they are computed and encoded fields are bit vectors; counts, indices and
lengths are `Nat` or `Fin`. -/

namespace Sys2Proof

/-- One byte. -/
abbrev Byte := BitVec 8

/-- A 16-bit field. -/
abbrev W16 := BitVec 16

/-- A 32-bit register, or the bits of an A32 / FP32 value (R66). -/
abbrev W32 := BitVec 32

/-- A 64-bit register pair, tick count, token, seal or tensor id. -/
abbrev W64 := BitVec 64

/-- A 48-bit epoch or collective sequence number (00_scope, "Signals and indices"). -/
abbrev W48 := BitVec 48

/-- A 128-bit job seed, routing descriptor or stream descriptor. -/
abbrev W128 := BitVec 128

/-- A byte string, first byte first. -/
abbrev Bytes := List Byte

end Sys2Proof
end

