-- ==== Sys2Proof/Types.lean ====
section
/-! DEFINITION. The plain data that commands carry and that the state keeps: names of units and ports, number
formats, headers, descriptors, messages and the parsed Benkel program. No meaning stands here. -/

namespace Sys2Proof

/-! ### Units, ports and functions -/

/-- R339: the six torus ports, in the order PX, NX, PY, NY, PZ, NZ. -/
inductive Port where
  | px | nx | py | ny | pz | nz
  deriving DecidableEq, Repr

/-- The two Ethernet ports (R316). -/
inductive EthPort where
  | ethA | ethB
  deriving DecidableEq, Repr

/-- R528: the functions that FUNC_ENABLE and FUNC_DISABLE name. -/
inductive Func where
  | hall (h : Fin 4)
  | eth (e : EthPort)
  | barter
  | countingHouse
  | torus (p : Port)
  deriving DecidableEq, Repr

/-- R488: the unit kinds of a Logbook record, with their index. -/
inductive UnitId where
  | none
  | stall (s : Fin 1024)
  | cellar (s : Fin 1024)
  | hall (h : Fin 4)
  | pipe (p : Fin 16)
  | clerk (p : Fin 2)
  | torusPort (p : Port)
  | ethPort (e : EthPort)
  | farCtl (c : Fin 24)
  | ledger
  | barter
  | monitor (i : BitVec 12)
  | other (i : BitVec 12)
  deriving DecidableEq, Repr

/-! ### Number formats -/

/-- R66: the ten formats, in the order of TGT_FMT (R74). -/
inductive Fmt where
  | a32 | bf16 | fp16 | e4m3 | e5m2 | e3m2 | e2m3 | e2m1 | int8 | int4
  deriving DecidableEq, Repr

/-- R74 RM: the rounding modes. -/
inductive RMode where
  | rne | sr | rto | rtz
  deriving DecidableEq, Repr

/-- R126: the conditions of FCMP and ICMP; `ltu` and `geu` belong to ICMP alone. -/
inductive Cond where
  | eq | ne | lt | le | gt | ge | ltu | geu
  deriving DecidableEq, Repr

/-- A matrix operand's class of encoding: its format and, for an MX operand, that it carries scales (R69). -/
structure OperandFmt where
  fmt : Fmt
  mx : Bool
  deriving DecidableEq, Repr

/-- R89: the write record of one write of a tensor. -/
structure WriteRecord where
  sat : W32 := 0
  range : Bool := false
  nonfinite : Bool := false
  tiny : Bool := false
  deriving DecidableEq, Repr

/-! ### Descriptors -/

/-- R638: the 40-byte drain descriptor. -/
structure DrainDesc where
  control : W64
  scale : W32
  bias : W32
  clipLo : W32
  clipHi : W32
  scaleTid : W64
  biasTid : W64
  deriving DecidableEq, Repr

/-- R198: the 64-byte section descriptor, field by field. -/
structure SectionDesc where
  tid : W64
  epoch : W48
  sec : W16
  fmt : Fmt
  mx : Bool
  rank : Nat
  base : Nat
  elems : Nat
  dims : List Nat
  deriving DecidableEq, Repr

/-- One stored section of a tensor with its header of R202: descriptor, seal, write record, packed content and
the scale array of an MX section (in part DESIGN CHOICE: log 32). -/
structure Section where
  desc : SectionDesc
  content : Bytes
  scales : Bytes
  record : WriteRecord
  sealWord : W64
  deriving DecidableEq, Repr

/-- R136: the kinds of a summary slot. -/
inductive SlotKind where
  | sum | max | min | nfc
  deriving DecidableEq, Repr

/-- The verb header (05_verb_unit, under R131). Instruction words stand as R125 lays them out; stream
descriptors as R119 lays them out. -/
structure VerbHeader where
  instrs : List W64
  consts : List W32
  ins : List (Option W128)
  outs : List (Option W128)
  draws : List (Option W32)
  slots : List (Option SlotKind)
  pDecision : List (Option Nat)
  deriving DecidableEq, Repr

/-- R138: the functions of a decision's parameter write. -/
inductive DecFn where
  | copy | rcp | rsqrt | clipf (c : W32)
  deriving DecidableEq, Repr

/-- R138, R155: where a decision takes its value from. -/
inductive DecSource where
  | summary (verb slot : Nat)
  | collective (entry : Nat)
  | normsq
  | nfflag
  deriving DecidableEq, Repr

/-- R138: one parameter write of a decision. -/
structure DecWrite where
  p : Fin 8
  fn : DecFn
  deriving DecidableEq, Repr

/-- R138: a decision, with its optional test and its two successor sentence lists. -/
structure Decision where
  source : DecSource
  writes : List DecWrite
  test : Option (Cond × W32)
  thenList : List Nat
  elseList : List Nat
  deriving DecidableEq, Repr

/-- R356: the collective operations, in the order of OP. -/
inductive CollOp where
  | reduce | allReduce | reduceScatter | allGather | broadcast | allToAll | barrier
  deriving DecidableEq, Repr

/-- R360 LATE_POLICY. -/
inductive LatePolicy where
  | all | addLater | drop
  deriving DecidableEq, Repr

/-- R357 GROUP. -/
inductive CollGroup where
  | slice | replica | routing | stage
  deriving DecidableEq, Repr

/-- R360: a collective entry of the program, the header fields from OP onward, with GROUP (R357) and WINDOW
(R379). Codes stand as the header carries them, so that R362 can refuse them. -/
structure CollEntry where
  group : CollGroup
  window : Nat
  op : Nat
  flags : Byte
  wfmt : Nat
  rfmt : Nat
  root : Nat
  members : Nat
  count : Nat
  d : Nat
  shape : List Nat
  tensor : W64
  /-- the evaluation list the entry belongs to, none for a training step -/
  eval : Option Nat
  reservedOk : Bool
  deriving DecidableEq, Repr

/-- R144, R183: what a tensor of the program is for. -/
inductive TensorRole where
  | param | remainder | moment | host | input | activation | gradient | scratch
  deriving DecidableEq, Repr

/-- A tensor of section 3 of the image with its load-time shape (R198, R283). -/
structure TensorDecl where
  tid : W64
  fmt : Fmt
  mx : Bool
  dims : List Nat
  role : TensorRole
  far : Bool
  deriving DecidableEq, Repr

/-- The GEMM of a clause, as the image codes it (R25, R69): its operand formats and preload, the most slices that its K may
be cut into, the tensor of the stationary operand, [N, K] with K innermost, when it is a tensor of the program (R21), the
lengths n_1, n_2, … of the K segments that its shape bounds give (R96), the rows that use one weight block (R52), and the collective entry that the tiles of a weight-gradient clause drain into (R54)
(in part DESIGN CHOICE: log 31). -/
structure ClauseGemm where
  a : OperandFmt
  b : OperandFmt
  preload : Option Fmt
  preloadOnly : Bool
  hasProduct : Bool
  splitK : Nat
  weights : Option W64 := none
  segments : List Nat := []
  rows : Nat := 0
  gradient : Option Nat := none
  deriving DecidableEq, Repr

/-- R57 to R60: what an attention clause says of its ring: its number, a causal mask, the backward pass, the tensors of
its own keys and values, and the three tensors of a ring step's partial result: the weighted sum and, by row, the maximum and the sum of the softmax; in a backward
pass the gradients of keys and of values, and no third (DESIGN CHOICE: log 87) (in part DESIGN CHOICE: log 31). -/
structure ClauseRing where
  ring : Nat
  causal : Bool
  backward : Bool
  kv : List W64
  parts : List W64
  deriving DecidableEq, Repr

/-- A clause of the image: its GEMM if it has one, the verb and drain descriptor it uses, the streams it
consumes and produces, the output tensors it names, the tensor of each of its verb's inputs, the row length of the tensor that a verb
without outputs runs over (R137), its weight blocks in thin mode (R52), and the most Halls and stalls that it may take (R43). -/
structure Clause where
  gemm : Option ClauseGemm
  verb : Option Nat
  drain : Option Nat
  accAssigned : Nat
  inStreams : List Nat
  outStreams : List Nat
  outTensors : List W64
  inTensors : List W64 := []
  sumWidth : Nat := 0
  thinBlocks : Nat
  halls : Nat
  stalls : Nat
  attention : Option ClauseRing := none
  deriving DecidableEq, Repr

/-- A sentence: its clauses, and whether it belongs to training, update, skip or evaluation. -/
inductive SentenceKind where
  | training | update | skip | evaluation (list : Nat)
  deriving DecidableEq, Repr

/-- A sentence of the image (R46, R157, R169). -/
structure Sentence where
  clauses : List Nat
  kind : SentenceKind
  decisions : List Nat
  deriving DecidableEq, Repr

/-- Section 10 and 6 of the image for one expert layer: the routing descriptor of R216, the shape bound B_m of
R222, the class width of the weight-gradient clause (R24, R267), the parameters of one expert, the formats of the layer
input, of an expert's output and of the backward payload, the micro-batches of a step and how many may wait
for their backward (R245, R255), the row length of the layer's output and its two output conversions (R239, R274), each expert's initial tier and
prior (R252), the row length of the layer's input (R183), and the update clauses of each expert, as (expert, clause) (R164, R165). -/
structure ExpertLayer where
  desc : W128
  bound : Nat
  width : Nat
  expertParams : Nat
  inFmt : OperandFmt
  outFmt : OperandFmt
  bwdFmt : OperandFmt
  micros : Nat
  pending : Nat
  outLen : Nat
  outConv : DrainDesc
  bwdConv : DrainDesc
  experts : List (Bool × W32)
  inLen : Nat := 0
  updates : List (Nat × Nat) := []
  deriving DecidableEq, Repr

/-- An input stream of section 11: its samples per step (R168) and its bytes per step in the layout of R529. -/
structure InputStream where
  samples : Nat
  bytes : Nat
  tensor : W64
  deriving DecidableEq, Repr

/-- A Benkel program as its image's sections give it (R283). The spec lays out the header but not the bodies of
the sections, so the parsed sections are what PROGRAM_LOAD carries (in part DESIGN CHOICE: log 31). -/
structure Program where
  sentences : List Sentence
  clauses : List Clause
  streams : Nat
  tensors : List TensorDecl
  verbs : List VerbHeader
  drains : List DrainDesc
  layers : List ExpertLayer
  residency : BitVec 192
  decisions : List Decision
  collectives : List CollEntry
  inputs : List InputStream
  evalInputs : List InputStream
  sectionExtents : List (Nat × Nat)
  expertPool : Nat
  deriving DecidableEq, Repr

/-! ### Messages of the fabric -/

/-- R323 TYPE: the data flit types. -/
inductive FlitType where
  | idle | head | body | tail | solo | control | time | ident
  deriving DecidableEq, Repr

/-- R323 VC: the torus virtual channels. -/
inductive VC where
  | bulkT0 | bulkT1 | prioT0 | prioT1
  deriving DecidableEq, Repr

/-- R323: a flit. `payload` is 56 bytes; `reserved` holds KIND bits [7:5] and byte 59
(in part DESIGN CHOICE: log 84). -/
structure Flit where
  payload : Bytes
  seq : W16
  ftype : FlitType
  vc : VC
  kindHigh : BitVec 3
  byte59 : Byte
  crc : W32
  deriving DecidableEq, Repr

/-- R323, R326: the fields of a CONTROL flit and its CRC. -/
structure ControlFlit where
  ackSeq : W16
  nak : Bool
  freed : List W16
  crc : W32
  deriving DecidableEq, Repr

/-- R323, R326: the fields of a TIME flit and its CRC. Stamps are in units of 1/256 ns: tick * 256 + frac. -/
structure TimeFlit where
  tx : Nat
  echoTx : Nat
  echoRx : Nat
  rootId : W64
  hops : W16
  tstate : Byte
  crc : W32
  deriving DecidableEq, Repr

/-- R323, R326: the fields of an IDENT flit and its CRC. -/
structure Ident where
  x : Nat
  y : Nat
  z : Nat
  lx : Nat
  ly : Nat
  lz : Nat
  port : Nat
  assigned : Bool
  sliceId : W32
  serial : W64
  reach : Byte
  crc : W32
  deriving DecidableEq, Repr

/-- R325: a packet's header and its payload (in part DESIGN CHOICE: log 84). -/
structure Packet where
  destX : Nat
  destY : Nat
  destZ : Nat
  cls : Nat
  sliceId : W32
  src : Nat
  bytes : Nat
  flits : Nat
  reservedOk : Bool
  stream : W32
  vc : VC
  payload : Bytes
  deriving DecidableEq, Repr

/-! ### Messages of the two-phase update (14_resilience) -/

/-- (LAYER, EXPERT) of R259. -/
structure ExpertRef where
  layer : Nat
  expert : Nat
  deriving DecidableEq, Repr

/-- R431 table: PREPARED. -/
structure PreparedMsg where
  epoch : W48
  attempt : Byte
  role : Nat
  skipped : Bool
  digest : W64
  promoted : List ExpertRef
  deriving DecidableEq, Repr

/-- R431 table: DECISION and COMMIT. `outer` marks the commit of an outer step (R399). -/
structure DecisionMsg where
  epoch : W48
  attempt : Byte
  snap : Bool
  flash : Bool
  outer : Bool
  skipped : Bool
  taken : List Nat
  promoted : List ExpertRef
  sliceDigest : W64
  deriving DecidableEq, Repr

/-- R437: FAILED, with the row of R439 that applies. -/
structure FailedMsg where
  member : Nat
  epoch : W48
  attempt : Byte
  partner : Nat
  row : Nat
  deriving DecidableEq, Repr

/-- R473: SUSPECT. -/
structure SuspectMsg where
  epoch : W48
  attempt : Byte
  member : Nat
  unit : UnitId
  deriving DecidableEq, Repr

/-- R251: the states of a directory entry. -/
inductive DirState where
  | far | fetching | near | replica
  deriving DecidableEq, Repr

/-- R250: a directory entry. -/
structure DirEntry where
  layer : Nat
  expert : Nat
  home : Nat
  state : DirState
  hot : Bool
  loadedNear : Bool
  ewma : W32
  lastVisit : W48
  replicas : List Nat
  deriving DecidableEq, Repr

/-- R145, R428: the mirror record: cursors, draw counters, step epoch, collective counter, the expert directory and the ADD_LATER
carries as entry, STEP_TAG and codes in WFMT. -/
structure MirrorRecord where
  cursors : List W64
  draws : List (W32 × W64)
  epoch : W48
  collSeq : W48
  dir : List DirEntry := []
  carries : List (Nat × W48 × List W32) := []
  deriving DecidableEq, Repr

/-! ### Collectives (12_collectives) -/

/-- R360: the contribution header. -/
structure CHeader where
  seq : W48
  member : Nat
  digest : W64
  stepTag : W48
  carried : Bool
  attempt : Byte
  op : Nat
  flags : Byte
  wfmt : Nat
  rfmt : Nat
  root : Nat
  members : Nat
  count : Nat
  d : Nat
  shape : List Nat
  tensor : W64
  deriving DecidableEq, Repr

/-- R375: the roll: SEQ, ATTEMPT, the members whose headers arrived before the close, and the carried
contributions taken (member and STEP_TAG). -/
structure RollMsg where
  seq : W48
  attempt : Byte
  mask : List Nat
  carried : List (Nat × W48)
  deriving DecidableEq, Repr

/-- R367: one value on its way up a chunk's tree: the node (level, index) and its elements in A32 bits, or in
WFMT codes at a leaf (R368). -/
structure ChunkMsg where
  seq : W48
  attempt : Byte
  shard : Nat
  chunk : Nat
  level : Nat
  index : Nat
  values : List W32
  deriving DecidableEq, Repr

/-- R369 to R371: a released chunk, in RFMT codes; the chunk that completes its shard carries the shard's write record and seal. -/
structure ReleasedMsg where
  seq : W48
  attempt : Byte
  shard : Nat
  chunk : Nat
  last : Bool
  values : List W32
  record : WriteRecord
  carried : W64
  deriving DecidableEq, Repr

/-! ### Expert exchange (08_expert_routing, 09) -/

/-- A routing batch: layer, micro-batch and half (R214). -/
structure BatchKey where
  layer : Nat
  micro : Nat
  half : Bool
  deriving DecidableEq, Repr

/-- R223: one count n(e, j, m) of a count record. -/
structure CountEntry where
  expert : Nat
  rank : Nat
  n : Nat
  deriving DecidableEq, Repr

/-- R224: the grant of one (expert, rank) to one member. -/
structure GrantEntry where
  expert : Nat
  rank : Nat
  start : Nat
  granted : Nat
  deriving DecidableEq, Repr

/-- R267: the split of one pass of one expert: its filled slots, the serving modules in order, the member that serves each
block, and the members that hold choices in the pass (R234). -/
structure SplitEntry where
  expert : Nat
  pass : Nat
  filled : Nat
  modules : List Nat
  serving : List Nat
  sources : List Nat
  deriving DecidableEq, Repr

/-- R231: a dispatch, return or backward record header. `ranks` gives the rank of each set bit of MASK in ascending bit
order, `weights` their gate weights and `placed` the ranks of all the token's placed choices, ascending: R242 and R273 need
them at the serving module and the header's bytes do not lay them out (log entry 22). `len` is LEN, and `carried` the seal that
the last record of a stream brings (R42). -/
structure RecHeader where
  key : BatchKey
  dir : Bool
  pfmt : OperandFmt
  src : Nat
  token : Nat
  mask : W64
  epoch : W48
  pos : List Nat
  ranks : List Nat
  weights : List W32
  placed : List Nat
  len : Nat := 0
  carried : Option W64 := none
  deriving DecidableEq, Repr

/-- R273: a node of a token's pairwise tree: its level, its index on that level and its elements in FP32. -/
structure TreeNode where
  level : Nat
  index : Nat
  values : List W32
  deriving DecidableEq, Repr

/-! ### Barter frames (13_intersite) -/

/-- R408: the Barter header (in part DESIGN CHOICE: log 84). -/
structure FrameHeader where
  version : Byte
  flags : Byte
  route : Nat
  session : W32
  epoch : W32
  seq : W64
  round : W48
  shard : W16
  group : Nat
  pkt : Nat
  k : Nat
  m : Nat
  site : Nat
  txNs : W64
  len : Nat
  /-- R410: the 16 octets of the AES-256-GCM tag; none of a set-up frame -/
  tag : Bytes
  /-- R392: the 16 octets of the IPv6 source address -/
  source : Bytes
  fragment : Bool
  deriving DecidableEq, Repr

/-- R409 ACK: the ranges of decoded groups, each from its first to its last group, the echoes per route (route, echoed
TX_NS, hold time) and the inbound slots granted anew. -/
structure AckPayload where
  round : W48
  groups : List (Nat × Nat)
  echoes : List (Nat × W64 × W64)
  grants : Nat
  deriving DecidableEq, Repr

/-- R576: the payload of SESSION_INIT and SESSION_ACCEPT. -/
structure SessionPayload where
  nonce : Bytes
  digest : Bytes
  planVersion : W16
  extent : List Nat
  identityPk : Bytes
  certificate : Bytes
  kem : Bytes
  signature : Bytes
  deriving DecidableEq, Repr

/-- R409: the payloads of the frame types, as fields. -/
inductive FrameBody where
  | coded (packet : Bytes)
  | roundOpen (groups lastK : Nat) (sealWord : W64) (record : WriteRecord)
  | ack (a : AckPayload)
  | repair (held : BitVec 48)
  | kem (bytes : Bytes)
  | joinReq
  | leave
  | notice (site : Nat) (excluded : Bool) (fromRound : Nat)
  | probe (echo : Bool)
  | setup (p : SessionPayload)
  deriving DecidableEq, Repr

/-- (site, round) of R402. -/
structure SiteRound where
  site : Nat
  round : Nat
  deriving DecidableEq, Repr

/-! ### Errors of storage -/

/-- R191, R192: what the ECC of a read finds. -/
inductive EccOutcome where
  | clean | corrected | uncorrectable
  deriving DecidableEq, Repr

/-- A mailbox command the module has taken: its channel and slot (R506). -/
structure CmdRef where
  ch : Fin 16
  slot : BitVec 8
  deriving DecidableEq, Repr

/-- A section of a tensor that a stored line belongs to (R195, R196): whether it is committed state, and whether
it is the source of a snapshot drain. -/
structure SectionRef where
  tid : W64
  sec : W16
  committed : Bool
  drainSource : Bool
  deriving DecidableEq, Repr

/-! ### What the commands carry -/

/-- R521: one member's agreement fields of a slice command, in the order of R524, with the job's SEED_DIGEST, and
whether FIRST_EPOCH fails at that member under R529. -/
structure AgreeReport where
  member : Nat
  fields : List Nat
  seedDigest : W64
  epochBad : Bool
  deriving DecidableEq, Repr

/-- R459: the manifest and content of one role's image; its sections carry their seals. -/
structure RoleImage where
  member : Nat
  digest : Bytes
  planVersion : W16
  extent : List Nat
  seedDigest : W64
  epoch : W48
  /-- R459: the slice id at the snapshot and the FLAGS of the manifest -/
  sliceId : W32
  flags : Nat
  /-- R459: the manifest's 4 KiB blocks as they were read -/
  manifest : List Bytes
  sections : List Section
  record : MirrorRecord
  directory : List DirEntry
  carries : List (Nat × W48 × List W32)
  deriving DecidableEq, Repr

/-- R453: what catch-up leaves in the drained slot: the epoch and the sections to which its mirrored gradient has been applied. -/
structure CaughtUp where
  epoch : W48
  secs : List Section
  deriving DecidableEq, Repr

/-- R261: a copy of an expert's committed state at the routing-group member that is to be its replica. -/
structure ReplicaCopy where
  member : Nat
  secs : List Section
  deriving DecidableEq, Repr

/-- R460: the images of every role, as the chosen source holds them. -/
structure RestoreImage where
  valid : Bool
  roles : List RoleImage
  deriving DecidableEq, Repr

/-- R484, R486, R490: the audit records of one step: its epoch, whether it is an outer step, the recorded shadow digest of each role,
the slice digest, the recorded rolls, and for an outer step the accepted set with each leaf's recorded seal and, for a leaf that no
inbound slot holds any more, the stream and the write record that the host gives. -/
structure AuditStep where
  epoch : W48
  outer : Bool
  roles : List (Nat × W64)
  sliceDigest : W64
  rolls : List RollMsg
  leaves : List (SiteRound × W64 × Bytes × WriteRecord)
  deriving DecidableEq, Repr

/-- R484: what an AUDIT_REPLAY reads: whether every record is there and passes its CRC, the image at E0 and the records by step. -/
structure AuditRun where
  recordsOk : Bool
  image : RestoreImage
  steps : List AuditStep
  deriving DecidableEq, Repr

/-- R473, R489: a detection: its mechanism of R466 (1 to 16), the unit, whether the unit is on an active path of
the running step, and the check values recorded. -/
structure Detection where
  mechanism : Nat
  unit : UnitId
  active : Bool
  location : W32
  observed : W64
  expected : W64
  deriving DecidableEq, Repr

/-- R471, R472: the outcome of one stall self-test. -/
inductive SelfTest where
  | pass
  | faultyUnit (pattern location : W32)
  | faultyChecker (pattern location : W32)
  deriving DecidableEq, Repr

/-- R55: the segment of K that a block belongs to: micro-batch, half (B is true) and DEFER pass. -/
structure SegKey where
  micro : Nat
  half : Bool
  pass : Nat
  deriving DecidableEq, Repr

/-- R26: the rows of one weight block. Elements are codes of their format; `weights` holds the 32 columns, each of
K codes, with the E8M0 scales of each 32 elements; `rows` the activation rows. `bufs` is the accumulator set, `last`
marks the tile's last product and `chain` the stall's place (j, s) in a split-K chain (R48). `seg` is the segment of a
weight-gradient block (R55), `positions` how many K positions of it the block holds (R96), `stream` the stream that brings
the rows (R39), `batch` the expert and pass whose rows they are (R62), `n0`, `k0` the block's first column and
K position in the clause's weight tensor (R21), `m0` its first output row (R277), and `upset` the column results that a fault has changed, by row and column
(R467). -/
structure BlockPass where
  a : OperandFmt
  b : OperandFmt
  weights : List (List W16)
  wScales : List (List Byte)
  rows : List (List W16)
  rScales : List (List Byte)
  bufs : List (Fin 4)
  last : Bool
  chain : Option (Nat × Nat)
  seg : Option SegKey := none
  positions : Nat := 0
  stream : Option Nat := none
  batch : Option (BatchKey × Nat × Nat) := none
  n0 : Nat := 0
  k0 : Nat := 0
  m0 : Nat := 0
  upset : List (Nat × Nat × W32) := []
  deriving DecidableEq, Repr

/-- R29: where a preload reads: a Cellar, or the stream with a number. -/
inductive PreloadSrc where
  | cellar | stream (id : Nat)
  deriving DecidableEq, Repr

/-- R76: the drain of one element: its place in the buffer, the tile's extent, the drain descriptor, and its tensor and
linear index (R79). -/
structure DrainElem where
  row : Nat
  col : Nat
  tileRows : Nat
  tileCols : Nat
  desc : DrainDesc
  tid : W64
  rowBase : Nat
  rowLen : Nat
  elems : Nat
  deriving DecidableEq, Repr

/-- R42: a stream flit: its number in its stream (R37), its bytes, the E8M0 scales of the blocks that begin in it
(DESIGN CHOICE: log 19), and in the stream's last flit the tensor's write record and the final seal (R89). -/
structure StreamFlit where
  idx : Nat := 0
  bytes : Bytes
  scales : Bytes := []
  last : Bool
  record : WriteRecord := {}
  carried : W64
  tid : W64
  sec : W16
  deriving DecidableEq, Repr

/-! ### The Aisle (R35, R36) -/

/-- R36: the Aisle's virtual channels. -/
inductive AisleVC where
  | vc0 | vc1 | vc2
  deriving DecidableEq, Repr

/-- The outputs of a stall's router: the four mesh links, the two ring links of a Hall's ring ports, and the stall. -/
inductive AisleDir where
  | east | west | north | south | ringNext | ringPrev | stall
  deriving DecidableEq, Repr

/-- R36: what an Aisle flit carries: a flit of a stream, a credit of a stream's consumer, a running sum's stream flit being
one of these (R50), or 64 bytes of a remote Cellar access. -/
inductive AisleLoad where
  | stream (id : Nat) (f : StreamFlit)
  | credit (id consumer : Nat)
  | cellar (cellar : Nat) (addr : Nat) (write : Bool)
  deriving DecidableEq, Repr

/-- A flit of the Aisle: its source and destination stall, its virtual channel and its load. -/
structure AisleFlit where
  src : Fin 1024
  dst : Fin 1024
  vc : AisleVC
  load : AisleLoad
  deriving DecidableEq, Repr

/-- R116, R124: the start of a span: the verb, its rows and columns, where the span stands in its tensor, the
accumulator buffers assigned (R121), the output tensors, and whether it is the tensor's first or last span on the
stall; `elems` is the logical element count of R153 and `use` numbers the verb's tensors within the step. -/
structure SpanInit where
  verb : Nat
  rows : Nat
  cols : Nat
  rowBase : Nat
  colBase : Nat
  rowLen : Nat
  accs : List (Fin 4)
  outTids : List W64
  queues : List (Option Nat)
  first : Bool
  last : Bool
  elems : Nat
  use : Nat := 0
  deriving DecidableEq, Repr

/-- R191: a 64-byte Cellar transfer: who asks, the Cellar-local address, the bytes of a write, how many of the
transfer's attempts failed their CRC, and what the ECC found. -/
structure CellarXfer where
  requester : Fin 1024
  addr : BitVec 29
  write : Option Bytes
  crcFails : Nat
  ecc : EccOutcome
  holds : Option SectionRef
  deriving DecidableEq, Repr

/-- R48, R96, R296: what the numeric plan fixes of a clause: its split-K count s, the blocks b of its tiles over every segment,
padding included, the output tiles of its tensor, row by row of tiles, how many of them a stall holds live at once (R99), and
the stall roles of the clause. -/
structure ClausePlan where
  splitK : Nat
  blocks : Nat
  tileRows : Nat
  tileCols : Nat
  live : Nat
  stalls : Nat
  deriving DecidableEq, Repr

/-- R293 to R298: the numeric plan: its cuts, the first sentence of each stage, the tensor split by clause and the
sections that a member holds of a tensor it does not hold whole (member, tensor, first section, count), with its version,
estimate and digest. -/
structure Plan where
  stages : List Nat := []
  clauses : List ClausePlan := []
  holds : List (Nat × W64 × Nat × Nat) := []
  version : W16
  q : Nat
  p : Nat
  d : Nat
  prefetch : Nat
  estimate : W64
  digest : W64
  deriving DecidableEq, Repr

/-- R38 to R41: a placed stream: its producer, its consumers and the queue size Q. -/
structure StreamPlace where
  id : Nat
  producer : Fin 1024
  consumers : List (Fin 1024)
  hops : Nat
  q : Nat
  deriving DecidableEq, Repr

/-- R311: a stall role of the numeric plan, its clause and its stall. -/
structure RolePlace where
  role : Nat
  clause : Nat
  stall : Fin 1024
  deriving DecidableEq, Repr

/-- R33: what a region of a stall store holds. -/
inductive RegionKind where
  | queue (stream : Nat)
  | activation
  | verb
  | column (tid : W64) (first : Nat)
  | thin (n0 k0 : Nat)
  deriving DecidableEq, Repr

/-- R33: a region that the placer allocates in a stall's store for a clause: its offset and its bytes. -/
structure Region where
  stall : Fin 1024
  clause : Nat
  kind : RegionKind
  base : Nat
  bytes : Nat
  deriving DecidableEq, Repr

/-- R308, R309: what a placement needs of one resource: code, Hall and clause that it concerns, the amounts, and the
largest contributors as (content row of R183, amount). -/
structure Need where
  code : Nat
  hall : Nat
  clause : Nat
  required : Nat
  available : Nat
  contributors : List (Nat × Nat)
  deriving DecidableEq, Repr

/-- R309: a clause note: code, Hall, clause, stall count and value. -/
structure ClauseNote where
  code : Nat
  hall : Nat
  clause : Nat
  stalls : Nat
  value : Nat
  deriving DecidableEq, Repr

/-- R302 local placement: the physical map that the placer has made: roles, home Halls, streams and regions, with the map's digest. The
placer's method is its own. -/
structure PhysMap where
  roles : List RolePlace
  homes : List (Nat × Fin 4)
  streams : List StreamPlace
  regions : List Region := []
  digest : W64
  deriving DecidableEq, Repr

/-- R589: the temperature sensors. -/
inductive Sensor where
  | hallDie (h : Fin 4) (i : Fin 16)
  | cellar (s : Fin 1024)
  | conversion (i : Byte)
  | lpdram (i : Fin 24)
  deriving DecidableEq, Repr

/-- R478: what control is lost of. -/
inductive ControlLoss where
  | hallRail (h : Fin 4)
  | hallTemp (h : Fin 4)
  | moduleRail
  | moduleTemp
  deriving DecidableEq, Repr

/-- R595, R561: the phases of start-up, the verified boot split into its four. -/
inductive StartPhase where
  | off | awning | wait | rails | fuses | loader | firmware | identity | parallel | ready | done | recovery
  deriving DecidableEq, Repr

end Sys2Proof
end

