-- ==== Sys2Proof/Syntax.lean ====
section
/-! DEFINITION. The commands the block takes: one constructor per row of spec/opcode_table.json, in the table's
order. A command's operands are what its sender or the outside world brings: a register's offset and value, a
message's or frame's fields, a reading of a sensor, or what a check found. -/

namespace Sys2Proof

/-- The commands of the module. Each constructor's docstring names its row and rule and repeats the row's summary. -/
inductive Instr where
  /-- MBX_DOORBELL (R504). A host write to MBX_DOORBELL posts the slots of one channel from its previous tail up to the new tail, or sets OVERRUN and is ignored. -/
  | mbxDoorbell (value : W32)
  /-- DESCRIPTOR_READ (R505). Within 10 µs of a doorbell the module copies a posted descriptor, checks its token and writes QUEUED or a terminal state. -/
  | descriptorRead
  /-- QUEUE_COMMAND_START (R520). A queue command that waited in QUEUED starts when the queue command before it on the module has ended. -/
  | queueCommandStart
  /-- SLICE_COMMAND_AGREEMENT (R521). The lead compares the agreement fields and SEED_DIGEST of a slice command from every member, and all members end with MISMATCH when they differ. -/
  | sliceCommandAgreement (k : CmdRef) (reports : List AgreeReport)
  /-- CMD_ABSENT (R521). When a member's slice command has not arrived within 120 s of the lead's own, every member holding it ends with MISMATCH naming CMD_ABSENT. -/
  | cmdAbsent (k : CmdRef) (absent : Nat)
  /-- HELLO (R525). HELLO sets the module's coordinates, torus lengths and board identifier and returns an IDENTITY record. -/
  | hello (k : CmdRef)
  /-- JOB_OPEN (R526). JOB_OPEN reads the job parameter block and sets the seed, draw streams, data cursors and collective counter. -/
  | jobOpen (k : CmdRef)
  /-- JOB_CLOSE (R527). JOB_CLOSE discards the program, slice membership and carries, and returns the module to IDLE. -/
  | jobClose (k : CmdRef)
  /-- PROGRAM_LOAD (R302). PROGRAM_LOAD checks a Benkel image and runs agreement, slice placement, distribution and local placement to accept or refuse it. -/
  | programLoad (k : CmdRef) (prog : Program)
  /-- SLICE_JOIN (R287). SLICE_JOIN derives slice-relative coordinates, checks the block under R286 and R287 and joins the slice. -/
  | sliceJoin (k : CmdRef)
  /-- STEP_RUN (R529). STEP_RUN runs STEPS consecutive training steps from the loader or from BUF_A. -/
  | stepRun (k : CmdRef)
  /-- EVAL_RUN (R169). EVAL_RUN runs evaluation sentences against the last commit without writing training state. -/
  | evalRun (k : CmdRef)
  /-- TENSOR_WRITE (R530). TENSOR_WRITE writes whole sections of a tensor, sealing them and checking host seals. -/
  | tensorWrite (k : CmdRef) (transferFails : Nat)
  /-- TENSOR_READ (R531). TENSOR_READ reads committed sections and returns each section's data and seal. -/
  | tensorRead (k : CmdRef) (transferFails : Nat)
  /-- CKPT_TAKE (R532). CKPT_TAKE makes a snapshot image at the requested layer for every role. -/
  | ckptTake (k : CmdRef)
  /-- CKPT_RESTORE (R460). CKPT_RESTORE restores every role from an image after checking its manifests and seals. -/
  | ckptRestore (k : CmdRef) (image : RestoreImage)
  /-- FUNC_ENABLE (R600). FUNC_ENABLE requests that a function reach ON, starting, joining or pending a transition. -/
  | funcEnable (k : CmdRef)
  /-- FUNC_DISABLE (R600). FUNC_DISABLE requests that a function reach OFF, starting, joining or pending a transition. -/
  | funcDisable (k : CmdRef)
  /-- STATS_READ (R611). STATS_READ captures the selected counter groups at one tick and optionally clears them. -/
  | statsRead (k : CmdRef)
  /-- LOGBOOK_READ (R495). LOGBOOK_READ returns Logbook records by SEQ range or by frozen segment, and may release segments or clear retirements. -/
  | logbookRead (k : CmdRef) (transferFails : Nat)
  /-- ATTEST (R571). ATTEST signs a record of the measurements and nonce and writes it with the log and identity certificate. -/
  | attest (k : CmdRef)
  /-- MEMBERSHIP (R573). KEY_INSTALL of kind MEMBERSHIP verifies and stores a membership certificate and extends measurement 5. -/
  | membership (k : CmdRef)
  /-- FIRMWARE (R574). KEY_INSTALL of kind FIRMWARE writes verified images to the bank not booted and names it preferred. -/
  | firmware (k : CmdRef)
  /-- KEY_REVOKE (R573). KEY_INSTALL of kind KEY_REVOKE burns the named signing slot's KEY_REVOKED bit. -/
  | keyRevoke (k : CmdRef)
  /-- DEBUG_UNLOCK (R573). KEY_INSTALL of kind DEBUG_UNLOCK clears LOCKED until the next start-up and extends measurement 4. -/
  | debugUnlock (k : CmdRef)
  /-- SITE_JOIN (R393). SITE_JOIN checks the site descriptor, opens peer sessions and starts the first round of site mode. -/
  | siteJoin (k : CmdRef)
  /-- SITE_LEAVE (R423). SITE_LEAVE finishes the current round, sends LEAVE and leaves site mode. -/
  | siteLeave (k : CmdRef)
  /-- AUDIT_REPLAY (R484). AUDIT_REPLAY reruns steps from an image with the recorded sets and compares shadow digests. -/
  | auditReplay (k : CmdRef) (audit : AuditRun)
  /-- IDENTIFY_MEMORY_DEVICE (R498). The CXL memory-device mailbox command Identify Memory Device is served. -/
  | identifyMemoryDevice
  /-- GET_EVENT_RECORDS (R498). The CXL memory-device mailbox command Get Event Records returns event log entries. -/
  | getEventRecords (max : Nat)
  /-- CLEAR_EVENT_RECORDS (R498). The CXL memory-device mailbox command Clear Event Records clears event log entries. -/
  | clearEventRecords (count : Nat)
  /-- CXL_MAILBOX_UNSUPPORTED (R498). Any other CXL memory-device mailbox command is answered with Unsupported. -/
  | cxlMailboxUnsupported (opcode : W16)
  /-- CXL_MEM_READ (R209). A host CXL.mem read of a 64-byte line of the window returns the whole old or new line. -/
  | cxlMemRead (line : BitVec 30) (ecc : EccOutcome)
  /-- CXL_MEM_WRITE (R209). A host CXL.mem write stores a 64-byte line of the window in arrival order at its controller. -/
  | cxlMemWrite (line : BitVec 30) (bytes : Bytes)
  /-- BUS_MASTER_ENABLE_SET (R501). Setting Bus Master Enable lets waiting host-memory transfers resume. -/
  | busMasterEnableSet
  /-- PERST_N_ASSERT (R502). Assertion of PERST_N resets non-sticky register fields while commands already taken continue. -/
  | perstNAssert (held : Bool)
  /-- PERST_N_DEASSERT (R598). Deassertion of PERST_N after PG starts HOST port training. -/
  | perstNDeassert (held : Bool)
  /-- HOST_LINK_TRAINED (R497). The HOST port completes CXL training at an allowed width and rate, or stays down. -/
  | hostLinkTrained (lanes gts : Nat)
  /-- HOST_RETRAIN_TIMER (R497). Every 1 s a HOST port that is down tries to train again. -/
  | hostRetrainTimer
  /-- PAIR_LO_READ (R7). A read of a _LO register captures both halves of the pair for the next _HI read. -/
  | pairLoRead (off : BitVec 21)
  /-- REGISTER_WRITE (R4). A host write to a register without a row of its own sets RW fields, clears W1C bits and commits _HI pairs. -/
  | registerWrite (off : BitVec 21) (width : Nat) (value : W64)
  /-- CMP_TARGET_WRITE (R353). A write of a comparator's TARGET rearms it, and fires it with LATE when the target is not in the future. -/
  | cmpTargetWrite (n : Fin 16) (hi : Bool) (value : W32)
  /-- CMP_CONTROL_WRITE (R543). A write of AWN_CMP_CONTROL enables, rearms and clears MISSED, clears FIRED and LATE, and releases ALERT_N. -/
  | cmpControlWrite (n : Fin 16) (value : W32)
  /-- AWN_ROOT_PRIORITY (R545). A write of AWN_ROOT_PRIORITY changes this module's ROOT_ID from its next TIME flit and re-forms the time tree. -/
  | awnRootPriority (value : W32)
  /-- TAL_SNAP (R550). Writing 1 to TAL_CONTROL SNAP starts a snapshot of all Tally counters, unless one is busy. -/
  | talSnap (value : W32)
  /-- TALLY_SNAPSHOT_DONE (R550). A Tally snapshot completes within 20 µs and clears SNAP_BUSY. -/
  | tallySnapshotDone
  /-- TAL_WINDOW_WRITE (R607). A committed write of a new telemetry window length takes effect at the close of the current window. -/
  | talWindowWrite (hi : Bool) (value : W32)
  /-- POWER_CAP_CHANGE (R588). A write of CAP_W or REQUESTED sets every Hall to the power model's rate for the new cap within 1 ms. -/
  | powerCapChange (cap : Bool) (value : W32)
  /-- DBG_PROBE_SELECT (R613). A write of DBG_PROBE_SELECT routes a named signal to a PRB pin within 100 ns. -/
  | dbgProbeSelect (p : Fin 32) (value : W32)
  /-- COMPARATOR_FIRE (R352). An enabled comparator fires at the first tick at or beyond TARGET, sets FIRED and advances TARGET by PERIOD. -/
  | comparatorFire (n : Fin 16)
  /-- FT_SYNC_EDGE (R350). A rising FT_SYNC edge is captured into AWN_SYNC_CAPTURE, and when armed at the root with no job open it loads fabric time. -/
  | ftSyncEdge
  /-- TIME_EXCHANGE (R346). Every 100 µs a module and its parent exchange TIME flits. -/
  | timeExchange (p : Port)
  /-- TIME_FLIT (R346). A received TIME flit updates parent choice, offset θ, delay and slew, and the time state. -/
  | timeFlit (p : Port) (f : TimeFlit) (rx : Nat)
  /-- ADVERTISEMENT_EXPIRY (R345). A root advertisement not renewed within 1 ms expires. -/
  | advertisementExpiry (p : Port)
  /-- RACKCLK_LOSS (R344). When RACKCLK is absent the Awning runs from its own oscillator and enters HOLDOVER. -/
  | rackclkLoss
  /-- RACKCLK_RETURN (R344). When RACKCLK returns the Awning locks to it again. -/
  | rackclkReturn
  /-- LINK_DETECT (R319). Signal from the far end appears on at least 4 lanes of a torus port and detection ends. -/
  | linkDetect (p : Port) (lanes : Nat)
  /-- DETECT_RETRY (R319). A port that found no signal within 10 ms is DOWN and repeats detection every 1 s. -/
  | detectRetry (p : Port)
  /-- LINK_PROBE (R317). The probe phase measures channel loss and chooses the reach class. -/
  | linkProbe (p : Port) (lossTenthsDb : Nat)
  /-- LINK_EQUALISE (R318). The equalise phase adapts every lane or marks it failed. -/
  | linkEqualise (p : Port) (failed : BitVec 16)
  /-- LINK_LOCK (R333). The lock phase reaches FEC lock, deskew and an agreed width. -/
  | linkLock (p : Port) (failed farDropped : BitVec 16) (asymmetry : Int)
  /-- LINK_FLIT_SYNC (R319). CONTROL flits pass in both directions and the port reaches UNVERIFIED. -/
  | linkFlitSync (p : Port)
  /-- IDENT_FLIT (R321). A received IDENT flit is checked, putting the port UP or MISWIRED. -/
  | identFlit (p : Port) (i : Ident)
  /-- IDENT_TIMER (R322). At least every 10 ms a module sends an IDENT on every port. -/
  | identTimer
  /-- DATA_FLIT (R328). A received data flit is accepted, discarded as a duplicate, or discarded as out of order. -/
  | dataFlit (p : Port) (f : Flit)
  /-- CONTROL_FLIT (R329). A received CONTROL flit frees acknowledged flits, starts a replay on NAK and returns credits. -/
  | controlFlit (p : Port) (c : ControlFlit)
  /-- ACK_TIMER (R329). A receiver sends an acknowledgement after 32 accepted flits or 100 ns. -/
  | ackTimer (p : Port)
  /-- REPLAY_TIMEOUT (R331). An oldest flit unacknowledged for 4 µs is sent again, and after 16 sends the port retrains. -/
  | replayTimeout (p : Port)
  /-- LANE_ERROR_WINDOW_CLOSE (R332). At the close of a 100 ms window a lane over budget is dropped and the port retrains. -/
  | laneErrorWindowClose (p : Port) (errors : List (Nat × Nat))
  /-- LANE_LOCK_LOSS (R332). A lane that loses lock fails at once and is dropped. -/
  | laneLockLoss (p : Port) (lane : Fin 16)
  /-- RETRAIN (R334). A port runs lock and flit sync at the new width and returns to UP, resending from its oldest unacknowledged flit. -/
  | retrain (p : Port) (farDropped : BitVec 16)
  /-- RETRAIN_FAIL (R335). A failed RETRAIN drops failing lanes and retries once, or the port goes DOWN. -/
  | retrainFail (p : Port) (failed : BitVec 16)
  /-- PACKET_FORWARD (R338). A router forwards an arriving packet in dimension order under credits, or discards it. -/
  | packetForward (source : Option Port) (pkt : Packet)
  /-- HEARTBEAT (R436). Every 250 µs a member sends HEARTBEAT to the lead and its partner. -/
  | heartbeat
  /-- HEARTBEAT_MISSED (R436). When four HEARTBEATs of a member are missing the lead treats it as failed and sends FAILED. -/
  | heartbeatMissed (member : Nat) (reason : Nat) (mirrored : Bool)
  /-- MIRROR_SECTION (R432). A partner receives a mirrored gradient section, checks its seal and acknowledges it. -/
  | mirrorSection (epoch : W48) (index : Nat) (sec : Section) (last : Option MirrorRecord)
  /-- MIRROR_ACK (R432). A member receives MIRROR_ACK for its mirrored sections. -/
  | mirrorAck (epoch : W48) (index : Nat)
  /-- PREPARED_SEND (R432). When the shadow buffer is complete, the mirror acknowledged and all checks passed, a member sends PREPARED(E). -/
  | preparedSend
  /-- PREPARED_RESEND (R432). A member resends PREPARED(E) every 1 ms until COMMIT or FAILED arrives. -/
  | preparedResend
  /-- PREPARED (R433). The lead receives PREPARED and, once it holds one for every role, decides COMMIT(E) and sends DECISION. -/
  | prepared (m : PreparedMsg)
  /-- DECISION (R433). The lead's partner receives DECISION and acknowledges it. -/
  | decision (m : DecisionMsg)
  /-- DECISION_ACK (R433). The lead receives its partner's acknowledgement of DECISION and sends COMMIT(E) to every member. -/
  | decisionAck (epoch : W48) (attempt : Byte)
  /-- COMMIT (R434). A member receiving COMMIT(E) inverts its buffer select and applies the step-boundary actions. -/
  | commit (m : DecisionMsg)
  /-- FAILED (R437). A member receiving FAILED stops work of the old attempt, and the partner takes over the failed role. -/
  | failed (m : FailedMsg)
  /-- SNAP_DONE (R454). The lead receives SNAP_DONE, and with all of them the image epoch advances. -/
  | snapDone (member : Nat) (epoch : W48)
  /-- SUSPECT (R474). The lead receiving SUSPECT for an attempt sends REPLAY for the next attempt. -/
  | suspect (m : SuspectMsg)
  /-- REPLAY (R475). A member receiving REPLAY discards the attempt, returns to the last commit and reruns the step. -/
  | replay (epoch : W48) (attempt : Byte)
  /-- DETECT (R473). A detection mechanism fires, and the module fences the unit, marks the attempt suspect and sends SUSPECT. -/
  | detect (d : Detection)
  /-- STALL_SELF_TEST (R471). A stall's turn in the rolling self-test runs its tests for up to 120 µs. -/
  | stallSelfTest (s : Fin 1024) (result : SelfTest)
  /-- UNIT_SELF_TEST (R470). A periodic self-test of a pipe, checker, monitor or the Logbook runs at its period. -/
  | unitSelfTest (row : Nat) (unit : UnitId) (pass : Bool)
  /-- FENCED_RETEST (R482). A FENCED stall or Cellar is retested and after three passes becomes RESTORABLE. -/
  | fencedRetest (cellar : Bool) (s : Fin 1024) (pass : Bool)
  /-- LOGBOOK_QUEUE_ROOM (R492). A record waiting for room enters the staging queue and takes its SEQ when room appears. -/
  | logbookQueueRoom
  /-- LOGBOOK_MRAM_WRITE (R492). The MRAM absorbs the next record of the staging queue. -/
  | logbookMramWrite
  /-- CONTRIBUTION_HEADER (R364). The caller takes an arriving contribution header, opening the deadline window, or discards it as stale or duplicate. -/
  | contributionHeader (h : CHeader)
  /-- COLLECTIVE_ABORT (R363). A member receiving the caller's abort frees the collective's slots and discards partial sums. -/
  | collectiveAbort (seq : W48) (member : Nat) (field : Byte)
  /-- DEADLINE_CLOSE (R374). The deadline window of a collective closes and the roll closes under ADD_LATER or DROP. -/
  | deadlineClose (seq : W48)
  /-- ROLL (R376). A member receiving the roll starts adding, carries or drops its contribution, and frees hosts to release. -/
  | roll (m : RollMsg)
  /-- CHUNK_ARRIVAL (R367). A chunk arriving at a Counting House requests a lease, is added at its tree node and is sent on or released. -/
  | chunkArrival (c : ChunkMsg) (residueFails : List (Fin 16))
  /-- LEASE_GRANT (R380). A Counting House grants a waiting lease in ascending sequence order. -/
  | leaseGrant
  /-- SLOT_WAIT_EXPIRY (R381). A lease request not granted within SLOT_WAIT is withdrawn and the module falls back to endpoint reduction. -/
  | slotWaitExpiry (seq : W48)
  /-- RELEASED_CHUNK (R370). A member receives a released chunk down the tree, checks its seal and forwards it. -/
  | releasedChunk (m : ReleasedMsg)
  /-- BARRIER_COMPLETION (R372). A member receives BARRIER completion. -/
  | barrierCompletion (seq : W48)
  /-- WEIGHT_BLOCK_PASS (R26). The matrix engine runs the rows of one weight block into accumulator rows. -/
  | weightBlockPass (s : Fin 1024) (b : BlockPass)
  /-- PRELOAD_ISSUE (R28). A preload issued for a FREE buffer moves it to PRELOAD. -/
  | preloadIssue (s : Fin 1024) (buf : Fin 4) (src : PreloadSrc) (fmt : Fmt) (only : Bool)
  /-- PRELOAD_COMPLETE (R28). The last preloaded element is written and the buffer moves to ACCUMULATE or, when preload-only, to DRAIN. -/
  | preloadComplete (s : Fin 1024) (buf : Fin 4) (codes : List W32)
  /-- DRAIN_ELEMENT (R76). The drain path scales, biases, clips and rounds an accumulator element into its target format. -/
  | drainElement (s : Fin 1024) (buf : Fin 4) (d : DrainElem)
  /-- RUNNING_SUM (R48). A split-K stall adds an arriving running sum to its partial tile and sends it on. -/
  | runningSum (s : Fin 1024) (buf : Fin 4) (values : List W32)
  /-- STREAM_FLIT_SEND (R38). A producer holding a credit sends a stream flit and spends the credit. -/
  | streamFlitSend (s : Fin 1024) (stream : Nat) (f : StreamFlit)
  /-- CREDIT_RETURN (R38). A producer regains a credit returned on VC2. -/
  | creditReturn (s : Fin 1024) (stream : Nat) (consumer : Nat)
  /-- STREAM_FLIT_RECEIVE (R42). A consumer queues a stream flit and checks the seal at the last flit. -/
  | streamFlitReceive (s : Fin 1024) (stream : Nat) (f : StreamFlit)
  /-- CONTEXT_SWITCH (R45). A stall switches clause context at a tensor boundary. -/
  | contextSwitch (s : Fin 1024) (ctx : Nat)
  /-- SPAN_START (R124). The Verb unit starts a span, clearing registers and latching P0 to P7. -/
  | spanStart (s : Fin 1024) (v : SpanInit)
  /-- FADD (R126). FADD adds two FP32 operands. -/
  | fadd (s : Fin 1024) (d : BitVec 5) (a b : BitVec 6)
  /-- FSUB (R126). FSUB subtracts two FP32 operands. -/
  | fsub (s : Fin 1024) (d : BitVec 5) (a b : BitVec 6)
  /-- FMUL (R126). FMUL multiplies two FP32 operands. -/
  | fmul (s : Fin 1024) (d : BitVec 5) (a b : BitVec 6)
  /-- FMA (R126). FMA computes a times b plus c with one rounding. -/
  | fma (s : Fin 1024) (d : BitVec 5) (a b c : BitVec 6)
  /-- FMAX (R128). FMAX returns the larger operand. -/
  | fmax (s : Fin 1024) (d : BitVec 5) (a b : BitVec 6)
  /-- FMIN (R128). FMIN returns the smaller operand. -/
  | fmin (s : Fin 1024) (d : BitVec 5) (a b : BitVec 6)
  /-- FABS (R126). FABS clears the sign. -/
  | fabs (s : Fin 1024) (d : BitVec 5) (a : BitVec 6)
  /-- FNEG (R126). FNEG inverts the sign. -/
  | fneg (s : Fin 1024) (d : BitVec 5) (a : BitVec 6)
  /-- FCMP (R126). FCMP returns all ones when the floating-point condition holds. -/
  | fcmp (s : Fin 1024) (d : BitVec 5) (cond : Cond) (a b : BitVec 6)
  /-- SEL (R126). SEL selects b when a is a non-zero word, else c. -/
  | sel (s : Fin 1024) (d : BitVec 5) (a b c : BitVec 6)
  /-- MOV (R126). MOV copies an operand unchanged. -/
  | mov (s : Fin 1024) (d : BitVec 5) (a : BitVec 6)
  /-- RCP (R127). RCP computes the reciprocal. -/
  | rcp (s : Fin 1024) (d : BitVec 5) (a : BitVec 6)
  /-- RSQRT (R127). RSQRT computes the reciprocal square root. -/
  | rsqrt (s : Fin 1024) (d : BitVec 5) (a : BitVec 6)
  /-- SQRT (R127). SQRT computes the square root. -/
  | sqrt (s : Fin 1024) (d : BitVec 5) (a : BitVec 6)
  /-- DIV (R127). DIV divides a by b. -/
  | div (s : Fin 1024) (d : BitVec 5) (a b : BitVec 6)
  /-- EXP2 (R127). EXP2 computes 2 to the power a. -/
  | exp2 (s : Fin 1024) (d : BitVec 5) (a : BitVec 6)
  /-- LOG2 (R127). LOG2 computes the base-2 logarithm. -/
  | log2 (s : Fin 1024) (d : BitVec 5) (a : BitVec 6)
  /-- IADD (R126). IADD adds words modulo 2³². -/
  | iadd (s : Fin 1024) (d : BitVec 5) (a b : BitVec 6)
  /-- ISUB (R126). ISUB subtracts words modulo 2³². -/
  | isub (s : Fin 1024) (d : BitVec 5) (a b : BitVec 6)
  /-- IMUL (R126). IMUL returns the low 32 bits of a product. -/
  | imul (s : Fin 1024) (d : BitVec 5) (a b : BitVec 6)
  /-- AND (R126). AND forms the bitwise and. -/
  | and (s : Fin 1024) (d : BitVec 5) (a b : BitVec 6)
  /-- OR (R126). OR forms the bitwise or. -/
  | or (s : Fin 1024) (d : BitVec 5) (a b : BitVec 6)
  /-- XOR (R126). XOR forms the bitwise exclusive or. -/
  | xor (s : Fin 1024) (d : BitVec 5) (a b : BitVec 6)
  /-- SHL (R126). SHL shifts left. -/
  | shl (s : Fin 1024) (d : BitVec 5) (a b : BitVec 6)
  /-- SHR (R126). SHR shifts right logically. -/
  | shr (s : Fin 1024) (d : BitVec 5) (a b : BitVec 6)
  /-- SAR (R126). SAR shifts right arithmetically. -/
  | sar (s : Fin 1024) (d : BitVec 5) (a b : BitVec 6)
  /-- ICMP (R126). ICMP compares words, signed or unsigned. -/
  | icmp (s : Fin 1024) (d : BitVec 5) (cond : Cond) (a b : BitVec 6)
  /-- ITOF (R126). ITOF converts a signed word to FP32. -/
  | itof (s : Fin 1024) (d : BitVec 5) (a : BitVec 6)
  /-- FTOI (R126). FTOI converts FP32 to a saturated signed word. -/
  | ftoi (s : Fin 1024) (d : BitVec 5) (rm : RMode) (a : BitVec 6)
  /-- QNT (R130). QNT rounds a value to a format's value set and returns it as FP32. -/
  | qnt (s : Fin 1024) (d : BitVec 5) (fmt : Fmt) (rm : RMode) (a b : BitVec 6)
  /-- DRAW (R131). DRAW returns the element's draw word from a draw slot. -/
  | draw (s : Fin 1024) (d : BitVec 5) (slot : Fin 4)
  /-- PUT (R129). PUT converts a value and writes it to a verb output. -/
  | put (s : Fin 1024) (out : Fin 4) (a : BitVec 6)
  /-- SUMM (R136). SUMM feeds a value to a summary slot. -/
  | summ (s : Fin 1024) (slot : Fin 4) (a : BitVec 6)
  /-- SUMMARY_PARTIAL (R138). A stall sends its summary partials to the Clerk, which combines them. -/
  | summaryPartial (verb slot role roles : Nat) (value : W64)
  /-- DECISION_RUN (R140). Clerk pair 0 evaluates a decision once its source exists, writes parameters and chooses a successor list. -/
  | decisionRun (i : Nat)
  /-- CELLAR_TRANSFER (R191). A 64-byte Cellar transfer completes with ECC and CRC checks and up to three repeats. -/
  | cellarTransfer (c : Fin 1024) (x : CellarXfer)
  /-- FAR_TIER_READ (R192). A far-tier line read is checked and corrected by its symbol ECC. -/
  | farTierRead (addr : Nat) (ecc : EccOutcome) (holds : Option SectionRef)
  /-- SCRUB (R193). The scrubber reads the next near-tier or far-tier line. -/
  | scrub (far : Bool) (ecc : EccOutcome) (holds : Option SectionRef)
  /-- CELLAR_TEMPERATURE_SAMPLE (R178). Every 100 µs each Cellar's sensors are sampled and its refresh row chosen. -/
  | cellarTemperatureSample (c : Fin 1024) (base top : Int)
  /-- REFRESH_RATE_CHANGE (R179). A Cellar's new refresh rate takes effect between two refresh commands. -/
  | refreshRateChange (c : Fin 1024)
  /-- SELECT (R217). The Ledger ranks a token's scores and selects k choices with gate weights. -/
  | select (key : BatchKey) (token : Nat) (scores vec : List W32) (last : Bool)
  /-- COUNT_RECORD (R224). A home module receives a count record and, with all members', computes and returns the grants. -/
  | countRecord (key : BatchKey) (member tm : Nat) (counts : List CountEntry)
  /-- GRANT (R225). A source module receiving its grants assigns positions to its choices and sends dispatch records. -/
  | grant (key : BatchKey) (home cap : Nat) (grants : List GrantEntry) (split : List SplitEntry)
  /-- DISPATCH_RECORD (R232). A serving module writes a dispatch record's vector into expert input rows, or discards a duplicate. -/
  | dispatchRecord (h : RecHeader) (payload : List W32)
  /-- PASS_COMPLETE (R234). An expert pass completes and its serving module sends pass credits for pass p + 2. -/
  | passComplete (key : BatchKey) (expert pass : Nat) (backward : Bool) (outs : List (Nat × List W32))
  /-- PASS_CREDIT (R234). A source receiving a pass credit sends the held records of that pass. -/
  | passCredit (key : BatchKey) (expert pass : Nat) (backward : Bool)
  /-- EXPERT_FETCH_DONE (R236). A FAR expert's fetch completes and its first pass starts. -/
  | expertFetchDone (e : ExpertRef)
  /-- RETURN_RECORD (R241). A token's module receives a return record and, with all of them, combines the output. -/
  | returnRecord (h : RecHeader) (server : Nat) (outs : List (Nat × List W32))
  /-- UNPARK (R269). At a layer's backward exchange the module unparks that batch's Ledger entries. -/
  | unpark (key : BatchKey) (grads : List (Nat × List W32))
  /-- PARK (R244). After combine the module parks a batch's Ledger entries in the far-tier spill. -/
  | park (key : BatchKey)
  /-- BACKWARD_RECORD (R272). A serving module receives a backward record and feeds the weighted gradient to the expert's backward clauses. -/
  | backwardRecord (h : RecHeader) (weights : List W32) (grad : List W32)
  /-- BACKWARD_RETURN (R274). A token's module receives backward nodes, completes the pairwise tree and frees the entries. -/
  | backwardReturn (h : RecHeader) (server : Nat) (nodes : List TreeNode)
  /-- CASCADE_NODE (R278). The home's cascade enters a weight-gradient node received from a replica in block order. -/
  | cascadeNode (e : ExpertRef) (tile level index : Nat) (values : List W32)
  /-- PROMOTION_COPY_DONE (R259). A promotion copy completes at the home and is listed in its next PREPARED. -/
  | promotionCopyDone (e : ExpertRef)
  /-- REPLICA_COPY_DONE (R261). A new replica's seal-checked copy of the home's state completes. -/
  | replicaCopyDone (e : ExpertRef) (copy : ReplicaCopy)
  /-- GATHER_DONE (R300). A layer's parameter gather from its peers completes. -/
  | gatherDone (layer : Nat) (secs : List Section)
  /-- LOAD_AGREEMENT (R303). The lead receives a member's digest and slice id for agreement. -/
  | loadAgreement (member : Nat) (digest : Bytes) (sliceId : W32) (board : W64)
  /-- LOAD_WAIT (R303). A member not reported by the end of LOAD_WAIT makes every member end with MISMATCH. -/
  | loadWait (absent : Nat)
  /-- SLICE_PLACEMENT (R297). The lead completes the choice of cuts and the numeric plan. -/
  | slicePlacement
  /-- PLAN_DISTRIBUTION (R302). A member receives and verifies the numeric plan. -/
  | planDistribution (plan : Plan) (digest : W64)
  /-- LOCAL_PLACEMENT (R302). A member completes its physical map and reports its fit result. -/
  | localPlacement (m : PhysMap)
  /-- LOAD_RESULT (R304). When every member has reported, each completes with OK or the lowest refusing member's result. -/
  | loadResult (results : List (Nat × W16)) (field shift : Nat) (records : List Bytes)
  /-- INNER_STEP_START (R395). In site mode Ondarel starts the next inner step by itself. -/
  | innerStepStart
  /-- CONTRIBUTION_REPORT (R402). The lead receives a member's report of held contributions and accepts the set when allowed. -/
  | contributionReport (member : Nat) (held : List SiteRound)
  /-- ACCEPTED_SET (R398). A member receiving the accepted set runs the outer update. -/
  | acceptedSet (accepted : List SiteRound)
  /-- SITE_WAIT_EXPIRY (R404). After SITE_WAIT the lead excludes a lagging site and sends NOTICE frames. -/
  | siteWaitExpiry
  /-- DATA (R419). A received DATA frame is authenticated and held, and decodes its group once K packets are held. -/
  | data (h : FrameHeader) (payload : Bytes) (arrival : W64)
  /-- ROUND_OPEN (R409). A received ROUND_OPEN gives a contribution's section descriptors, seals and group count. -/
  | roundOpen (h : FrameHeader) (groups lastK : Nat) (sealWord : W64) (record : WriteRecord)
  /-- ACK (R409). A received ACK gives decoded groups, route echoes and inbound slot grants. -/
  | ack (h : FrameHeader) (a : AckPayload)
  /-- REPAIR (R419). A sender receiving REPAIR resends the missing packets of a group. -/
  | repair (h : FrameHeader) (held : BitVec 48)
  /-- KEY_NEXT (R412). A received KEY_NEXT carries a fresh key for the next epoch. -/
  | keyNext (h : FrameHeader) (kem : Bytes)
  /-- KEY_NEXT_ACK (R578). A received KEY_NEXT_ACK completes agreement of the next epoch's key. -/
  | keyNextAck (h : FrameHeader) (kem : Bytes)
  /-- JOIN_REQ (R421). A donor lead receiving JOIN_REQ answers with its round and later sends state. -/
  | joinReq (h : FrameHeader)
  /-- LEAVE (R423). A received LEAVE stops the site counting after the named round. -/
  | leave (h : FrameHeader)
  /-- NOTICE (R422). A received NOTICE announces an exclusion or join from a round. -/
  | notice (h : FrameHeader) (site : Nat) (excluded : Bool) (fromRound : Nat)
  /-- PROBE (R417). A PROBE echo on an idle route marks it UP again. -/
  | probe (h : FrameHeader) (echo : Bool)
  /-- SESSION_INIT (R577). A received SESSION_INIT is authenticated and answered with SESSION_ACCEPT. -/
  | sessionInit (h : FrameHeader) (p : SessionPayload)
  /-- SESSION_ACCEPT (R578). A received SESSION_ACCEPT is authenticated and epoch 1 keys are derived. -/
  | sessionAccept (h : FrameHeader) (p : SessionPayload)
  /-- SESSION_INIT_RESEND (R577). The lower-index end resends SESSION_INIT every 1 s until accepted. -/
  | sessionInitResend (site : Nat)
  /-- SESSION_SETUP_TIMEOUT (R577). When no session is established within 60 s SITE_JOIN ends with AUTH_FAIL. -/
  | sessionSetupTimeout (site : Nat)
  /-- GROUP_DEADLINE (R419). A group's deadline passes with fewer than K packets and the receiver sends REPAIR, repeating each round trip. -/
  | groupDeadline (site shard : Nat) (round group : Nat)
  /-- ROUND_DATA_STALL (R419). When a round's DATA stops for SKEW_MAX plus a round trip the receiver repairs every undecoded group. -/
  | roundDataStall (site shard : Nat) (round : Nat)
  /-- ROUTE_DOWN (R417). A route without an ACK echo for 1 s while carrying DATA stops being UP. -/
  | routeDown (site route : Nat)
  /-- KEY_EPOCH_SWITCH (R413). After 10 minutes or 2³² frames a sender switches to the next key epoch or waits for it. -/
  | keyEpochSwitch (site : Nat)
  /-- KEY_GRACE_EXPIRY (R414). After 2 s the key of the previous epoch is erased. -/
  | keyGraceExpiry (site : Nat) (sender : Bool)
  /-- STANDBY_UPDATE_DONE (R429). The partner's standby update of a commit completes and its digest is compared. -/
  | standbyUpdateDone (epoch : W48) (digest : W64) (secs : List Section)
  /-- DRAIN_DONE (R453). The last drained snapshot section passes its check and catch-up starts. -/
  | drainDone (epoch : W48) (secs : List Section)
  /-- CATCH_UP_DONE (R453). The drained slot holds E, the slots swap and the partner sends SNAP_DONE. -/
  | catchUpDone (done : CaughtUp)
  /-- FLASH_WRITE_DONE (R455). An image and its manifest are written to the partner's NVMe after a Flush. -/
  | flashWriteDone (epoch : W48)
  /-- FLASH_INTERVAL (R457). Every 600 s the lead marks the next image as a flash image. -/
  | flashInterval
  /-- STORE_INTERVAL (R458). Every STORE_INTERVAL the partners copy their latest flash images to the shared store. -/
  | storeInterval
  /-- STORE_COPY_DONE (R458). A copy of an image to the shared store completes. -/
  | storeCopyDone (role : Nat) (epoch : W48)
  /-- AWNING_POWER_UP (R582). The input rises through 40 V, the Awning turns on and start-up begins. -/
  | awningPowerUp (millivolts : Nat)
  /-- AWNING_POWER_OFF (R582). The input falls below 36 V and the Awning turns off. -/
  | awningPowerOff (millivolts : Nat)
  /-- INPUT_OUT_OF_RANGE (R582). The input leaves 46 V to 60 V, setting UNDERVOLT or OVERVOLT. -/
  | inputOutOfRange (millivolts : Nat)
  /-- INPUT_RANGE_TIMEOUT (R582). An input out of range for 100 µs shuts the module down. -/
  | inputRangeTimeout
  /-- PWR_EN_ASSERT (R595). PWR_EN asserts, held 1 µs, and the module starts up from Rails. -/
  | pwrEnAssert (held : Bool)
  /-- PWR_EN_DEASSERT (R591). PWR_EN deasserts, held 1 µs, and the module shuts down. -/
  | pwrEnDeassert (held : Bool)
  /-- SHUTDOWN_DONE (R591). The shutdown sequence completes and the module enters Sleep, Standby or no power. -/
  | shutdownDone
  /-- PG_DEASSERT (R493). PG deasserts and the hold-up capacitor powers the Logbook while it writes a POWER record and drains. -/
  | pgDeassert
  /-- SLEEP_TIMEOUT (R584). After 300 s of Sleep the module enters Standby. -/
  | sleepTimeout
  /-- IDLE_ENTRY (R585). After 1 ms without work the module enters Idle and gates stall clocks. -/
  | idleEntry
  /-- IDLE_EXIT (R585). New work ungates the stalls within 10 µs. -/
  | idleExit
  /-- CURRENT_GATING (R583). When the 10 µs input current average exceeds 92 A, half of all ACLK cycles are gated. -/
  | currentGating (milliamps : Nat)
  /-- CURRENT_GATING_RELEASE (R583). When the 100 µs current average falls below 85 A the gating ends. -/
  | currentGatingRelease (milliamps : Nat)
  /-- THROTTLE_INTERVAL (R588). Every 100 µs each Hall's ACLK is set to the least of its power, Hall and thermal targets. -/
  | throttleInterval (inputW : Nat) (hallW : List Nat)
  /-- THERMAL_LEVEL (R589). A temperature sensor crosses a throttle, limit or loss-of-control level, or returns below it. -/
  | thermalLevel (sensor : Sensor) (celsius : Int)
  /-- THERMAL_LIMIT (R590). Limit gating that lasts 1 s ends the running step or evaluation with THERMAL_LIMIT. -/
  | thermalLimit
  /-- LOSS_OF_CONTROL (R478). Loss of control of a rail or temperature turns off rails, asserts THERM_N and reports the module failed. -/
  | lossOfControl (c : ControlLoss)
  /-- RAILS_UP (R595). Every rail reaches regulation and PG asserts. -/
  | railsUp (halls : BitVec 4)
  /-- FUSES (R561). Fuses are sensed and any partial SVN burn completed. -/
  | fuses (pendingSvn : Nat)
  /-- LOADER (R562). The Boot ROM verifies LOADER of the preferred bank or falls back. -/
  | loader
  /-- FIRMWARE_VERIFY (R561). LOADER verifies MGMT and JOB and extends measurements. -/
  | firmwareVerify
  /-- BOOT_IDENTITY (R561). The identity leaf reserve is read and the node cache checked. -/
  | bootIdentity (cacheOk : Bool)
  /-- CACHE_REBUILT (R581). The identity node cache rebuild completes. -/
  | cacheRebuilt (ms : W32)
  /-- FAR_TIER_TRAINING (R597). A far-tier training attempt ends, zeroing the tier or retrying once. -/
  | farTierTraining (failed : BitVec 24)
  /-- STARTUP_SELF_TEST (R595). Start-up self-test of every stall and clearing of the Cellars completes. -/
  | startupSelfTest (failedStalls : List (Fin 1024))
  /-- STARTUP_LINKS (R595). Every torus port reaches UNVERIFIED or DOWN and the units are ON. -/
  | startupLinks
  /-- READY (R595). Start-up ends and MBX_STATUS READY reads 1. -/
  | ready
  /-- STARTUP_PHASE_TIMEOUT (R597). A start-up phase that exceeds its bound writes a FATAL record and latches Standby. -/
  | startupPhaseTimeout (phase : StartPhase)
  /-- FUNCTION_TRANSITION_DONE (R599). A function completes STARTING or STOPPING and any pending opposite transition starts. -/
  | functionTransitionDone (f : Func)
  /-- SIGNATURE (R566). Clerk pair 1 signs the next queued message with a fresh identity leaf. -/
  | signature
  /-- ATTEST_WINDOW (R572). A new 60 s window opens and queued ATTESTs may be signed. -/
  | attestWindow
  /-- TELEMETRY_WINDOW_CLOSE (R608). At a telemetry window's close the module writes a window record into the ring. -/
  | telemetryWindowClose
  /-- EXTEST (R616). The EXTEST instruction drives sideband outputs from the boundary register until the next start-up. -/
  | extest
  /-- SAMPLE_PRELOAD (R615). The SAMPLE/PRELOAD instruction samples and preloads the boundary register. -/
  | samplePreload (preload : BitVec 64) (pins : BitVec 64)
  /-- IDCODE (R615). The IDCODE instruction selects the identification register. -/
  | idcode
  /-- IJTAG_ACCESS (R617). The IJTAG_ACCESS instruction selects the IEEE 1687 instrument network. -/
  | ijtagAccess
  /-- BYPASS (R615). The BYPASS instruction, or any other code, selects the bypass register. -/
  | bypass (code : Byte)
  /-- SEGMENT_INSERT (R617). A write of a segment-insertion bit opens or closes an instrument segment. -/
  | segmentInsert (segment : Fin 5) (insert : Bool)
  /-- LOGBOOK_INSTRUMENT_READ (R496). The JTAG Logbook instrument reads event storage, the freeze table or the sequence reserve. -/
  | logbookInstrumentRead (addr : Nat)
  /-- SPI_NOR_WRITE (R563). In recovery the SPI instrument writes the NOR flash. -/
  | spiNorWrite (addr : BitVec 28) (bytes : Bytes)
  /-- HOST_LINK_DOWN (R502). The HOST CXL link goes down without PERST_N, and the module keeps running its commands but takes no new descriptor until the link is up again. -/
  | hostLinkDown
  /-- BUS_MASTER_ENABLE_CLEAR (R501). A host configuration write clears Bus Master Enable, after which every transfer that needs host memory waits. -/
  | busMasterEnableClear
  /-- COPY_OUT_COMPLETE (R262). The copy-out of a demoted expert or a removed replica completes and frees its expert pool space. -/
  | copyOutComplete (e : ExpertRef) (member : Nat)
  /-- ETHERNET_LANE_FAULT (R316). A lane fault takes an Ethernet port down, and the port never runs narrower. -/
  | ethernetLaneFault (e : EthPort) (lane : Fin 8)
  /-- SITE_LEAVE_WAIT_EXPIRY (R423). SITE_WAIT passes after SITE_LEAVE without every peer acknowledging round w, and SITE_LEAVE completes with OK_DEGRADED. -/
  | siteLeaveWaitExpiry
  /-- INPUT_IN_RANGE (R632). The input rises to 46 V or returns into its operating range, and a held PWR_EN then starts Rails. -/
  | inputInRange (millivolts : Nat)
  /-- TEST_LOGIC_RESET (R618). TRST_N assertion, or the TMS reset sequence, returns the TAP to Test-Logic-Reset, selecting IDCODE and clearing TAP_ACTIVE. -/
  | testLogicReset (trst : Bool)
  deriving DecidableEq, Repr

end Sys2Proof
end

