-- ==== Sys2Proof/Config.lean ====
section
/-! DEFINITION. What an implementation fixes and the spec does not: constants of the part, functions whose method
the spec leaves to another standard or to the placer, and the free values. An `opaque` constant has no value that a
proof can see, so a theorem holds whatever it is. -/

namespace Sys2Proof.Config

/-! ### The part (log entry 5) -/

/-- R538: the silicon stepping that start-up reports (DESIGN CHOICE: log 5). -/
opaque stepping : Byte
/-- R538: the serial number (DESIGN CHOICE: log 5). -/
opaque serial : W64
/-- R538, R559: the version of the booted Ondarel. -/
opaque fwVersion : W32
/-- R538: oldest and newest plan version carried. -/
opaque planOldest : W16
opaque planNewest : W16
/-- R538: the identifier of the n-th start-up (DESIGN CHOICE: log 5). -/
opaque bootId : Nat → W64
/-- R556: the fused key hashes of the four signing slots (DESIGN CHOICE: log 5). -/
opaque keyHash : Fin 4 → Bytes
/-- R556: the fused hash of the identity public key (DESIGN CHOICE: log 5). -/
opaque idkHash : Bytes
/-- R556, R569: the identity public key. -/
opaque idkPublic : Bytes

/-! ### Cryptography (log entry 5) -/

/-- SHAKE256 of a byte string, with the output length in bytes (DESIGN CHOICE: log 5). -/
opaque shake256 : Bytes → Nat → Bytes
/-- R560: verification of a signature over a message under a public key (DESIGN CHOICE: log 5). -/
opaque verify : (pk msg sig : Bytes) → Bool
/-- R566: the signature that leaf n of the identity key makes over a message (DESIGN CHOICE: log 5). -/
opaque sign : (leaf : Nat) → (msg : Bytes) → Bytes
/-- R577: the n-th ML-KEM key pair this module makes: encapsulation key and decapsulation key
(DESIGN CHOICE: log 5). -/
opaque kemKeys : Nat → Bytes × Bytes
/-- R577: encapsulation under a key, with the n-th randomness: ciphertext and secret (DESIGN CHOICE: log 5). -/
opaque kemEncap : (ek : Bytes) → Nat → Bytes × Bytes
/-- R578: decapsulation (DESIGN CHOICE: log 5). -/
opaque kemDecap : (dk ct : Bytes) → Bytes

/-- R410: the AES-256-GCM tag of a frame under a key, with its nonce, its additional data and its payload (DESIGN CHOICE: log 5). -/
opaque gcmTag : (key nonce aad : Bytes) → FrameBody → Bytes

/-! ### The placer and the meters -/

/-- R291 to R296: the cuts, estimate and digest that a plan version chooses for a program on a slice
(DESIGN CHOICE: log 5). -/
opaque placerEstimate : (plan : W16) → (prog : Program) → (extent : List Nat) → (q p d : Nat) → W64
/-- R295, R297: the expert spread G that a plan version chooses for an expert layer (DESIGN CHOICE: log 5). -/
opaque placerSpread : (plan : W16) → (prog : Program) → (extent : List Nat) → (q p d : Nat) → (layer : Nat) → Nat
/-- R296, R297: the first sentence of each stage that a plan version chooses for a candidate (DESIGN CHOICE: log 5). -/
opaque placerStages : (plan : W16) → (prog : Program) → (extent : List Nat) → (q p d : Nat) → List Nat
/-- R48, R99, R296: what a plan version chooses for a clause of a candidate: the split-K count, the output tiles down and
across its tensor, the tiles that a stall holds live, and the stall roles (DESIGN CHOICE: log 5). -/
opaque placerClause : (plan : W16) → (prog : Program) → (extent : List Nat) → (q p d : Nat) → (clause : Nat) →
  Nat × Nat × Nat × Nat × Nat
/-- R153, R197, R296: the sections of tensors that a plan version gives to members that do not hold them whole, as (member,
tensor, first section, count) (DESIGN CHOICE: log 5). -/
opaque placerHolds : (plan : W16) → (prog : Program) → (extent : List Nat) → (q p d : Nat) → List (Nat × W64 × Nat × Nat)
/-- R35: the mesh column and row of a Hall's ring port towards the next Hall of the ring, or towards the Hall before. The spec
does not place the ring ports (DESIGN CHOICE: log 88). -/
opaque ringPort : (hall : Fin 4) → (next : Bool) → Fin 16 × Fin 16
/-- R640: the digest of a numeric plan (DESIGN CHOICE: log 5). -/
opaque planDigest : (plan : W16) → (prog : Program) → (extent : List Nat) → (q p d : Nat) → W64
/-- R640: the digest of a physical map under a plan version (DESIGN CHOICE: log 5). -/
opaque mapDigest : (plan : W16) → (map : PhysMap) → W64
/-- R189, R312: the bytes that a placement puts into a Cellar; the layout is the placer's (DESIGN CHOICE: log 5). -/
opaque cellarBytes : (plan : W16) → (map : PhysMap) → (cellar : Nat) → Nat
/-- R588: the ACLK in MHz that the power model of a Hall gives for a cap in W (DESIGN CHOICE: log 5). -/
opaque powerModel : (capW : Nat) → (hall : Fin 4) → Nat
/-- R168, R171: the bytes that the module's loader brings from the shared store for the samples of an input stream from a cursor on,
under its shuffle key. The store's content lies outside the module (DESIGN CHOICE: log 104). -/
opaque samples : (eval : Bool) → (stream : Nat) → (key : W128) → (cursor : W64) → (count : Nat) → Bytes
/-- R471: the length in ns of the self-test that a stall begins at a tick, up to 120 µs (DESIGN CHOICE: log 103). -/
opaque testTicks : (stall tick : Nat) → Nat
/-- R486, R489: the slice digest that the lead forms over the shadow digests of all roles in role order. The spec names
the digest and does not say how it is formed (DESIGN CHOICE: log 5) (DESIGN CHOICE: log 53). -/
opaque sliceDigest : (digests : List W64) → W64

/-- R450: 1/λ in ns per member, the EWMA of failures with a time constant of 24 h, from the seed MODULE_MTBF in
seconds, the ticks of the failures and the current tick. The spec does not fix how the average is computed
(DESIGN CHOICE: log 24). -/
opaque meanTimeToFailure : (mtbf : Nat) → (failures : List W64) → (now : W64) → Nat

/-- R455: the bytes that the board NVMe drive holds, and the bytes per second that it writes. The drive lies outside the module
(DESIGN CHOICE: log 107). -/
opaque driveBytes : Nat
opaque driveRate : Nat

/-- R408 LEN: the octets of a payload whose layout the spec does not give (DESIGN CHOICE: log 73). -/
opaque payloadOctets : FrameBody → Nat
/-- R420: the smoothed round trip of a route in ns, from the one before and a sample. The spec does not fix the
smoothing (DESIGN CHOICE: log 75). -/
opaque smoothRoundTrip : (old sample : Int) → Int

/-! ### Free values -/

/-- A value that the spec leaves open, fresh for each value of the state's counter (log entry 6). -/
opaque freeValue : (w : Nat) → Nat → BitVec w

end Sys2Proof.Config
end

