-- ==== Sys2Proof/Machine/Num.lean ====
section
/-! DEFINITION. Exact values, the ten formats of R66, decoding and the one rounding of R78, A32 arithmetic (R72,
R127) and the packing of narrow elements (R67). Everything is exact integer arithmetic with one rounding at the end. -/

namespace Sys2Proof.Machine

/-! ### Formats -/

/-- R66: the width of an element in bits. -/
def fmtBits : Fmt → Nat
  | .a32 => 32 | .bf16 => 16 | .fp16 => 16 | .e4m3 => 8 | .e5m2 => 8
  | .e3m2 => 6 | .e2m3 => 6 | .e2m1 => 4 | .int8 => 8 | .int4 => 4

/-- R66: the number of significand bits of a floating-point format. -/
def fmtMan : Fmt → Nat
  | .a32 => 23 | .bf16 => 7 | .fp16 => 10 | .e4m3 => 3 | .e5m2 => 2
  | .e3m2 => 2 | .e2m3 => 3 | .e2m1 => 1 | .int8 => 0 | .int4 => 0

/-- R66: the exponent bias. -/
def fmtBias : Fmt → Int
  | .a32 => 127 | .bf16 => 127 | .fp16 => 15 | .e4m3 => 7 | .e5m2 => 15
  | .e3m2 => 3 | .e2m3 => 1 | .e2m1 => 1 | .int8 => 0 | .int4 => 0

/-- R66: INT8 and INT4 are two's complement integers. -/
def fmtIsInt : Fmt → Bool
  | .int8 => true | .int4 => true | _ => false

/-- R66: the code of the largest finite value, sign bit clear. -/
def fmtMax : Fmt → Nat
  | .a32 => 0x7F7FFFFF | .bf16 => 0x7F7F | .fp16 => 0x7BFF | .e4m3 => 0x7E | .e5m2 => 0x7B
  | .e3m2 => 0x1F | .e2m3 => 0x1F | .e2m1 => 0x7 | .int8 => 0x7F | .int4 => 0x7

/-- R66: the code of +∞, where the format has one. -/
def fmtInf : Fmt → Option Nat
  | .a32 => some 0x7F800000 | .bf16 => some 0x7F80 | .fp16 => some 0x7C00 | .e5m2 => some 0x7C
  | _ => none

/-- R66: the canonical NaN, where the format has one. -/
def fmtNan : Fmt → Option Nat
  | .a32 => some 0x7FC00000 | .bf16 => some 0x7FC0 | .fp16 => some 0x7E00 | .e4m3 => some 0x7F
  | .e5m2 => some 0x7E | _ => none

/-- R87: e_max, the unbiased exponent of an MX target's largest finite value. -/
def fmtEmax : Fmt → Int
  | .e4m3 => 8 | .e5m2 => 15 | .e3m2 => 4 | .e2m3 => 2 | .e2m1 => 2
  | .a32 => 127 | .bf16 => 127 | .fp16 => 15 | .int8 => 6 | .int4 => 2

/-- R74: the format that a TGT_FMT code names. -/
def fmtOfCode : Nat → Option Fmt
  | 0 => some .a32 | 1 => some .bf16 | 2 => some .fp16 | 3 => some .e4m3 | 4 => some .e5m2
  | 5 => some .e3m2 | 6 => some .e2m3 | 7 => some .e2m1 | 8 => some .int8 | 9 => some .int4
  | _ => none

/-- R74: the TGT_FMT code of a format. -/
def fmtCode : Fmt → Nat
  | .a32 => 0 | .bf16 => 1 | .fp16 => 2 | .e4m3 => 3 | .e5m2 => 4
  | .e3m2 => 5 | .e2m3 => 6 | .e2m1 => 7 | .int8 => 8 | .int4 => 9

/-- R69: the MX element formats. -/
def fmtMxOk : Fmt → Bool
  | .e4m3 | .e5m2 | .e3m2 | .e2m3 | .e2m1 => true
  | _ => false

/-- R74 RM: the mode that a code names. -/
def rmOfCode (n : Nat) : RMode :=
  match n % 4 with
  | 0 => .rne | 1 => .sr | 2 => .rto | _ => .rtz

/-! ### Exact values -/

/-- An exact value: NaN, an infinity, or ±m · 2^e, where a zero keeps its sign. -/
inductive Val where
  | nan
  | inf (neg : Bool)
  | fin (neg : Bool) (m : Nat) (e : Int)
  deriving DecidableEq, Repr

/-- 2^n for a non-negative n, 1 below. -/
def pow2 (n : Int) : Nat := 2 ^ n.toNat

/-- A signed significand. -/
def signed (neg : Bool) (m : Nat) : Int := if neg then -(m : Int) else (m : Int)

/-- The value +0. -/
def Val.zero : Val := .fin false 0 0

/-- Whether a value is NaN or infinite. -/
def Val.nonfinite : Val → Bool
  | .fin _ _ _ => false
  | _ => true

/-- R66, R68: the exact value of a code of a format. Bits above the format's width are not read. -/
def decode (f : Fmt) (code : Nat) : Val :=
  let w := fmtBits f
  let c := code % 2 ^ w
  let neg := c / 2 ^ (w - 1) = 1
  let mag := c % 2 ^ (w - 1)
  if fmtIsInt f then
    if neg then .fin true (2 ^ w - c) 0 else .fin false c 0
  else
    let p := fmtMan f
    let e := mag / 2 ^ p
    let m := mag % 2 ^ p
    if mag > fmtMax f then
      if fmtInf f = some mag then .inf neg else .nan
    else if e = 0 then .fin neg m (1 - fmtBias f - p)
    else .fin neg (2 ^ p + m) ((e : Int) - fmtBias f - p)

/-- R66: the power of two of an E8M0 code, none for NaN. -/
def e8m0 (c : Byte) : Option Int := if c = 0xFF then none else some ((c.toNat : Int) - 127)

/-! ### Exact operations -/

/-- The exact sum. An exact zero sum is +0 unless both addends are −0 (R72). -/
def Val.add : Val → Val → Val
  | .nan, _ => .nan
  | _, .nan => .nan
  | .inf a, .inf b => if a = b then .inf a else .nan
  | .inf a, .fin _ _ _ => .inf a
  | .fin _ _ _, .inf b => .inf b
  | .fin a m e, .fin b n f =>
    let g := min e f
    let t := signed a (m * pow2 (e - g)) + signed b (n * pow2 (f - g))
    if t = 0 then .fin (a && b && decide (m = 0) && decide (n = 0)) 0 g
    else .fin (decide (t < 0)) t.natAbs g

/-- The exact product (R71). -/
def Val.mul : Val → Val → Val
  | .nan, _ => .nan
  | _, .nan => .nan
  | .inf a, .inf b => .inf (a ^^ b)
  | .inf a, .fin b n _ => if n = 0 then .nan else .inf (a ^^ b)
  | .fin a m _, .inf b => if m = 0 then .nan else .inf (a ^^ b)
  | .fin a m e, .fin b n f => .fin (a ^^ b) (m * n) (e + f)

/-- The value with its sign inverted. -/
def Val.neg : Val → Val
  | .nan => .nan
  | .inf a => .inf (!a)
  | .fin a m e => .fin (!a) m e

/-- The value times 2^x. -/
def Val.scale (v : Val) (x : Int) : Val :=
  match v with
  | .fin a m e => .fin a m (e + x)
  | w => w

/-- Whether a < b, for values that are not NaN; zeros compare equal. -/
def Val.lt : Val → Val → Bool
  | .nan, _ => false
  | _, .nan => false
  | .inf a, .inf b => a && !b
  | .inf a, .fin _ _ _ => a
  | .fin _ _ _, .inf b => !b
  | .fin a m e, .fin b n f =>
    let g := min e f
    decide (signed a (m * pow2 (e - g)) < signed b (n * pow2 (f - g)))

/-- Whether a = b as numbers, for values that are not NaN. -/
def Val.eq (a b : Val) : Bool :=
  match a, b with
  | .nan, _ => false
  | _, .nan => false
  | a, b => !Val.lt a b && !Val.lt b a

/-- ⌊log₂ (m · 2^e)⌋ of a non-zero m. -/
def floorLog2 (m : Nat) (e : Int) : Int := (Nat.log2 m : Int) + e

/-! ### Rounding -/

/-- The spacing exponent of a format at m · 2^e: the unbounded exponent above, the subnormal spacing below, and 1
for an integer target (section "Rounding"). -/
def ulpExp (f : Fmt) (m : Nat) (e : Int) : Int :=
  if fmtIsInt f then 0 else max (floorLog2 m e) (1 - fmtBias f) - fmtMan f

/-- R78: the choice between lo and lo + 1, in units of the spacing, for the exact magnitude m / 2^k units. `r` is
bits [23:0] of the draw word. -/
def roundUnits (rm : RMode) (r : Nat) (m k : Nat) : Nat :=
  let lo := m / 2 ^ k
  let rem := m % 2 ^ k
  if rem = 0 then lo
  else match rm with
    | .rne =>
      if 2 * rem < 2 ^ k then lo else if 2 ^ k < 2 * rem then lo + 1 else lo + lo % 2
    | .sr => if 2 ^ 24 ≤ rem * 2 ^ 24 / 2 ^ k + r % 2 ^ 24 then lo + 1 else lo
    | .rto => if lo % 2 = 1 then lo else lo + 1
    | .rtz => lo

/-- R78: m · 2^e rounded to n · 2^u, with u the spacing exponent. -/
def roundMag (f : Fmt) (rm : RMode) (r : Nat) (m : Nat) (e : Int) : Nat × Int :=
  let u := ulpExp f m e
  if u ≤ e then (m * pow2 (e - u), u) else (roundUnits rm r m (u - e).toNat, u)

/-- The code, sign bit clear, of n · 2^u, with u a spacing exponent; a code above `fmtMax` lies beyond the largest
finite value. -/
def magCode (f : Fmt) (n : Nat) (u : Int) : Nat :=
  if fmtIsInt f then n
  else if n = 0 then 0
  else (u - (1 - fmtBias f - fmtMan f)).toNat * 2 ^ fmtMan f + n

/-- R66: a code from its sign and its magnitude code. -/
def withSign (f : Fmt) (neg : Bool) (mag : Nat) : Nat :=
  if fmtIsInt f then (if neg && decide (mag ≠ 0) then 2 ^ fmtBits f - mag else mag)
  else if neg then 2 ^ (fmtBits f - 1) + mag else mag

/-- R66: whether a magnitude code is beyond the largest finite value of its sign. -/
def beyond (f : Fmt) (neg : Bool) (mag : Nat) : Bool :=
  if fmtIsInt f && neg then decide (mag > fmtMax f + 1) else decide (mag > fmtMax f)

/-- R82: the code of the largest finite value with a sign, the least integer for negative integers. -/
def satCode (f : Fmt) (neg : Bool) : Nat :=
  if fmtIsInt f && neg then 2 ^ (fmtBits f - 1) else withSign f neg (fmtMax f)

/-- What one conversion produces: the code and what it reports (R89). -/
structure Conv where
  code : Nat
  sat : Bool := false
  range : Bool := false
  nonfinite : Bool := false
  tiny : Bool := false
  deriving DecidableEq, Repr

/-- R78, R82 to R86: step 3 of R76, the one rounding of v into a format. -/
def convert (f : Fmt) (rm : RMode) (ovfInf : Bool) (r : Nat) : Val → Conv
  | .nan => { code := (fmtNan f).getD 0, nonfinite := true }
  | .inf neg =>
    match fmtInf f with
    | some c => { code := withSign f neg c, nonfinite := true }
    | none => { code := satCode f neg, nonfinite := true }
  | .fin neg m e =>
    if m = 0 then { code := withSign f neg 0 }
    else
      let (n, u) := roundMag f rm r m e
      let mag := magCode f n u
      if beyond f neg mag then
        match ovfInf, fmtInf f with
        | true, some c => { code := withSign f neg c, range := true, nonfinite := true }
        | _, _ => { code := satCode f neg, sat := true, range := true }
      else { code := withSign f neg mag, tiny := decide (n = 0) }

/-- R72, R127: an exact value rounded once to A32 under RNE, overflow to an infinity and canonical NaN. -/
def toA32 (v : Val) : W32 := BitVec.ofNat 32 (convert .a32 .rne true 0 v).code

/-- The exact value of A32 bits. -/
def ofA32 (x : W32) : Val := decode .a32 x.toNat

/-- The canonical A32 NaN. -/
def nan32 : W32 := 0x7FC00000

/-- R72: one A32 addition rounded to nearest even. -/
def addRne (x y : W32) : W32 := toA32 (Val.add (ofA32 x) (ofA32 y))

/-- R86, R126: FMUL. -/
def mulRne (x y : W32) : W32 := toA32 (Val.mul (ofA32 x) (ofA32 y))

/-- R126: FMA, one rounding. -/
def fmaRne (x y z : W32) : W32 := toA32 (Val.add (Val.mul (ofA32 x) (ofA32 y)) (ofA32 z))

/-! ### Pairwise sums -/

/-- One level of R93. -/
def pairLevel : List W32 → List W32
  | x :: y :: t => addRne x y :: pairLevel t
  | l => l

/-- R93 with an explicit bound on the number of levels. -/
def pairwiseGo : Nat → List W32 → W32
  | _, [] => 0
  | _, [x] => x
  | 0, x :: _ => x
  | k + 1, l => pairwiseGo k (pairLevel l)

/-- R93: the pairwise sum of a sequence; +0.0 for an empty one. -/
def pairwise (l : List W32) : W32 := pairwiseGo l.length l

/-- R97: a block result enters the cascade; entries stand by ascending level. -/
def cascadePush (t : W32) : Nat → List (Nat × W32) → List (Nat × W32)
  | lv, [] => [(lv, t)]
  | lv, (l, e) :: rest => if l = lv then cascadePush (addRne e t) (lv + 1) rest else (lv, t) :: (l, e) :: rest

/-- R97: the final merge, lowest level first. -/
def cascadeMerge : List (Nat × W32) → W32
  | [] => 0
  | (_, e) :: rest => rest.foldl (fun s x => addRne x.2 s) e

/-! ### Comparison, maximum, minimum -/

/-- R126: FCMP; unordered operands satisfy NE only. LTU and GEU are not conditions of FCMP. -/
def fcmpHolds (c : Cond) (x y : W32) : Bool :=
  match ofA32 x, ofA32 y with
  | .nan, _ => decide (c = .ne)
  | _, .nan => decide (c = .ne)
  | a, b =>
    match c with
    | .eq => Val.eq a b
    | .ne => !Val.eq a b
    | .lt => Val.lt a b
    | .le => !Val.lt b a
    | .gt => Val.lt b a
    | .ge => !Val.lt a b
    | .ltu | .geu => false

/-- R126: ICMP on signed words; LTU and GEU unsigned. -/
def icmpHolds (c : Cond) (x y : W32) : Bool :=
  match c with
  | .eq => decide (x = y)
  | .ne => decide (x ≠ y)
  | .lt => decide (x.toInt < y.toInt)
  | .le => decide (x.toInt ≤ y.toInt)
  | .gt => decide (y.toInt < x.toInt)
  | .ge => decide (y.toInt ≤ x.toInt)
  | .ltu => decide (x.toNat < y.toNat)
  | .geu => decide (y.toNat ≤ x.toNat)

/-- Whether A32 bits are a NaN. -/
def isNan32 (x : W32) : Bool := decide (ofA32 x = .nan)

/-- Whether A32 bits are NaN or infinite. -/
def isNonfinite32 (x : W32) : Bool := (ofA32 x).nonfinite

/-- R128: FMAX, with −0 below +0 and the canonical NaN for a NaN operand. -/
def fmax32 (x y : W32) : W32 :=
  if isNan32 x || isNan32 y then nan32
  else if Val.lt (ofA32 x) (ofA32 y) then y
  else if Val.lt (ofA32 y) (ofA32 x) then x
  else if x.msb then y else x

/-- R128: FMIN. -/
def fmin32 (x y : W32) : W32 :=
  if isNan32 x || isNan32 y then nan32
  else if Val.lt (ofA32 x) (ofA32 y) then x
  else if Val.lt (ofA32 y) (ofA32 x) then y
  else if x.msb then x else y

/-! ### Division and roots -/

/-- Integer square root by bits: the largest r with r² ≤ x, for x < 4^n. -/
def isqrtGo : Nat → Nat → Nat → Nat
  | 0, _, r => r
  | n + 1, x, r => let q := r + 2 ^ n; isqrtGo n x (if q * q ≤ x then q else r)

/-- ⌊√x⌋. -/
def isqrt (x : Nat) : Nat := isqrtGo (Nat.log2 x / 2 + 1) x 0

/-- A truncated magnitude with one more bit that says whether something was cut off. The result rounds as the exact
value does, because it carries more bits than A32. -/
def sticky (neg : Bool) (q : Nat) (cut : Bool) (e : Int) : Val :=
  .fin neg (2 * q + (if cut then 1 else 0)) (e - 1)

/-- The quotient of exact values, exact up to a sticky bit below 64 quotient bits (R127). -/
def Val.div : Val → Val → Val
  | .nan, _ => .nan
  | _, .nan => .nan
  | .inf _, .inf _ => .nan
  | .inf a, .fin b _ _ => .inf (a ^^ b)
  | .fin a _ _, .inf b => .fin (a ^^ b) 0 0
  | .fin a m e, .fin b n f =>
    if n = 0 then (if m = 0 then .nan else .inf (a ^^ b))
    else
      let k := 64 + Nat.log2 n
      let x := m * 2 ^ k
      sticky (a ^^ b) (x / n) (decide (x % n ≠ 0)) (e - f - k)

/-- The square root of an exact value (R127). -/
def Val.sqrt : Val → Val
  | .nan => .nan
  | .inf neg => if neg then .nan else .inf false
  | .fin neg m e =>
    if m = 0 then .fin neg 0 0
    else if neg then .nan
    else
      let odd := e % 2 = 1
      let x := (if odd then 2 * m else m) * 4 ^ 40
      let q := isqrt x
      sticky false q (decide (q * q ≠ x)) ((if odd then e - 1 else e) / 2 - 40)

/-- The reciprocal square root of an exact value (R127). -/
def Val.rsqrt : Val → Val
  | .nan => .nan
  | .inf neg => if neg then .nan else .fin false 0 0
  | .fin neg m e =>
    if m = 0 then .inf neg
    else if neg then .nan
    else
      let odd := e % 2 = 1
      let n := if odd then 2 * m else m
      let k := 80 + Nat.log2 n
      let q := isqrt (4 ^ k / n)
      sticky false q (decide (q * q * n ≠ 4 ^ k)) (-((if odd then e - 1 else e) / 2) - k)

/-! ### Base-2 exponential and logarithm

Both are irrational except at the powers of two, so an enclosing interval that rounds to one code at both ends gives
the correctly rounded result (log entry 7). -/

/-- Σ_{k=1..n} 2^P / (k · 2^k), truncated: ln 2 to P bits. -/
def ln2Go (P : Nat) : Nat → Nat
  | 0 => 0
  | n + 1 => ln2Go P n + 2 ^ P / ((n + 1) * 2 ^ (n + 1))

/-- The first n terms of e^y for y / 2^P, with `t` the current term. -/
def expGo (P y : Nat) : Nat → Nat → Nat → Nat → Nat
  | 0, _, _, acc => acc
  | n + 1, k, t, acc => expGo P y n (k + 1) (t * y / 2 ^ P / (k + 1)) (acc + t)

/-- 2^(num / 2^P), scaled by 2^P, truncated in each term. -/
def exp2Frac (P num : Nat) : Nat :=
  expGo P (num * ln2Go P (P + 8) / 2 ^ P) (P / 2 + 16) 0 (2 ^ P) 0

/-- Bits of log₂ (x / 2^P) for 2^P ≤ x < 2^(P+1), by repeated squaring. -/
def log2Bits (P : Nat) : Nat → Nat → Nat → Nat
  | 0, _, acc => acc
  | n + 1, x, acc =>
    let y := x * x / 2 ^ P
    if 2 ^ (P + 1) ≤ y then log2Bits P n (y / 2) (2 * acc + 1) else log2Bits P n y (2 * acc)

/-- The lower end when both ends of an interval of magnitudes round to one A32 code, else the next precision
(in part DEDUCED: log 7). -/
def decideInterval (lo hi : Val) (next : Val) : Val :=
  if toA32 lo = toA32 hi then lo else next

/-- 2^(n + num / 2^P): an interval of relative width 2^(12 − P) (in part DEDUCED: log 7). -/
def exp2At (P : Nat) (n : Int) (num : Nat) (next : Val) : Val :=
  let q := exp2Frac P num
  decideInterval (.fin false q (n - P)) (.fin false (q + 2 ^ 12) (n - P)) next

/-- R127: 2^v (in part DEDUCED: log 7). -/
def Val.exp2 : Val → Val
  | .nan => .nan
  | .inf neg => if neg then .fin false 0 0 else .inf false
  | .fin neg m e =>
    if m = 0 then .fin false 1 0
    else if floorLog2 m e ≥ 8 then (if neg then .fin false 1 (-400) else .fin false 1 400)
    else if floorLog2 m e < -40 then
      (if neg then .fin false (2 ^ 40 - 1) (-40) else .fin false (2 ^ 40 + 1) (-40))
    else
      -- the exponent in units of 2^-70, exact because m · 2^e has at most 24 bits above 2^-70
      let t := signed neg (m * pow2 (e + 70))
      let n := t / 2 ^ 70
      let r := (t % 2 ^ 70).toNat
      if r = 0 then .fin false 1 n
      else exp2At 192 n (r * 2 ^ 122) (exp2At 384 n (r * 2 ^ 314) (.fin false (exp2Frac 384 (r * 2 ^ 314)) (n - 384)))

/-- log₂ (2^n · x / 2^p) in units of 2^(−k), from below, with its sign; the interval is 2 units wide
(in part DEDUCED: log 7). -/
def log2At (P k : Nat) (n : Int) (x p : Nat) (next : Val) : Val :=
  let f := log2Bits P k (x * 2 ^ (P - p)) 0
  let lo := n * 2 ^ k + (f : Int)
  let mk := fun (t : Int) => Val.fin (decide (t < 0)) t.natAbs (-(k : Int))
  decideInterval (mk lo) (mk (lo + 2)) next

/-- R127: log₂ v (in part DEDUCED: log 7). -/
def Val.log2 : Val → Val
  | .nan => .nan
  | .inf neg => if neg then .nan else .inf false
  | .fin neg m e =>
    if m = 0 then .inf true
    else if neg then .nan
    else
      let p := Nat.log2 m
      let n := floorLog2 m e
      if m = 2 ^ p then .fin (decide (n < 0)) n.natAbs 0
      else log2At 256 120 n m p (log2At 512 300 n m p (.fin false 0 0))

/-! ### Conversions between words and values -/

/-- R126: ITOF, rounded under RNE. -/
def itof (x : W32) : W32 := toA32 (.fin (decide (x.toInt < 0)) x.toInt.natAbs 0)

/-- R126: FTOI: the signed word and whether it saturated. NaN gives 0. RMQ is RNE or RTZ. -/
def ftoi (rm : RMode) (x : W32) : W32 × Bool :=
  match ofA32 x with
  | .nan => (0, false)
  | .inf neg => (if neg then 0x80000000 else 0x7FFFFFFF, true)
  | .fin neg m e =>
    let n := if 0 ≤ e then m * pow2 e else roundUnits rm 0 m (-e).toNat
    if neg then (if n > 2 ^ 31 then (0x80000000, true) else (BitVec.ofInt 32 (-(n : Int)), false))
    else if n > 2 ^ 31 - 1 then (0x7FFFFFFF, true) else (BitVec.ofNat 32 n, false)

/-! ### Packing -/

/-- Little-endian bytes of a number. -/
def natLe : Nat → Nat → Bytes
  | 0, _ => []
  | n + 1, v => BitVec.ofNat 8 (v % 256) :: natLe n (v / 256)

/-- The number of little-endian bytes. -/
def leNat : Bytes → Nat
  | [] => 0
  | b :: t => b.toNat + 256 * leNat t

/-- Codes of w bits each, the first in the lowest bits. -/
def packNat (w : Nat) : List Nat → Nat
  | [] => 0
  | c :: t => c % 2 ^ w + 2 ^ w * packNat w t

/-- R67: codes packed into bytes: FP6 four to three bytes, 4-bit formats two to a byte, the others whole bytes. -/
def packCodes (f : Fmt) (l : List Nat) : Bytes :=
  natLe ((l.length * fmtBits f + 7) / 8) (packNat (fmtBits f) l)

/-- R67: the codes of packed bytes, by index. -/
def unpackCode (f : Fmt) (bs : Bytes) (i : Nat) : Nat := leNat bs / 2 ^ (fmtBits f * i) % 2 ^ fmtBits f

end Sys2Proof.Machine
end

