-- ==== Sys2Proof/Machine/State.lean ====
section
/-! DEFINITION. The state of the module as plain data, its fault and refusal reasons, and the state after reset.

Every field's docstring names the rule of spec/ that gives it and its reset value. `reset` is the module with no
input power: sticky fields at their power-on value, every other field at its Reset entry of chapter 17, units
unpowered (log entry 1). Where the spec gives no reset value the docstring names the log entry that chose one. -/

namespace Sys2Proof.Machine

/-- A sparse table by key in one canonical form: keys strictly rising, no entry equal to the table's default. -/
abbrev Sparse (α : Type) := List (Nat × α)

/-! ### Mailbox -/

/-- R522: the job states. -/
inductive JobState where
  | noHello | idle | opened | loaded | site
  deriving DecidableEq, Repr

/-- R508: the states of a command in progress. -/
inductive CmdPhase where
  | queued | running
  deriving DecidableEq, Repr

/-- A taken command (R505 to R521). -/
structure Cmd where
  /-- R506: channel and slot -/
  ref : CmdRef
  /-- R506: the request token -/
  token : W64
  /-- R505: the 128 bytes copied in one read -/
  bytes : Bytes
  /-- R509: QUEUED, or RUNNING / PARTIAL once it runs -/
  phase : CmdPhase
  /-- R528: the word reads RESULT PENDING_FUNCTION -/
  pendingFn : Bool
  /-- R514: records the command has produced, discarded ones included -/
  produced : Nat
  /-- R514: the record that takes the last place of the buffer, kept until the command ends or produces more -/
  held : Option Bytes
  /-- R508: PARTIAL_COUNT -/
  partials : Nat
  /-- R524: PROGRESS -/
  progress : Nat
  /-- R516: a repeat of a command in progress, which waits for its end -/
  isRepeat : Bool
  /-- R521: the slice agreement has passed -/
  agreed : Bool
  /-- R521: the tick at which the descriptor was taken -/
  takenAt : W64 := 0
  deriving DecidableEq, Repr

/-- R539: one channel's ring position and high-water mark. -/
structure Ring where
  /-- R539 MBX_RING_POS TAIL; reset 0 -/
  tail : BitVec 8 := 0
  /-- R539 MBX_RING_POS HEAD; reset 0 -/
  head : BitVec 8 := 0
  /-- R516 MBX_MARK; reset 0 -/
  mark : W64 := 0
  deriving DecidableEq, Repr

/-- R518: a retained outcome. -/
structure Retained where
  ch : Fin 16
  token : W64
  word : W64
  deriving DecidableEq, Repr

/-- The mailbox (R502 to R522, R539). -/
structure Mbx where
  /-- R539 MBX_STATUS READY; reset 0 -/
  ready : Bool := false
  /-- R539 MBX_STATUS JOB_STATE; reset 0 NO_HELLO -/
  job : JobState := .noHello
  /-- R539 MBX_OVERRUN; reset 0 -/
  overrun : W16 := 0
  /-- R539 ring positions and marks of the 16 channels; reset 0 -/
  rings : Vector Ring 16 := Vector.replicate 16 {}
  /-- R499 descriptor rings, 512 KiB at BAR0 0x0010_0000, by offset from there; reset DESIGN CHOICE 0 (log 2) -/
  ringMem : List Host.Cell := []
  /-- R505: slots posted and not yet read, in the order of their doorbells; reset none -/
  posted : List CmdRef := []
  /-- R520: taken commands in reading order; reset none -/
  cmds : List Cmd := []
  /-- R518: retained outcomes, oldest first, at most 65,536; reset none -/
  retained : List Retained := []
  /-- R502: the link is up and a doorbell has been written since; reset false -/
  takes : Bool := false
  deriving DecidableEq, Repr

/-! ### Host attachment -/

/-- The HOST port, the configuration bits and the register bus (R497 to R502, R7, R8). -/
structure Bus where
  /-- R626 PERST_N asserted; reset true (R628: open reads asserted) -/
  perst : Bool := true
  /-- R497, R598: the HOST port is training; reset false -/
  trainArmed : Bool := false
  /-- R497: the HOST link is up; reset false -/
  linkUp : Bool := false
  /-- R497 link width; reset 0 -/
  width : Nat := 0
  /-- R497 link rate in GT/s; reset 0 -/
  rate : Nat := 0
  /-- R501 Bus Master Enable; reset DESIGN CHOICE 0 (log 2) -/
  busMaster : Bool := false
  /-- R7: upper halves captured by a _LO read, by BAR0 offset of the _HI register; reset none -/
  captured : Sparse (Option W32) := []
  /-- R8: lower halves written and not committed, by BAR0 offset of the _LO register; reset none -/
  halves : Sparse (Option W32) := []
  /-- R534: the data the last register read returned; reset 0 -/
  readData : W64 := 0
  /-- R498: the memory-device mailbox's last answer code, 0 success and 0x15 Unsupported; reset 0 -/
  cxlReturn : W16 := 0
  /-- R498, R212: the CXL event log, oldest first, as far-tier line addresses; reset none -/
  cxlEvents : List Nat := []
  /-- R498: events the last Get Event Records returned; reset none -/
  cxlOut : List Nat := []
  /-- R209: the last CXL.mem read's line and its poison bit (R212); reset none -/
  cxlData : Option (Bytes × Bool) := none
  /-- R500: how often the MSI-X vector was raised; reset 0 -/
  msix : Nat := 0
  /-- R316: Ethernet ports that a lane fault has taken down, bit 0 ETH_A; reset 0 -/
  ethDown : BitVec 2 := 0
  /-- R500: ALERT_N as last driven, to see its assertion; reset false -/
  alert : Bool := false
  deriving DecidableEq, Repr

/-- The DEV_ block (R538). -/
structure Dev where
  /-- R538 DEV_STEPPING; reset "Boot" (written at start-up), before it 0 (log 2) -/
  stepping : Byte := 0
  /-- R538 DEV_SERIAL; reset "Boot" -/
  serial : W64 := 0
  /-- R538 DEV_FW_VERSION; reset "Boot" -/
  fwVersion : W32 := 0
  /-- R538 DEV_PLAN_RANGE; reset "Boot" -/
  planRange : W32 := 0
  /-- R538 DEV_BOOT_ID; reset "Boot" -/
  bootId : W64 := 0
  /-- R538 DEV_CAPS HALLS_ON; reset "Boot" -/
  hallsOn : BitVec 4 := 0
  /-- R538 DEV_SCRATCH; reset 0 -/
  scratch : W32 := 0
  deriving DecidableEq, Repr

/-! ### Awning -/

/-- R347: the time states, coded as AWN_TIME_STATE STATE. -/
inductive TimeState where
  | free | acquiring | synced | holdover
  deriving DecidableEq, Repr

/-- A comparator (R352 to R354, R541). -/
structure Cmp where
  /-- R541 TARGET; reset 0 (sticky) -/
  target : W64 := 0
  /-- R541 PERIOD; reset 0 (sticky) -/
  period : W32 := 0
  /-- R541 LATE; reset 0 (sticky) -/
  late : Bool := false
  /-- R541 FIRED; reset 0 (sticky) -/
  fired : Bool := false
  /-- R541 ALERT_EN; reset 0 (sticky) -/
  alertEn : Bool := false
  /-- R541 ENABLE; reset 0 (sticky) -/
  enable : Bool := false
  /-- R541 MISSED; reset 0 (sticky) -/
  missed : W32 := 0
  /-- R352: a one-shot that has fired and is not rearmed; reset false -/
  quiet : Bool := false
  /-- R353: enabled, or written, at or below the current time, so that the firing sets LATE; reset false -/
  lateDue : Bool := false
  /-- R353: the tick of that enabling or write; reset 0 -/
  armedAt : W64 := 0
  /-- R5: the ticks at which FIRED and LATE were last set; reset none -/
  firedAt : Option W64 := none
  lateAt : Option W64 := none
  deriving DecidableEq, Repr

/-- R345: a neighbour's advertisement, with the tick at which it was received. -/
structure Advert where
  rootId : W64
  hops : Nat
  heard : W64
  deriving DecidableEq, Repr

/-- The Awning (R343 to R354, R541). -/
structure Awn where
  /-- R582: the Awning domain is powered; reset false -/
  on : Bool := false
  /-- R541 AWN_TIME; reset 0 (sticky) -/
  tick : W64 := 0
  /-- R343: the 32-bit internal fraction; reset DESIGN CHOICE 0 (log 2) -/
  frac : W32 := 0
  /-- R541 STATE; reset 0 FREE (sticky) -/
  tstate : TimeState := .free
  /-- R541 RACKCLK_OK; reset 0 (sticky) -/
  rackOk : Bool := false
  /-- R541 IS_ROOT; reset 0 (sticky) -/
  isRoot : Bool := false
  /-- R541 PARENT_PORT; reset 7, none (sticky) -/
  parent : Option Port := none
  /-- R541 HOPS; reset 0 (sticky) -/
  hops : Byte := 0
  /-- R541 AWN_ROOT_PRIORITY; reset 0xFF (sticky) -/
  rootPriority : Byte := 0xFF
  /-- R541 AWN_ROOT_ID; reset 0 (sticky) -/
  rootId : W64 := 0
  /-- R541 AWN_THETA; reset 0 (sticky) -/
  theta : W32 := 0
  /-- R346: the slew applied over the current 100 us, in 1/256 ns; reset 0 (log 2) -/
  slew : Int := 0
  /-- R541 AWN_RTC; reset 0 (sticky) -/
  rtc : W32 := 0
  /-- the model's: ticks since the last change of AWN_RTC (log 4); reset 0 -/
  rtcTicks : Nat := 0
  /-- R541 AWN_SYNC_REFUSED; reset 0 (sticky) -/
  syncRefused : Bool := false
  /-- R5: the tick at which AWN_SYNC_REFUSED was last set; reset none -/
  refusedAt : Option W64 := none
  /-- R541 AWN_SYNC_ARM; reset 0 (sticky) -/
  syncArm : Bool := false
  /-- R351: AWN_SYNC_ARM was set in this tick; reset none -/
  armTick : Option W64 := none
  /-- R541 AWN_SYNC_CAPTURE; reset 0 (sticky) -/
  syncCapture : W64 := 0
  /-- R541 AWN_SYNC_VALUE, the committed pair; reset 0 (sticky) -/
  syncValue : W64 := 0
  /-- R544: the pair before a commit in the tick named; reset none -/
  syncPrev : Option (W64 × W64) := none
  /-- R635: the tick of the last FT_SYNC edge accepted; reset none -/
  lastEdge : Option W64 := none
  /-- R541 the 16 comparators; reset 0 (sticky) -/
  cmps : Vector Cmp 16 := Vector.replicate 16 {}
  /-- R345: advertisements by port index; reset none -/
  adverts : Sparse Advert := []
  /-- R347: consecutive exchanges with an offset below 10 ns; reset 0 -/
  goodExch : Nat := 0
  /-- R347: the single step of ACQUIRING has been taken; reset false -/
  stepped : Bool := false
  deriving DecidableEq, Repr

/-! ### Safety and Logbook -/

/-- R480: the states of a fenceable unit. -/
inductive FenceState where
  | inService | fenced | restorable | retired
  deriving DecidableEq, Repr

/-- R482, R483: a fence table entry: its state, the tick of the fencing and the passes in a row. -/
structure Fence where
  state : FenceState := .inService
  fencedAt : W64 := 0
  times : Nat := 0
  passes : Nat := 0
  /-- R482: the tick of the last retest since the fencing -/
  retested : Option W64 := none
  deriving DecidableEq, Repr

/-- The SAF_ block and the detection history (R473 to R482, R546). -/
structure Saf where
  /-- R546 PIPES_FENCED; reset 0 (sticky) -/
  pipesFenced : W16 := 0
  /-- R546 CLERK_FENCED; reset 0 (sticky) -/
  clerkFenced : BitVec 2 := 0
  /-- R546 HALLS_LOST; reset 0 (sticky) -/
  hallsLost : BitVec 4 := 0
  /-- R546 CORRECTED; reset 0 (sticky) -/
  corrected : Bool := false
  /-- R546 DETECTED; reset 0 (sticky) -/
  detected : Bool := false
  /-- R546 FATAL; reset 0 (sticky) -/
  fatal : Bool := false
  /-- R546 TIME_FAULT; reset 0 (sticky) -/
  timeFault : Bool := false
  /-- R546 TIME_FAULT_EN; reset 0 (sticky) -/
  timeFaultEn : Bool := false
  /-- R546 FATAL_EN; reset 1 (sticky) -/
  fatalEn : Bool := true
  /-- R546 SAF_CORRECTIONS; reset 0 (sticky) -/
  corrections : W48 := 0
  /-- R546 SAF_DETECTIONS; reset 0 (sticky) -/
  detections : W48 := 0
  /-- R546 SAF_REPLAYS; reset 0 (sticky) -/
  replays : W32 := 0
  /-- R546 SAF_LAST_SEQ; reset 0 (sticky) -/
  lastSeq : W64 := 0
  /-- R546 SAF_STALL_MAP with the fence table of R483, by stall s; reset all IN_SERVICE -/
  stalls : Sparse Fence := []
  /-- R546 SAF_CELLAR_MAP with the fence table of R483, by Cellar s; reset all IN_SERVICE -/
  cellars : Sparse Fence := []
  /-- R480: seal failures and link errors seen in the step epoch named, by unit; reset none -/
  softSeen : List (W48 × UnitId) := []
  /-- R480: the tick of the last detection in duplicated Exchange logic; reset none -/
  dupLogicAt : Option W64 := none
  /-- R385: the pipe and tick of each residue failure of the last 500 ms; reset none -/
  pipeFails : List (Nat × W64) := []
  /-- R477: the epoch under detection and the SEQ of its detections; reset none -/
  epochDetections : List (W48 × W64) := []
  /-- R470, R595: the tick of the start-up self-test, the last passed test of a stall tested since then at no other
  time; reset 0 -/
  startTest : W64 := 0
  /-- R436: the module has reported itself failed, with its reason; reset none -/
  selfFailed : Option Nat := none
  deriving DecidableEq, Repr

/-- R488: a Logbook record before its CRC is formed. -/
structure LogRec where
  seq : W64
  tick : W64
  rtc : W32
  code : W16
  sev : BitVec 3
  synced : Bool
  cont : Bool
  attempt : Byte
  epoch : W48
  unit : UnitId
  detail : Bytes
  deriving DecidableEq, Repr

/-- R487 to R495: the Logbook. -/
structure Log where
  /-- R487: event storage, by segment 0 to 15, each a list of records in order; reset none -/
  segs : Sparse (List LogRec) := []
  /-- R487: the segment being written; reset 0 (log 2) -/
  seg : Nat := 0
  /-- R494: the segment the ring wrote immediately before; reset none -/
  prevSeg : Option Nat := none
  /-- R487: the freeze table: segments frozen; reset none -/
  frozen : List Nat := []
  /-- R494: segments due to freeze; reset none -/
  due : List Nat := []
  /-- R491: the next SEQ; reset 0 (log 2) -/
  nextSeq : W64 := 0
  /-- R491: the sequence reserve; reset 0 (log 2) -/
  reserve : W64 := 0
  /-- R492: the staging queue, oldest first, at most 4,096; reset none -/
  queue : List LogRec := []
  /-- R492: groups of records of producers that wait for room; reset none -/
  waiting : List (List LogRec) := []
  /-- R492: records dropped since the last LOST_EVENTS record; reset 0 -/
  lost : Nat := 0
  /-- R608: records dropped in the current telemetry window; reset 0 -/
  lostWindow : Nat := 0
  deriving DecidableEq, Repr

/-! ### Tally, power, debug -/

/-- R608: a telemetry window record. -/
structure WindowRec where
  opened : W64
  halls : List (Nat × List Nat)
  energyMj : Nat
  peakW : Nat
  hallC : Int
  cellarC : Int
  leastAclk : Nat
  lost : Nat
  deriving DecidableEq, Repr

/-- The TAL_ block, the Tally counters and telemetry (R549, R550, R603 to R612). -/
structure Tal where
  /-- R549 SNAP_BUSY; reset 0 -/
  snapBusy : Bool := false
  /-- R549 TAL_SELECT STALL; reset 0 -/
  select : BitVec 10 := 0
  /-- R549 TAL_SNAP_TICK; reset 0 -/
  snapTick : W64 := 0
  /-- R549 TAL_WINDOW; reset 0x0EE6_B280 -/
  window : W64 := 0x0EE6B280
  /-- R603: the 14 counters by 14 * s + cause; reset 0 -/
  counts : Sparse W48 := []
  /-- R603: stalls whose SATURATED flag is set; reset none -/
  saturated : List Nat := []
  /-- R550: the snapshot store shown, by 14 * s + cause; reset 0 -/
  snapshot : Sparse W48 := []
  /-- R550: the snapshot being taken; reset none -/
  taking : Option (W64 × Sparse W48) := none
  /-- R607: the open tick of the current window; reset 0 (log 2) -/
  opened : W64 := 0
  /-- R607: the close tick of the current window; reset 250,000,000, the first multiple of the length -/
  closes : W64 := 250000000
  /-- R608: Tally units of the window by 14 * h + cause; reset none -/
  winCounts : Sparse Nat := []
  /-- R608: input energy of the window in mW ticks; reset 0 -/
  winEnergy : Nat := 0
  /-- R608: peak 100 us input power of the window in W; reset 0 -/
  winPeak : Nat := 0
  /-- R608: least effective ACLK of the window in MHz; reset 3,000 (log 2) -/
  winAclk : Nat := 3000
  /-- R608: the ring of the last 64 closed windows; reset none -/
  ring : List WindowRec := []
  deriving DecidableEq, Repr

/-- R584: the power states, with the states around them. -/
inductive PowerState where
  | off | standby | latched | sleep | starting | p0 | p1 | idle | shutdown
  deriving DecidableEq, Repr

/-- R587: the limit that holds a Hall's ACLK setting. -/
structure HallPower where
  /-- R551 PWR_HALL_POWER; reset 0 -/
  watts : BitVec 10 := 0
  /-- R551 PWR_HALL_TEMP HALL_C; reset 0 -/
  hallC : Int := 0
  /-- R551 PWR_HALL_TEMP CELLAR_C; reset 0 -/
  cellarC : Int := 0
  /-- R588: the power target in MHz; reset DESIGN CHOICE 3,000, the top of the ladder (log 2) -/
  powerMhz : Nat := 3000
  /-- R588: the Hall target in MHz; reset DESIGN CHOICE 3,000 (log 2) -/
  hallMhz : Nat := 3000
  /-- R588: the thermal target in MHz; reset DESIGN CHOICE 3,000 (log 2) -/
  thermalMhz : Nat := 3000
  /-- R588: intervals in a row below 98 % of 900 W; reset 0 -/
  hallQuiet : Nat := 0
  /-- R590: every ACLK cycle is gated by the limit; reset false -/
  limitGated : Bool := false
  deriving DecidableEq, Repr

/-- The PWR_ block, pins and start-up (R551, R582 to R598). -/
structure Pwr where
  /-- R584 the power state; reset off: no input power -/
  state : PowerState := .off
  /-- R595 the start-up phase; reset off -/
  phase : StartPhase := .off
  /-- R595: of the parallel phases, far tier, self-test and links ended; reset false -/
  parDone : Bool × Bool × Bool := (false, false, false)
  /-- R597: a far-tier training attempt has failed; reset false -/
  farRetried : Bool := false
  /-- R551 REQUESTED; reset 0, P0 -/
  requestP1 : Bool := false
  /-- R551 CAP_W; reset 0xFA0 -/
  cap : BitVec 13 := 0xFA0
  /-- R551 PWR_INPUT_MV; reset 0 -/
  mv : BitVec 17 := 0
  /-- R551 PWR_INPUT_MA; reset 0 -/
  ma : BitVec 17 := 0
  /-- R551 PWR_INPUT_W; reset 0 -/
  watts : BitVec 13 := 0
  /-- R6: the readings that no field holds, CURRENT, MHZ, THERMAL and POWER, stand at their reset values until the next interval
  writes them; reset false -/
  cleared : Bool := false
  /-- R551 the four Halls -/
  halls : Vector HallPower 4 := Vector.replicate 4 {}
  /-- R588: intervals in a row below 98 % of the cap; reset 0 -/
  quiet : Nat := 0
  /-- R583: half of all ACLK cycles are gated; reset false -/
  currentGated : Bool := false
  /-- R551 THERM; reset 0 (sticky) -/
  therm : Bool := false
  /-- R551 CAP_HIT; reset 0 (sticky) -/
  capHit : Bool := false
  /-- R551 OVERVOLT; reset 0 (sticky) -/
  overvolt : Bool := false
  /-- R551 UNDERVOLT; reset 0 (sticky) -/
  undervolt : Bool := false
  /-- R582: the input lies in its operating range; reset false -/
  inRange : Bool := false
  /-- R582: the side on which the input left its range, true above; reset none -/
  leftHigh : Option Bool := none
  /-- R628 PWR_EN asserted; reset false (open reads deasserted) -/
  pwrEn : Bool := false
  /-- R626 PG asserted; reset false -/
  pg : Bool := false
  /-- R590 THERM_N asserted; reset false -/
  thermN : Bool := false
  /-- R592: PWR_EN asserted again during a shutdown; reset false -/
  restart : Bool := false
  /-- R591: the shutdown came from the input leaving its range; reset false -/
  rangeLoss : Bool := false
  /-- R589: the level each sensor holds, 1 throttle, 2 limit, 3 loss of control, by sensor key; reset 0 -/
  levels : Sparse Nat := []
  /-- R589: the last reading of each sensor, by sensor key; reset 0 -/
  readings : Sparse Int := []
  /-- R477: a FATAL start-up failure asserts ALERT_N (R597); reset false -/
  startFault : Bool := false
  /-- R595: the tick at which the phase began; reset 0 -/
  phaseSince : W64 := 0
  /-- R582: the tick at which the input left its range; reset 0 -/
  outSince : W64 := 0
  /-- R584: the tick at which Sleep was entered; reset 0 -/
  sleepSince : W64 := 0
  /-- R590: the tick at which limit gating began, while it lasts; reset none -/
  gatedSince : Option W64 := none
  /-- R585: ticks in a row without work, up to 1 ms; reset 0 -/
  restTicks : Nat := 0
  deriving DecidableEq, Repr

/-- R615: the JTAG instructions. -/
inductive Jtag where
  | extest | samplePreload | idcode | ijtag | bypass
  deriving DecidableEq, Repr

/-- The DBG_ block, JTAG and the instrument network (R553, R613 to R618). -/
structure Dbg where
  /-- R553 LOCKED; reset 1 (R575) -/
  locked : Bool := true
  /-- R553 PROBE_EN; reset 0 -/
  probeEn : Bool := false
  /-- R553 TAP_ACTIVE; reset 0 -/
  tapActive : Bool := false
  /-- R553 DBG_PROBE_SELECT: SIGNAL and INVERT; reset 0 -/
  probes : Vector (W16 × Bool) 32 := Vector.replicate 32 (0, false)
  /-- R554, R613: the levels of the PRB pins; reset 0 -/
  pins : W32 := 0
  /-- R615: the instruction register; reset IDCODE -/
  ir : Jtag := .idcode
  /-- R616: the boundary register; reset 0 (log 2) -/
  boundary : BitVec 64 := 0
  /-- R616: EXTEST has been selected, until the next start-up; reset false -/
  extest : Bool := false
  /-- R617: open segments 0 to 4; reset closed -/
  segments : BitVec 5 := 0
  /-- R618: the Tally reader's own select; reset 0 (log 2) -/
  tallySelect : BitVec 10 := 0
  /-- R496: the data the Logbook instrument last returned; reset none -/
  instrument : Bytes := []
  deriving DecidableEq, Repr

/-! ### Security -/

/-- R565: an entry of the attestation log. -/
structure AttEntry where
  reg : Nat
  event : Nat
  epoch : W48
  tick : W64
  digest : Bytes
  deriving DecidableEq, Repr

/-- What waits for a signature (R566): an ATTEST, or a set-up frame of a session. -/
inductive SignReq where
  | attest (k : CmdRef)
  | sessionInit (site shard : Nat)
  | sessionAccept (site shard : Nat)
  deriving DecidableEq, Repr

/-- Fuses, flash, measurements, identity (R556 to R581). -/
structure Sec where
  /-- R556 KEY_REVOKED; reset 0 (log 2) -/
  revoked : BitVec 4 := 0
  /-- R557 the fuse SVN value; reset 0 (log 2) -/
  svn : Nat := 0
  /-- R558 the preferred-bank record: bank B; reset false, bank A (log 2) -/
  preferB : Bool := false
  /-- R562 the bank booted is B; reset false -/
  bootedB : Bool := false
  /-- R562 FALLBACK; reset false -/
  fallback : Bool := false
  /-- R562, R563: the bank that failed first in this start-up, with the image and the check of R560; reset none -/
  failedBank : Option (Bool × Nat × Nat) := none
  /-- R558 the NOR's two banks by address, 0 to 0x0EFF_FFFF; the security area's records are the fields below; reset
  DESIGN CHOICE: nothing listed, which reads 0 (log 2) -/
  nor : List Host.Cell := []
  /-- R558 the identity certificate; reset none -/
  identityCert : Bytes := []
  /-- R558, R573 the membership certificates, at most four; reset none -/
  memberships : List Bytes := []
  /-- R565 measurement registers 0 to 7; reset zero -/
  meas : Vector Bytes 8 := Vector.replicate 8 (List.replicate 32 0)
  /-- R565 the attestation log, at most 4,096 entries; reset none -/
  attLog : List AttEntry := []
  /-- R565 LOG_OVERFLOW; reset false -/
  logOverflow : Bool := false
  /-- R567 copy A of the leaf reserve: reserve, generation, valid; reset 0 (log 2) -/
  leafA : Nat × Nat × Bool := (0, 0, true)
  /-- R567 copy B; reset 0 (log 2) -/
  leafB : Nat × Nat × Bool := (0, 0, true)
  /-- R567 the next leaf; reset 0 (log 2) -/
  nextLeaf : Nat := 0
  /-- R561 the node cache agrees with IDK_HASH; reset false -/
  cacheOk : Bool := false
  /-- R566 the messages that wait for a signature; reset none -/
  signQueue : List SignReq := []
  /-- R572 the window of ATTESTs and how many were signed in it; reset 0 -/
  attWindow : Nat := 0
  attSigned : Nat := 0
  /-- R574 a FIRMWARE install runs; reset none -/
  installing : Option CmdRef := none
  /-- R571 FLAGS DEBUG_UNLOCKED; reset false -/
  unlocked : Bool := false
  /-- R519 start-ups begun, which number the BOOT_IDs; reset 0 (log 5) -/
  boots : Nat := 0
  /-- R577 ML-KEM key pairs and encapsulations made, which number the randomness of Config; reset 0 (log 5) -/
  kemUsed : Nat := 0
  deriving DecidableEq, Repr

/-! ### Functions and ports -/

/-- R599: the states of a function. -/
inductive FnState where
  | off | starting | on | stopping
  deriving DecidableEq, Repr

/-- R599 to R601: one function: its state, the commands that started or joined the transition, and the pending
opposite request. -/
structure Fn where
  /-- R599; reset OFF (before start-up) -/
  state : FnState := .off
  /-- R600; reset none -/
  joined : List CmdRef := []
  /-- R600; reset none -/
  pending : Option CmdRef := none
  /-- R590: turned off by a loss of control, OFF until the next start-up; reset false -/
  lostOff : Bool := false
  deriving DecidableEq, Repr

/-- R320: the states of a torus port. -/
inductive PortState where
  | off | training | unverified | up | retrain | down | miswired
  deriving DecidableEq, Repr

/-- R319: the phases of training. -/
inductive TrainPhase where
  | detect | probe | equalise | lock | flitSync
  deriving DecidableEq, Repr

/-- R355: the counters of a torus port. -/
structure LinkCounts where
  crcFails : W48 := 0
  naksSent : W48 := 0
  replayed : W48 := 0
  dupFlits : W48 := 0
  replayTimeouts : W48 := 0
  lanesDropped : W48 := 0
  retrains : W48 := 0
  discarded : W48 := 0
  deriving DecidableEq, Repr

/-- R330, R331: a data flit held until it is acknowledged: the tick at which it was last sent and how often. -/
structure HeldFlit where
  flit : Flit
  sentAt : W64
  sends : Nat
  deriving DecidableEq, Repr

/-- A torus port (R314 to R342, R355) (in part DESIGN CHOICE: log 100). -/
structure TPort where
  /-- R320; reset OFF -/
  state : PortState := .off
  /-- R319; reset Detect -/
  phase : TrainPhase := .detect
  /-- R317 the class the request gave, 0 when measured; reset 0 -/
  reachReq : Nat := 0
  /-- R317 the class in use; reset 0 -/
  reach : Nat := 0
  /-- R332 lanes this end has dropped; reset none -/
  dropped : W16 := 0
  /-- R333 lanes the far end has dropped; reset none -/
  farDropped : W16 := 0
  /-- R333 width in lanes; reset 0 -/
  width : Nat := 0
  /-- R333 the lanes that carry flits; reset none -/
  lanes : W16 := 0
  /-- R319 the tick at which detection last began; reset 0 -/
  detectAt : W64 := 0
  /-- R346 asymmetry measured in the lock phase, 1/256 ns; reset 0 -/
  alpha : Int := 0
  /-- R335 the RETRAIN has been retried; reset false -/
  retried : Bool := false
  /-- R328 the expected sequence number e; reset 0 (log 2) -/
  expected : W16 := 0
  /-- R328 the e and tick of the last NAK; reset none -/
  nak : Option (W16 × W64) := none
  /-- R329 accepted flits since the last acknowledgement; reset 0 -/
  unacked : Nat := 0
  /-- R328 the next sequence number to send; reset 0 (log 2) -/
  txNext : W16 := 0
  /-- R328, R330 the replay buffer, oldest first, at most 8,192; reset none -/
  replay : List HeldFlit := []
  /-- R340 accepted flits held in the input buffers, by VC order, oldest first; reset none -/
  rx : List Flit := []
  /-- R327 slots freed since UP, by VC; reset 0 -/
  freed : Vector W16 4 := Vector.replicate 4 0
  /-- R327 the far end's FREED counts last seen, by VC; reset 0 -/
  farFreed : Vector W16 4 := Vector.replicate 4 0
  /-- R340 credits for the far end's buffers, by VC: 2,048 BULK and 64 PRIO; reset full -/
  credits : Vector Nat 4 := #v[2048, 2048, 64, 64]
  /-- R340, R341 packets that wait for this output, with their inputs, in order of arrival; reset none -/
  waiting : List (Option Port × Packet) := []
  /-- R341 the inputs last served in BULK and in PRIO, 0 for the module itself and 1 to 6 for the ports; reset 0 (log 100) -/
  lastBulk : Nat := 0
  lastPrio : Nat := 0
  /-- R321 the far end's last IDENT; reset none -/
  farIdent : Option Ident := none
  /-- R346 the last TIME flit received: its TX stamp and the receive stamp; reset none -/
  lastTime : Option (Nat × Nat) := none
  /-- R355; reset 0 -/
  counts : LinkCounts := {}
  /-- R355 FEC_CORRECTED by lane; reset 0 -/
  fecCorrected : Vector W48 16 := Vector.replicate 16 0
  /-- R355 FEC_UNCORRECTED by lane; reset 0 -/
  fecUncorrected : Vector W48 16 := Vector.replicate 16 0
  deriving DecidableEq, Repr

/-! ### Slice and job -/

/-- R321, R286 to R290: coordinates and slice membership. -/
structure Slice where
  /-- R321 coordinates x, y, z; reset none -/
  coords : Option (Nat × Nat × Nat) := none
  /-- R321 torus lengths; reset (0, 0, 0) -/
  lens : Nat × Nat × Nat := (0, 0, 0)
  /-- R426 board identifier; reset 0 -/
  board : W64 := 0
  /-- R285 slice id; reset none: no slice joined -/
  sliceId : Option W32 := none
  /-- R286 block origin; reset (0, 0, 0) -/
  origin : Nat × Nat × Nat := (0, 0, 0)
  /-- R286, R290 block extent; reset (1, 1, 1) -/
  extent : Nat × Nat × Nat := (1, 1, 1)
  /-- R440 member indices whose role another member carries: (failed, partner); reset none -/
  remap : List (Nat × Nat) := []
  deriving DecidableEq, Repr

/-- R526: the shared store a job names. -/
structure Store where
  addr : Bytes
  port : W16
  nsid : W32
  nqn : Bytes
  deriving DecidableEq, Repr

/-- R475: what a replay returns to: the values of the last commit that a step changes before its own commit. -/
structure CommitPoint where
  draws : Sparse W64 := []
  collSeq : W48 := 0
  dir : List DirEntry := []
  carries : List (Nat × W48 × List W32) := []
  deriving DecidableEq, Repr

/-- R131: a verb's run over one tensor: which use of the verb it is, the counter of each draw slot's stream when the tensor's
first span started, and the stalls that have started it. -/
structure VerbRun where
  use : Nat
  bases : List W64
  stalls : List Nat
  deriving DecidableEq, Repr

/-- The open job (R526, R150 to R171, R358). -/
structure Job where
  /-- R526 JOB_SEED; reset 0 -/
  seed : W128 := 0
  /-- R381 SLOT_WAIT in ticks; reset 2,000,000 -/
  slotWait : W64 := 2000000
  /-- R450 MODULE_MTBF in seconds; reset 36,000,000 -/
  mtbf : W64 := 36000000
  /-- R458 STORE_INTERVAL in seconds; reset 3,600 -/
  storeInterval : W32 := 3600
  /-- R526 the shared store; reset none -/
  store : Option Store := none
  /-- R168 shuffle keys by input stream; reset none -/
  shuffles : List W128 := []
  /-- R168 samples consumed by input stream; reset none -/
  cursors : List W64 := []
  /-- R151 draw-stream counters by stream id; reset 0 -/
  draws : Sparse W64 := []
  /-- R170 evaluation stream counters: the draw base of the running EVAL_RUN; reset none -/
  evalDraws : Sparse W64 := []
  /-- R358 the training collective counter; reset 0 -/
  collSeq : W48 := 0
  /-- R358 the evaluation collective counter; reset 0 -/
  evalSeq : W48 := 0
  /-- 00_scope: the committed step epoch E; reset 0 (log 2) -/
  epoch : W48 := 0
  /-- R184 the buffer select; reset false (log 2) -/
  bufSel : Bool := false
  /-- R124 parameters P_k written in the current step or run, by verb * 8 + k; reset none -/
  params : Sparse (Option W32) := []
  /-- R131 the run of each verb over a tensor in progress on the module's stalls, by verb; reset none -/
  verbRuns : Sparse (Option VerbRun) := []
  /-- R138 summaries of the current step: (verb, slot) and value; reset none -/
  summaries : List ((Nat × Nat) × W64) := []
  /-- R138 partials that wait: (verb, slot, role, value); reset none -/
  partials : List (Nat × Nat × Nat × W64) := []
  /-- R138 collective results of the current step: element 0 by entry; reset none -/
  collResults : List (Nat × W32) := []
  /-- R155 NORMSQ and NFFLAG of the current step; reset none -/
  norm : Option (W32 × W32) := none
  /-- R138 decisions run in the current step, with the list chosen; reset none -/
  decided : List (Nat × Bool) := []
  /-- R475 the values of the last commit that a replay restores; reset empty -/
  point : CommitPoint := {}
  deriving DecidableEq, Repr

/-- R302: the phases of a PROGRAM_LOAD in progress. -/
inductive LoadPhase where
  | agreement | placement | distribution | localPlacement | result
  deriving DecidableEq, Repr

/-- A PROGRAM_LOAD in progress. -/
structure Loading where
  cmd : CmdRef
  prog : Program
  digest : Bytes
  planVersion : W16
  limits : List Nat
  since : W64
  phase : LoadPhase
  reports : List (Nat × Bytes × W32 × W64)
  plan : Option Plan
  phys : Option PhysMap
  result : Option W16
  restarted : Bool
  deriving DecidableEq, Repr

/-- The loaded program and its placement (R283 to R313). -/
structure Load where
  /-- R305 the loaded program; reset none -/
  prog : Option Program := none
  /-- R283 its DIGEST; reset empty -/
  digest : Bytes := []
  /-- R296 the numeric plan; reset none -/
  plan : Option Plan := none
  /-- R302 the physical map; reset none -/
  phys : Option PhysMap := none
  /-- R302 the load in progress; reset none -/
  loading : Option Loading := none
  deriving DecidableEq, Repr

/-! ### Stalls -/

/-- R27: the states of an accumulator buffer. -/
inductive BufState where
  | free | preload | accumulate | drain
  deriving DecidableEq, Repr

/-- An accumulator buffer (R26 to R32, R97 to R100). -/
structure Buf where
  /-- R27; reset FREE -/
  state : BufState := .free
  /-- R28 preload-only; reset false -/
  only : Bool := false
  /-- R29 the preload's source; reset Cellar -/
  src : PreloadSrc := .cellar
  /-- R30 the preload's format; reset A32 -/
  fmt : Fmt := .a32
  /-- R100 the buffer was preloaded; reset false -/
  preloaded : Bool := false
  /-- R27 the elements, row by row of 32 columns; an element beyond the list is +0.0; reset +0.0 -/
  vals : List W32 := []
  /-- R97, R98 the cascade: entries by ascending level, each with its partial tile; reset none -/
  cascade : List (Nat × List W32) := []
  /-- R96 blocks entered; reset 0 -/
  blocks : Nat := 0
  /-- R31 the tile's last product has been added; reset false -/
  complete : Bool := false
  /-- R48 the place (j, s) in a split-K chain; reset none -/
  chain : Option (Nat × Nat) := none
  /-- R55 the segment that the last block belonged to; reset none -/
  seg : Option SegKey := none
  /-- R96 K positions of that segment entered; reset 0 -/
  segN : Nat := 0
  /-- R468 the checker cascade: the checker values of the blocks entered, by ascending level; reset none -/
  checks : List (Nat × List W32) := []
  /-- R31 elements (32 * row + column) already read in DRAIN; reset none -/
  readSet : List Nat := []
  /-- R277 the tile of an expert's weight gradient that the buffer sums: the expert and the tile; reset none -/
  tile : Option (ExpertRef × Nat) := none
  /-- R277 its cascade nodes at a serving module that is not the home, the newest first: level, index, values; reset none -/
  nodes : List (Nat × Nat × List W32) := []
  deriving DecidableEq, Repr

/-- R38, R41: a stream at its producer: the consumers and the credits held for each. -/
structure OutStream where
  credits : List (Nat × Nat) := []
  /-- R37 flits of the stream's current tensor sent -/
  sent : Nat := 0
  /-- R38 the queue size Q, which bounds each consumer's credits -/
  q : Nat := 0
  /-- R38, R39 flits formed that wait for credits, oldest first -/
  backlog : List StreamFlit := []
  /-- R42 the running seal: the packed content and the block scales sent of the current tensor -/
  content : Bytes := []
  scales : Bytes := []
  deriving DecidableEq, Repr

/-- R38, R42: a stream at a consumer: its queue size Q and the flits queued. -/
structure InStream where
  q : Nat := 0
  producer : Nat := 0
  queue : List StreamFlit := []
  /-- R123: bits already consumed of the bytes taken, or of the first flit -/
  pos : Nat := 0
  /-- R38, R39 bytes taken out of their queue slots and not yet consumed -/
  taken : Bytes := []
  /-- R120 the block scales received and not yet consumed, in order (log 19) -/
  scales : Bytes := []
  /-- R37 flits of the current tensor received -/
  got : Nat := 0
  /-- R42 the packed content and block scales received of the current tensor, over which the consumer forms its seal -/
  content : Bytes := []
  seen : Bytes := []
  deriving DecidableEq, Repr

/-- R36: one output of a router: the flits that wait for it on each virtual channel, and whether VC1 is next. -/
structure LinkQ where
  vc0 : List AisleFlit := []
  vc1 : List AisleFlit := []
  vc2 : List AisleFlit := []
  turn : Bool := false
  deriving DecidableEq, Repr

/-- A span in progress (R116 to R124). -/
structure Span where
  init : SpanInit
  header : VerbHeader
  /-- R117: the registers of each element, in row-major order of the span; 0 when the span starts -/
  regs : List (Vector W32 32)
  /-- R124: P0 to P7 as latched; none while unwritten -/
  params : List (Option W32)
  /-- R120, R132: the inputs already decoded in this span -/
  decoded : List Nat
  /-- R131: each draw slot's stream counter when the tensor's first span started, on whichever stall -/
  drawBase : List W64
  /-- R115: instructions executed -/
  pc : Nat
  /-- R149: the elements whose BF16 value has saturated in this span -/
  saturated : List Nat := []
  deriving DecidableEq, Repr

/-- R132: a verb's sticky counters on a stall. -/
structure Sticky where
  invalid : W32 := 0
  overflow : W32 := 0
  nonfinite : W32 := 0
  deriving DecidableEq, Repr

/-- R137: the summary store of one slot: its cascade and count. -/
structure SlotAcc where
  cascade : List (Nat × W32) := []
  count : Nat := 0
  extreme : Option W32 := none
  nfc : W64 := 0
  /-- R137: the summary store: values of the current 64-row block, by linear index -/
  store : Sparse (Option W32) := []
  deriving DecidableEq, Repr

/-- A stall (chapters 02 and 05). -/
structure Stall where
  /-- R27 the four accumulator buffers; reset FREE -/
  bufs : Vector Buf 4 := Vector.replicate 4 {}
  /-- R33 the stall store's bytes by offset; reset DESIGN CHOICE 0 (log 2) -/
  store : List Host.Cell := []
  /-- R38 streams it produces, by id; reset none -/
  outs : Sparse OutStream := []
  /-- R38 streams it consumes, by id; reset none -/
  ins : Sparse InStream := []
  /-- R45 the clause context it runs; reset 0 -/
  ctx : Nat := 0
  /-- R45 the contexts it holds; reset none -/
  contexts : List Nat := []
  /-- R116 the span in progress; reset none -/
  span : Option Span := none
  /-- R121 accumulator elements still to be read by the verb are held in DRAIN; the wait that holds the stall, a
  code of R605; reset none -/
  wait : Option (Fin 14) := none
  /-- R604 the stall issues work; reset false -/
  busy : Bool := false
  /-- R132 the counters of each verb; reset 0 -/
  sticky : Sparse Sticky := []
  /-- R137 the summary slots, by verb * 4 + slot; reset none -/
  slots : Sparse SlotAcc := []
  /-- R49 running sums that wait in the receive queue for their partial tile, by buffer, oldest first; reset none -/
  sums : Sparse (List (List W32)) := []
  /-- R36 the outputs of the stall's router, by direction; reset empty -/
  router : Sparse LinkQ := []
  /-- R35 flits that have arrived at the stall's local port and are not yet taken, oldest first; reset none -/
  arrived : List AisleFlit := []
  /-- R47, R471 the tick before which the rolling self-test uses the stall; reset 0 -/
  testUntil : W64 := 0
  /-- R470 the tick of the last self-test passed; reset 0 -/
  testedAt : W64 := 0
  /-- R472 the step epoch of that test; reset 0 -/
  testedEpoch : W48 := 0
  deriving DecidableEq, Repr

/-! ### Memories -/

/-- R178, R179: a Cellar's refresh and thermal row. -/
structure Cellar where
  /-- R178 the row of the table, 0 to 3; reset 0 -/
  row : Nat := 0
  /-- R179 the refresh in force is doubled; reset false -/
  doubled : Bool := false
  /-- R176 the last transfer served while requests waited was the owner's; reset false -/
  ownerLast : Bool := false
  /-- R176 the owner's request waits for a remote one; reset false -/
  ownerWaits : Bool := false
  deriving DecidableEq, Repr

/-- R194, R195: the correction history of a page or far-tier unit. -/
structure PageHist where
  corrections : List W64 := []
  retired : Bool := false
  atNext : Bool := false
  deriving DecidableEq, Repr

/-- The two tiers, host memory and the window's poison (07_memory_tiers). -/
structure Mem where
  /-- R174 the Cellars' bytes, by s * 2^29 + offset; reset: nothing listed, which reads 0 (R182, log 3) -/
  near : List Host.Cell := []
  /-- R180 the far tier's bytes by address; the window is its last 64 GiB (log 3); reset: nothing listed -/
  far : List Host.Cell := []
  /-- R501 host memory, the surroundings' bytes that commands read and write; reset: nothing listed (log 3) -/
  host : List Host.Cell := []
  /-- R178 the Cellars by s; reset row 0, normal refresh -/
  cellars : Sparse Cellar := []
  /-- R194 Cellar pages by 4 KiB page number; reset no correction -/
  nearPages : Sparse PageHist := []
  /-- R194 far-tier units by unit; reset no correction -/
  farPages : Sparse PageHist := []
  /-- R193 the next near-tier line to scrub; reset 0 (log 2) -/
  nearScrub : Nat := 0
  /-- R193 the next far-tier line to scrub; reset 0 (log 2) -/
  farScrub : Nat := 0
  deriving DecidableEq, Repr

/-- R79, R89, R90: a write of a tensor in progress. -/
structure TensorWrite where
  /-- R79 the counter of SR_STREAM when the write began -/
  c0 : W64
  /-- R79 SR_STREAM, for a write under SR -/
  stream : Option W32
  /-- the codes written, by linear index; none where nothing has been written -/
  codes : Sparse (Option W32)
  /-- R87 the block scales, by block -/
  scales : Sparse Byte
  /-- R90, R199 the partial records, by 1,024 * section + stall -/
  records : Sparse WriteRecord
  deriving DecidableEq, Repr

/-- R91: the conversion job totals of one tensor. -/
structure ConvTotal where
  sat : W48 := 0
  range : Bool := false
  nonfinite : Bool := false
  tiny : Bool := false
  deriving DecidableEq, Repr

/-- R133: the job totals of one verb. -/
structure VerbTotal where
  invalid : W48 := 0
  overflow : W48 := 0
  nonfinite : W48 := 0
  deriving DecidableEq, Repr

/-- Tensors of the loaded program, by section (R184, R197 to R207), and the totals of R91 and R133. -/
structure Tensors where
  /-- R184 the buffer that bufSel = false selects; reset none -/
  bufA : List Section := []
  /-- R184 the buffer that bufSel = true selects; reset none -/
  bufB : List Section := []
  /-- R183 sections of tensors that are not double-buffered; reset none -/
  plain : List Section := []
  /-- R79 writes in progress, by tensor id; reset none -/
  writes : Sparse (Option TensorWrite) := []
  /-- R91 conversion totals by tensor id; reset 0 -/
  conv : Sparse ConvTotal := []
  /-- R133 verb totals by verb; reset 0 -/
  verbs : Sparse VerbTotal := []
  /-- R171 evaluation totals; reset 0 -/
  evalConv : Sparse ConvTotal := []
  /-- R171 evaluation totals; reset 0 -/
  evalVerbs : Sparse VerbTotal := []
  /-- R299, R300 the gathered layers held, oldest first, with their sections; reset none -/
  gathered : List (Nat × List Section) := []
  /-- R531 tensors being read by a TENSOR_READ; reset none -/
  reading : List W64 := []
  deriving DecidableEq, Repr

/-! ### Expert routing -/

/-- R242: a Ledger entry. -/
structure LedgerEntry where
  token : Nat
  key : BatchKey
  rank : Nat
  slotKind : Bool
  replica : Bool
  pass : Nat
  expert : Nat
  peer : Nat
  slot : Nat
  weight : W32
  epoch : W48
  parked : Bool
  sealWord : W64 := 0
  deriving DecidableEq, Repr

/-- R217, R219: a token's vector, and its choices: expert and gate weight by rank. -/
structure TokenChoice where
  token : Nat
  vec : List W32
  choices : List (Nat × W32)
  deriving DecidableEq, Repr

/-- R225: a choice placed at a position: token, rank, expert, position, weight, and the member that serves it. -/
structure Placed where
  token : Nat
  rank : Nat
  expert : Nat
  pos : Nat
  weight : W32
  server : Nat
  deriving DecidableEq, Repr

/-- R232, R237, R272: one slot's vector of an expert pass, as FP32 values. -/
structure SlotVec where
  expert : Nat
  pass : Nat
  slot : Nat
  vec : List W32
  deriving DecidableEq, Repr

/-- One direction of the exchange of a batch at a serving module: what it holds of the records it has received. -/
structure Serve where
  /-- R233, R269: records that wait for the grants, or for ACTIVE entries: header, weights, vector; reset none -/
  early : List (RecHeader × List W32 × List W32) := []
  /-- R233, R271: the records held, in order of arrival; reset none -/
  records : List RecHeader := []
  /-- R232, R272: rows written, or gradients fed; reset none -/
  rows : List SlotVec := []
  /-- R232 passes started: (expert, pass); reset none -/
  started : List (Nat × Nat) := []
  /-- R234 passes completed; reset none -/
  done : List (Nat × Nat) := []
  /-- R237, R272: vectors that the passes have produced; reset none -/
  outs : List SlotVec := []
  /-- R237, R274: return records sent: (source, token); reset none -/
  returned : List (Nat × Nat) := []
  deriving DecidableEq, Repr

/-- R246: routing totals of a layer. -/
structure RouteTotal where
  skippedChoices : W48 := 0
  droppedTokens : W48 := 0
  extraPasses : W48 := 0
  maxLoad : W48 := 0
  dupRecords : W48 := 0
  nonfinite : W48 := 0
  deriving DecidableEq, Repr

/-- A routing batch in progress at this module (R214 to R241, R269 to R276). -/
structure Batch where
  key : BatchKey
  /-- R217 choices of this module's tokens, in index order; reset none -/
  tokens : List TokenChoice := []
  /-- R218 a score was NaN; reset false -/
  nonfinite : Bool := false
  /-- R223 the source has counted; reset false -/
  counted : Bool := false
  /-- R223 count records held at this home, by member: T_m and counts; reset none -/
  counts : List (Nat × Nat × List CountEntry) := []
  /-- R221 the capacity C; reset 0 -/
  cap : Nat := 0
  /-- R246 the batch's routing record; reset 0 -/
  route : RouteTotal := {}
  /-- R224 placed[e] at this home; reset none -/
  placedN : List (Nat × Nat) := []
  /-- R225 homes whose grants have arrived, and whether all have; reset none -/
  homes : List Nat := []
  granted : Bool := false
  /-- R225 choices placed; reset none -/
  placed : List Placed := []
  /-- R267 the split; reset none -/
  split : List SplitEntry := []
  /-- R234 passes that a credit has admitted, forward and backward: (expert, pass); reset none -/
  admitted : List (Nat × Nat) := []
  backAdmitted : List (Nat × Nat) := []
  /-- R230, R270 records sent: (token, serving member); reset none -/
  sent : List (Nat × Nat) := []
  backSent : List (Nat × Nat) := []
  /-- the forward and the backward exchange as this module serves them -/
  fwd : Serve := {}
  bwd : Serve := {}
  /-- R239 outputs returned to this source: (token, rank, values); reset none -/
  returned : List (Nat × Nat × List W32) := []
  /-- R239, R240 layer outputs by token: codes and block scales; reset none -/
  combined : List (Nat × List W32 × List Byte) := []
  /-- R269 the backward exchange has started; reset false -/
  backward : Bool := false
  /-- R270 the gradient of the layer output by token; reset none -/
  upGrads : List (Nat × List W32) := []
  /-- R274 nodes received by token; reset none -/
  nodes : List (Nat × List TreeNode) := []
  /-- R274 input gradients by token: codes and block scales; reset none -/
  grads : List (Nat × List W32 × List Byte) := []
  deriving DecidableEq, Repr

/-- R282: residency totals of a layer. -/
structure ResidTotal where
  fetches : W48 := 0
  fetchBytes : W48 := 0
  streamedPasses : W48 := 0
  promotions : W48 := 0
  demotions : W48 := 0
  replicasAdded : W48 := 0
  replicasRemoved : W48 := 0
  poolSkips : W48 := 0
  deriving DecidableEq, Repr

/-- The Ledger and the expert directory (08, 09). -/
structure Ledger where
  /-- R244 the entries, ACTIVE and PARKED; reset none -/
  entries : List LedgerEntry := []
  /-- R214 the batches in progress; reset none -/
  batches : List Batch := []
  /-- R246 totals by layer; reset 0 -/
  routes : Sparse RouteTotal := []
  /-- R250 the directory; reset none -/
  dir : List DirEntry := []
  /-- R282 totals by layer; reset 0 -/
  resid : Sparse ResidTotal := []
  /-- R42, R231 the bytes of the record streams under way: batch, the member at the other end, backward, arriving; reset none -/
  streams : List ((BatchKey × Nat × Bool × Bool) × Bytes) := []
  /-- R229 placed counts of the step by 65,536 * layer + expert; reset 0 -/
  visits : Sparse Nat := []
  /-- R254 requested counts of the step by 65,536 * layer + expert; reset 0 -/
  requests : Sparse Nat := []
  /-- R254 offered capacity of the step by layer; reset 0 -/
  offered : Sparse Nat := []
  /-- R264 fetches in progress or held: expert and whether complete; reset none -/
  fetches : List (ExpertRef × Bool) := []
  /-- R259 promotion copies complete and not yet listed; reset none -/
  promoted : List ExpertRef := []
  /-- R261 replicas whose copy is complete, and those that serve: (expert, member, serves); reset none -/
  replicas : List (ExpertRef × Nat × Bool) := []
  /-- R262 copy-outs in progress: expert, member, bytes; reset none -/
  copyOuts : List (ExpertRef × Nat × Nat) := []
  /-- R278 nodes of weight-gradient tiles: (expert, tile), the cascade and the next block; reset none -/
  tiles : List ((ExpertRef × Nat) × List (Nat × List W32) × Nat) := []
  /-- R278 nodes that wait for an earlier block; reset none -/
  tileQueue : List ((ExpertRef × Nat) × Nat × Nat × List W32) := []
  /-- R300 layers whose gather has been started in the step; reset none -/
  asked : List Nat := []
  /-- R300 layers whose gather is complete; reset none -/
  gathered : List Nat := []
  /-- R254 the visit all-reduce of the step is complete; reset false -/
  counted : Bool := false
  /-- R79, R154 where the draws of a layer's outputs (false) and of its input gradients (true) begin in the step: (layer, which,
  counter); reset none -/
  convBases : List (Nat × Bool × W64) := []
  deriving DecidableEq, Repr

/-! ### Collectives -/

/-- A chunk at a Counting House (R365 to R369, R379). -/
structure ChunkState where
  shard : Nat
  chunk : Nat
  /-- R367 node values held: (level, index, values) -/
  nodes : List (Nat × Nat × List W32) := []
  /-- R367 nodes sent to their parent's host -/
  sent : List (Nat × Nat) := []
  /-- R379 it holds a slot -/
  slotted : Bool := false
  /-- R382 under endpoint reduction, the stall whose Verb unit computes the nodes -/
  adder : Option Nat := none
  /-- R369 it has been released or sent on -/
  finished : Bool := false
  /-- R386 the sum of squares of the released elements and their non-finite bit -/
  sq : Option (W32 × Bool) := none
  /-- R369 the codes released, and their write record -/
  out : List W32 := []
  record : WriteRecord := {}
  deriving DecidableEq, Repr

/-- An open collective (R356 to R389). -/
structure Coll where
  seq : W48
  entry : Nat
  /-- R360 this module's own header -/
  own : CHeader
  /-- R364 headers taken: (member, carried, STEP_TAG, arrival tick) -/
  taken : List (Nat × Bool × W48 × W64) := []
  /-- R373 the open tick of the window; none before the first arrival -/
  openAt : Option W64 := none
  /-- R375 the roll, once closed -/
  roll : Option RollMsg := none
  /-- R379 the lease: none not requested, some false waiting, some true granted -/
  lease : Option Bool := none
  /-- R381 the tick of the request -/
  requested : W64 := 0
  /-- R382 endpoint reduction -/
  endpoint : Bool := false
  /-- R367 the chunks at this module -/
  chunks : List ChunkState := []
  /-- R369 the write record of the shards released here -/
  record : WriteRecord := {}
  /-- R370 released values received: (shard, chunk, codes) -/
  results : List (Nat × Nat × List W32) := []
  /-- the collective is complete at this module -/
  complete : Bool := false
  deriving DecidableEq, Repr

/-- R389: the totals of a collective entry. -/
structure CollTotal where
  lateArrivals : W48 := 0
  lateCarried : W48 := 0
  lateDropped : W48 := 0
  dupContrib : W48 := 0
  staleContrib : W48 := 0
  fallbacks : W48 := 0
  slotWaitTicks : W48 := 0
  lastN : W48 := 0
  deriving DecidableEq, Repr

/-- The Counting House (12_collectives). -/
structure House where
  /-- open collectives in ascending sequence; reset none -/
  colls : List Coll := []
  /-- R364 sequence numbers completed in the current attempt; reset none -/
  completed : List W48 := []
  /-- R476 rolls closed in the abandoned attempt; reset none -/
  reuse : List RollMsg := []
  /-- R377 carries: entry, STEP_TAG, codes in WFMT; reset none -/
  carries : List (Nat × W48 × List W32) := []
  /-- R379 slots leased; reset 0 of 3,072 -/
  leased : Nat := 0
  /-- R389 totals by entry; reset 0 -/
  totals : Sparse CollTotal := []
  /-- R389 RESIDUE_RETRIES; reset 0 -/
  residueRetries : W48 := 0
  /-- R389 ADDERS_FENCED; reset 0 -/
  addersFenced : W48 := 0
  /-- R389 MISMATCHES; reset 0 -/
  mismatches : W48 := 0
  /-- R387 norm terms gathered: (q, sum of squares, bit); reset none -/
  normTerms : List (Nat × W32 × Bool) := []
  deriving DecidableEq, Repr

/-! ### Two-phase update, standby and snapshots -/

/-- R529: the STEP_RUN or EVAL_RUN in progress. -/
structure RunCmd where
  cmd : Option CmdRef
  eval : Bool
  evalList : Nat
  /-- R170 the draw base of an EVAL_RUN -/
  drawBase : W64
  /-- R171 the evaluation cursor -/
  cursor : W64
  /-- R529 INPUT = 0: the module's loader brings the inputs -/
  loader : Bool := true
  /-- R485 of an AUDIT_REPLAY, the records of the steps that it has still to replay -/
  audit : Option (List AuditStep) := none
  stepsLeft : Nat
  done : Nat
  worst : W16
  deriving DecidableEq, Repr

/-- R57, R60: a key and value block on its way round the ring: the ring position where it began, its bytes, and in the backward
pass the gradients of its keys and of its values added so far. -/
structure KvBlock where
  origin : Nat
  bytes : Bytes
  keyGrads : List W32 := []
  valueGrads : List W32 := []
  deriving DecidableEq, Repr

/-- R57 to R60: an attention ring at this module: its clause, the ring step j, the block in use and the block arriving, and the
partial results combined so far: the weighted sums, and by row the running maximum and the running sum of the softmax
(log 87). -/
structure AttnRing where
  clause : Nat
  j : Nat := 0
  inUse : Option KvBlock := none
  arriving : Option KvBlock := none
  /-- bytes of the block that arrives, and the blocks received whole -/
  wire : Bytes := []
  got : Nat := 0
  acc : List W32 := []
  maxima : List W32 := []
  sums : List W32 := []
  done : Bool := false
  deriving DecidableEq, Repr

/-- The step in progress and the commit protocol (R432 to R446, R473 to R477). -/
structure Step where
  /-- R57 the attention rings of the pass in progress, by ring number; reset none -/
  rings : Sparse (Option AttnRing) := []
  /-- R529 the running command, or the inner step of site mode; reset none -/
  run : Option RunCmd := none
  /-- R437, R475 ATTEMPT; reset 0 -/
  attempt : Byte := 0
  /-- R158 the update of the step is skipped; reset false -/
  skipped : Bool := false
  /-- R165 the state of the unvisited experts of HOLD layers has been copied into the shadow buffers; reset false -/
  holding : Bool := false
  /-- R399 the step in progress is an outer step; reset false -/
  outer : Bool := false
  /-- R432 sections mirrored so far; reset 0 -/
  mirrored : Nat := 0
  /-- R432 MIRROR_ACK covers the last section; reset false -/
  mirrorAcked : Bool := false
  /-- R469 checks pending on values that enter the shadow buffer or the mirror; reset 0 -/
  checksPending : Nat := 0
  /-- R473 the attempt is suspect at this module; reset false -/
  suspect : Bool := false
  /-- R432 PREPARED sent, and the tick of its last sending; reset false, 0 -/
  prepared : Bool := false
  preparedAt : W64 := 0
  /-- R433 PREPARED held at the lead; reset none -/
  held : List PreparedMsg := []
  /-- R433 the decision for the running step; reset none -/
  decision : Option DecisionMsg := none
  /-- R433 the lead has written that decision to its Logbook; reset false -/
  logged : Bool := false
  /-- R436 HEARTBEATs missed in a row, by member; reset 0 -/
  missed : Sparse Nat := []
  /-- R436 members treated as failed; reset none -/
  failedMembers : List Nat := []
  /-- R443, R445 roles taken over: (failed, partner); reset none -/
  taken : List (Nat × Nat) := []
  /-- R474 the attempt whose REPLAY the lead has sent; reset none -/
  replaySent : Option Byte := none
  /-- R477 replays of the step epoch; reset 0 -/
  replays : Nat := 0
  deriving DecidableEq, Repr

/-- R185: a partner slot's state. -/
inductive SlotState where
  | complete | filling
  deriving DecidableEq, Repr

/-- R185, R428: a partner slot: its state, its epoch and the sections it holds. -/
structure PSlot where
  state : SlotState
  epoch : W48 := 0
  sections : List Section := []
  deriving DecidableEq, Repr

/-- Partner, standby, snapshots, flash and store (R426 to R461). -/
structure Snap where
  /-- R426 this module's partner and the member it covers; reset none -/
  partner : Option Nat := none
  covers : Option Nat := none
  /-- R426 the shift s; reset 0 -/
  shift : Nat := 0
  /-- R452 the standby's sections as they stood before the commit that a drain follows; reset none -/
  before : List Section := []
  /-- R185 the two slots; reset one COMPLETE, one FILLING, empty -/
  slotA : PSlot := { state := .complete }
  slotB : PSlot := { state := .filling }
  /-- R428 the mirror of the step in progress; reset none -/
  mirror : List Section := []
  mirrorEpoch : W48 := 0
  /-- R428 the mirror record; reset none -/
  mirrorRec : Option MirrorRecord := none
  /-- R432 MIRROR_ACK of the covered member's last section has left; reset false -/
  mirrorDone : Bool := false
  /-- R429 the covered member's shadow digest in PREPARED; reset none -/
  coveredDigest : Option W64 := none
  /-- R430 a standby update runs; reset none -/
  updating : Option W48 := none
  /-- R429 the standby is to be seeded again by a drain at the next commit; reset false -/
  reseed : Bool := false
  /-- R452 this module drains its replaced buffer: image epoch; reset none -/
  draining : Option W48 := none
  /-- R452 sections of that buffer that have not left yet, oldest first; reset none -/
  drainOut : List Section := []
  /-- R453 as partner, a drain arrives: image epoch; catch-up runs; reset none -/
  filling : Option W48 := none
  catchUp : Bool := false
  /-- R451 a snapshot trigger is due; reset false -/
  trigger : Bool := false
  /-- R532 the CKPT_TAKE that waits, with its layer; reset none -/
  take : Option (CmdRef × Nat) := none
  /-- R454 members whose SNAP_DONE is awaited at the lead, and the epoch and tick of the trigger; reset none -/
  awaiting : Option (W48 × W64 × List Nat) := none
  /-- R454 the image epoch; reset none -/
  image : Option W48 := none
  /-- R450 the last 8 snapshot times in ns; reset none -/
  times : List Nat := []
  /-- R450 ticks of the failures seen at the lead since JOB_OPEN; reset none -/
  failures : List W64 := []
  /-- R450 the partner interval in ticks; reset 0 -/
  interval : Nat := 0
  /-- R457 the next image is a flash image, and the tick of the last marking; reset false, 0 -/
  flashMark : Bool := false
  flashAt : W64 := 0
  /-- R455 an image is being written to NVMe; reset none -/
  flashWriting : Option W48 := none
  /-- R455 the NVMe image areas, newest first: valid images by epoch; reset none -/
  flash : List W48 := []
  /-- R457 images skipped; reset 0 -/
  flashSkipped : Nat := 0
  /-- R458 a store copy runs: its epoch and the roles not yet complete; reset none -/
  storing : Option (W48 × List Nat) := none
  /-- R458 the tick of the last store snapshot's start; reset 0 -/
  storeAt : W64 := 0
  /-- R447 the lead pauses the slice after the next commit; it has paused it; reset false -/
  pauseDue : Bool := false
  paused : Bool := false
  /-- R447 the next store snapshot pauses the slice and is marked DEGRADED; reset false -/
  degraded : Bool := false
  /-- R458 the last complete store snapshot; reset none -/
  stored : Option W48 := none
  deriving DecidableEq, Repr

/-! ### Site mode -/

/-- R391: a site entry. -/
structure SiteEntry where
  prefixA : Bytes
  prefixB : Bytes
  routes : Nat
  active : Bool
  donor : Bool
  /-- the flow labels of routes 0 to 3 -/
  flow : List Nat
  idHash : Bytes
  deriving DecidableEq, Repr

/-- R390: the site descriptor's header, defaults applied; RATE 0 is the line rate. -/
structure SiteDesc where
  sites : Nat
  own : Nat
  s : Nat
  h : Nat
  k : Nat
  m : Nat
  inbound : Nat
  mxSpec : Bool
  mu : W32
  eta : W32
  skewMargin : Nat
  skewMax : Nat
  siteWait : Nat
  rate : Nat
  udpPort : Nat
  entries : List SiteEntry
  /-- the hash of the descriptor's bytes -/
  digest : Bytes
  deriving DecidableEq, Repr

/-- R418, R420: a route of a peer site; delays in ns. A session begins with delay, deviation and round trip 0 (log 2)
(in part DESIGN CHOICE: log 23). -/
structure Route where
  /-- R417; a session begins with its routes UP (log 23) -/
  up : Bool := true
  /-- R418 D_r -/
  d : Int := 0
  /-- R418 V_r -/
  v : Int := 0
  /-- R420 the smoothed round trip -/
  rtt : Int := 0
  /-- R409 TX_NS and arrival of the latest DATA frame, which an ACK echoes -/
  lastTx : Option (W64 × W64) := none
  /-- R417 the tick of the last ACK echo, or of the session's opening -/
  echoAt : W64 := 0
  deriving DecidableEq, Repr

/-- R410 to R415, R577 to R580: a session with a peer site for a shard. -/
structure Session where
  site : Nat
  shard : Nat
  /-- R408 SESSION -/
  id : W32
  /-- set-up is complete -/
  opened : Bool
  /-- R580 it replaces an earlier session -/
  replaces : Bool
  /-- R578 the bytes of the whole SESSION_INIT frame -/
  initFrame : Bytes
  /-- R577 the own set-up frame, kept to be sent again: its type, header and payload -/
  setup : Option (Nat × FrameHeader × SessionPayload)
  /-- R577, R579 the ML-KEM decapsulation key held -/
  kemKey : Bytes
  /-- R577 the ciphertext and the shared secret of an accepted SESSION_INIT whose answer waits for its signature -/
  cipher : Bytes
  secret : Bytes
  /-- R578, R579 km of the latest epoch agreed -/
  km : Bytes
  /-- R413 the key epoch of this sender's direction -/
  epoch : Nat
  /-- R412, R414 the keys held for sending and for receiving, by epoch -/
  txKeys : List (Nat × Bytes)
  rxKeys : List (Nat × Bytes)
  /-- R411 the next SEQ of the current epoch and of the one before -/
  txSeq : W64
  txPrev : W64
  /-- R413, R414 the tick at which the sender's epoch came into use -/
  since : W64
  /-- R413 a forced switch waits for its key -/
  keyWaiting : Bool
  /-- R411 the receiver: per epoch the highest SEQ and the SEQs seen of the last 4,096 -/
  rx : List (Nat × Nat × List Nat)
  /-- R414 the newest epoch received, and the tick of its first frame -/
  rxEpoch : Nat
  rxSince : W64
  /-- R406 inbound slots the peer has granted and this sender has not used -/
  grants : Nat
  /-- R392, R424 the interface identifier of the peer's address, of its latest authenticated frame -/
  peerIf : Bytes
  /-- R577 the tick at which SESSION_INIT was last sent -/
  sentAt : W64
  routes : List Route
  deriving DecidableEq, Repr

/-- R416, R419: a contribution, or with STATE set a state transfer, that arrives. -/
structure Inbound where
  site : Nat
  shard : Nat
  round : Nat
  /-- R421 STATE DATA -/
  state : Bool
  /-- ROUND_OPEN has arrived -/
  opened : Bool := false
  groups : Nat := 0
  lastK : Nat := 0
  sealWord : W64 := 0
  record : WriteRecord := {}
  /-- R415 the packets seen: group, packet -/
  seen : List (Nat × Nat) := []
  /-- R416 packets held: group, packet, payload; of a decoded group its data packets -/
  packets : List (Nat × Nat × Bytes) := []
  decoded : List Nat := []
  /-- R419 the tick of the last DATA, and the tick of each group's last REPAIR -/
  lastAt : W64 := 0
  repaired : List (Nat × W64) := []
  /-- R418 per group and route: late, and TX_NS + late_r of the first packet in ns -/
  firsts : List (Nat × Nat × Bool × Int) := []
  /-- R401 held whole with its seal passed -/
  held : Bool := false
  deriving DecidableEq, Repr

/-- R397, R406: an own contribution kept in an outbound slot: its stream of content and scales, its record and seal, and
the groups that each peer it has been sent to has acknowledged. -/
structure Outbound where
  round : Nat
  stream : Bytes
  record : WriteRecord
  sealWord : W64
  acked : List (Nat × List Nat)
  /-- R415 the key epoch of the first transmission to a peer -/
  epochs : List (Nat × Nat)
  deriving DecidableEq, Repr

/-- R425: the counters of a peer site. -/
structure SiteTotal where
  framesSent : W48 := 0
  resent : W48 := 0
  dupPackets : W48 := 0
  latePackets : W48 := 0
  repairsSent : W48 := 0
  groupsDecoded : W48 := 0
  authFails : W48 := 0
  replayedFrames : W48 := 0
  epochDiscards : W48 := 0
  keyWaits : W48 := 0
  staleDrops : W48 := 0
  nonfiniteContrib : W48 := 0
  waitSiteTicks : W48 := 0
  deriving DecidableEq, Repr

/-- Site mode (13_intersite). -/
structure Site where
  /-- R390 the descriptor; reset none -/
  desc : Option SiteDesc := none
  /-- R395 the current round w; reset 0 -/
  round : Nat := 0
  /-- R395 inner steps committed in the round; reset 0 -/
  inner : Nat := 0
  /-- R395 the boundary phase: 0 none, 1 Form done and Roll, 2 Outer update, 3 Form waits for an outbound slot; reset 0 -/
  boundary : Nat := 0
  /-- R402 active sites with their join round; reset none -/
  active : List (Nat × Nat) := []
  /-- R423 last rounds declared by LEAVE; reset none -/
  last : List (Nat × Nat) := []
  /-- R402 reports of the members at this boundary; reset none -/
  reports : List (Nat × List SiteRound) := []
  /-- R402 contributions already applied; reset none -/
  applied : List SiteRound := []
  /-- R402 the accepted set of the boundary; reset none -/
  accepted : List SiteRound := []
  /-- R404 the site waited for; reset none -/
  waitingFor : Option Nat := none
  /-- R404 the tick at which that wait began; reset 0 -/
  waitSince : W64 := 0
  /-- R410 sessions; reset none -/
  sessions : List Session := []
  /-- R401 inbound contributions; reset none -/
  inbound : List Inbound := []
  /-- R406 outbound contributions; reset none -/
  outbound : List Outbound := []
  /-- R398 anchor, momentum and residual as BF16 bits, by element; reset none -/
  anchor : List W16 := []
  momentum : List W16 := []
  residual : List W16 := []
  /-- R399 momentum and residual that the next outer COMMIT writes in place; reset none -/
  nextMomentum : List W16 := []
  nextResidual : List W16 := []
  /-- R423 this site was excluded by a NOTICE; reset false -/
  excluded : Bool := false
  /-- R423 SITE_LEAVE in progress: its command and the round it leaves after; reset none -/
  leaving : Option (CmdRef × Nat) := none
  /-- R423 the tick of the SITE_LEAVE; reset 0 -/
  leaveAt : W64 := 0
  /-- R394 the SITE_JOIN in progress; reset none -/
  joining : Option CmdRef := none
  /-- R577 the tick at which session set-up began; reset 0 -/
  joinAt : W64 := 0
  /-- R421 late joiners awaiting state: site; reset none -/
  joiners : List Nat := []
  /-- R421 state transfers in progress, by joiner; reset none -/
  stateOut : List (Nat × Outbound) := []
  /-- R405 contributions dropped; reset none -/
  dropped : List SiteRound := []
  /-- R425 totals by peer site; reset 0 -/
  totals : Sparse SiteTotal := []
  deriving DecidableEq, Repr

/-! ### What the module sends -/

/-- R390, R392: how a Barter frame leaves: the port, the IPv6 addresses and flow label of its route, and the UDP port. -/
structure Wire where
  port : EthPort
  source : Bytes
  dest : Bytes
  flow : Nat
  udp : Nat
  deriving DecidableEq, Repr

/-- Messages, flits, frames and records that leave the module, as the rules name them
(in part DESIGN CHOICE: log 10) (in part DESIGN CHOICE: log 30). -/
inductive Out where
  | control (p : Port) (ackSeq : W16) (nak : Bool) (freed : List W16)
  | timeFlit (p : Port) (echoTx echoRx : Nat) (rootId : W64) (hops : Nat) (tstate : TimeState)
  | ident (p : Port) (x y z lx ly lz : Nat) (assigned : Bool) (sliceId : W32)
  | flit (p : Port) (f : Flit)
  | hallPacket (pkt : Packet)
  | packet (p : Port) (pkt : Packet) (vc : VC)
  | kvBlock (member ring j : Nat) (b : KvBlock)
  | heartbeat (epoch : W48)
  | mirrorAck (epoch : W48) (index : Nat)
  | mirrorSection (epoch : W48) (index : Nat) (codes : List W32)
  | mirrorRecord (r : MirrorRecord)
  | prepared (m : PreparedMsg)
  | decision (m : DecisionMsg)
  | decisionAck (epoch : W48)
  | commit (m : DecisionMsg)
  | failed (m : FailedMsg)
  | selfFailed (reason : Nat)
  /-- R337: the report to the lead of a port DOWN, with the member that it names as failed -/
  | portDown (p : Port) (member : Nat)
  | snapDone (epoch : W48)
  | suspect (m : SuspectMsg)
  | replay (epoch : W48) (attempt : Byte)
  | drainSection (sec : Section)
  | mismatch (seq : W48) (member : Nat) (field : Byte)
  | roll (m : RollMsg)
  | header (h : CHeader)
  | chunk (dest : Nat) (m : ChunkMsg)
  | released (dest : List Nat) (m : ReleasedMsg)
  | barrierDone (seq : W48)
  /-- R381: a member tells the caller that it has fallen back -/
  | fallback (seq : W48)
  | countRecord (home : Nat) (key : BatchKey) (tm : Nat) (counts : List CountEntry)
  | grant (member : Nat) (key : BatchKey) (cap : Nat) (grants : List GrantEntry) (split : List SplitEntry)
  | dispatch (member : Nat) (h : RecHeader) (vec : List W32)
  | returnRec (h : RecHeader) (outs : List (Nat × List W32))
  | backward (member : Nat) (h : RecHeader) (weights grad : List W32)
  | backwardRet (h : RecHeader) (nodes : List TreeNode)
  | passCredit (key : BatchKey) (expert pass : Nat) (backward : Bool) (sources : List Nat)
  | gateGrad (token : Nat) (c : List W32)
  | fetch (e : ExpertRef)
  | promoteCopy (e : ExpertRef)
  | demoteCopy (e : ExpertRef)
  /-- R277: a cascade node leaves for the home of an expert's tile -/
  | cascadeNode (home : Nat) (e : ExpertRef) (tile level index : Nat) (values : List W32)
  | replicaCopy (e : ExpertRef) (member : Nat)
  | gatherStart (layer : Nat)
  | loadReport (digest : Bytes) (sliceId : W32)
  | plan (p : Plan)
  | fitReport (result : W16) (records : List Bytes)
  | loadResult (results : List (Nat × W16)) (field shift : Nat) (records : List Bytes)
  | cmdVerdict (k : CmdRef) (member : Nat) (field : Byte)
  /-- R521: a member's agreement fields for the lead -/
  | agreeReport (k : CmdRef) (r : AgreeReport)
  | statusWord (k : CmdRef) (word : W64)
  | memberReport (held : List SiteRound)
  | accepted (set : List SiteRound)
  | frame (peer ftype : Nat) (w : Wire) (h : FrameHeader) (body : FrameBody)
  /-- R455, R459: an image and its manifest for the NVMe -/
  | flashWrite (epoch : W48) (member : Nat) (manifest : List Bytes) (sections : List Section)
  | storeCopy (epoch : W48)
  /-- R456: anchor, outer momentum and residual for the partner's NVMe -/
  | outerState (epoch : W48) (anchor momentum residual : List W16)
  /-- R441: host inputs of a step for the partner's loader staging -/
  | stagedInputs (epoch : W48) (sections : List Section)
  /-- R436: a partner reports to the lead that it misses its covered member's HEARTBEATs -/
  | beatsMissed (member : Nat)
  | pin (name : String) (level : Bool)
  | summaryPartial (verb slot stall : Nat) (value : W64)
  | tdo (bits : Bytes)
  | memData (addr : Nat) (bytes : Bytes)
  | standbyRead (tid : W64) (sec : W16)
  | thermalLimit (member : Nat)
  deriving DecidableEq, Repr

/-! ### The state -/

/-- The module. -/
structure State where
  /-- the queue of waiting commands, first in, first out; reset empty -/
  pending : List Instr
  mbx : Mbx
  bus : Bus
  dev : Dev
  awn : Awn
  saf : Saf
  log : Log
  tal : Tal
  pwr : Pwr
  dbg : Dbg
  sec : Sec
  /-- R599 the functions in the order Hall 0 to 3, ETH_A, ETH_B, Barter unit, Counting House, PX to NZ -/
  fns : Vector Fn 14
  /-- R320 the torus ports -/
  ports : Vector TPort 6
  slice : Slice
  job : Job
  load : Load
  /-- the stalls by s; a stall not listed is as the default of `Stall` -/
  stalls : Sparse Stall
  mem : Mem
  tens : Tensors
  ledger : Ledger
  house : House
  step : Step
  snap : Snap
  site : Site
  /-- what the module has sent, oldest first; reset none -/
  out : List Out
  /-- the model's: how many free values have been taken (log 6); reset 0 -/
  free : Nat
  deriving DecidableEq, Repr

/-- The state right after reset: the module with no input power (log 1) (in part DESIGN CHOICE: log 2). -/
def State.reset : State :=
  { pending := [], mbx := {}, bus := {}, dev := {}, awn := {}, saf := {}, log := {}, tal := {}, pwr := {},
    dbg := {}, sec := {}, fns := Vector.replicate 14 {}, ports := Vector.replicate 6 {}, slice := {}, job := {},
    load := {}, stalls := [], mem := {}, tens := {}, ledger := {}, house := {}, step := {}, snap := {},
    site := {}, out := [], free := 0 }

/-- Why a command cannot be carried out: the machine stops (in part DEDUCED: log 86). -/
inductive Fault where
  /-- An access names an address that the spec says does not exist (R174, R180, R487); raised by FAR_TIER_READ and
  LOGBOOK_INSTRUMENT_READ. Safe: the hardware has no such access. -/
  | noSuchAddress (addr : Nat)
  deriving DecidableEq, Repr

/-- Why a command has no meaning in this model. -/
inductive Refusal where
  /-- The arm of a command that has no meaning yet; raised by `exec` alone. Safe: nothing is claimed of it. -/
  | notModelled (mnemonic : String)
  deriving DecidableEq, Repr

end Sys2Proof.Machine
end

