-- ==== Sys2Proof/Machine/Ops.lean ====
section
/-! DEFINITION. The shared operations over the state: sparse tables, memories, one named update per field of State,
messages sent, free values, ALERT_N, CRCs and the functions of R528. -/

namespace Sys2Proof.Machine

/-- What a command answers. -/
abbrev Result := Host.Outcome State Fault Refusal

/-! ### Sparse tables and memories -/

/-- The entry of a key, or the default. -/
def sget {α : Type} (d : α) : Sparse α → Nat → α
  | [], _ => d
  | (k', v) :: t, k => if k = k' then v else sget d t k

/-- A table with one entry set; writing the default removes the entry. -/
def sput {α : Type} [DecidableEq α] (d : α) : Sparse α → Nat → α → Sparse α
  | [], k, v => if v = d then [] else [(k, v)]
  | (k', v') :: t, k, v =>
    if k < k' then (if v = d then (k', v') :: t else (k, v) :: (k', v') :: t)
    else if k = k' then (if v = d then t else (k, v) :: t)
    else (k', v') :: sput d t k v

/-- The canonical form: keys strictly rising, all above `lo`, no entry equal to the default. -/
def swfFrom {α : Type} [DecidableEq α] (d : α) : Nat → Sparse α → Bool
  | _, [] => true
  | lo, (k, v) :: t => decide (lo ≤ k) && decide (v ≠ d) && swfFrom d (k + 1) t

/-- The canonical form of a sparse table. -/
def swf {α : Type} [DecidableEq α] (d : α) (t : Sparse α) : Bool := swfFrom d 0 t

/-- What a byte that nothing has written reads as: Cellars and the far tier are cleared at start-up (R182, log 3). -/
def unlisted : Byte := 0

/-- One byte of a memory (in part DEDUCED: log 3). -/
def readByte (m : List Host.Cell) (a : Nat) : Byte := sget unlisted m a

/-- One byte stored. -/
def writeByte (m : List Host.Cell) (a : Nat) (b : Byte) : List Host.Cell := sput unlisted m a b

/-- n bytes from an address upward. -/
def readBytes (m : List Host.Cell) (a : Nat) : Nat → Bytes
  | 0 => []
  | n + 1 => readByte m a :: readBytes m (a + 1) n

/-- A byte string stored from an address upward. -/
def writeBytes (m : List Host.Cell) (a : Nat) : Bytes → List Host.Cell
  | [] => m
  | b :: t => writeBytes (writeByte m a b) (a + 1) t

/-- The canonical form of a memory (in part DEDUCED: log 3). -/
def Memory.wf (m : List Host.Cell) : Bool := swf unlisted m

/-! ### Named updates -/

def State.withPending (s : State) (x : List Instr) : State := { s with pending := x }
def State.withMbx (s : State) (x : Mbx) : State := { s with mbx := x }
def State.withBus (s : State) (x : Bus) : State := { s with bus := x }
def State.withDev (s : State) (x : Dev) : State := { s with dev := x }
def State.withAwn (s : State) (x : Awn) : State := { s with awn := x }
def State.withSaf (s : State) (x : Saf) : State := { s with saf := x }
def State.withLog (s : State) (x : Log) : State := { s with log := x }
def State.withTal (s : State) (x : Tal) : State := { s with tal := x }
def State.withPwr (s : State) (x : Pwr) : State := { s with pwr := x }
def State.withDbg (s : State) (x : Dbg) : State := { s with dbg := x }
def State.withSec (s : State) (x : Sec) : State := { s with sec := x }
def State.withFns (s : State) (x : Vector Fn 14) : State := { s with fns := x }
def State.withPorts (s : State) (x : Vector TPort 6) : State := { s with ports := x }
def State.withSlice (s : State) (x : Slice) : State := { s with slice := x }
def State.withJob (s : State) (x : Job) : State := { s with job := x }
def State.withLoad (s : State) (x : Load) : State := { s with load := x }
def State.withStalls (s : State) (x : Sparse Stall) : State := { s with stalls := x }
def State.withMem (s : State) (x : Mem) : State := { s with mem := x }
def State.withTens (s : State) (x : Tensors) : State := { s with tens := x }
def State.withLedger (s : State) (x : Ledger) : State := { s with ledger := x }
def State.withHouse (s : State) (x : House) : State := { s with house := x }
def State.withStep (s : State) (x : Step) : State := { s with step := x }
def State.withSnap (s : State) (x : Snap) : State := { s with snap := x }
def State.withSite (s : State) (x : Site) : State := { s with site := x }
def State.withOut (s : State) (x : List Out) : State := { s with out := x }
def State.withFree (s : State) (x : Nat) : State := { s with free := x }

/-- A message leaves the module (in part DESIGN CHOICE: log 10). -/
def emit (o : Out) (s : State) : State := s.withOut (s.out ++ [o])

/-- Messages leave the module in order. -/
def emits (os : List Out) (s : State) : State := s.withOut (s.out ++ os)

/-- The next free value, and the state that has taken it (in part DESIGN CHOICE: log 6). -/
def takeFree (w : Nat) (s : State) : BitVec w × State :=
  (Config.freeValue w s.free, s.withFree (s.free + 1))

/-! ### Saturating counters -/

/-- A 32-bit count that stops at its maximum. -/
def sat32 (n : Nat) : W32 := BitVec.ofNat 32 (min n (2 ^ 32 - 1))

/-- A 48-bit count that stops at its maximum. -/
def sat48 (n : Nat) : W48 := BitVec.ofNat 48 (min n (2 ^ 48 - 1))

/-- A 32-bit counter increased by n. -/
def add32 (c : W32) (n : Nat) : W32 := sat32 (c.toNat + n)

/-- A 48-bit counter increased by n. -/
def add48 (c : W48) (n : Nat) : W48 := sat48 (c.toNat + n)

/-! ### Stalls, functions, ports -/

/-- The stall s (in part DESIGN CHOICE: log 9). -/
def getStall (s : State) (i : Fin 1024) : Stall := sget {} s.stalls i.val

/-- R471: the rolling self-test uses the stall now. -/
def underTest (s : State) (i : Nat) : Bool := decide (s.awn.tick.toNat < (sget {} s.stalls i).testUntil.toNat)

/-- The state with stall i replaced. -/
def setStall (s : State) (i : Fin 1024) (x : Stall) : State := s.withStalls (sput {} s.stalls i.val x)

/-- R528: the place of a function in `State.fns`. -/
def fnIndex : Func → Fin 14
  | .hall h => ⟨h.val, by omega⟩
  | .eth .ethA => 4
  | .eth .ethB => 5
  | .barter => 6
  | .countingHouse => 7
  | .torus .px => 8
  | .torus .nx => 9
  | .torus .py => 10
  | .torus .ny => 11
  | .torus .pz => 12
  | .torus .nz => 13

/-- The function's record. -/
def getFn (s : State) (f : Func) : Fn := s.fns[fnIndex f]

/-- The state with a function's record replaced. -/
def setFn (s : State) (f : Func) (x : Fn) : State := s.withFns (s.fns.set (fnIndex f) x)

/-- R599: the function is ON. -/
def fnOn (s : State) (f : Func) : Bool := decide ((getFn s f).state = .on)

/-- R339: the index of a torus port. -/
def portIx : Port → Fin 6
  | .px => 0 | .nx => 1 | .py => 2 | .ny => 3 | .pz => 4 | .nz => 5

/-- The torus port of an index. -/
def portOfIx (n : Nat) : Port :=
  match n with
  | 0 => .px | 1 => .nx | 2 => .py | 3 => .ny | 4 => .pz | _ => .nz

/-- R339: all six ports in order. -/
def allPorts : List Port := [.px, .nx, .py, .ny, .pz, .nz]

/-- A torus port. -/
def getPort (s : State) (p : Port) : TPort := s.ports[portIx p]

/-- The state with a torus port replaced. -/
def setPort (s : State) (p : Port) (x : TPort) : State := s.withPorts (s.ports.set (portIx p) x)

/-- R316, R321: a port's place in the unit coding. -/
def hallOfStall (i : Nat) : Nat := i / 256

/-! ### ALERT_N (R548, R500) -/

/-- R548: ALERT_N is asserted. A FATAL start-up failure asserts it too (R597). -/
def alertN (s : State) : Bool :=
  (s.saf.fatal && s.saf.fatalEn) || (s.saf.timeFault && s.saf.timeFaultEn) || s.pwr.startFault ||
  s.awn.cmps.toList.any (fun c => c.fired && c.alertEn)

/-- R500: the MSI-X vector is raised whenever ALERT_N is asserted anew. -/
def settleAlert (s : State) : State :=
  let a := alertN s
  s.withBus { s.bus with alert := a, msix := s.bus.msix + (if a && !s.bus.alert then 1 else 0) }

/-! ### Checks -/

/-- One step of a reflected CRC: eight shifts under a reflected polynomial. -/
def crcStep (poly : Nat) : Nat → Nat → Nat
  | 0, c => c
  | n + 1, c => crcStep poly n (if c % 2 = 1 then (c / 2) ^^^ poly else c / 2)

/-- R324: CRC-32C, reflected, initial value and final exclusive or all ones. -/
def crc32c (bs : Bytes) : W32 :=
  BitVec.ofNat 32 ((bs.foldl (fun c b => crcStep 0x82F63B78 8 (c ^^^ b.toNat)) 0xFFFFFFFF) ^^^ 0xFFFFFFFF)

/-- R200: CRC-64 over a byte string: the ECMA-182 polynomial bit-reflected, initial value and final exclusive or all
ones. -/
def crc64 (bs : Bytes) : W64 :=
  BitVec.ofNat 64 ((bs.foldl (fun c b => crcStep 0xC96C5795D7870F42 8 (c ^^^ b.toNat)) 0xFFFFFFFFFFFFFFFF)
    ^^^ 0xFFFFFFFFFFFFFFFF)

/-! ### The slice -/

/-- The module's slice extent as numbers. -/
def extentList (s : State) : List Nat := [s.slice.extent.1, s.slice.extent.2.1, s.slice.extent.2.2]

/-- R290: how many members the slice has. -/
def memberCount (s : State) : Nat := s.slice.extent.1 * s.slice.extent.2.1 * s.slice.extent.2.2

/-- R106: the member index at coordinates: slice-relative coordinates, x fastest. -/
def memberOfCoords (s : State) (c : Nat × Nat × Nat) : Nat :=
  let rel := fun (c o l : Nat) => if l = 0 then c - o else (c + l - o) % l
  let (ox, oy, oz) := s.slice.origin
  let (lx, ly, lz) := s.slice.lens
  rel c.1 ox lx + s.slice.extent.1 * (rel c.2.1 oy ly + s.slice.extent.2.1 * rel c.2.2 oz lz)

/-- R106: the module's member index. -/
def memberIndex (s : State) : Nat := (s.slice.coords.map (memberOfCoords s)).getD 0

/-- The lead is member 0, or the member that carries its role (R440). -/
def leadIndex (s : State) : Nat :=
  match s.slice.remap.find? (fun p => p.1 = 0) with
  | some (_, q) => q
  | none => 0

/-- Whether this module is the lead. -/
def isLead (s : State) : Bool := decide (memberIndex s = leadIndex s)

/-! ### Sections (R197 to R202) -/

/-- R198: the 64 bytes of a descriptor. -/
def descBytes (d : SectionDesc) : Bytes :=
  natLe 8 d.tid.toNat ++ natLe 6 d.epoch.toNat ++ natLe 2 d.sec.toNat ++
  natLe 1 (fmtCode d.fmt + (if d.mx then 16 else 0)) ++ natLe 1 d.rank ++ natLe 6 0 ++
  natLe 8 d.base ++ natLe 8 d.elems ++
  natLe 6 (d.dims.getD 0 1) ++ natLe 6 (d.dims.getD 1 1) ++ natLe 6 (d.dims.getD 2 1) ++ natLe 6 (d.dims.getD 3 1)

/-- R199 part 4: the 8 bytes of a write record. -/
def recordBytes (w : WriteRecord) : Bytes :=
  natLe 4 w.sat.toNat ++
  natLe 4 ((if w.range then 1 else 0) + (if w.nonfinite then 2 else 0) + (if w.tiny then 4 else 0))

/-- R199: the sealed message. -/
def sealedMessage (d : SectionDesc) (content scales : Bytes) (w : WriteRecord) : Bytes :=
  descBytes d ++ content ++ scales ++ recordBytes w

/-- R200: the seal of a section. -/
def sealOf (d : SectionDesc) (content scales : Bytes) (w : WriteRecord) : W64 :=
  crc64 (sealedMessage d content scales w)

/-- R203: a consumer's check of a section against the descriptor it expects. -/
def sealOk (expected : SectionDesc) (x : Section) : Bool :=
  decide (sealOf expected x.content x.scales x.record = x.sealWord)

/-- R67, R197: the packed bytes of n elements; those of a last FP6 group that is not full, of which the spec gives no layout, take
⌈6n/8⌉ bytes (DESIGN CHOICE: log 91). -/
def packedBytes (f : Fmt) (n : Nat) : Nat := (n * fmtBits f + 7) / 8

/-- R198: the element count of a tensor's dimensions. -/
def dimsElems (dims : List Nat) : Nat := dims.foldl (· * ·) 1

/-- R198: the row length of a tensor: its innermost dimension. -/
def rowLen (dims : List Nat) : Nat := dims.getLastD 1

/-- R67: the blocks that the elements base to base + n − 1 of a tensor overlap, by block number. -/
def blockOf (row : Nat) (i : Nat) : Nat := if row = 0 then 0 else (i / row) * ((row + 31) / 32) + (i % row) / 32

/-- R199 part 3: how many scales an MX section carries. -/
def scaleCount (row base n : Nat) : Nat := if n = 0 then 0 else blockOf row (base + n - 1) - blockOf row base + 1

/-- R197: the most elements of a section: 64 MiB of packed content, in multiples of 64 elements. The rule bounds a section and leaves
the plan the cut: here every section but a tensor's last is the largest that it allows (DESIGN CHOICE: log 91). -/
def sectionElems (f : Fmt) : Nat := 67108864 * 8 / fmtBits f / 64 * 64

/-- R197: the number of sections of a tensor. -/
def sectionCount (t : TensorDecl) : Nat :=
  let n := dimsElems t.dims
  if n = 0 then 0 else (n + sectionElems t.fmt - 1) / sectionElems t.fmt

/-- R197, R198: the descriptor of section i of a tensor at an epoch. -/
def sectionDesc (t : TensorDecl) (i : Nat) (epoch : W48) : SectionDesc :=
  let m := sectionElems t.fmt
  { tid := t.tid, epoch := epoch, sec := BitVec.ofNat 16 i, fmt := t.fmt, mx := t.mx, rank := t.dims.length,
    base := i * m, elems := min m (dimsElems t.dims - i * m), dims := t.dims }

/-- R146, R169: state tensors are parameters, remainders and moments. -/
def isState (r : TensorRole) : Bool :=
  match r with
  | .param | .remainder | .moment => true
  | _ => false

/-- The tensor of the loaded program with an id. -/
def findTensor (s : State) (tid : W64) : Option TensorDecl :=
  match s.load.prog with
  | some p => p.tensors.find? (fun t => t.tid = tid)
  | none => none

/-- R153, R197, R296: the sections of a tensor that the numeric plan places on this member: all of them unless the plan
names fewer. -/
def heldSections (s : State) (t : TensorDecl) : List Nat :=
  match s.load.plan.bind (fun p => p.holds.find? (fun x => decide (x.1 = memberIndex s) && decide (x.2.1 = t.tid))) with
  | some x => (List.range x.2.2.2).map (x.2.2.1 + ·)
  | none => List.range (sectionCount t)

/-- R153: how many of a logical tensor's `elems` elements this member holds (in part DEDUCED: log 26). -/
def heldElems (s : State) (tid : W64) (elems : Nat) : Nat :=
  match findTensor s tid with
  | some t => min elems (((heldSections s t).map (fun i => (sectionDesc t i 0).elems)).foldl (· + ·) 0)
  | none => elems

/-- R184: the committed buffer (in part DESIGN CHOICE: log 32). -/
def committed (s : State) : List Section := if s.job.bufSel then s.tens.bufB else s.tens.bufA

/-- R184: the shadow buffer (in part DESIGN CHOICE: log 32). -/
def shadow (s : State) : List Section := if s.job.bufSel then s.tens.bufA else s.tens.bufB

/-- Replaces or adds a section in a buffer, kept by tensor id and section (in part DESIGN CHOICE: log 32). -/
def putSection (l : List Section) (x : Section) : List Section :=
  match l with
  | [] => [x]
  | y :: t =>
    if y.desc.tid = x.desc.tid ∧ y.desc.sec = x.desc.sec then x :: t
    else if x.desc.tid.toNat < y.desc.tid.toNat ∨ (x.desc.tid = y.desc.tid ∧ x.desc.sec.toNat < y.desc.sec.toNat) then
      x :: y :: t
    else y :: putSection t x

/-- The committed buffer replaced. -/
def setCommitted (s : State) (l : List Section) : State :=
  s.withTens (if s.job.bufSel then { s.tens with bufB := l } else { s.tens with bufA := l })

/-- The shadow buffer replaced. -/
def setShadow (s : State) (l : List Section) : State :=
  s.withTens (if s.job.bufSel then { s.tens with bufA := l } else { s.tens with bufB := l })

/-- A section of a buffer. -/
def findSection (l : List Section) (tid : W64) (sec : Nat) : Option Section :=
  l.find? (fun x => decide (x.desc.tid = tid) && decide (x.desc.sec.toNat = sec))

/-- R200, R205: a section whose content does not give its seal. -/
def sealBroken (x : Section) : Bool := decide (sealOf x.desc x.content x.scales x.record ≠ x.sealWord)

/-- R431: the digest of a set of sections: the CRC-64 of R200 over their seals in section order. -/
def digestOf (l : List Section) : W64 := crc64 (l.flatMap (fun x => natLe 8 x.sealWord.toNat))

end Sys2Proof.Machine
end

