-- ==== Sys2Proof/Machine/Flits.lean ====
section
/-! DEFINITION. The bytes of flits and packets on a torus lane (R323 to R326) and their CRC. -/

namespace Sys2Proof.Machine

/-- R323: the code of a flit type. -/
def flitCode : FlitType → Nat
  | .idle => 0 | .head => 1 | .body => 2 | .tail => 3 | .solo => 4 | .control => 5 | .time => 6 | .ident => 7

/-- R323: the index of a virtual channel. -/
def vcIx : VC → Fin 4
  | .bulkT0 => 0 | .bulkT1 => 1 | .prioT0 => 2 | .prioT1 => 3

/-- R323: bytes [59:0] of a flit. -/
def flitBody (f : Flit) : Bytes :=
  (f.payload ++ List.replicate 56 0).take 56 ++ natLe 2 f.seq.toNat ++
  [BitVec.ofNat 8 (flitCode f.ftype + 8 * (vcIx f.vc).val + 32 * f.kindHigh.toNat), f.byte59]

/-- R324: the flit's CRC passes. -/
def flitOk (f : Flit) : Bool := decide (crc32c (flitBody f) = f.crc)

/-- R323: HEAD, BODY, TAIL and SOLO are data flits. -/
def isData (f : Flit) : Bool :=
  decide (f.ftype = .head) || decide (f.ftype = .body) || decide (f.ftype = .tail) || decide (f.ftype = .solo)

/-- R323, R326: a link flit of a type with a payload: its SEQ and reserved fields are 0, and so are the VC bits of KIND, which no rule
gives a link flit (DESIGN CHOICE: log 105). -/
def linkFlit (ft : FlitType) (payload : Bytes) (crc : W32) : Flit :=
  { payload := payload, seq := 0, ftype := ft, vc := .bulkT0, kindHigh := 0, byte59 := 0, crc := crc }

/-- R326: bytes [11:0] of a CONTROL payload. -/
def controlBytes (ackSeq : W16) (nak : Bool) (freed : List W16) : Bytes :=
  natLe 2 ackSeq.toNat ++ natLe 1 (if nak then 1 else 0) ++ natLe 1 0 ++
  (List.range 4).flatMap (fun v => natLe 2 (freed.getD v 0).toNat)

/-- R326: a time stamp's nine bytes: ticks, then the fraction in 1/256 ns. -/
def stampBytes (t : Nat) : Bytes := natLe 8 (t / 256) ++ natLe 1 (t % 256)

/-- R326: bytes [37:0] of a TIME payload. -/
def timeBytes (f : TimeFlit) : Bytes :=
  stampBytes f.tx ++ stampBytes f.echoTx ++ stampBytes f.echoRx ++ natLe 8 f.rootId.toNat ++ natLe 2 f.hops.toNat ++ [f.tstate]

/-- R326: bytes [20:0] of an IDENT payload. -/
def identBytes (x y z lx ly lz port : Nat) (assigned : Bool) (slice : W32) (serial : W64) (reach : Nat) : Bytes :=
  natLe 1 x ++ natLe 1 y ++ natLe 1 z ++ natLe 1 lx ++ natLe 1 ly ++ natLe 1 lz ++ natLe 1 port ++
  natLe 1 (if assigned then 1 else 0) ++ natLe 4 slice.toNat ++ natLe 8 serial.toNat ++ natLe 1 reach

/-- R324: the CRC of a received CONTROL flit passes. -/
def controlOk (c : ControlFlit) : Bool := flitOk (linkFlit .control (controlBytes c.ackSeq c.nak c.freed) c.crc)

/-- R324: the CRC of a received TIME flit passes. -/
def timeOk (f : TimeFlit) : Bool := flitOk (linkFlit .time (timeBytes f) f.crc)

/-- R324: the CRC of a received IDENT flit passes. -/
def identOk (i : Ident) : Bool :=
  flitOk (linkFlit .ident (identBytes i.x i.y i.z i.lx i.ly i.lz i.port i.assigned i.sliceId i.serial i.reach.toNat) i.crc)

/-- R325: the packet header. -/
def headerBytes (pkt : Packet) : Bytes :=
  natLe 1 pkt.destX ++ natLe 1 pkt.destY ++ natLe 1 pkt.destZ ++ natLe 1 pkt.cls ++ natLe 4 pkt.sliceId.toNat ++
  natLe 2 pkt.src ++ natLe 2 pkt.bytes ++ natLe 1 (pkt.flits - 1) ++ natLe 3 0 ++ natLe 4 pkt.stream.toNat ++ natLe 4 0

/-- R325: flit i of a packet, with its payload part. -/
def packetFlit (pkt : Packet) (vc : VC) (seq : W16) (i : Nat) : Flit :=
  let ft : FlitType := if pkt.flits ≤ 1 then .solo else if i = 0 then .head else if i + 1 = pkt.flits then .tail else .body
  let pay := if i = 0 then headerBytes pkt ++ pkt.payload.take 32 else (pkt.payload.drop (32 + 56 * (i - 1))).take 56
  let f : Flit := { payload := (pay ++ List.replicate 56 0).take 56, seq := seq + BitVec.ofNat 16 i, ftype := ft, vc := vc,
                    kindHigh := 0, byte59 := 0, crc := 0 }
  { f with crc := crc32c (flitBody f) }

/-- R325: a HEAD or a SOLO, whose payload begins with the packet header. -/
def hasHeader (f : Flit) : Bool := decide (f.ftype = .head) || decide (f.ftype = .solo)

/-- R325: the reserved bytes [15:13] and [23:20] of a packet header. -/
def headerReserved (f : Flit) : Bytes := (f.payload.drop 13).take 3 ++ (f.payload.drop 20).take 4

/-- R325: what a packet's flit carries: its type and its payload but for the header's reserved bytes. -/
def flitShown (f : Flit) : FlitType × Bytes :=
  (f.ftype, if hasHeader f then f.payload.take 13 ++ (f.payload.drop 16).take 4 ++ f.payload.drop 24 else f.payload)

end Sys2Proof.Machine
end

