-- ==== Sys2Proof/Machine/Logbook.lean ====
section
/-! DEFINITION. The Logbook (R487 to R495, R640): records, the staging queue, the ring of segments and freezes; the
counters of corrections and detections that stand beside it in the SAF_ block. -/

namespace Sys2Proof.Machine

/-- R488: the 16-bit UNIT code. -/
def unitCode : UnitId → Nat
  | .none => 0
  | .stall s => 1 * 4096 + s.val
  | .cellar s => 2 * 4096 + s.val
  | .hall h => 3 * 4096 + h.val
  | .pipe p => 4 * 4096 + p.val
  | .clerk p => 5 * 4096 + p.val
  | .torusPort p => 6 * 4096 + (portIx p).val
  | .ethPort e => 7 * 4096 + (match e with | .ethA => 0 | .ethB => 1)
  | .farCtl c => 8 * 4096 + c.val
  | .ledger => 9 * 4096
  | .barter => 10 * 4096
  | .monitor i => 11 * 4096 + i.toNat
  | .other i => 12 * 4096 + i.toNat

/-- R488: the 64 bytes of a record, its CRC last. -/
def logBytes (r : LogRec) : Bytes :=
  let body := natLe 8 r.seq.toNat ++ natLe 8 r.tick.toNat ++ natLe 4 r.rtc.toNat ++ natLe 2 r.code.toNat ++
    natLe 1 (r.sev.toNat + (if r.synced then 8 else 0) + (if r.cont then 16 else 0)) ++ natLe 1 r.attempt.toNat ++
    natLe 6 r.epoch.toNat ++ natLe 2 (unitCode r.unit) ++ r.detail
  body ++ natLe 4 (crc32c body).toNat

/-- R640: a DETAIL padded with zeros to 28 bytes. -/
def pad28 (b : Bytes) : Bytes := (b ++ List.replicate 28 0).take 28

/-- R640: a DETAIL content in pieces of 28 bytes; `n` bounds the number of pieces. -/
def detailPieces : Nat → Bytes → List Bytes
  | 0, _ => []
  | n + 1, b => if b.length ≤ 28 then [pad28 b] else b.take 28 :: detailPieces n (b.drop 28)

/-- The epoch a record names: that of the step in progress, E + 1 while a step runs, else the committed epoch. -/
def runningEpoch (s : State) : W48 := if s.step.run.isSome then s.job.epoch + 1 else s.job.epoch

/-- R488, R640: the records of one DETAIL content, stamped now; SEQ is assigned on entry into the queue. -/
def makeRecords (s : State) (code : W16) (sev : BitVec 3) (unit : UnitId) (detail : Bytes) : List LogRec :=
  let pieces := detailPieces (detail.length / 28 + 1) detail
  pieces.mapIdx (fun i d =>
    { seq := 0, tick := s.awn.tick, rtc := s.awn.rtc, code := code, sev := sev,
      synced := decide (s.awn.tstate = .synced), cont := decide (i ≠ 0), attempt := s.step.attempt,
      epoch := runningEpoch s, unit := unit, detail := d })

/-- R492: records that are never dropped: SEV 3 and 4, and codes 0x0300 to 0x0303 (in part DEDUCED: log 27). -/
def neverDropped (code : W16) (sev : BitVec 3) : Bool :=
  decide (3 ≤ sev.toNat) || (decide (0x300 ≤ code.toNat) && decide (code.toNat ≤ 0x303))

/-- R491: the reserve before the next SEQ is used. -/
def raiseReserve (l : Log) : Log :=
  if l.reserve.toNat ≤ l.nextSeq.toNat then { l with reserve := l.reserve + 65536 } else l

/-- R491, R492: one record enters the staging queue and takes its SEQ. -/
def enterOne (l : Log) (r : LogRec) : Log :=
  let l := raiseReserve l
  { l with queue := l.queue ++ [{ r with seq := l.nextSeq }], nextSeq := l.nextSeq + 1 }

/-- The records of a group enter together, with consecutive SEQ (R640). -/
def enterAll (l : Log) (rs : List LogRec) : Log := rs.foldl enterOne l

/-- R479: the SAF_ flags and SEQ of a record that has entered the queue with the SEQ given. -/
def flagRecord (f : Saf) (r : LogRec) (seq : W64) : Saf :=
  let f := if r.sev = 3 then { f with detected := true } else if r.sev = 4 then { f with fatal := true } else f
  let f := if 3 ≤ r.sev.toNat then { f with lastSeq := seq } else f
  if r.code = 0x201 ∧ ¬ r.cont then { f with replays := add32 f.replays 1 } else f

/-- The flags of a group that enters at a first SEQ. -/
def flagAll (f : Saf) (seq : W64) : List LogRec → Saf
  | [] => f
  | r :: t => flagAll (flagRecord f r seq) (seq + 1) t

/-- R492: a group enters the queue: flags, SEQ and ALERT_N follow (in part DEDUCED: log 27). -/
def enterGroup (rs : List LogRec) (s : State) : State :=
  let seq := s.log.nextSeq
  settleAlert ((s.withLog (enterAll s.log rs)).withSaf (flagAll s.saf seq rs))

/-- R492: the module offers a group of records to the queue: INFO and NOTICE records are dropped above 3,840 entries,
and a group that finds no room waits for it in order (in part DEDUCED: log 27). -/
def offerGroup (rs : List LogRec) (s : State) : State :=
  match rs with
  | [] => s
  | r :: _ =>
    if decide (s.log.queue.length > 3840) && decide (r.sev.toNat < 2) && !neverDropped r.code r.sev then
      s.withLog { s.log with lost := s.log.lost + rs.length, lostWindow := s.log.lostWindow + rs.length }
    else if s.log.queue.length + rs.length ≤ 4096 ∧ s.log.waiting = [] then enterGroup rs s
    else s.withLog { s.log with waiting := s.log.waiting ++ [rs] }

/-- R488, R492: the module writes an event with its code, severity, unit and DETAIL content
(in part DEDUCED: log 83). -/
def logEvent (code : W16) (sev : BitVec 3) (unit : UnitId) (detail : Bytes) (s : State) : State :=
  offerGroup (makeRecords s code sev unit detail) s

/-! ### Segments and freezes (R487, R494) -/

/-- The next segment of the ring after p that is not frozen; p itself when all others are. -/
def nextSegGo (frozen : List Nat) : Nat → Nat → Nat
  | 0, p => p
  | n + 1, p => let q := (p + 1) % 16; if q ∈ frozen then nextSegGo frozen n q else q

/-- R494: freezing segment q, or the FREEZE_SKIPPED record when eight are frozen (in part DEDUCED: log 27). -/
def freezeSegment (q : Nat) (s : State) : State :=
  if q ∈ s.log.frozen then s
  else if s.log.frozen.length ≥ 8 then
    logEvent 0x900 1 .none ([1, 0, 0, 0] ++ natLe 4 1) s
  else
    logEvent 0x900 1 .none ([0, BitVec.ofNat 8 q, 0, 0] ++ natLe 4 1)
      (s.withLog { s.log with frozen := s.log.frozen ++ [q] })

/-- R494: a FATAL record has been written into the current segment at index i (in part DEDUCED: log 27). -/
def fatalWritten (i : Nat) (s : State) : State :=
  let p := s.log.seg
  if p ∈ s.log.due ∨ p ∈ s.log.frozen then s
  else
    let s := s.withLog { s.log with due := s.log.due ++ [p] }
    match decide (i < 16384), s.log.prevSeg with
    | true, some q => freezeSegment q s
    | _, _ => s

/-- R487, R494: after a write, a full segment ends: it is frozen when due, and the ring moves on, overwriting the
next segment that is not frozen. -/
def endSegment (s : State) : State :=
  let p := s.log.seg
  if (sget [] s.log.segs p).length < 65536 then s
  else
    let s := if p ∈ s.log.due then
        freezeSegment p (s.withLog { s.log with due := s.log.due.filter (· ≠ p) }) else s
    let q := nextSegGo s.log.frozen 16 p
    s.withLog { s.log with seg := q, prevSeg := some p, segs := sput [] s.log.segs q [] }

/-- R492: the groups that wait enter while there is room; `n` bounds their number (in part DEDUCED: log 27). -/
def admitWaiting : Nat → State → State
  | 0, s => s
  | n + 1, s =>
    match s.log.waiting with
    | [] => s
    | g :: t =>
      if s.log.queue.length + g.length ≤ 4096 then
        admitWaiting n (enterGroup g (s.withLog { s.log with waiting := t }))
      else s

/-- R492: the LOST_EVENTS record once the queue holds 3,840 entries or fewer. -/
def reportLost (s : State) : State :=
  if 0 < s.log.lost ∧ s.log.queue.length ≤ 3840 then
    let n := s.log.lost
    logEvent 0x900 1 .none ([2, 0, 0, 0] ++ natLe 4 n) (s.withLog { s.log with lost := 0 })
  else s

/-- R492: the MRAM absorbs the oldest record of the queue. -/
def mramWrite (s : State) : State :=
  match s.log.queue with
  | [] => s
  | r :: t =>
    let p := s.log.seg
    let cur := sget [] s.log.segs p
    let s := s.withLog { s.log with queue := t, segs := sput [] s.log.segs p (cur ++ [r]) }
    let s := if r.sev = 4 then fatalWritten cur.length s else s
    reportLost (endSegment s)

/-- The whole queue drains into the MRAM (R493); `n` bounds the records. -/
def drainQueue : Nat → State → State
  | 0, s => s
  | n + 1, s => match s.log.queue with
    | [] => s
    | _ => drainQueue n (admitWaiting s.log.waiting.length (mramWrite s))

/-- R493: every pending freeze completes at once. -/
def completeFreezes (s : State) : State :=
  s.log.due.foldl (fun s p => freezeSegment p (s.withLog { s.log with due := s.log.due.filter (· ≠ p) })) s

/-! ### Corrections and detections -/

/-- R194, R546: a correction is counted and recorded: mechanism, address and count. -/
def countCorrection (mech : Nat) (unit : UnitId) (addr : Nat) (s : State) : State :=
  let s := s.withSaf { s.saf with corrections := add48 s.saf.corrections 1, corrected := true }
  logEvent 0x101 2 unit ([BitVec.ofNat 8 mech, 0, 0, 0] ++ natLe 8 addr ++ natLe 4 1) s

/-- R466, R489, R546: a detection is counted and recorded (in part DEDUCED: log 38). -/
def countDetection (mech : Nat) (unit : UnitId) (location : W32) (observed expected : W64) (s : State) : State :=
  let s := s.withSaf { s.saf with detections := add48 s.saf.detections 1 }
  logEvent 0x100 3 unit
    ([BitVec.ofNat 8 mech, 0, 0, 0] ++ natLe 4 location.toNat ++ natLe 8 observed.toNat ++ natLe 8 expected.toNat) s

/-- The SEQ that the next record takes. -/
def nextSeq (s : State) : W64 := s.log.nextSeq

/-! ### SECURITY records and measurements (R565, R581) -/

/-- The hash of this chapter: SHAKE256 with a 32-byte output. -/
def hash32 (b : Bytes) : Bytes := Config.shake256 b 32

/-- R581: a SECURITY record. -/
def logSecurity (event : Nat) (rest : Bytes) (s : State) : State := logEvent 0x600 1 .none (BitVec.ofNat 8 event :: rest) s

/-- R565: an event extends a measurement register and appends to the attestation log. The spec gives the event kinds no
codes, so the entry's kind is a free value (in part DEDUCED: log 46). -/
def extend (reg : Fin 8) (d : Bytes) (s : State) : State :=
  let (kind, s) := takeFree 8 s
  let full := decide (4096 ≤ s.sec.attLog.length)
  let e : AttEntry := { reg := reg.val, event := kind.toNat, epoch := if s.step.run.isSome then runningEpoch s else 0,
                        tick := s.awn.tick, digest := d }
  s.withSec { s.sec with
    meas := s.sec.meas.set reg (hash32 (s.sec.meas[reg] ++ d)),
    attLog := if full then s.sec.attLog else s.sec.attLog ++ [e], logOverflow := s.sec.logOverflow || full }

end Sys2Proof.Machine
end

