-- ==== Sys2Proof/Machine/Flags.lean ====
section
/-! DEFINITION. What writes and instructions report: write records (R89 to R91), sticky counters (R132, R133), the
drain path (R74 to R88), block scales, draw words (R150) and the writing of a tensor's elements. -/

namespace Sys2Proof.Machine

/-! ### Draws (R150 to R154) -/

/-- One round of R150 on (x0, x1, x2, x3) with the keys (a, b). -/
def drawRound (x : W32 × W32 × W32 × W32) (a b : W32) : W32 × W32 × W32 × W32 :=
  let p0 := 0xD2B74407 * x.1.toNat
  let p1 := 0xC8A13F5B * x.2.2.1.toNat
  let hi := fun (p : Nat) => BitVec.ofNat 32 (p / 2 ^ 32)
  let lo := fun (p : Nat) => BitVec.ofNat 32 p
  (hi p1 ^^^ x.2.1 ^^^ a, lo p1, hi p0 ^^^ x.2.2.2 ^^^ b, lo p0)

/-- The rounds of R150 from round n on; `left` counts them. -/
def drawGo : Nat → Nat → (k0 k1 k2 k3 : W32) → W32 × W32 × W32 × W32 → W32
  | 0, _, _, _, _, _, x => x.1
  | left + 1, n, k0, k1, k2, k3, x =>
    drawGo left (n + 1) (k0 + 0x9E3779B9) (k1 + 0x7F4A7C15) (k2 + 0x9E3779B9) (k3 + 0x7F4A7C15)
      (if n % 2 = 0 then drawRound x k0 k1 else drawRound x k2 k3)

/-- R150: the draw word for a job seed, a stream id and a counter. -/
def drawWord (k : W128) (i : W32) (c : W64) : W32 :=
  drawGo 10 0 (k.extractLsb' 0 32) (k.extractLsb' 32 32) (k.extractLsb' 64 32) (k.extractLsb' 96 32)
    (c.extractLsb' 0 32, c.extractLsb' 32 32, i, 0x64726177)

/-- R152: a stream id with bit [31] set is an evaluation stream. -/
def isEvalStream (i : W32) : Bool := i.msb

/-- R151, R170: a stream's counter. -/
def drawCounter (s : State) (i : W32) : W64 :=
  if isEvalStream i then sget 0 s.job.evalDraws i.toNat else sget 0 s.job.draws i.toNat

/-- A stream's counter set. -/
def setDrawCounter (s : State) (i : W32) (c : W64) : State :=
  if isEvalStream i then s.withJob { s.job with evalDraws := sput 0 s.job.evalDraws i.toNat c }
  else s.withJob { s.job with draws := sput 0 s.job.draws i.toNat c }

/-! ### Write records and totals -/

/-- R90: two partial records merged. -/
def mergeRecord (a b : WriteRecord) : WriteRecord :=
  { sat := add32 a.sat b.sat.toNat, range := a.range || b.range, nonfinite := a.nonfinite || b.nonfinite,
    tiny := a.tiny || b.tiny }

/-- R89: what one conversion adds to a write record. -/
def convRecord (c : Conv) : WriteRecord :=
  { sat := if c.sat then 1 else 0, range := c.range, nonfinite := c.nonfinite, tiny := c.tiny }

/-- R91: a write record added into a tensor's totals. -/
def addTotal (t : ConvTotal) (r : WriteRecord) : ConvTotal :=
  { sat := add48 t.sat r.sat.toNat, range := t.range || r.range, nonfinite := t.nonfinite || r.nonfinite,
    tiny := t.tiny || r.tiny }

/-- R132: a stall's counters of one verb increased. -/
def addSticky (t : Sticky) (inv ovf nf : Nat) : Sticky :=
  { invalid := add32 t.invalid inv, overflow := add32 t.overflow ovf, nonfinite := add32 t.nonfinite nf }

/-- R133: a stall's counters added into the verb's totals. -/
def addVerbTotal (t : VerbTotal) (k : Sticky) : VerbTotal :=
  { invalid := add48 t.invalid k.invalid.toNat, overflow := add48 t.overflow k.overflow.toNat,
    nonfinite := add48 t.nonfinite k.nonfinite.toNat }

/-- R171: an EVAL_RUN is running. -/
def inEval (s : State) : Bool :=
  match s.step.run with
  | some r => r.eval
  | none => false

/-- R485: the running command is an AUDIT_REPLAY. -/
def auditing (s : State) : Bool := s.step.run.any (fun r => r.audit.isSome)

/-- R91, R171: a write record goes to the totals of the training step or of the evaluation. -/
def recordTotal (tid : W64) (r : WriteRecord) (s : State) : State :=
  if inEval s then
    s.withTens { s.tens with evalConv := sput {} s.tens.evalConv tid.toNat (addTotal (sget {} s.tens.evalConv tid.toNat) r) }
  else
    s.withTens { s.tens with conv := sput {} s.tens.conv tid.toNat (addTotal (sget {} s.tens.conv tid.toNat) r) }

/-- R133, R171: a stall's verb counters go to the totals of the training step or of the evaluation. -/
def verbTotal (verb : Nat) (k : Sticky) (s : State) : State :=
  if inEval s then
    s.withTens { s.tens with evalVerbs := sput {} s.tens.evalVerbs verb (addVerbTotal (sget {} s.tens.evalVerbs verb) k) }
  else
    s.withTens { s.tens with verbs := sput {} s.tens.verbs verb (addVerbTotal (sget {} s.tens.verbs verb) k) }

/-! ### The drain control word (R74) -/

/-- Bits lo to lo + n − 1 of a 64-bit word, as a number. -/
def bits64 (w : W64) (lo n : Nat) : Nat := (w.extractLsb' lo n).toNat

def dcStream (w : W64) : W32 := w.extractLsb' 32 32
def dcSpec (w : W64) : Bool := w.getLsbD 27
def dcClip (w : W64) : Bool := w.getLsbD 26
def dcBiasSrc (w : W64) : Nat := bits64 w 24 2
def dcScaleSrc (w : W64) : Nat := bits64 w 22 2
def dcOvfInf (w : W64) : Bool := w.getLsbD 21
def dcMxOut (w : W64) : Bool := w.getLsbD 20
def dcRm (w : W64) : RMode := rmOfCode (bits64 w 18 2)
def dcFmt (w : W64) : Fmt := (fmtOfCode (bits64 w 12 4)).getD .a32
/-- The reserved bits of R74. -/
def dcReserved (w : W64) : Bool := decide (bits64 w 28 4 ≠ 0) || decide (bits64 w 16 2 ≠ 0) || decide (bits64 w 0 12 ≠ 0)

/-- R76 step 1: v = x · a + b exactly, under IEEE 754 rules for special values. Without a bias the product keeps its
sign of zero, so that both routes of R81 store the same bits (in part DEDUCED: log 12). -/
def drainAffine (d : DrainDesc) (colScale colBias : W32) (x : W32) : Val :=
  let a := match dcScaleSrc d.control with
    | 0 => .fin false 1 0
    | 1 => ofA32 d.scale
    | _ => ofA32 colScale
  let p := Val.mul (ofA32 x) a
  match dcBiasSrc d.control with
  | 0 => p
  | 1 => Val.add p (ofA32 d.bias)
  | _ => Val.add p (ofA32 colBias)

/-- R76 step 2: the clip bounds. -/
def drainClip (d : DrainDesc) (v : Val) : Val :=
  if dcClip d.control then
    if Val.lt v (ofA32 d.clipLo) then ofA32 d.clipLo
    else if Val.lt (ofA32 d.clipHi) v then ofA32 d.clipHi
    else v
  else v

/-- R77: a non-finite x sets NONFINITE even when clipping made the result finite. -/
def markNonfinite (x : W32) (c : Conv) : Conv := { c with nonfinite := c.nonfinite || isNonfinite32 x }

/-- R76: the drain of one element to a plain target. `r` is the draw word (in part DEDUCED: log 12). -/
def drainPlain (d : DrainDesc) (colScale colBias : W32) (r : Nat) (x : W32) : Conv :=
  markNonfinite x
    (convert (dcFmt d.control) (dcRm d.control) (dcOvfInf d.control) r (drainClip d (drainAffine d colScale colBias x)))

/-! ### Block scales (R87, R88) -/

/-- |v|. -/
def Val.abs : Val → Val
  | .nan => .nan
  | .inf _ => .inf false
  | .fin _ m e => .fin false m e

/-- The index of the largest magnitude, the lowest index among equals, with the magnitude. -/
def maxMag : Nat → List Val → Nat × Val → Nat × Val
  | _, [], best => best
  | i, v :: t, best => maxMag (i + 1) t (if Val.lt best.2 (Val.abs v) then (i, Val.abs v) else best)

/-- Whether a value is an exact zero. -/
def Val.isZero : Val → Bool
  | .fin _ m _ => decide (m = 0)
  | _ => false

/-- R87: the exponent of the block scale before R88 bounds it. -/
def mxExponent (f : Fmt) (rm : RMode) (spec : Bool) (r : Nat) (m : Val) : Int :=
  match m with
  | .fin _ n e =>
    let x := floorLog2 n e - fmtEmax f
    if spec then x else if (convert f rm false r (m.scale (-x))).sat then x + 1 else x
  | _ => 0

/-- R87, R88: one block: its scale and the conversion of each element; `draws` holds the elements' draw words. -/
def mxBlock (f : Fmt) (rm : RMode) (spec : Bool) (vals : List Val) (draws : List Nat) : Byte × List Conv :=
  if vals.any Val.nonfinite then (0xFF, vals.map (fun _ => { code := 0, nonfinite := true }))
  else if vals.all Val.isZero then (0, vals.map (convert f rm false 0))
  else
    let (i, m) := maxMag 0 vals (0, Val.zero)
    let x := max (-127) (min 127 (mxExponent f rm spec (draws.getD i 0) m))
    (BitVec.ofInt 8 (x + 127), vals.mapIdx (fun j v => convert f rm false (draws.getD j 0) (v.scale (-x))))

/-! ### Writing a tensor's elements -/

/-- R79: the logical element count of a tensor of the loaded program. -/
def tensorElems (s : State) (tid : W64) : Nat := ((findTensor s tid).map (fun t => dimsElems t.dims)).getD 0

/-- R79: where the next counter range of a stream begins: at its counter, or past the ranges of the writes in progress, which
began before (in part DEDUCED: log 26). -/
def nextRange (s : State) (id : W32) : W64 :=
  s.tens.writes.foldl (fun c x => match x.2 with
    | some w => if w.stream = some id then
        let e := w.c0 + BitVec.ofNat 64 (tensorElems s (BitVec.ofNat 64 x.1))
        if (e - c).toNat < 2 ^ 63 then e else c
      else c
    | none => c) (drawCounter s id)

/-- R79: the write of a tensor that is in progress, or the one that begins now with the stream's next range. -/
def openWrite (s : State) (tid : W64) (stream : Option W32) : TensorWrite :=
  match sget none s.tens.writes tid.toNat with
  | some w => w
  | none =>
    { c0 := match stream with | some i => nextRange s i | none => 0,
      stream := stream, codes := [], scales := [], records := [] }

/-- R79: the draw word of element i of the tensor being written; 0 where the write uses no stream. -/
def writeDraw (s : State) (w : TensorWrite) (i : Nat) : Nat :=
  match w.stream with
  | some id => (drawWord s.job.seed id (w.c0 + BitVec.ofNat 64 i)).toNat
  | none => 0

/-- One element entered into a write: its code and its part of the record of R89 for its section and stall
(in part DESIGN CHOICE: log 26). -/
def enterElem (f : Fmt) (stall : Nat) (w : TensorWrite) (i : Nat) (c : Conv) : TensorWrite :=
  let k := 1024 * (i / sectionElems f) + stall
  { w with
    codes := sput none w.codes i (some (BitVec.ofNat 32 c.code)),
    records := sput {} w.records k (mergeRecord (sget {} w.records k) (convRecord c)) }

/-- A block's scale entered into a write. -/
def enterScale (w : TensorWrite) (block : Nat) (x : Byte) : TensorWrite := { w with scales := sput 0 w.scales block x }

/-- R90: the records of one section merged in ascending stall index. -/
def sectionRecord (w : TensorWrite) (sec : Nat) : WriteRecord :=
  (w.records.filter (fun p => p.1 / 1024 = sec)).foldl (fun r p => mergeRecord r p.2) {}

/-- R198, R199: section i of a completed write. -/
def buildSection (t : TensorDecl) (w : TensorWrite) (i : Nat) (epoch : W48) : Section :=
  let d := sectionDesc t i epoch
  let codes := (List.range d.elems).map (fun j => ((sget none w.codes (d.base + j)).getD 0).toNat)
  let content := packCodes t.fmt codes
  let b0 := blockOf (rowLen t.dims) d.base
  let scales := if t.mx then (List.range (scaleCount (rowLen t.dims) d.base d.elems)).map
    (fun j => sget 0 w.scales (b0 + j)) else []
  let r := sectionRecord w i
  { desc := d, content := content, scales := scales, record := r, sealWord := sealOf d content scales r }

/-- R146: a section goes to the shadow buffer when its tensor is state, else to the tensor's only buffer. A member that has sent
PREPARED keeps both buffers unchanged (R434). -/
def storeSection (t : TensorDecl) (x : Section) (s : State) : State :=
  if isState t.role && !inEval s then (if s.step.prepared then s else setShadow s (putSection (shadow s) x))
  else s.withTens { s.tens with plain := putSection s.tens.plain x }

/-- R198: the epoch of a write: the epoch of the step in progress; of the commit read, for an evaluation. -/
def writeEpoch (s : State) : W48 := if inEval s then s.job.epoch else s.job.epoch + 1

/-- R79: a stream's counter moved to the end of a range, and never back (in part DEDUCED: log 26). -/
def passRange (s : State) (id : W32) (e : W64) : State :=
  if (e - drawCounter s id).toNat < 2 ^ 63 then setDrawCounter s id e else s

/-- R79, R90, R91, R202: the end of a write: the stream's counter stands past the tensor, the record joins the totals
and the sections are stored (in part DESIGN CHOICE: log 26). -/
def endWrite (tid : W64) (elems : Nat) (w : TensorWrite) (s : State) : State :=
  let s := match w.stream with
    | some id => passRange s id (w.c0 + BitVec.ofNat 64 elems)
    | none => s
  let s := recordTotal tid (w.records.foldl (fun r p => mergeRecord r p.2) {}) s
  let s := s.withTens { s.tens with writes := sput none s.tens.writes tid.toNat none }
  match findTensor s tid with
  | none => s
  | some t => (heldSections s t).foldl (fun s i => storeSection t (buildSection t w i (writeEpoch s)) s) s

/-- A write kept in progress, or ended when every element of the tensor that this module holds has been written
(in part DESIGN CHOICE: log 26). -/
def keepWrite (tid : W64) (elems : Nat) (w : TensorWrite) (s : State) : State :=
  if heldElems s tid elems ≤ w.codes.length then endWrite tid elems w s
  else s.withTens { s.tens with writes := sput none s.tens.writes tid.toNat (some w) }

end Sys2Proof.Machine
end

