-- ==== Sys2Proof/Machine/Mailbox.lean ====
section
/-! DEFINITION. The mailbox (R502 to R527): doorbells, descriptors, tokens, status words, records, the end of a
command, agreement, and the commands HELLO, JOB_OPEN and JOB_CLOSE. -/

namespace Sys2Proof.Machine

/-! ### Descriptor fields (R506, R507, R523) -/

/-- The little-endian field of n bytes at offset lo. -/
def field (b : Bytes) (lo n : Nat) : Nat := leNat ((b.drop lo).take n)

/-- R506 OPCODE. -/
def cmdOp (c : Cmd) : Nat := field c.bytes 16 2

/-- R506, R508: the number of records the result buffer holds, at most 65,535. -/
def resultCap (c : Cmd) : Nat := min 65535 (field c.bytes 40 4)

/-- R506 RESULT_ADDR. -/
def resultAddr (c : Cmd) : Nat := field c.bytes 32 8

/-- R507: a buffer reference. -/
structure BufRef where
  addr : Nat
  bytes : Nat
  window : Bool
  deriving DecidableEq, Repr

/-- R507: the reference at a descriptor offset. -/
def bufAt (c : Cmd) (lo : Nat) : BufRef :=
  { addr := field c.bytes lo 8, bytes := field c.bytes (lo + 8) 6, window := decide (field c.bytes (lo + 14) 1 % 2 = 1) }

def bufA (c : Cmd) : BufRef := bufAt c 48
def bufB (c : Cmd) : BufRef := bufAt c 64

/-- R183: the size of the window, 64 GiB. -/
def windowBytes : Nat := 0x1000000000

/-- R208: the far-tier address of the window's first byte: the last 64 GiB of the tier (log 3). -/
def windowBase : Nat := 0x18000000000 - windowBytes

/-- R507: a reference is malformed when its address is not 64-byte aligned or it runs past the window. -/
def bufBad (r : BufRef) : Bool :=
  decide (r.bytes ≠ 0) && (decide (r.addr % 64 ≠ 0) || (r.window && decide (windowBytes < r.addr + r.bytes)))

/-- R507: n bytes at an offset of a buffer. -/
def readBuf (s : State) (r : BufRef) (off n : Nat) : Bytes :=
  if r.window then readBytes s.mem.far (windowBase + r.addr + off) n else readBytes s.mem.host (r.addr + off) n

/-- R507: bytes written at an offset of a buffer. -/
def writeBuf (r : BufRef) (off : Nat) (b : Bytes) (s : State) : State :=
  if r.window then s.withMem { s.mem with far := writeBytes s.mem.far (windowBase + r.addr + off) b }
  else s.withMem { s.mem with host := writeBytes s.mem.host (r.addr + off) b }

/-! ### Result codes (R555) and status words (R508) -/

def rOK : Nat := 0x000
def rSkipped : Nat := 0x001
def rLateDropped : Nat := 0x002
def rDegraded : Nat := 0x003
def rPendingFunction : Nat := 0x010
def rRefusedFit : Nat := 0x100
def rRefusedTable : Nat := 0x101
def rSliceConflict : Nat := 0x102
def rStaleToken : Nat := 0x103
def rBadDescriptor : Nat := 0x104
def rNotLoaded : Nat := 0x105
def rMismatch : Nat := 0x200
def rIntegrityFail : Nat := 0x201
def rAuthFail : Nat := 0x202
def rSiteStale : Nat := 0x203
def rFenced : Nat := 0x300
def rThermalLimit : Nat := 0x301

/-- R512: the terminal STATE of a result. -/
def terminalState (result : Nat) : Nat :=
  if result ≤ 3 then 4
  else if result = 0x010 ∨ (0x100 ≤ result ∧ result ≤ 0x105) then 6
  else 5

/-- R508: a status word. -/
def statusWord (state result partials progress : Nat) : W64 :=
  BitVec.ofNat 64 (state % 16 * 2 ^ 60 + result % 4096 * 2 ^ 48 + partials % 65536 * 2 ^ 32 + progress % 2 ^ 32)

/-- R509, R528: the status word of a command in progress. -/
def progressWord (c : Cmd) : W64 :=
  let state := match c.phase with
    | .queued => 1
    | .running => if c.partials = 0 then 2 else 3
  statusWord state (if c.pendingFn then rPendingFunction else 0) c.partials c.progress

/-- R499: the offset of a slot from the start of the descriptor rings. -/
def slotOffset (k : CmdRef) : Nat := 0x8000 * k.ch.val + 0x80 * k.slot.toNat

/-- R510: the status word of a slot written in one access. -/
def writeStatus (k : CmdRef) (w : W64) (s : State) : State :=
  emit (.statusWord k w)
    (s.withMbx { s.mbx with ringMem := writeBytes s.mbx.ringMem (slotOffset k) (natLe 8 w.toNat) })

/-! ### Commands in progress -/

/-- The command that a slot holds (in part DESIGN CHOICE: log 9). -/
def findCmd (s : State) (k : CmdRef) : Option Cmd := s.mbx.cmds.find? (fun c => c.ref = k)

/-- The state with a command replaced by its update. -/
def updCmd (k : CmdRef) (f : Cmd → Cmd) (s : State) : State :=
  s.withMbx { s.mbx with cmds := s.mbx.cmds.map (fun c => if c.ref = k then f c else c) }

/-- R509: the status word of a command in progress written anew. -/
def refreshStatus (k : CmdRef) (s : State) : State :=
  match findCmd s k with
  | some c => writeStatus k (progressWord c) s
  | none => s

/-- R509: a command runs. -/
def setRunning (k : CmdRef) (s : State) : State :=
  refreshStatus k (updCmd k (fun c => { c with phase := .running }) s)

/-- R524 PROGRESS, which never decreases (R509). -/
def setProgress (k : CmdRef) (n : Nat) (s : State) : State :=
  refreshStatus k (updCmd k (fun c => { c with progress := max c.progress n }) s)

/-- R503: the slot belongs to the module. -/
def slotOwned (s : State) (k : CmdRef) : Bool :=
  decide (k ∈ s.mbx.posted) || s.mbx.cmds.any (fun c => decide (c.ref = k))

/-! ### Partial records (R511, R513 to R515) -/

/-- A record padded with zeros to 64 bytes. -/
def rec64 (b : Bytes) : Bytes := (b ++ List.replicate 64 0).take 64

/-- A record's bytes written at place n of a command's result buffer (in part DESIGN CHOICE: log 14). -/
def placeRecord (c : Cmd) (n : Nat) (b : Bytes) (s : State) : State :=
  s.withMem { s.mem with host := writeBytes s.mem.host (resultAddr c + 64 * n) (rec64 b) }

/-- R511, R514: a command produces a record. The one that takes the buffer's last place is kept back until it is
known whether more follow (in part DESIGN CHOICE: log 14). -/
def addRecord (k : CmdRef) (b : Bytes) (s : State) : State :=
  match findCmd s k with
  | none => s
  | some c =>
    if c.produced + 1 < resultCap c then
      refreshStatus k (updCmd k (fun c => { c with produced := c.produced + 1, partials := c.partials + 1 })
        (placeRecord c c.produced b s))
    else if c.produced + 1 = resultCap c then
      updCmd k (fun c => { c with produced := c.produced + 1, held := some b }) s
    else updCmd k (fun c => { c with produced := c.produced + 1, held := none }) s

/-- R514: the TRUNCATED record (in part DESIGN CHOICE: log 14). -/
def truncatedRecord (discarded : Nat) : Bytes := rec64 (natLe 2 0xFF01 ++ natLe 2 0 ++ natLe 4 discarded)

/-- R514: the record kept back is written, or TRUNCATED in its place (in part DESIGN CHOICE: log 14). -/
def flushRecords (k : CmdRef) (s : State) : State :=
  match findCmd s k with
  | none => s
  | some c =>
    let cap := resultCap c
    if cap = 0 ∨ c.produced < cap then s
    else
      let b := match c.held with
        | some b => b
        | none => truncatedRecord (c.produced - (cap - 1))
      updCmd k (fun c => { c with partials := cap, held := none }) (placeRecord c (cap - 1) b s)

/-- R515: what a CAUSE record names. -/
structure Cause where
  member : Nat := 0xFFFF
  field : Nat := 0
  subject : Option W48 := none
  tid : W64 := 0
  logSeq : W64 := 0
  deriving DecidableEq, Repr

/-- R515: the CAUSE record; its SUBJECT is the step epoch unless a collective is named. -/
def causeRecord (s : State) (result : Nat) (x : Cause) : Bytes :=
  rec64 (natLe 2 0xFF00 ++ natLe 2 result ++ natLe 2 x.member ++ natLe 1 x.field ++ natLe 1 0 ++
    natLe 6 (x.subject.getD (runningEpoch s)).toNat ++ natLe 2 0 ++ natLe 8 x.tid.toNat ++ natLe 8 x.logSeq.toNat)

/-! ### The end of a command (R512, R517, R518) -/

/-- R518: an outcome retained; the oldest of 65,536 is dropped (in part DEDUCED: log 25). -/
def retain (r : Retained) (l : List Retained) : List Retained :=
  if 65536 ≤ l.length then l.tail ++ [r] else l ++ [r]

/-- R517: the status word of a repeat: STATE DUPLICATE_DONE and no records. -/
def duplicateWord (w : W64) : W64 := (7 : BitVec 4) ++ (w.extractLsb' 48 12 ++ ((0 : BitVec 16) ++ w.extractLsb' 0 32))

/-- R517: the repeats of a command that has ended take its outcome. -/
def endRepeats (ch : Fin 16) (token : W64) (w : W64) (s : State) : State :=
  let mine := fun (c : Cmd) => c.isRepeat && decide (c.ref.ch = ch) && decide (c.token = token)
  let reps := s.mbx.cmds.filter mine
  let s := s.withMbx { s.mbx with cmds := s.mbx.cmds.filter (fun c => !mine c) }
  reps.foldl (fun s c => writeStatus c.ref (duplicateWord w) s) s

/-- R511, R512, R518: a command ends with a result: its CAUSE record when the result is not a success, the terminal
status word last, and the outcome is retained. -/
def finishWith (k : CmdRef) (result : Nat) (x : Cause) (s : State) : State :=
  let s := if result ≤ 3 then s else addRecord k (causeRecord s result x) s
  let s := flushRecords k s
  match findCmd s k with
  | none => s
  | some c =>
    let w := statusWord (terminalState result) result c.partials c.progress
    let s := writeStatus k w s
    let s := s.withMbx { s.mbx with
      cmds := s.mbx.cmds.filter (fun d => decide (d.ref ≠ k)),
      retained := retain { ch := k.ch, token := c.token, word := w } s.mbx.retained }
    endRepeats k.ch c.token w s

/-- A command ends with a result and a CAUSE that names nothing more. -/
def finish (k : CmdRef) (result : Nat) (s : State) : State := finishWith k result {} s

/-! ### Which commands may run when (R520, R522, R524) -/

/-- R520: the queue commands. -/
def isQueueOp (op : Nat) : Bool :=
  decide (op ∈ [0x10, 0x11, 0x20, 0x21, 0x30, 0x31, 0x40, 0x51, 0x90, 0x91, 0xA0])

/-- R524: the slice commands that R521 compares. -/
def isSliceOp (op : Nat) : Bool := decide (op ∈ [0x20, 0x30, 0x31, 0x51, 0x90, 0x91, 0xA0])

/-- R523: the opcodes. -/
def knownOp (op : Nat) : Bool :=
  isQueueOp op || decide (op ∈ [0x01, 0x41, 0x50, 0x60, 0x61, 0x70, 0x71, 0x80, 0x81])

/-- R524: the job states that a command is allowed in. -/
def allowedIn (op : Nat) (j : JobState) : Bool :=
  if op = 0x10 then decide (j = .idle)
  else if op ∈ [0x11, 0x20, 0x21] then decide (j = .opened) || decide (j = .loaded)
  else if op ∈ [0x30, 0x51, 0x90, 0xA0] then decide (j = .loaded)
  else if op ∈ [0x31, 0x40, 0x41, 0x50] then decide (j = .loaded) || decide (j = .site)
  else if op = 0x81 then decide (j = .idle) || decide (j = .opened) || decide (j = .loaded)
  else if op = 0x91 then decide (j = .site)
  else true

/-- R522: a command needs a program when it is allowed only while one is loaded. -/
def needsProgram (op : Nat) : Bool := decide (op ∈ [0x30, 0x31, 0x40, 0x41, 0x50, 0x51, 0x90, 0x91, 0xA0])

/-- R522: the result of a command in a job state that does not allow it. -/
def stateRefusal (s : State) (op : Nat) : Nat :=
  if needsProgram op && s.load.prog.isNone then rNotLoaded else rBadDescriptor

/-- R505, R506, R507: a descriptor that the module refuses: an opcode it does not know or a malformed reference
(in part DEDUCED: log 15). -/
def descriptorBad (c : Cmd) : Bool :=
  !knownOp (cmdOp c) || bufBad (bufA c) || bufBad (bufB c) ||
  (decide (resultCap c ≠ 0) && decide (resultAddr c % 64 ≠ 0)) ||
  (decide (cmdOp c = 0x81) && !decide (field c.bytes 80 1 ∈ [1, 2, 3, 4]))

/-- R501: a command whose buffers lie in host memory waits while Bus Master Enable is clear
(in part DESIGN CHOICE: log 16). -/
def hostReady (s : State) (c : Cmd) : Bool :=
  s.bus.busMaster ||
  (decide (resultCap c = 0) && ((bufA c).window || decide ((bufA c).bytes = 0)) &&
    ((bufB c).window || decide ((bufB c).bytes = 0)))

/-- A command of an opcode, taken and not a repeat, that can run now: an immediate command in an allowed state, or
the queue command that runs; host memory must be reachable (in part DESIGN CHOICE: log 9). -/
def ready (s : State) (k : CmdRef) (op : Nat) : Option Cmd :=
  match findCmd s k with
  | some c =>
    if decide (cmdOp c = op) && !c.isRepeat && hostReady s c && (!isQueueOp op || decide (c.phase = .running)) then some c
    else none
  | none => none

/-! ### Doorbell and descriptors (R503 to R505, R516) -/

/-- R504: the slots from a previous tail up to a new tail, modulo 256. -/
def slotsBetween (ch : Fin 16) (tail new : BitVec 8) : List CmdRef :=
  (List.range (new - tail).toNat).map (fun i => { ch := ch, slot := tail + BitVec.ofNat 8 i })

/-- The host reaches BAR0: the link is up (in part DESIGN CHOICE: log 16). -/
def hostReaches (s : State) : Bool := s.bus.linkUp

/-- R504, R540: a write to MBX_DOORBELL. -/
def doorbell (v : W32) (s : State) : State :=
  let ch : Fin 16 := (v.extractLsb' 16 4).toFin
  let new : BitVec 8 := v.extractLsb' 0 8
  if !hostReaches s then s
  else if !s.mbx.ready then s
  else
    let r := s.mbx.rings[ch]
    let slots := slotsBetween ch r.tail new
    if slots = [] then s.withMbx { s.mbx with takes := true }
    else if slots.any (slotOwned s) then
      s.withMbx { s.mbx with overrun := s.mbx.overrun ||| (1 : W16) <<< ch.val, takes := true }
    else
      s.withMbx { s.mbx with
        rings := s.mbx.rings.set ch { r with tail := new }, posted := s.mbx.posted ++ slots, takes := true }

/-- MBX_DOORBELL (R504). -/
def execMbxDoorbell (v : W32) (s : State) : Result := .next (doorbell v s)

/-- A command newly taken from a slot. -/
def newCmd (k : CmdRef) (bytes : Bytes) (rpt : Bool) : Cmd :=
  { ref := k, token := BitVec.ofNat 64 (field bytes 8 8), bytes := bytes, phase := .queued, pendingFn := false,
    produced := 0, held := none, partials := 0, progress := 0, isRepeat := rpt, agreed := false }

/-- R505, R516: what becomes of the copied descriptor: its token is checked, and it is QUEUED or ends at once. -/
def takeDescriptor (k : CmdRef) (bytes : Bytes) (s : State) : State :=
  let c := { newCmd k bytes false with takenAt := s.awn.tick }
  let r := s.mbx.rings[k.ch]
  let add := fun (c : Cmd) (s : State) => s.withMbx { s.mbx with cmds := s.mbx.cmds ++ [c] }
  if r.mark.toNat < c.token.toNat then
    let s := s.withMbx { s.mbx with rings := s.mbx.rings.set k.ch { r with mark := c.token } }
    let s := add c s
    if descriptorBad c then finish k rBadDescriptor s
    else if !isQueueOp (cmdOp c) && !allowedIn (cmdOp c) s.mbx.job then finish k (stateRefusal s (cmdOp c)) s
    else refreshStatus k s
  else if s.mbx.cmds.any (fun d => decide (d.ref.ch = k.ch) && decide (d.token = c.token)) then
    refreshStatus k (add { c with isRepeat := true } s)
  else
    match s.mbx.retained.find? (fun x => decide (x.ch = k.ch) && decide (x.token = c.token)) with
    | some x => writeStatus k (duplicateWord x.word) s
    | none => 
      -- R516: the stale token ends unexecuted and is not retained as an outcome of its own
      let s := add c s
      let s := flushRecords k (addRecord k (causeRecord s rStaleToken {}) s)
      let n := ((findCmd s k).map (·.partials)).getD 0
      let s := writeStatus k (statusWord 6 rStaleToken n 0) s
      s.withMbx { s.mbx with cmds := s.mbx.cmds.filter (fun d => decide (d.ref ≠ k)) }

/-- R502, R591, R616: the module takes descriptors: the link is up and a doorbell has been written since, no shutdown
runs and EXTEST has not been selected (in part DESIGN CHOICE: log 16). -/
def takesDescriptors (s : State) : Bool :=
  s.bus.linkUp && s.mbx.takes && !s.dbg.extest && decide (s.pwr.state ≠ .shutdown)

/-- R502, R505: the module copies the next posted descriptor, in doorbell order, while the link is up
(in part DEDUCED: log 25). -/
def readDescriptor (s : State) : State :=
  match s.mbx.posted with
  | [] => s
  | k :: rest =>
    if !takesDescriptors s then s
    else
      let r := s.mbx.rings[k.ch]
      let s' := s.withMbx { s.mbx with posted := rest, rings := s.mbx.rings.set k.ch { r with head := r.head + 1 } }
      takeDescriptor k (readBytes s.mbx.ringMem (slotOffset k) 128) s'

/-- DESCRIPTOR_READ (R505). -/
def execDescriptorRead (s : State) : Result := .next (readDescriptor s)

/-- R520: a queue command runs. -/
def queueBusy (s : State) : Bool :=
  s.mbx.cmds.any (fun c => isQueueOp (cmdOp c) && !c.isRepeat && decide (c.phase = .running))

/-- R459: SEED_DIGEST: the first 8 bytes of SHAKE256 over the job seed. -/
def seedDigest (s : State) : W64 := BitVec.ofNat 64 (leNat (Config.shake256 (natLe 16 s.job.seed.toNat) 8))

/-- R524: the values of a slice command's agreement fields, in the order of their codes. -/
def agreementValues (s : State) (c : Cmd) : List Nat :=
  let op := cmdOp c
  if op = 0x30 then [field c.bytes 80 6, field c.bytes 86 4]
  else if op = 0x31 then [field c.bytes 80 2, field c.bytes 82 8]
  else if op = 0x51 then [field c.bytes 80 1, field c.bytes 81 6]
  else if op = 0x90 then [leNat (Config.shake256 (readBuf s (bufA c) 0 (bufA c).bytes) 32)]
  else if op = 0xA0 then [field c.bytes 80 6, field c.bytes 86 6, field c.bytes 92 1]
  else []

/-- R521, R529: what this member reports of its slice command: its agreement fields, SEED_DIGEST, and whether a non-zero FIRST_EPOCH
is not that of its next step. -/
def agreeReport (s : State) (c : Cmd) : AgreeReport :=
  { member := memberIndex s, fields := agreementValues s c, seedDigest := seedDigest s,
    epochBad := decide (cmdOp c = 0x30) && decide (field c.bytes 80 6 ≠ 0) &&
      decide (field c.bytes 80 6 ≠ (s.job.epoch + 1).toNat) }

/-- R521: a slice command that starts at a member of a larger slice reports its agreement fields to the lead; PROGRAM_LOAD has its
own report (R303). -/
def reportCommand (c : Cmd) (s : State) : State :=
  if isSliceOp (cmdOp c) && decide (cmdOp c ≠ 0x20) && decide (1 < memberCount s) && !isLead s then
    emit (.agreeReport c.ref (agreeReport s c)) s
  else s

/-- R520, R522: the next queue command in reading order starts when none runs, or ends REFUSED in a job state that
does not allow it. -/
def startQueueCommand (s : State) : State :=
  if queueBusy s then s
  else
    match s.mbx.cmds.find? (fun c => isQueueOp (cmdOp c) && !c.isRepeat) with
    | none => s
    | some c =>
      if allowedIn (cmdOp c) s.mbx.job then reportCommand c (setRunning c.ref s) else finish c.ref (stateRefusal s (cmdOp c)) s

/-- QUEUE_COMMAND_START (R520). -/
def execQueueCommandStart (s : State) : Result := .next (startQueueCommand s)

/-! ### Transfers (R478) -/

/-- R478: a detection during a transfer: the first repeats it, the second ends the command with INTEGRITY_FAIL. -/
def transferDetections (n : Nat) (s : State) : State :=
  (List.range (min 2 n)).foldl (fun s _ => countDetection 10 .none 0 0 0 s) s

/-- R515: the SEQ of the record of a transfer's second detection. -/
def transferSeq (s : State) : W64 := nextSeq (countDetection 10 .none 0 0 0 s)

/-! ### Agreement (R521) -/

/-- R524, R515: the FIELD codes of an opcode's agreement fields, in their order (in part DEDUCED: log 36). -/
def agreementFields (op : Nat) : List Nat :=
  if op = 0x30 then [0x1D, 0x05]
  else if op = 0x31 then [0x1E, 0x06]
  else if op = 0x51 then [0x1F, 0x07]
  else if op = 0x90 then [0x08]
  else if op = 0xA0 then [0x20, 0x20, 0x1F]
  else []

/-- The first place where two lists differ, with the fields' codes. -/
def firstDiff : List Nat → List Nat → List Nat → Option Nat
  | f :: fs, x :: xs, y :: ys => if x = y then firstDiff fs xs ys else some f
  | _, _, _ => none

/-- R521: the difference that a report shows against the lead's own, a non-zero FIRST_EPOCH that does not fit
included (R529) (in part DEDUCED: log 36). -/
def reportDiff (op : Nat) (lead r : AgreeReport) : Option Nat :=
  match firstDiff (agreementFields op) lead.fields r.fields with
  | some f => some f
  | none => if r.seedDigest ≠ lead.seedDigest then some 0x1C else if r.epochBad then some 0x1D else none

/-- R521: the lowest member whose report differs, and the first field (in part DEDUCED: log 36). -/
def firstMismatch (op : Nat) (lead : AgreeReport) : List AgreeReport → Option (Nat × Nat)
  | [] => none
  | r :: t =>
    match reportDiff op lead r with
    | none => firstMismatch op lead t
    | some f =>
      match firstMismatch op lead t with
      | some (m, g) => if m < r.member then some (m, g) else some (r.member, f)
      | none => some (r.member, f)

/-- R521: the reports of a slice command, this module's from its own descriptor. -/
def allReports (s : State) (c : Cmd) (reports : List AgreeReport) : List AgreeReport :=
  agreeReport s c :: reports.filter (fun r => decide (r.member ≠ memberIndex s))

/-- R521: the reports of every member of a slice command are compared with the lead's: it agrees, or it ends with MISMATCH naming the
lowest differing member and the first differing field. -/
def sliceAgreement (k : CmdRef) (reports : List AgreeReport) (s : State) : State :=
  match findCmd s k with
  | some c =>
    let all := allReports s c reports
    match all.find? (fun r => r.member = leadIndex s) with
    | some lead =>
      if isSliceOp (cmdOp c) && !c.isRepeat && !c.agreed &&
          (List.range (memberCount s)).all (fun m => all.any (fun r => decide (r.member = m))) then
        match firstMismatch (cmdOp c) lead all with
        | none => updCmd k (fun c => { c with agreed := true }) s
        | some (m, f) =>
          finishWith k rMismatch { member := m, field := f } (emit (.cmdVerdict k m (BitVec.ofNat 8 f)) s)
      else s
    | none => s
  | none => s

/-- SLICE_COMMAND_AGREEMENT (R521). -/
def execSliceCommandAgreement (k : CmdRef) (reports : List AgreeReport) (s : State) : Result :=
  .next (sliceAgreement k reports s)

/-- R521: 120 s in ticks. -/
def cmdWaitTicks : Nat := 120000000000

/-- R521: a member's command has not arrived within 120 s of the lead's own: the lead tells the members, and the command ends with
MISMATCH naming that member and CMD_ABSENT. -/
def cmdAbsent (k : CmdRef) (absent : Nat) (s : State) : State :=
  match findCmd s k with
  | some c =>
    if isSliceOp (cmdOp c) && decide (cmdOp c ≠ 0x20) && !c.isRepeat && !c.agreed &&
        (!isLead s || decide (cmdWaitTicks ≤ (s.awn.tick - c.takenAt).toNat)) then
      finishWith k rMismatch { member := absent, field := 0x04 }
        (if isLead s then emit (.cmdVerdict k absent 0x04) s else s)
    else s
  | none => s

/-- CMD_ABSENT (R521). -/
def execCmdAbsent (k : CmdRef) (absent : Nat) (s : State) : Result := .next (cmdAbsent k absent s)

/-- R521: a slice command may go on: it is agreed, or the slice has this member alone. -/
def agreedHere (s : State) (c : Cmd) : Bool := c.agreed || decide (memberCount s ≤ 1)

/-! ### HELLO (R525) -/

/-- R525, R533: the IDENTITY record. -/
def identityRecord (s : State) : Bytes :=
  rec64 (natLe 2 1 ++ natLe 2 1 ++ natLe 8 s.dev.serial.toNat ++ natLe 8 s.dev.bootId.toNat ++
    natLe 4 s.dev.fwVersion.toNat ++ natLe 2 (s.dev.planRange.toNat / 65536) ++ natLe 2 (s.dev.planRange.toNat % 65536) ++
    natLe 1 s.bus.width ++ natLe 1 s.bus.rate)

/-- R321, R326: the IDENT flit this module sends on a port. -/
def identOut (s : State) (p : Port) : Out :=
  let c := s.slice.coords.getD (0, 0, 0)
  .ident p c.1 c.2.1 c.2.2 s.slice.lens.1 s.slice.lens.2.1 s.slice.lens.2.2 s.slice.coords.isSome (s.slice.sliceId.getD 0)

/-- R320: a port whose link carries flits. -/
def portLive (t : TPort) : Bool :=
  decide (t.state = .unverified) || decide (t.state = .up) || decide (t.state = .miswired)

/-- R321, R322: the IDENTs on every port whose link carries flits. -/
def sendIdents (s : State) : State :=
  emits ((allPorts.filter (fun p => portLive (getPort s p))).map (identOut s)) s

/-- R525: the coordinates, lengths and board that a HELLO gives. -/
def helloValues (c : Cmd) : (Nat × Nat × Nat) × (Nat × Nat × Nat) × W64 :=
  ((field c.bytes 80 1, field c.bytes 81 1, field c.bytes 82 1),
   (field c.bytes 83 1, field c.bytes 84 1, field c.bytes 85 1), BitVec.ofNat 64 (field c.bytes 86 8))

/-- R286: torus lengths within 1 to 32 on x and y and 1 to 16 on z (in part DEDUCED: log 35). -/
def lensOk (l : Nat × Nat × Nat) : Bool :=
  decide (1 ≤ l.1) && decide (l.1 ≤ 32) && decide (1 ≤ l.2.1) && decide (l.2.1 ≤ 32) &&
  decide (1 ≤ l.2.2) && decide (l.2.2 ≤ 16)

/-- Coordinates within the lengths (in part DEDUCED: log 35). -/
def coordsOk (c l : Nat × Nat × Nat) : Bool :=
  decide (c.1 < l.1) && decide (c.2.1 < l.2.1) && decide (c.2.2 < l.2.2)

/-- R525: HELLO (in part DEDUCED: log 35). -/
def hello (k : CmdRef) (s : State) : State :=
  match ready s k 0x01 with
  | none => s
  | some c =>
    let (xyz, l, board) := helloValues c
    if !(lensOk l && coordsOk xyz l) then finish k rBadDescriptor s
    else if s.mbx.job = .noHello ∨ s.mbx.job = .idle then
      let s := s.withSlice { s.slice with coords := some xyz, lens := l, board := board }
      let s := s.withMbx { s.mbx with job := .idle }
      let s := sendIdents s
      finish k rOK (addRecord k (identityRecord s) s)
    else if s.slice.coords = some xyz ∧ s.slice.lens = l ∧ s.slice.board = board then
      finish k rOK (addRecord k (identityRecord s) s)
    else finish k rBadDescriptor s

/-- HELLO (R525). -/
def execHello (k : CmdRef) (s : State) : Result := .next (hello k s)

/-! ### JOB_OPEN and JOB_CLOSE (R526, R527) -/

/-- R450: the partner interval in ticks, √(2·C·M) clamped to 10 s and 600 s, with C and M in ns. -/
def partnerInterval (c m : Nat) : Nat := max 10000000000 (min 600000000000 (isqrt (2 * c * m)))

/-- R526: the job parameter block's bytes. -/
def jobBlock (s : State) (c : Cmd) : Bytes := readBuf s (bufA c) 0 (bufA c).bytes

/-- R526: the block is refused: too short for its fields, more than 64 input streams, or a set field of 0. -/
def jobBlockBad (b : Bytes) : Bool :=
  decide (b.length < 320) || decide (64 < field b 62 2) || decide (b.length < 320 + 16 * field b 62 2) ||
  (decide (field b 36 1 % 2 = 1) && decide (field b 16 8 = 0)) ||
  (decide (field b 36 1 / 2 % 2 = 1) && decide (field b 24 8 = 0)) ||
  (decide (field b 36 1 / 4 % 2 = 1) && decide (field b 32 4 = 0))

/-- R526: the job that a parameter block opens. -/
def jobOf (b : Bytes) (old : Job) : Job :=
  let pf := field b 36 1
  let n := field b 62 2
  { seed := BitVec.ofNat 128 (field b 0 16),
    slotWait := if pf % 2 = 1 then BitVec.ofNat 64 (field b 16 8) else 2000000,
    mtbf := if pf / 2 % 2 = 1 then BitVec.ofNat 64 (field b 24 8) else 36000000,
    storeInterval := if pf / 4 % 2 = 1 then BitVec.ofNat 32 (field b 32 4) else 3600,
    store := if pf / 8 % 2 = 1 then
        some { addr := (b.drop 40).take 16, port := BitVec.ofNat 16 (field b 56 2), nsid := BitVec.ofNat 32 (field b 58 4),
               nqn := (b.drop 64).take 256 }
      else none,
    shuffles := (List.range n).map (fun i => BitVec.ofNat 128 (field b (320 + 16 * i) 16)),
    cursors := List.replicate n 0, bufSel := old.bufSel }

/-- R526, R151, R168, R358: JOB_OPEN. -/
def jobOpen (k : CmdRef) (s : State) : State :=
  match ready s k 0x10 with
  | none => s
  | some c =>
    let b := jobBlock s c
    if jobBlockBad b then finish k rBadDescriptor s
    else
      let j := jobOf b s.job
      let s := s.withJob j
      let s := s.withSnap { s.snap with
        failures := [], times := [], flashAt := s.awn.tick, storeAt := s.awn.tick,
        interval := partnerInterval 1000000000 (j.mtbf.toNat * 1000000000 / memberCount s) }
      let s := s.withHouse { s.house with totals := [] }
      finish k rOK (s.withMbx { s.mbx with job := .opened })

/-- JOB_OPEN (R526). -/
def execJobOpen (k : CmdRef) (s : State) : Result := .next (jobOpen k s)

/-- R377, R389: the Counting House after a job: a carry that was pending counts in LATE_DROPPED of its entry. -/
def houseAfterJob (h : House) : House :=
  { totals := h.carries.foldl (fun t x =>
      sput {} t x.1 { sget {} t x.1 with lateDropped := add48 (sget {} t x.1).lateDropped 1 }) h.totals,
    residueRetries := h.residueRetries, addersFenced := h.addersFenced, mismatches := h.mismatches }

/-- R527: the job's state is discarded: the program with its placement, membership, carries and what the job kept. -/
def discardJob (s : State) : State :=
  let s := s.withJob { bufSel := s.job.bufSel }
  let s := s.withLoad {}
  let s := s.withSlice { s.slice with sliceId := none, origin := (0, 0, 0), extent := (1, 1, 1), remap := [] }
  let s := s.withTens {}
  let s := s.withLedger {}
  let s := s.withHouse (houseAfterJob s.house)
  let s := s.withStep {}
  let s := s.withSnap { flash := s.snap.flash, stored := s.snap.stored }
  let s := s.withSite {}
  s.withStalls ((s.stalls.map (fun p => (p.1, ({ testedAt := p.2.testedAt, testedEpoch := p.2.testedEpoch } : Stall)))).filter (fun p => decide (p.2 ≠ {})))

/-- R436 reason 9, R527: the lead of a slice that stays open treats a closed member as failed, and hears of it. -/
def jobClose (k : CmdRef) (s : State) : State :=
  match ready s k 0x11 with
  | none => s
  | some _ =>
    let s := if 1 < memberCount s then emit (.selfFailed 9) s else s
    let s := discardJob s
    let s := s.withMbx { s.mbx with job := .idle }
    finish k rOK (sendIdents s)

/-- JOB_CLOSE (R527). -/
def execJobClose (k : CmdRef) (s : State) : Result := .next (jobClose k s)

/-! ### Slice join (R286, R287) -/

/-- R523: the arguments of SLICE_JOIN: id, lengths, origin, extent. -/
def joinArgs (c : Cmd) : W32 × (Nat × Nat × Nat) × (Nat × Nat × Nat) × (Nat × Nat × Nat) :=
  let t := fun lo => (field c.bytes lo 1, field c.bytes (lo + 1) 1, field c.bytes (lo + 2) 1)
  (BitVec.ofNat 32 (field c.bytes 80 4), t 84, t 87, t 90)

/-- R286: slice-relative coordinates. -/
def relCoord (x o l : Nat) : Nat := (x + l - o) % l

/-- R286: the checks, in the rule's order. -/
def joinBad (s : State) (l o a : Nat × Nat × Nat) : Bool :=
  !lensOk l || !coordsOk o l ||
  decide (a.1 = 0) || decide (l.1 < a.1) || decide (a.2.1 = 0) || decide (l.2.1 < a.2.1) ||
  decide (a.2.2 = 0) || decide (l.2.2 < a.2.2) ||
  (match s.slice.coords with
    | none => true
    | some (x, y, z) =>
      decide (a.1 ≤ relCoord x o.1 l.1) || decide (a.2.1 ≤ relCoord y o.2.1 l.2.1) ||
      decide (a.2.2 ≤ relCoord z o.2.2 l.2.2)) ||
  decide (l ≠ s.slice.lens)

/-- R287: a block that would cross a wrap link without spanning the axis. -/
def crossesWrap (o a l : Nat) : Bool := decide (l < o + a) && decide (a < l)

/-- R321: the coordinates of the far end of a port. -/
def farCoords (s : State) (p : Port) : Option (Nat × Nat × Nat) :=
  match s.slice.coords with
  | none => none
  | some (x, y, z) =>
    let (lx, ly, lz) := s.slice.lens
    match p with
    | .px => some ((x + 1) % lx, y, z)
    | .nx => some ((x + lx - 1) % lx, y, z)
    | .py => some (x, (y + 1) % ly, z)
    | .ny => some (x, (y + ly - 1) % ly, z)
    | .pz => some (x, y, (z + 1) % lz)
    | .nz => some (x, y, (z + lz - 1) % lz)

/-- Whether coordinates lie inside a block. -/
def inBlock (c o a l : Nat × Nat × Nat) : Bool :=
  decide (relCoord c.1 o.1 l.1 < a.1) && decide (relCoord c.2.1 o.2.1 l.2.1 < a.2.1) &&
  decide (relCoord c.2.2 o.2.2 l.2.2 < a.2.2)

/-- R287: a neighbour inside the block that is a member of a slice with another id. Of a module that has joined none, whose IDENT the
rules give no slice id, the model's IDENT holds 0, which conflicts with no id (DESIGN CHOICE: log 99). -/
def neighbourConflict (s : State) (id : W32) (o a l : Nat × Nat × Nat) : Bool :=
  allPorts.any (fun p =>
    match farCoords s p, (getPort s p).farIdent with
    | some c, some i => inBlock c o a l && i.assigned && decide (i.sliceId ≠ 0) && decide (i.sliceId ≠ id)
    | _, _ => false)

/-- R286, R287: SLICE_JOIN. -/
def sliceJoin (k : CmdRef) (s : State) : State :=
  match ready s k 0x21 with
  | none => s
  | some c =>
    let (id, l, o, a) := joinArgs c
    if joinBad s l o a then finish k rBadDescriptor s
    else if crossesWrap o.1 a.1 l.1 || crossesWrap o.2.1 a.2.1 l.2.1 || crossesWrap o.2.2 a.2.2 l.2.2 ||
        s.slice.sliceId.isSome || s.load.prog.isSome || neighbourConflict s id o a l then
      finish k rSliceConflict s
    else
      let s := s.withSlice { s.slice with sliceId := some id, origin := o, extent := a }
      finish k rOK (sendIdents s)

/-- SLICE_JOIN (R287). -/
def execSliceJoin (k : CmdRef) (s : State) : Result := .next (sliceJoin k s)

end Sys2Proof.Machine
end

