-- ==== Sys2Proof/Machine/Aisle.lean ====
section
/-! DEFINITION. The Aisle of the four Halls (R13, R15, R35 to R41): the path of a flit, the router outputs with their virtual
channels and the flits that wait at a stall's local port. -/

namespace Sys2Proof.Machine

/-! ### Places (00_scope "Signals and indices", R13) -/

/-- The mesh column, the mesh row and the Hall of a stall: s = 256·h + 16·y + x. -/
def meshX (i : Fin 1024) : Nat := i.val % 16
def meshY (i : Fin 1024) : Nat := i.val / 16 % 16
def hallOf (i : Fin 1024) : Fin 4 := ⟨i.val / 256, by omega⟩

/-- The stall at a mesh column and row of a Hall. -/
def stallAt (h : Fin 4) (x y : Nat) : Fin 1024 := ⟨256 * h.val + 16 * (y % 16) + x % 16, by omega⟩

/-- R13: traffic leaves Hall h over its link to the next Hall, when the destination is that Hall or the opposite one. -/
def ringForward (h g : Fin 4) : Bool := decide (g = h + 1) || decide (g = h + 2)

/-- R35: the stall whose router holds a Hall's ring port (log 88). -/
def portStall (h : Fin 4) (next : Bool) : Fin 1024 :=
  stallAt h (Config.ringPort h next).1.val (Config.ringPort h next).2.val

/-! ### Routes (R35) -/

/-- R35: the mesh link towards a place of the same Hall: in X first, then in Y. -/
def meshDir (cur dst : Fin 1024) : AisleDir :=
  if meshX cur < meshX dst then .east
  else if meshX dst < meshX cur then .west
  else if meshY cur < meshY dst then .north
  else if meshY dst < meshY cur then .south
  else .stall

/-- R13, R35: the output that a flit for `dst` takes at a router. -/
def aisleDir (cur dst : Fin 1024) : AisleDir :=
  if hallOf cur = hallOf dst then meshDir cur dst
  else
    let next := ringForward (hallOf cur) (hallOf dst)
    if cur = portStall (hallOf cur) next then (if next then .ringNext else .ringPrev)
    else meshDir cur (portStall (hallOf cur) next)

/-- The router at the far end of an output. -/
def aisleNext (cur : Fin 1024) : AisleDir → Fin 1024
  | .east => stallAt (hallOf cur) (meshX cur + 1) (meshY cur)
  | .west => stallAt (hallOf cur) (meshX cur + 15) (meshY cur)
  | .north => stallAt (hallOf cur) (meshX cur) (meshY cur + 1)
  | .south => stallAt (hallOf cur) (meshX cur) (meshY cur + 15)
  | .ringNext => portStall (hallOf cur + 1) false
  | .ringPrev => portStall (hallOf cur + 3) true
  | .stall => cur

/-- R35, R40: the router hops from one stall to another; the first number bounds them. -/
def aisleHops : Nat → Fin 1024 → Fin 1024 → Nat
  | 0, _, _ => 0
  | n + 1, cur, dst =>
    match aisleDir cur dst with
    | .stall => 0
    | d => aisleHops n (aisleNext cur d) dst + 1

/-- R40: the most router hops from a producer to one of its consumers: three Halls of at most 30 links and two ring links. -/
def streamHops (producer : Fin 1024) (consumers : List (Fin 1024)) : Nat :=
  (consumers.map (aisleHops 92 producer)).foldl max 0

/-- R40: a receive queue of at least 4·h + 16 flits and at most 1,024. -/
def queueFor (q hops : Nat) : Nat := min 1024 (max q (4 * hops + 16))

/-- R41: the consumers lie in one row or in one column of a Hall. -/
def oneLine (l : List (Fin 1024)) : Bool :=
  match l with
  | [] => true
  | a :: t =>
    t.all (fun b => decide (hallOf b = hallOf a) && decide (meshY b = meshY a)) ||
    t.all (fun b => decide (hallOf b = hallOf a) && decide (meshX b = meshX a))

/-! ### Router outputs (R36) -/

/-- The number of an output among a router's outputs, and the output of a number. -/
def dirIx : AisleDir → Nat
  | .east => 0 | .west => 1 | .north => 2 | .south => 3 | .ringNext => 4 | .ringPrev => 5 | .stall => 6
def dirOfIx (n : Nat) : AisleDir :=
  match n with
  | 0 => .east | 1 => .west | 2 => .north | 3 => .south | 4 => .ringNext | 5 => .ringPrev | _ => .stall

/-- A flit joins its virtual channel's queue. -/
def LinkQ.push (q : LinkQ) (f : AisleFlit) : LinkQ :=
  match f.vc with
  | .vc0 => { q with vc0 := q.vc0 ++ [f] }
  | .vc1 => { q with vc1 := q.vc1 ++ [f] }
  | .vc2 => { q with vc2 := q.vc2 ++ [f] }

/-- R36: the flit that an output sends next: VC2 first, and VC0 and VC1 in turn for the rest. -/
def LinkQ.pick (q : LinkQ) : Option (AisleFlit × LinkQ) :=
  match q.vc2 with
  | f :: t => some (f, { q with vc2 := t })
  | [] =>
    match q.turn, q.vc0, q.vc1 with
    | false, f :: t, _ => some (f, { q with vc0 := t, turn := true })
    | true, _, f :: t => some (f, { q with vc1 := t, turn := false })
    | false, [], f :: t => some (f, { q with vc1 := t, turn := false })
    | true, f :: t, [] => some (f, { q with vc0 := t, turn := true })
    | _, [], [] => none

/-- R35: a flit enters a stall's router, for the output towards its destination. -/
def routeFlit (cur : Fin 1024) (f : AisleFlit) (s : State) : State :=
  let st := getStall s cur
  let d := dirIx (aisleDir cur f.dst)
  setStall s cur { st with router := sput {} st.router d ((sget {} st.router d).push f) }

/-- A flit leaves a router's output: it reaches the next router, or the stall's local port. -/
def crossLink (cur : Fin 1024) (d : AisleDir) (f : AisleFlit) (s : State) : State :=
  if d = .stall then
    let st := getStall s cur
    setStall s cur { st with arrived := st.arrived ++ [f] }
  else routeFlit (aisleNext cur d) f s

/-- R36: what every router output sends in one round, with what is left of the output. -/
def aislePicks (s : State) : List (Fin 1024 × Nat × AisleFlit × LinkQ) :=
  s.stalls.flatMap (fun x =>
    if h : x.1 < 1024 then
      x.2.router.filterMap (fun o => o.2.pick.map (fun y => ((⟨x.1, h⟩ : Fin 1024), o.1, y.1, y.2)))
    else [])

/-- R36: one round of the Aisle: every output sends one flit (DESIGN CHOICE: log 88). -/
def aisleRound (s : State) : State :=
  let picks := aislePicks s
  let s := picks.foldl (fun s x =>
    let st := getStall s x.1
    setStall s x.1 { st with router := sput {} st.router x.2.1 x.2.2.2 }) s
  picks.foldl (fun s x => crossLink x.1 (dirOfIx x.2.1) x.2.2.1 s) s

/-- The first flit at a stall's local port that a test accepts, and the port without it. -/
def takeFlit (p : AisleLoad → Bool) : List AisleFlit → Option (AisleFlit × List AisleFlit)
  | [] => none
  | f :: t => if p f.load then some (f, t) else (takeFlit p t).map (fun x => (x.1, f :: x.2))

/-- Whether a flit that a test accepts is on its way or has arrived. -/
def inAisle (p : AisleFlit → Bool) (s : State) : Bool :=
  s.stalls.any (fun x => x.2.arrived.any p || x.2.router.any (fun o => (o.2.vc0 ++ o.2.vc1 ++ o.2.vc2).any p))

/-- R35, R41: a load leaves a stall for each of several others. -/
def aisleSend (src : Fin 1024) (vc : AisleVC) (load : AisleLoad) (dsts : List Nat) (s : State) : State :=
  dsts.foldl (fun s n => if h : n < 1024 then routeFlit src { src := src, dst := ⟨n, h⟩, vc := vc, load := load } s else s) s

end Sys2Proof.Machine
end

