-- ==== Sys2Proof/Machine/Operands.lean ====
section
/-! DEFINITION. The operands of a verb's instructions (R117 to R124): stream descriptors, decoding, the values of
each operand select and the conditions under which an operand is ready. -/

namespace Sys2Proof.Machine

/-! ### Stream descriptors (R119) -/

/-- Bits lo to lo + n − 1 of a 128-bit descriptor, as a number. -/
def bits128 (w : W128) (lo n : Nat) : Nat := (w.extractLsb' lo n).toNat

def sdStrideCol (w : W128) : Int := (w.extractLsb' 96 32).toInt
def sdStrideRow (w : W128) : Int := (w.extractLsb' 64 32).toInt
def sdFmtCode (w : W128) : Nat := bits128 w 60 4
def sdMx (w : W128) : Bool := w.getLsbD 59
def sdSpec (w : W128) : Bool := w.getLsbD 58
def sdRm (w : W128) : RMode := rmOfCode (bits128 w 56 2)
def sdStream (w : W128) : W32 := w.extractLsb' 24 32
def sdQueue (w : W128) : Bool := w.getLsbD 23
def sdBase (w : W128) : Nat := bits128 w 0 20
/-- R119: FMT 0xA is RAW32. -/
def sdRaw (w : W128) : Bool := decide (sdFmtCode w = 0xA)
/-- The element format; RAW32 has the width of A32. -/
def sdFmt (w : W128) : Fmt := (fmtOfCode (sdFmtCode w)).getD .a32

/-! ### Instruction words (R125) -/

def iwOp (w : W64) : Nat := bits64 w 56 8
def iwA (w : W64) : BitVec 6 := w.extractLsb' 45 6
def iwB (w : W64) : BitVec 6 := w.extractLsb' 39 6
def iwC (w : W64) : BitVec 6 := w.extractLsb' 33 6
def iwMod (w : W64) : Nat := bits64 w 24 3
def iwFmt (w : W64) : Nat := bits64 w 29 4
def iwRmq (w : W64) : Nat := bits64 w 27 2
def iwD (w : W64) : Nat := bits64 w 51 5

/-- R126: how many source operands an opcode has; none for a reserved opcode. -/
def opSources (op : Nat) : Option Nat :=
  if op ∈ [0x01, 0x02, 0x03, 0x05, 0x06, 0x09, 0x13, 0x20, 0x21, 0x22, 0x23, 0x24, 0x25, 0x26, 0x27, 0x28, 0x29, 0x32] then some 2
  else if op ∈ [0x04, 0x0A] then some 3
  else if op ∈ [0x07, 0x08, 0x0B, 0x10, 0x11, 0x12, 0x14, 0x15, 0x30, 0x31, 0x3C, 0x3D] then some 1
  else if op = 0x38 then some 0
  else none

/-- R74, R125: the code of a rounding mode. -/
def rmCode : RMode → Nat
  | .rne => 0 | .sr => 1 | .rto => 2 | .rtz => 3

/-- R125: the condition codes of MOD. -/
def condCode : Cond → Nat
  | .eq => 0 | .ne => 1 | .lt => 2 | .le => 3 | .gt => 4 | .ge => 5 | .ltu => 6 | .geu => 7

/-- R125: the word of an instruction; a field that it does not use is 0. -/
def instrWord (op : Nat) (d : BitVec 5) (srcs : List (BitVec 6)) (mod : Nat := 0) (fmt : Nat := 0) (rmq : Nat := 0) : W64 :=
  let src := fun k => (srcs.getD k 0).toNat
  BitVec.ofNat 64 (op * 2 ^ 56 + d.toNat * 2 ^ 51 + src 0 * 2 ^ 45 + src 1 * 2 ^ 39 + src 2 * 2 ^ 33 + fmt * 2 ^ 29 +
    rmq * 2 ^ 27 + mod * 2 ^ 24)

/-- R115, R134: the instruction that a span runs next is a word of its verb, in program order. -/
def runsNext (sp : Span) (w : W64) : Bool := decide (sp.header.instrs[sp.pc]? = some w)

/-- The operand selects an instruction word names. -/
def iwSources (w : W64) : List (BitVec 6) := [iwA w, iwB w, iwC w].take ((opSources (iwOp w)).getD 0)

/-! ### Decoding (R120) -/

/-- The bits at a bit address of a byte string, up to 32 of them. -/
def bitsAt (bs : Bytes) (bit n : Nat) : Nat := leNat ((bs.drop (bit / 8)).take 5) / 2 ^ (bit % 8) % 2 ^ n

/-- The same for a memory. -/
def memBits (m : List Host.Cell) (bit n : Nat) : Nat := leNat (readBytes m (bit / 8) 5) / 2 ^ (bit % 8) % 2 ^ n

/-- R120: an input element as FP32 and whether its decoding became infinite (R132). -/
def decodeInput (w : W128) (code : Nat) (scale : Byte) : W32 × Bool :=
  if sdRaw w then (BitVec.ofNat 32 code, false)
  else
    let v := decode (sdFmt w) code
    if sdMx w then
      match e8m0 scale with
      | none => (nan32, false)
      | some x => let y := toA32 (v.scale x); (y, decide (ofA32 y ≠ .nan) && isNonfinite32 y && !v.nonfinite)
    else (toA32 v, false)

/-! ### Spans (R116) -/

/-- The number of elements of a span. -/
def spanSize (sp : Span) : Nat := sp.init.rows * sp.init.cols

/-- The row and column of element e within its span, in row-major order. -/
def spanRow (sp : Span) (e : Nat) : Nat := if sp.init.cols = 0 then 0 else e / sp.init.cols
def spanCol (sp : Span) (e : Nat) : Nat := if sp.init.cols = 0 then 0 else e % sp.init.cols

/-- R116, operand IDX: the linear row-major index of element e in the tensor. -/
def spanIdx (sp : Span) (e : Nat) : Nat :=
  (sp.init.rowBase + spanRow sp e) * sp.init.rowLen + sp.init.colBase + spanCol sp e

/-- The stream that carries queue operand INj. -/
def inQueue (sp : Span) (j : Nat) : Nat := (sp.init.queues.getD j none).getD 0

/-- The stream that carries queue output OUTj. -/
def outQueue (sp : Span) (j : Nat) : Nat := (sp.init.queues.getD (8 + j) none).getD 0

/-- The bytes of a stream that wait at its consumer: those taken out of their slots, and those of the queue. -/
def queueBytes (q : InStream) : Bytes := q.taken ++ q.queue.flatMap (·.bytes)

/-- R67, R120: where element e's block scale stands among the scales of the span's stream: the blocks of each row in order. -/
def queueBlock (sp : Span) (e : Nat) : Nat := spanRow sp e * ((sp.init.cols + 31) / 32) + spanCol sp e / 32

/-- How many block scales a span takes from the stream of an MX queue operand. -/
def spanBlocks (sp : Span) : Nat := sp.init.rows * ((sp.init.cols + 31) / 32)

/-- R122: the bit of a region where element e of a span lies. -/
def regionBit (w : W128) (sp : Span) (e : Nat) : Nat :=
  (8 * (sdBase w : Int) + fmtBits (sdFmt w) *
    ((spanRow sp e : Int) * sdStrideRow w + (spanCol sp e : Int) * sdStrideCol w)).toNat

/-- R122: the scale array of an MX region begins at the next 64-byte boundary after the element region. -/
def scaleBase (w : W128) (sp : Span) : Nat :=
  (sdBase w + packedBytes (sdFmt w) (sp.init.rows * (sdStrideRow w).toNat) + 63) / 64 * 64

/-- R120, R122, R123: the word of INj for element e, and whether its decoding overflowed. An input that the header gives no
descriptor, for which R143 has no row, reads 0 (DESIGN CHOICE: log 89)
(in part DESIGN CHOICE: log 13) (in part DESIGN CHOICE: log 19). -/
def inputWord (st : Stall) (sp : Span) (j e : Nat) : W32 × Bool :=
  match sp.header.ins.getD j none with
  | none => (0, false)
  | some w =>
    let bw := fmtBits (sdFmt w)
    if sdQueue w then
      let q := sget {} st.ins (inQueue sp j)
      decodeInput w (bitsAt (queueBytes q) (q.pos + bw * e) bw) (q.scales.getD (queueBlock sp e) 0)
    else
      let row := (sdStrideRow w).toNat
      decodeInput w (memBits st.store (regionBit w sp e) bw)
        (readByte st.store (scaleBase w sp + blockOf row (spanRow sp e * row + spanCol sp e)))

/-- R121: the element of accumulator operand ACCk. -/
def accWord (st : Stall) (sp : Span) (k e : Nat) : W32 :=
  match sp.init.accs[k]? with
  | some b => (st.bufs[b]).vals.getD (32 * spanRow sp e + spanCol sp e) 0
  | none => 0

/-- R124: P_k as latched, or as the decision has written it since. -/
def paramOf (s : State) (sp : Span) (k : Nat) : Option W32 :=
  match sp.params.getD k none with
  | some x => some x
  | none => sget none s.job.params (8 * sp.init.verb + k)

/-- The value of an operand select for element e, and whether an input's decoding overflowed. Reserved selects,
which R143 refuses at load, read as 0. -/
def operand (s : State) (st : Stall) (sp : Span) (sel : BitVec 6) (e : Nat) : W32 × Bool :=
  let n := sel.toNat
  if n < 32 then (((sp.regs.getD e (Vector.replicate 32 0)).toList).getD n 0, false)
  else if n < 40 then inputWord st sp (n - 32) e
  else if n < 42 then (accWord st sp (n - 40) e, false)
  else if n = 42 then (BitVec.ofNat 32 (spanIdx sp e), false)
  else if n = 43 then (BitVec.ofNat 32 (sp.init.rowBase + spanRow sp e), false)
  else if n = 44 then (BitVec.ofNat 32 (sp.init.colBase + spanCol sp e), false)
  else if n < 48 then (0, false)
  else if n < 56 then ((paramOf s sp (n - 48)).getD 0, false)
  else (sp.header.consts.getD (n - 56) 0, false)

/-- R605: the codes of the waits, by the table of chapter 20. -/
def waitInput : Fin 14 := 1
def waitOutput : Fin 14 := 2
def waitCellar : Fin 14 := 3
def waitFar : Fin 14 := 4
def waitPeer : Fin 14 := 5
def waitCollective : Fin 14 := 6
def waitExpertFetch : Fin 14 := 7
def waitHost : Fin 14 := 8
def waitSite : Fin 14 := 9

/-- Why an operand is not ready: an unwritten P_k (R140), a queue that lacks elements (R39), or an accumulator that
is not in DRAIN (R32, R121), for which the spec names no cause and WAIT_INPUT is counted (DESIGN CHOICE: log 89). -/
def operandWait (s : State) (st : Stall) (sp : Span) (sel : BitVec 6) : Option (Fin 14) :=
  let n := sel.toNat
  if 32 ≤ n ∧ n < 40 then
    match sp.header.ins.getD (n - 32) none with
    | none => none
    | some w =>
      if sdQueue w then
        let q := sget {} st.ins (inQueue sp (n - 32))
        if 8 * (queueBytes q).length < q.pos + fmtBits (sdFmt w) * spanSize sp then some waitInput else none
      else none
  else if n = 40 ∨ n = 41 then
    match sp.init.accs[n - 40]? with
    | none => none
    | some b => if (st.bufs[b]).state = .drain then none else some waitInput
  else if 48 ≤ n ∧ n < 56 then
    if (paramOf s sp (n - 48)).isNone then some waitInput else none
  else none

/-- R39, R140: the stall waits, counting the cause. -/
def stallWaits (i : Fin 1024) (cause : Fin 14) (s : State) : State :=
  setStall s i { getStall s i with wait := some cause, busy := false }

/-- R605: a stall that waited for a cause goes on. -/
def endWait (i : Fin 1024) (w : Fin 14) (s : State) : State :=
  let st := getStall s i
  if st.wait = some w then setStall s i { st with wait := none, busy := true } else s

/-- R39, R135: an output whose flits still wait for credits. -/
def outputWait (st : Stall) : Option (Fin 14) :=
  if st.outs.any (fun o => decide (o.2.backlog ≠ [])) then some waitOutput else none

/-- The first wait of an instruction: for an earlier PUT's credits, then among its operands. -/
def operandsWait (s : State) (st : Stall) (sp : Span) (sels : List (BitVec 6)) : Option (Fin 14) :=
  match outputWait st with
  | some w => some w
  | none => sels.findSome? (operandWait s st sp)

/-- R45: the clause that a stall runs, of those it holds. -/
def stallClause (s : State) (st : Stall) : Option Clause :=
  if st.ctx ∈ st.contexts then s.load.prog.bind (fun p => p.clauses[st.ctx]?) else none

end Sys2Proof.Machine
end

