-- ==== Sys2Proof/Machine/React.lean ====
section
/-! DEFINITION. Detections and the reaction to them (R462 to R483): fences, lost units, module failure, suspect
attempts, replay, self-tests and retests, and the Logbook's own events. -/

namespace Sys2Proof.Machine

/-! ### The end of a run -/

/-- R388, R529: results of a command in the order in which the first applies. -/
def resultOrder : List Nat := [rMismatch, rFenced, rThermalLimit, rSkipped, rLateDropped, rOK]

/-- R388: the place of a result in that order. -/
def resultRank (r : Nat) : Nat := resultOrder.findIdx (fun x => x = r)

/-- R388: the first of two results in that order. -/
def worseResult (a b : Nat) : Nat := if resultRank a ≤ resultRank b then a else b

/-- R529: the running command ends, with the first result in the order of R388 of its steps. -/
def endRun (result : Nat) (x : Cause) (s : State) : State :=
  match s.step.run with
  | none => s
  | some r =>
    let s := s.withStep { replays := s.step.replays, missed := s.step.missed, failedMembers := s.step.failedMembers,
                          taken := s.step.taken }
    match r.cmd with
    | some k => finishWith k (worseResult result r.worst.toNat) x s
    | none => s

/-! ### Module failure (R436, R481) -/

/-- R436: the module reports itself failed, with its reason, once (in part DESIGN CHOICE: log 30). -/
def failModule (reason : Nat) (s : State) : State :=
  if s.saf.selfFailed.isSome then s
  else
    let member := if s.load.prog.isSome || s.slice.sliceId.isSome then memberIndex s else 0xFFFF
    let s := s.withSaf { s.saf with selfFailed := some reason }
    emit (.selfFailed reason) (logEvent 0x205 4 .none ([BitVec.ofNat 8 reason, 0] ++ natLe 2 member) s)

/-- R481: a Hall is lost, and the module reports itself failed. -/
def loseHall (h : Fin 4) (s : State) : State :=
  let bit : BitVec 4 := 1 <<< h.val
  let s := s.withSaf { s.saf with hallsLost := s.saf.hallsLost ||| bit }
  let s := s.withDev { s.dev with hallsOn := s.dev.hallsOn &&& ~~~bit }
  failModule 3 s

/-! ### Fences (R480 to R483) -/

/-- 24 h of fabric time in ticks. -/
def dayTicks : Nat := 86400000000000

/-- R480: the code of a fence state. -/
def fenceCode : FenceState → Nat
  | .inService => 0 | .fenced => 1 | .restorable => 2 | .retired => 3

/-- R489: the FENCE record of a stall or Cellar. -/
def logFence (unit : UnitId) (st : FenceState) (cause : W64) (s : State) : State :=
  logEvent 0x200 1 unit (natLe 1 (fenceCode st) ++ natLe 7 0 ++ natLe 8 cause.toNat) s

/-- R482: an entry that a detection fences: RETIRED when it was fenced within the last 24 h, else FENCED. -/
def fencedEntry (now : W64) (f : Fence) : Fence :=
  let again := 0 < f.times ∧ (now - f.fencedAt).toNat < dayTicks
  { state := if again then .retired else .fenced, fencedAt := now, times := f.times + 1, passes := 0 }

/-- R480: stall s is fenced; a stall that is FENCED or RETIRED already stays so. -/
def fenceStall (i : Fin 1024) (cause : W64) (s : State) : State :=
  let f := sget {} s.saf.stalls i.val
  if f.state = .fenced ∨ f.state = .retired then s
  else
    let f' := fencedEntry s.awn.tick f
    logFence (.stall i) f'.state cause (s.withSaf { s.saf with stalls := sput {} s.saf.stalls i.val f' })

/-- R480: Cellar s is fenced. -/
def fenceCellar (i : Fin 1024) (cause : W64) (s : State) : State :=
  let f := sget {} s.saf.cellars i.val
  if f.state = .fenced ∨ f.state = .retired then s
  else
    let f' := fencedEntry s.awn.tick f
    logFence (.cellar i) f'.state cause (s.withSaf { s.saf with cellars := sput {} s.saf.cellars i.val f' })

/-- R385, R546: a Counting House pipe is fenced. -/
def fencePipe (p : Fin 16) (cause : W64) (s : State) : State :=
  let bit : W16 := 1 <<< p.val
  if s.saf.pipesFenced &&& bit ≠ 0 then s
  else
    let s := s.withSaf { s.saf with pipesFenced := s.saf.pipesFenced ||| bit }
    let s := s.withHouse { s.house with addersFenced := add48 s.house.addersFenced 1 }
    logFence (.pipe p) .fenced cause s

/-- R17, R480: a Clerk pair fences itself and the other takes over; when both are fenced the module fails. -/
def fenceClerk (p : Fin 2) (cause : W64) (s : State) : State :=
  let s := s.withSaf { s.saf with clerkFenced := s.saf.clerkFenced ||| (1 <<< p.val) }
  let s := logFence (.clerk p) .fenced cause s
  if s.saf.clerkFenced = 3 then failModule 2 s else s

/-- R289: a port carries data of the module's slice: it is up and its far end belongs to the same slice. -/
def carriesSlice (s : State) (t : TPort) : Bool :=
  (decide (t.state = .up) || decide (t.state = .retrain)) &&
  (match s.slice.sliceId, t.farIdent with
    | some id, some i => i.assigned && decide (i.sliceId = id)
    | _, _ => false)

/-- R489: a LINK record of a port or of one of its lanes. -/
def logLink (p : Port) (lane event : Nat) (more : Bytes) (s : State) : State :=
  logEvent 0x400 1 (.torusPort p) ([BitVec.ofNat 8 (portIx p).val, BitVec.ofNat 8 lane, BitVec.ofNat 8 event, 0] ++ more) s

/-- R337: the member that the lead treats as failed for a port: the one of its two ends with the higher member index. -/
def portDownMember (s : State) (t : TPort) : Nat :=
  match t.farIdent with
  | some i => max (memberIndex s) (memberOfCoords s (i.x, i.y, i.z))
  | none => memberIndex s

/-- R337: a port that carries data of the slice is reported to the lead. -/
def reportPortDown (p : Port) (s : State) : State := emit (.portDown p (portDownMember s (getPort s p))) s

/-- R320, R337: a torus port goes DOWN; one that carries slice data is reported to the lead. -/
def portDown (p : Port) (s : State) : State :=
  let t := getPort s p
  if t.state = .down then s
  else
    let carried := carriesSlice s t
    let s := logLink p 0xFF 2 [] (setPort s p { t with state := .down, phase := .detect, detectAt := s.awn.tick })
    if carried then reportPortDown p s else s

/-- R385: a residue failure of a pipe: recorded, and the pipe is fenced when it failed within the last 500 ms. -/
def pipeFailure (p : Fin 16) (cause : W64) (s : State) : State :=
  let recent := s.saf.pipeFails.any (fun x => decide (x.1 = p.val) && decide ((s.awn.tick - x.2).toNat < 500000000))
  let s := s.withSaf { s.saf with
    pipeFails := s.saf.pipeFails.filter (fun x => decide ((s.awn.tick - x.2).toNat < 500000000)) ++ [(p.val, s.awn.tick)] }
  if recent then fencePipe p cause s else s

/-- R480, R481: a seal failure or a link error beyond retry: no fence at first; a repeat within the step epoch at the same
stall or port fences it; with a Hall's Exchange or ring link the Hall is lost (in part DEDUCED: log 108). -/
def softFailure (unit : UnitId) (cause : W64) (s : State) : State :=
  let key := (runningEpoch s, unit)
  if key ∈ s.saf.softSeen then
    match unit with
    | .stall i => fenceStall i cause s
    | .torusPort p => portDown p s
    | .hall h => loseHall h s
    | _ => s
  else s.withSaf { s.saf with softSeen := s.saf.softSeen.filter (fun x => decide (x.1 = runningEpoch s)) ++ [key] }

/-- R480 mechanism 12: no fence; a repeat within 24 h and the module reports itself failed. -/
def dupLogicFailure (s : State) : State :=
  let again := match s.saf.dupLogicAt with
    | some t => decide ((s.awn.tick - t).toNat < dayTicks)
    | none => false
  let s := s.withSaf { s.saf with dupLogicAt := some s.awn.tick }
  if again then failModule 6 s else s

/-- R195, R480: a Cellar page, by 4 KiB page number, is retired. -/
def retireNear (page : Nat) (s : State) : State :=
  let h := sget {} s.mem.nearPages page
  s.withMem { s.mem with nearPages := sput {} s.mem.nearPages page { h with retired := true } }

/-- R195, R480: a far-tier unit is retired. -/
def retireFar (unit : Nat) (s : State) : State :=
  let h := sget {} s.mem.farPages unit
  s.withMem { s.mem with farPages := sput {} s.mem.farPages unit { h with retired := true } }

/-- R174: the page of a Cellar-local byte address (in part DEDUCED: log 38). -/
def nearPage (c : Fin 1024) (addr : Nat) : Nat := 131072 * c.val + addr / 4096

/-- R180: the unit of a controller that holds the 64-byte line of a package (in part DEDUCED: log 38). -/
def farUnitOf (c : Fin 24) (line : Nat) : Nat := 24 * (line / 64) + c.val

/-- R480: what a detection of a mechanism fences. An uncorrectable line retires its page or unit (R195)
(in part DESIGN CHOICE: log 37). -/
def fenceFor (d : Detection) (cause : W64) (s : State) : State :=
  match d.mechanism, d.unit with
  | 13, .clerk p => fenceClerk p cause s
  | 14, .hall h => loseHall h s
  | 15, .hall h => loseHall h s
  | 12, _ => dupLogicFailure s
  | 11, .pipe p => pipeFailure p cause s
  | 9, .cellar c => fenceCellar c cause s
  | 9, u => softFailure u cause s
  | 10, u => softFailure u cause s
  | 8, .cellar c => retireNear (nearPage c d.location.toNat) s
  | 8, .farCtl c => retireFar (farUnitOf c d.location.toNat) s
  | 16, _ => s
  | _, .stall i => fenceStall i cause s
  | _, _ => s

/-- R385, R480: whether a mechanism's detection leads to a replay: a Counting House residue does not. -/
def replaysStep (d : Detection) : Bool := decide (d.mechanism ≠ 11)

/-! ### Suspect attempts and replay (R473 to R477) -/

/-- R477: the DETAIL of a REPLAY_LIMIT record: the SEQ of the four detections, 0 for one that another member wrote. -/
def limitDetail (l : List (W48 × W64)) (e : W48) : Bytes :=
  let seqs := (l.filter (fun p => p.1 = e)).map (·.2)
  (List.range 4).flatMap (fun i => natLe 8 (seqs.getD i 0).toNat)

/-- R477: the fourth detection of a step epoch ends the running command with FENCED. -/
def replayLimit (s : State) : State :=
  let e := runningEpoch s
  let seq := nextSeq s
  let s := logEvent 0x204 4 .none (limitDetail s.saf.epochDetections e) s
  endRun rFenced { logSeq := seq } s

/-- R79: the stream of a conversion under SR. -/
def convStream (d : DrainDesc) : Option W32 := if dcRm d.control = .sr then some (dcStream d.control) else none

/-- R79, R131, R239, R274: the draw streams that a program names in its verbs, its drain descriptors and the conversions of its
expert layers. -/
def programStreams (p : Program) : List W32 :=
  (p.verbs.flatMap (fun h => h.draws.filterMap id ++
      (h.outs.filterMap id).filterMap (fun w => if sdRm w = .sr then some (sdStream w) else none)) ++
    p.drains.filterMap convStream ++ p.layers.flatMap (fun l => [l.outConv, l.bwdConv].filterMap convStream)).eraseDups

/-- R170: every evaluation stream's counter set to a draw base. -/
def setEvalDraws (base : W64) (s : State) : State :=
  match s.load.prog with
  | none => s
  | some p => ((programStreams p).filter isEvalStream).foldl (fun s i => setDrawCounter s i base) s

/-- R38: a stream at its producer with no tensor under way: a credit for every slot of each consumer's queue. -/
def freshOut (o : OutStream) : OutStream := { credits := o.credits.map (fun c => (c.1, o.q)), q := o.q }

/-- R38: a stream at its consumer with nothing received. -/
def freshIn (q : InStream) : InStream := { q := q.q, producer := q.producer }

/-- R27, R116: the working state of a stall is discarded; its contexts, its streams' places, its store and its tests stay. -/
def idleStall (st : Stall) : Stall :=
  { store := st.store, ctx := st.ctx, contexts := st.contexts, testedAt := st.testedAt, testedEpoch := st.testedEpoch,
    testUntil := st.testUntil,
    outs := (st.outs.map (fun p => (p.1, freshOut p.2))).filter (fun p => decide (p.2 ≠ {})),
    ins := (st.ins.map (fun p => (p.1, freshIn p.2))).filter (fun p => decide (p.2 ≠ {})) }

/-- The working state of every stall is discarded. -/
def clearStalls (t : Sparse Stall) : Sparse Stall :=
  (t.map (fun p => (p.1, idleStall p.2))).filter (fun p => decide (p.2 ≠ {}))

/-- R22: the stalls whose writes of the shadow buffer waited for a snapshot drain go on; those that wait for a running sum stay. -/
def freeShadowWaits (s : State) : State :=
  let go := fun (st : Stall) =>
    if st.wait = some waitPeer ∧ (st.span.isSome ∨ st.bufs.toList.any (fun b => decide (b.state = .drain))) ∧
        !st.bufs.toList.any (fun b => b.complete && decide (b.state = .accumulate) && b.chain.isSome) then
      { st with wait := none, busy := true }
    else st
  s.withStalls ((s.stalls.map (fun p => (p.1, go p.2))).filter (fun p => decide (p.2 ≠ {})))

/-- R170, R173: an evaluation's work is discarded: it will run again from its start with the same draw base. -/
def restartEval (attempt : Byte) (s : State) : State :=
  match s.step.run with
  | none => s
  | some r =>
    let s := setEvalDraws r.drawBase (s.withStalls (clearStalls s.stalls))
    let s := s.withJob { s.job with
      evalSeq := 0, params := [], summaries := [], partials := [], collResults := [], norm := none, decided := [], verbRuns := [] }
    let s := s.withTens { s.tens with writes := [] }
    let s := s.withHouse { s.house with colls := [], completed := [], reuse := [], leased := 0, normTerms := [] }
    let s := s.withStep { s.step with rings := [], suspect := false, attempt := attempt }
    s.withLedger { s.ledger with
      entries := [], batches := [], streams := [], fetches := [], tiles := [], tileQueue := [], asked := [], gathered := [], convBases := [] }

/-- R173, R473: the attempt is suspect at this module: PREPARED is withheld and SUSPECT leaves for the lead; the fourth
detection of a step epoch ends the command (R477). -/
def markSuspect (unit : UnitId) (seq : W64) (s : State) : State :=
  if s.step.run.isNone then s
  else if inEval s then
    emit (.suspect { epoch := runningEpoch s, attempt := s.step.attempt, member := memberIndex s, unit := unit })
      (s.withStep { s.step with suspect := true })
  else
    let e := runningEpoch s
    let s := s.withSaf { s.saf with
      epochDetections := s.saf.epochDetections.filter (fun p => decide (p.1 = e)) ++ [(e, seq)] }
    let s := s.withStep { s.step with suspect := true }
    if 3 ≤ s.step.replays then replayLimit s
    else emit (.suspect { epoch := e, attempt := s.step.attempt, member := memberIndex s, unit := unit }) s

/-- R307: a stall fenced during local placement restarts that phase once without it. -/
def restartPlacement (s : State) : State :=
  match s.load.loading with
  | some l =>
    if l.phase = .localPlacement ∧ l.restarted = false then
      s.withLoad { s.load with loading := some { l with phys := none, restarted := true } }
    else s
  | none => s

/-- R17, R473, R480: a detection: it is recorded, its unit is fenced, and on an active path, as a Clerk pair's always is, the
attempt becomes suspect
(in part DEDUCED: log 38) (in part DEDUCED: log 83). -/
def detect (d : Detection) (s : State) : State :=
  let seq := nextSeq s
  let s := countDetection d.mechanism d.unit d.location d.observed d.expected s
  let s := restartPlacement (fenceFor d seq s)
  if (d.active || decide (d.mechanism = 13)) && replaysStep d then markSuspect d.unit seq s else s

/-- DETECT (R473). -/
def execDetect (d : Detection) (s : State) : Result := .next (detect d s)

/-- R173, R474, R477: SUSPECT at the lead (in part DEDUCED: log 28). -/
def suspectAtLead (m : SuspectMsg) (s : State) : State :=
  if !isLead s || s.step.run.isNone then s
  else if m.epoch ≠ runningEpoch s ∨ m.attempt ≠ s.step.attempt ∨ s.step.decision.isSome then s
  else if s.step.replaySent = some (m.attempt + 1) then s
  else if 3 ≤ s.step.replays ∧ inEval s = false then replayLimit s
  else
    emit (.replay m.epoch (m.attempt + 1)) (s.withStep { s.step with replaySent := some (m.attempt + 1) })

/-- SUSPECT (R474). -/
def execSuspect (m : SuspectMsg) (s : State) : Result := .next (suspectAtLead m s)

/-! ### Roles moved off a fenced stall (R310 to R313) -/

/-- Aisle hops between the mesh places of two stalls. -/
def meshHops (a b : Nat) : Nat :=
  let dx := ((a % 16 : Nat) : Int) - ((b % 16 : Nat) : Int)
  let dy := ((a / 16 % 16 : Nat) : Int) - ((b / 16 % 16 : Nat) : Int)
  dx.natAbs + dy.natAbs

/-- R480: a stall in service. -/
def stallInService (s : State) (i : Nat) : Bool := decide ((sget {} s.saf.stalls i).state = .inService)

/-- R308: how many clause contexts a stall holds in a map. -/
def contextCount (m : PhysMap) (i : Nat) : Nat := (m.roles.filter (fun r => r.stall.val = i)).length

/-- The candidate with the least key, the lowest s on a tie. -/
def leastBy (key : Nat → Nat) : List Nat → Option Nat
  | [] => none
  | x :: t =>
    match leastBy key t with
    | none => some x
    | some y => if key y < key x then some y else some x

/-- R311 steps 1 and 2: the UNPLACED stall in service of a Hall with the fewest hops from the fenced stall's place. -/
def unplacedIn (s : State) (m : PhysMap) (old : Fin 1024) (h : Nat) : Option Nat :=
  leastBy (meshHops old.val) ((List.range 256).map (fun i => 256 * h + i) |>.filter (fun i =>
    stallInService s i && decide (contextCount m i = 0)))

/-- R43, R311: the other Halls that a role's clause may use, in order. -/
def otherHalls (m : PhysMap) (r : RolePlace) : List Nat :=
  let home := ((m.homes.find? (fun p => p.1 = r.clause)).map (fun p => p.2.val)).getD (r.stall.val / 256)
  let used := (m.roles.filter (fun q => q.clause = r.clause)).map (fun q => q.stall.val / 256)
  match (used ++ [home]).find? (fun h => h ≠ r.stall.val / 256) with
  | some h => [h]
  | none => [(home + 1) % 4, (home + 3) % 4]

/-- R311: the new stall of a role of a fenced stall. -/
def newStall (s : State) (m : PhysMap) (r : RolePlace) : Option Nat :=
  match unplacedIn s m r.stall (r.stall.val / 256) with
  | some i => some i
  | none =>
    match (otherHalls m r).findSome? (unplacedIn s m r.stall) with
    | some i => some i
    | none =>
      leastBy (fun i => 1024 * contextCount m i + i)
        (((m.roles.filter (fun q => decide (q.clause = r.clause) && decide (q.stall ≠ r.stall))).map
          (fun q => q.stall.val)).filter (fun i => stallInService s i && decide (contextCount m i < 8)))

/-! ### The stalls under a physical map (R33, R38, R40, R53, R312) -/

/-- The section of a list that holds an element of a tensor, and the element's place in it. -/
def codeIn (l : List Section) (tid : W64) (k : Nat) : Option Nat :=
  (l.find? (fun x => decide (x.desc.tid = tid) && decide (x.desc.base ≤ k) && decide (k < x.desc.base + x.desc.elems))).map
    (fun x => unpackCode x.desc.fmt x.content (k - x.desc.base))

/-- R21, R299: the code of a tensor's element as a forward pass or an evaluation reads it: of a state tensor, the committed one, or a
peer's committed one that has been gathered. -/
def readCode (s : State) (tid : W64) (k : Nat) : Option Nat :=
  codeIn (committed s ++ s.tens.plain ++ s.tens.gathered.flatMap (·.2)) tid k

/-- R24, R53: the codes of a block of a clause's weight tensor, [N, K] with K innermost: its 32 columns, each of `depth` codes from
position (n0, k0); a code that this module does not hold is left to `other`. -/
def blockCodes (s : State) (tid : W64) (k depth n0 k0 : Nat) (other : Nat → Nat → Nat) : List (List Nat) :=
  (List.range 32).map (fun n => (List.range depth).map (fun j => (readCode s tid ((n0 + n) * k + k0 + j)).getD (other n j)))

/-- The weight tensor of a clause: its declaration. -/
def weightTensor (s : State) (clause : Nat) : Option TensorDecl :=
  (s.load.prog.bind (fun p => (p.clauses[clause]?).bind (fun c => c.gemm.bind (·.weights)))).bind (findTensor s)

/-- R206, R489: a failed seal check: the SEAL_FAIL record names the producing unit, the consuming unit and both seals;
it is a detection of mechanism 10, and the attempt becomes suspect. -/
def sealFailure (consumer producer : UnitId) (tid : W64) (sec : W16) (carried computed : W64) (s : State) : State :=
  let seq := nextSeq s
  let s := s.withSaf { s.saf with detections := add48 s.saf.detections 1 }
  let s := logEvent 0x102 3 consumer
    (natLe 8 tid.toNat ++ natLe 2 sec.toNat ++ natLe 2 (unitCode producer) ++ natLe 8 carried.toNat ++ natLe 8 computed.toNat) s
  markSuspect consumer seq (softFailure producer seq s)

/-- A stall number as a unit. -/
def stallUnit (n : Nat) : UnitId := if h : n < 1024 then .stall ⟨n, h⟩ else .none

/-- R203: the descriptor that a consumer expects of a stored section: that of the program, a state tensor's with the epoch of the last
commit, another's with the epoch of its write (in part DEDUCED: log 96). -/
def expectedDesc (s : State) (x : Section) : SectionDesc :=
  match findTensor s x.desc.tid with
  | some t => sectionDesc t x.desc.sec.toNat (if isState t.role then s.job.epoch else x.desc.epoch)
  | none => x.desc

/-- R203: a stored section whose seal is not that of the descriptor its consumer expects. -/
def unsound (s : State) (x : Section) : Bool := !sealOk (expectedDesc s x) x

/-- R206: the reaction to the first unsound section of those that a unit reads. -/
def unsoundFailure (consumer : UnitId) (l : List Section) (s : State) : State :=
  match l.find? (unsound s) with
  | some x => sealFailure consumer .none x.desc.tid x.desc.sec x.sealWord (sealOf (expectedDesc s x) x.content x.scales x.record) s
  | none => s

/-- R53: the bytes of a resident weight block, as the Cellars hold them. -/
def thinBytes (s : State) (r : Region) (n0 k0 : Nat) : Bytes :=
  match weightTensor s r.clause with
  | none => []
  | some t => packCodes t.fmt ((blockCodes s t.tid (rowLen t.dims) (r.bytes * 8 / 32 / fmtBits t.fmt) n0 k0 (fun _ _ => 0)).flatMap id)

/-- R53, R312: the resident weight blocks are read into their stalls' stores. -/
def fillThin (s : State) : State :=
  match s.load.phys with
  | none => s
  | some m => m.regions.foldl (fun s r => match r.kind with
      | .thin n0 k0 =>
        let st := getStall s r.stall
        setStall s r.stall { st with store := writeBytes st.store r.base (thinBytes s r n0 k0) }
      | _ => s) s

/-- R38, R40, R45: a stall as a physical map lays it out; its store's bytes and its self-test times stay. -/
def placedStall (m : PhysMap) (old : Stall) (i : Nat) : Stall :=
  let mine := m.roles.filter (fun r => r.stall.val = i)
  { store := old.store, testedAt := old.testedAt, testedEpoch := old.testedEpoch, testUntil := old.testUntil,
    contexts := (mine.map (·.clause)).eraseDups, ctx := (mine.map (·.clause)).headD 0,
    outs := (m.streams.filter (fun x => x.producer.val = i)).foldl (fun t x =>
      sput {} t x.id { credits := x.consumers.map (fun c => (c.val, x.q)), q := x.q }) [],
    ins := (m.streams.filter (fun x => x.consumers.any (fun c => c.val = i))).foldl (fun t x =>
      sput {} t x.id { q := x.q, producer := x.producer.val }) [] }

/-- R302: every stall set up by the physical map. -/
def placeStalls (m : PhysMap) (s : State) : State :=
  s.withStalls ((List.range 1024).foldl (fun t i => sput {} t i (placedStall m (sget {} s.stalls i) i)) [])

/-! ### A role moved off its stall (R311, R312) -/

/-- R312: a stream of a clause whose role moves: its end on the old stall moves, and its queue is computed again under R40. -/
def moveStream (c : Clause) (r : RolePlace) (next : Fin 1024) (x : StreamPlace) : StreamPlace :=
  let producer := if x.producer = r.stall ∧ x.id ∈ c.outStreams then next else x.producer
  let consumers := if x.id ∈ c.inStreams then x.consumers.map (fun q => if q = r.stall then next else q) else x.consumers
  if producer = x.producer ∧ consumers = x.consumers then x
  else
    let h := streamHops producer consumers
    { x with producer := producer, consumers := consumers, hops := h, q := queueFor x.q h }

/-- R312: the map with a role on its new stall: its regions and its streams go with it. -/
def movedMap (s : State) (m : PhysMap) (r : RolePlace) (next : Fin 1024) : PhysMap :=
  let streams := match s.load.prog.bind (fun p => p.clauses[r.clause]?) with
    | some c => m.streams.map (moveStream c r next)
    | none => m.streams
  let m' : PhysMap := { m with
    roles := m.roles.map (fun q => if q = r then { q with stall := next } else q),
    regions := m.regions.map (fun (g : Region) => if g.stall = r.stall ∧ g.clause = r.clause then { g with stall := next } else g),
    streams := streams }
  { m' with digest := Config.mapDigest ((s.load.plan.map (·.version)).getD 0) { m' with digest := 0 } }

/-- R189, R312: the bytes of a Cellar that the placement has not used: 512 MiB less Ondarel's 8 MiB and its retired pages. -/
def cellarFree (s : State) (m : PhysMap) (c : Nat) : Nat :=
  let retired := (s.mem.nearPages.filter (fun p => decide (p.1 / 131072 = c) && p.2.retired)).length
  536870912 - 8388608 - 4096 * retired - Config.cellarBytes ((s.load.plan.map (·.version)).getD 0) m c

/-- R312: the sections of a fenced Cellar fit the free bytes of its Hall's Cellars in service. -/
def rebuildFits (s : State) (m : PhysMap) (c : Fin 1024) : Bool :=
  let ok := fun (i : Nat) => decide ((sget {} s.saf.cellars i).state = .inService)
  ok c.val || decide (Config.cellarBytes ((s.load.plan.map (·.version)).getD 0) m c.val ≤
    (((List.range 256).filter (fun j => ok (256 * (c.val / 256) + j))).map
      (fun j => cellarFree s m (256 * (c.val / 256) + j))).foldl (· + ·) 0)

/-- R311, R312, R313: one role moved and recorded; `false` when no stall can take it, or its fenced Cellar's Hall has no room. -/
def moveRole (r : RolePlace) (x : State × Bool) : State × Bool :=
  let (s, ok) := x
  match s.load.phys with
  | none => (s, ok)
  | some m =>
    match newStall s m r with
    | none => (s, false)
    | some n =>
      if h : n < 1024 ∧ rebuildFits s m r.stall = true then
        let m' := movedMap s m r ⟨n, h.1⟩
        (logEvent 0x202 1 .none (natLe 4 r.role ++ natLe 2 r.stall.val ++ natLe 2 n ++ natLe 8 m'.digest.toNat)
          (s.withLoad { s.load with phys := some m' }), ok)
      else (s, false)

/-- R310, R312: every role on a stall that is out of service is moved; then the stalls stand as the new map lays them out, with
their resident weight blocks. -/
def moveRoles (s : State) : State × Bool :=
  match s.load.phys with
  | none => (s, true)
  | some m =>
    match m.roles.filter (fun r => !stallInService s r.stall.val) with
    | [] => (s, true)
    | l =>
      let (s, ok) := l.foldl (fun x r => moveRole r x) (s, true)
      match s.load.phys with
      | some m' => (fillThin (placeStalls m' s), ok)
      | none => (s, ok)

/-! ### REPLAY (R475, R476) -/

/-- R475: the work of an attempt is discarded and the values of the last commit stand again. -/
def abandonAttempt (attempt : Byte) (s : State) : State :=
  let pt := s.job.point
  let rolls := s.house.colls.filterMap (·.roll)
  let s := s.withStalls (clearStalls s.stalls)
  let s := setShadow s []
  let s := s.withTens { s.tens with writes := [] }
  let s := s.withJob { s.job with
    draws := pt.draws, collSeq := pt.collSeq, params := [], summaries := [], partials := [], collResults := [],
    norm := none, decided := [], verbRuns := [] }
  let s := s.withLedger { s.ledger with
    entries := [], batches := [], streams := [], dir := pt.dir, visits := [], requests := [], offered := [], fetches := [], tiles := [],
    tileQueue := [], asked := [], gathered := [], counted := false, convBases := [] }
  let s := s.withHouse { s.house with
    colls := [], completed := [], carries := pt.carries, leased := 0, normTerms := [],
    reuse := s.house.reuse ++ rolls.filter (fun r => !(s.house.reuse.any (fun q => decide (q.seq = r.seq)))) }
  s.withStep { s.step with
    rings := [], attempt := attempt, skipped := false, holding := false, mirrored := 0, mirrorAcked := false, suspect := false, prepared := false,
    held := [], decision := none }

/-! ### Self-tests (R470 to R472, R482) -/

/-- Whether a stall holds a role of the placement. -/
def holdsRole (s : State) (i : Fin 1024) : Bool :=
  match s.load.phys with
  | some m => m.roles.any (fun r => decide (r.stall = i))
  | none => false

/-- R470: a failed self-test is a detection: it is counted and recorded. -/
def selfTestFail (row : Nat) (unit : UnitId) (pattern location : W32) (s : State) : State :=
  let s := s.withSaf { s.saf with detections := add48 s.saf.detections 1 }
  logEvent 0x103 3 unit ([BitVec.ofNat 8 row, 0, 0, 0] ++ natLe 4 pattern.toNat ++ natLe 4 location.toNat) s

/-- R472: the LATENT_WINDOW record of a stall, from its last passed test to now. -/
def latentWindow (i : Fin 1024) (s : State) : State :=
  let st := getStall s i
  logEvent 0x104 3 (.stall i)
    (natLe 8 (max st.testedAt.toNat s.saf.startTest.toNat) ++ natLe 8 s.awn.tick.toNat ++ natLe 6 st.testedEpoch.toNat ++ natLe 6 (runningEpoch s).toNat) s

/-- R54: a weight-gradient clause, whose tiles drain once in a step. -/
def gradientClause (s : State) (st : Stall) : Bool := (stallClause s st).any (fun c => c.gemm.any (fun g => g.gradient.isSome))

/-- R45, R54: no tile of the clause that a stall leaves is under way but a weight gradient's, which stays in ACCUMULATE. -/
def atBoundary (s : State) (st : Stall) : Bool :=
  st.span.isNone && (gradientClause s st || st.bufs.toList.all (fun b => decide (b.state = .free) || b.complete)) &&
  st.outs.all (fun o => decide (o.2.backlog = []))

/-- R471: a stall's turn may begin: it is not RETIRED nor under test, a placed one is at a tensor boundary, and fewer than 8 stalls of
its Hall are under test. -/
def testMayBegin (s : State) (i : Fin 1024) : Bool :=
  decide ((sget {} s.saf.stalls i.val).state ≠ .retired) && !underTest s i.val &&
  (!holdsRole s i || atBoundary s (getStall s i)) &&
  decide (((List.range 256).filter (fun j => underTest s (256 * (i.val / 256) + j))).length < 8)

/-- R471: the stall is under test from now on, for at most 120 µs (in part DESIGN CHOICE: log 103). -/
def beginTest (i : Fin 1024) (s : State) : State :=
  setStall s i { getStall s i with
    testUntil := s.awn.tick + BitVec.ofNat 64 (min 120000 (Config.testTicks i.val s.awn.tick.toNat)) }

/-- R471, R472: one stall's turn in the rolling self-test and its outcome. -/
def stallSelfTest (i : Fin 1024) (t : SelfTest) (s : State) : State :=
  if !testMayBegin s i then s
  else
    let s := beginTest i s
    match t with
    | .pass => setStall s i { getStall s i with testedAt := s.awn.tick, testedEpoch := runningEpoch s }
    | .faultyUnit p l =>
      let seq := nextSeq s
      let role := holdsRole s i
      let s := fenceStall i seq (selfTestFail 0 (.stall i) p l s)
      if role then markSuspect (.stall i) seq s else s
    | .faultyChecker p l =>
      let seq := nextSeq s
      let role := holdsRole s i
      let s := fenceStall i seq (selfTestFail 0 (.stall i) p l s)
      if role then markSuspect (.stall i) seq (latentWindow i s) else s

/-- STALL_SELF_TEST (R471). -/
def execStallSelfTest (i : Fin 1024) (t : SelfTest) (s : State) : Result := .next (stallSelfTest i t s)

/-- R470, R480: a periodic self-test of another unit; a failure fences the unit where R480 can. -/
def unitSelfTest (row : Nat) (unit : UnitId) (pass : Bool) (s : State) : State :=
  if pass then s
  else
    let seq := nextSeq s
    let s := selfTestFail row unit 0 0 s
    match unit with
    | .stall i => fenceStall i seq s
    | .cellar c => fenceCellar c seq s
    | .pipe p => fencePipe p seq s
    | .clerk p => fenceClerk p seq s
    | .hall h => loseHall h s
    | _ => s

/-- UNIT_SELF_TEST (R470). -/
def execUnitSelfTest (row : Nat) (unit : UnitId) (pass : Bool) (s : State) : Result :=
  .next (unitSelfTest row unit pass s)

/-- R482: a retest of a FENCED unit is due 1 s after its fencing and every 500 ms after that. -/
def retestDue (now : W64) (f : Fence) : Bool :=
  match f.retested with
  | some t => decide (500000000 ≤ (now - t).toNat)
  | none => decide (1000000000 ≤ (now - f.fencedAt).toNat)

/-- R482: a retest of a FENCED unit, when it is due: after three passes in a row it is RESTORABLE. -/
def retestEntry (now : W64) (f : Fence) (pass : Bool) : Fence :=
  if f.state ≠ .fenced ∨ retestDue now f = false then f
  else if pass then
    if 2 ≤ f.passes then { f with state := .restorable, passes := f.passes + 1, retested := some now }
    else { f with passes := f.passes + 1, retested := some now }
  else { f with passes := 0, retested := some now }

/-- R482: the retest of a stall or Cellar. -/
def fencedRetest (cellar : Bool) (i : Fin 1024) (pass : Bool) (s : State) : State :=
  let f := sget {} (if cellar then s.saf.cellars else s.saf.stalls) i.val
  let f' := retestEntry s.awn.tick f pass
  let s := if cellar then s.withSaf { s.saf with cellars := sput {} s.saf.cellars i.val f' }
    else s.withSaf { s.saf with stalls := sput {} s.saf.stalls i.val f' }
  if f.state = .fenced ∧ f'.state = .restorable then
    logFence (if cellar then .cellar i else .stall i) .restorable 0 s
  else s

/-- FENCED_RETEST (R482). -/
def execFencedRetest (cellar : Bool) (i : Fin 1024) (pass : Bool) (s : State) : Result :=
  .next (fencedRetest cellar i pass s)

/-! ### The Logbook's own events (R492) -/

/-- LOGBOOK_QUEUE_ROOM (R492). -/
def execLogbookQueueRoom (s : State) : Result := .next (admitWaiting s.log.waiting.length s)

/-- LOGBOOK_MRAM_WRITE (R492). -/
def execLogbookMramWrite (s : State) : Result := .next (mramWrite s)

end Sys2Proof.Machine
end

