-- ==== Sys2Proof/Machine/Memory.lean ====
section
/-! DEFINITION. The two tiers and the CXL.mem window (R174 to R213): Cellar transfers, far-tier reads, scrubbing,
refresh, corrections and retirements, the host's lines of the window and the CXL memory-device mailbox. -/

namespace Sys2Proof.Machine

/-! ### Errors in storage (R191 to R196) -/

/-- R180: the far tier's size, 24 packages of 64 GiB. -/
def farSize : Nat := 0x18000000000

/-- R180: the controller of a far-tier address. -/
def farCtlOf (addr : Nat) : Fin 24 := ⟨addr / 4096 % 24, Nat.mod_lt _ (by decide)⟩

/-- R194: a correction entered into a page's history; three within 24 h retire the page at the next placement. -/
def histCorrect (now : W64) (h : PageHist) : PageHist :=
  let l := h.corrections.filter (fun t => decide ((now - t).toNat < dayTicks)) ++ [now]
  { h with corrections := l, atNext := h.atNext || decide (3 ≤ l.length) }

/-- R194: a corrected error of a Cellar line: the line is written back and the correction counted. -/
def correctNear (c : Fin 1024) (addr : Nat) (s : State) : State :=
  let p := nearPage c addr
  let s := s.withMem { s.mem with
    nearPages := sput {} s.mem.nearPages p (histCorrect s.awn.tick (sget {} s.mem.nearPages p)) }
  countCorrection 8 (.cellar c) addr s

/-- R194: a corrected error of a far-tier line. -/
def correctFar (addr : Nat) (s : State) : State :=
  let u := addr / 4096
  let s := s.withMem { s.mem with
    farPages := sput {} s.mem.farPages u (histCorrect s.awn.tick (sget {} s.mem.farPages u)) }
  countCorrection 8 (.farCtl (farCtlOf addr)) addr s

/-- R196: an uncorrectable error at the source of a snapshot drain: the drain is abandoned. -/
def abandonDrain (s : State) : State := freeShadowWaits (s.withSnap { s.snap with draining := none, drainOut := [] })

/-- R195, R196, R448: what follows an uncorrectable error by what the line belongs to: a drain's source abandons the
drain; committed state is copied back from the standby and the running step becomes suspect; any other line only makes
the step suspect (in part DESIGN CHOICE: log 39). -/
def lostLine (unit : UnitId) (seq : W64) (holds : Option SectionRef) (s : State) : State :=
  match holds with
  | some r =>
    if r.drainSource then abandonDrain s
    else markSuspect unit seq (if r.committed && s.snap.partner.isSome then emit (.standbyRead r.tid r.sec) s else s)
  | none => markSuspect unit seq s

/-- R195, R466: an uncorrectable error of a Cellar line (in part DESIGN CHOICE: log 37). -/
def uncorrectableNear (c : Fin 1024) (addr : Nat) (holds : Option SectionRef) (s : State) : State :=
  let seq := nextSeq s
  let s := countDetection 8 (.cellar c) (BitVec.ofNat 32 addr) 0 0 s
  lostLine (.cellar c) seq holds (retireNear (nearPage c addr) s)

/-- The line of its package that a far-tier address lies in (in part DEDUCED: log 38). -/
def farLine (addr : Nat) : W32 := BitVec.ofNat 32 (addr / 4096 / 24 * 64 + addr % 4096 / 64)

/-- R195, R466: an uncorrectable error of a far-tier line, recorded and its unit retired. -/
def recordFarLoss (addr : Nat) (s : State) : State :=
  retireFar (addr / 4096) (countDetection 8 (.farCtl (farCtlOf addr)) (farLine addr) 0 0 s)

/-- R195: the same for a read of the module's own (in part DESIGN CHOICE: log 37). -/
def uncorrectableFar (addr : Nat) (holds : Option SectionRef) (s : State) : State :=
  let seq := nextSeq s
  lostLine (.farCtl (farCtlOf addr)) seq holds (recordFarLoss addr s)

/-! ### Cellars (R174 to R179) -/

/-- R480: a Cellar that is FENCED or RETIRED has stopped. -/
def cellarStopped (s : State) (c : Fin 1024) : Bool :=
  let f := (sget {} s.saf.cellars c.val).state
  decide (f = .fenced) || decide (f = .retired)

/-- R174: the near-tier byte address of a Cellar-local one, at its 64-byte unit. -/
def nearAddr (c : Fin 1024) (addr : Nat) : Nat := 536870912 * c.val + addr / 64 * 64

/-- R191: the transfer's data moves: a write stores its 64 bytes, a read returns them. -/
def moveCellar (c : Fin 1024) (x : CellarXfer) (s : State) : State :=
  let a := nearAddr c x.addr.toNat
  match x.write with
  | some b => s.withMem { s.mem with near := writeBytes s.mem.near a (b.take 64) }
  | none => emit (.memData a (readBytes s.mem.near a 64)) s

/-! ### Requests at a Cellar (R15, R174, R176, R177) -/

/-- R174: the bank of a Cellar-local address: consecutive 256-byte units in rotation over 8 layers of 8 banks, layer by layer. -/
def cellarBank (addr : Nat) : Nat := addr / 256 % 64

/-- A remote request for a Cellar. -/
def cellarLoad (c : Fin 1024) : AisleLoad → Bool
  | .cellar n _ _ => decide (n = c.val)
  | _ => false

/-- R176: the remote request that has waited longest at a Cellar. -/
def firstRemote (s : State) (c : Fin 1024) : Option AisleFlit := (getStall s c).arrived.find? (fun f => cellarLoad c f.load)

/-- R15, R36: the request of a transfer as it travels over the Aisle. -/
def cellarRequest (c : Fin 1024) (x : CellarXfer) : AisleFlit :=
  { src := x.requester, dst := c, vc := .vc1, load := .cellar c.val x.addr.toNat x.write.isSome }

/-- R15, R176, R177: a Cellar serves a transfer now: the owner's, unless a remote request waits and the owner was served last; a
remote one when its request has arrived before every other, unless the owner waits and a remote one was served last. -/
def cellarServes (s : State) (c : Fin 1024) (x : CellarXfer) : Bool :=
  let k := sget {} s.mem.cellars c.val
  if x.requester = c then !(k.ownerLast && (firstRemote s c).isSome)
  else decide (firstRemote s c = some (cellarRequest c x)) && !(k.ownerWaits && !k.ownerLast)

/-- R15, R176: a transfer that is not served waits: the owner's at its Cellar, another stall's as a request that goes over Aisle VC1,
and over the Hall ring from another Hall; the stall counts WAIT_CELLAR. -/
def cellarQueue (c : Fin 1024) (x : CellarXfer) (s : State) : State :=
  let s := stallWaits x.requester waitCellar s
  if x.requester = c then
    s.withMem { s.mem with cellars := sput {} s.mem.cellars c.val { sget {} s.mem.cellars c.val with ownerWaits := true } }
  else if inAisle (fun f => decide (f = cellarRequest c x)) s then s
  else routeFlit x.requester (cellarRequest c x) s

/-- R176: the request of a transfer that is served no longer waits, and the turn passes. -/
def cellarTurn (c : Fin 1024) (x : CellarXfer) (s : State) : State :=
  let own := decide (x.requester = c)
  let k := sget {} s.mem.cellars c.val
  let s := s.withMem { s.mem with
    cellars := sput {} s.mem.cellars c.val { k with ownerLast := own, ownerWaits := k.ownerWaits && !own } }
  if own then s
  else
    let st := getStall s c
    setStall s c { st with arrived := ((takeFlit (cellarLoad c) st.arrived).map (·.2)).getD [] }

/-- R191: a completed 64-byte Cellar transfer. A fourth CRC failure is an uncorrectable error and fences the Cellar; an
uncorrectable line retires its page and nothing is returned (in part DESIGN CHOICE: log 37). -/
def servedTransfer (c : Fin 1024) (x : CellarXfer) (s : State) : State :=
  if 4 ≤ x.crcFails then
    let seq := nextSeq s
    let s := countDetection 9 (.cellar c) (BitVec.ofNat 32 x.addr.toNat) 0 0 s
    let s := fenceCellar c seq s
    if x.write.isSome then markSuspect (.cellar c) seq s
    else lostLine (.cellar c) seq x.holds (retireNear (nearPage c x.addr.toNat) s)
  else
    match x.write, x.ecc with
    | none, .uncorrectable => uncorrectableNear c x.addr.toNat x.holds s
    | none, .corrected => endWait x.requester waitCellar (moveCellar c x (correctNear c x.addr.toNat s))
    | _, _ => endWait x.requester waitCellar (moveCellar c x s)

/-- R176, R191: a 64-byte transfer at a Cellar in service, served at its turn (in part DESIGN CHOICE: log 37). -/
def cellarTransfer (c : Fin 1024) (x : CellarXfer) (s : State) : State :=
  if !fnOn s (.hall (hallOf c)) || cellarStopped s c then s
  else if cellarServes s c x then servedTransfer c x (cellarTurn c x s)
  else cellarQueue c x s

/-- CELLAR_TRANSFER (R191). -/
def execCellarTransfer (c : Fin 1024) (x : CellarXfer) (s : State) : Result := .next (cellarTransfer c x s)

/-- R179: the refresh rate that a Cellar's row calls for comes into force between two refresh commands. -/
def refreshChange (c : Fin 1024) (s : State) : State :=
  let x := sget {} s.mem.cellars c.val
  s.withMem { s.mem with cellars := sput {} s.mem.cellars c.val { x with doubled := decide (1 ≤ x.row) } }

/-- REFRESH_RATE_CHANGE (R179). -/
def execRefreshRateChange (c : Fin 1024) (s : State) : Result := .next (refreshChange c s)

/-! ### The far tier (R180 to R193) -/

/-- R213: the far tier and the Exchange core are powered. -/
def exchangeOn (s : State) : Bool := s.pwr.pg

/-- R192: a far-tier line read. -/
def farTierRead (addr : Nat) (ecc : EccOutcome) (holds : Option SectionRef) (s : State) : State :=
  let a := addr / 64 * 64
  if !exchangeOn s then s
  else
    match ecc with
    | .uncorrectable => uncorrectableFar a holds s
    | .corrected => let s := correctFar a s; emit (.memData a (readBytes s.mem.far a 64)) s
    | .clean => emit (.memData a (readBytes s.mem.far a 64)) s

/-- FAR_TIER_READ (R192). Far-tier addresses run from 0 to 0x180_0000_0000 − 1 (R180) (in part DEDUCED: log 86). -/
def execFarTierRead (addr : Nat) (ecc : EccOutcome) (holds : Option SectionRef) (s : State) : Result :=
  if farSize ≤ addr then .fault (.noSuchAddress addr) else .next (farTierRead addr ecc holds s)

/-- R193: how many 64-byte lines each tier has. -/
def nearLines : Nat := 8589934592
def farLines : Nat := 25769803776

/-- R174: the Cellar of a near-tier line. -/
def cellarOfLine (line : Nat) : Fin 1024 := ⟨line / 8388608 % 1024, Nat.mod_lt _ (by decide)⟩

/-- R193: another access waits at the bank of a near-tier line. -/
def bankBusy (s : State) (c : Fin 1024) (addr : Nat) : Bool :=
  (getStall s c).arrived.any (fun f => match f.load with
    | .cellar n a _ => decide (n = c.val) && decide (cellarBank a = cellarBank addr)
    | _ => false)

/-- R193 to R195: the scrubber reads the next line of a tier, in ascending order, which the spec leaves open (DESIGN CHOICE: log 91),
and yields to an access that waits at the line's bank; what it finds is handled as on any read. -/
def scrub (far : Bool) (ecc : EccOutcome) (holds : Option SectionRef) (s : State) : State :=
  if !exchangeOn s then s
  else if far then
    let a := 64 * s.mem.farScrub
    let s := s.withMem { s.mem with farScrub := (s.mem.farScrub + 1) % farLines }
    match ecc with
    | .clean => s
    | .corrected => correctFar a s
    | .uncorrectable => uncorrectableFar a holds s
  else
    let line := s.mem.nearScrub
    let c := cellarOfLine line
    let a := 64 * (line % 8388608)
    if bankBusy s c a then s
    else
      let s := s.withMem { s.mem with nearScrub := (line + 1) % nearLines }
      if !fnOn s (.hall (hallOf c)) || cellarStopped s c then s
      else
        match ecc with
        | .clean => s
        | .corrected => correctNear c a s
        | .uncorrectable => uncorrectableNear c a holds s

/-- SCRUB (R193). -/
def execScrub (far : Bool) (ecc : EccOutcome) (holds : Option SectionRef) (s : State) : Result :=
  .next (scrub far ecc holds s)

/-! ### The CXL.mem window (R208 to R213) -/

/-- R208: the far-tier address of a line of the window. -/
def lineAddr (line : BitVec 30) : Nat := windowBase + 64 * line.toNat

/-- Bytes of a bit vector, lowest first. -/
def bytesOf (w : Nat) (x : BitVec w) (n : Nat) : Bytes := natLe n x.toNat

/-- R209, R212: a host read of a line. An uncorrectable error returns the line poisoned, with data that the spec leaves
open, and is recorded in the CXL event log and the Logbook (in part DESIGN CHOICE: log 39). The event holds the far-tier address of
the line, of which the spec says nothing (DESIGN CHOICE: log 91). -/
def cxlRead (line : BitVec 30) (ecc : EccOutcome) (s : State) : State :=
  let a := lineAddr line
  if !s.bus.linkUp then s
  else
    match ecc with
    | .uncorrectable =>
      let (v, s) := takeFree 512 s
      let s := recordFarLoss a s
      s.withBus { s.bus with cxlData := some (bytesOf 512 v 64, true), cxlEvents := s.bus.cxlEvents ++ [a] }
    | .corrected =>
      let s := correctFar a s
      s.withBus { s.bus with cxlData := some (readBytes s.mem.far a 64, false) }
    | .clean => s.withBus { s.bus with cxlData := some (readBytes s.mem.far a 64, false) }

/-- CXL_MEM_READ (R209). -/
def execCxlMemRead (line : BitVec 30) (ecc : EccOutcome) (s : State) : Result := .next (cxlRead line ecc s)

/-- R209: a host write of a line. -/
def cxlWrite (line : BitVec 30) (b : Bytes) (s : State) : State :=
  if !s.bus.linkUp then s
  else s.withMem { s.mem with far := writeBytes s.mem.far (lineAddr line) (b.take 64) }

/-- CXL_MEM_WRITE (R209). -/
def execCxlMemWrite (line : BitVec 30) (b : Bytes) (s : State) : Result := .next (cxlWrite line b s)

/-! ### The CXL memory-device mailbox (R498) -/

/-- The return codes of the CXL memory-device mailbox: success, and Unsupported (PRESUMED, from the CXL family)
(in part PRESUMED: log 34). -/
def cxlSuccess : W16 := 0
def cxlUnsupported : W16 := 0x15

/-- R498: an answer of the CXL memory-device mailbox, while the link is up. -/
def cxlAnswer (code : W16) (b : Bus) : Bus := { b with cxlReturn := code }

/-- IDENTIFY_MEMORY_DEVICE (R498): the command is served. -/
def execIdentifyMemoryDevice (s : State) : Result :=
  .next (if s.bus.linkUp then s.withBus (cxlAnswer cxlSuccess s.bus) else s)

/-- R498: event log entries returned, oldest first. -/
def getEvents (n : Nat) (s : State) : State :=
  if s.bus.linkUp then s.withBus { cxlAnswer cxlSuccess s.bus with cxlOut := s.bus.cxlEvents.take n } else s

/-- GET_EVENT_RECORDS (R498). -/
def execGetEventRecords (max : Nat) (s : State) : Result := .next (getEvents max s)

/-- R498: event log entries cleared, oldest first. -/
def clearEvents (n : Nat) (s : State) : State :=
  if s.bus.linkUp then s.withBus { cxlAnswer cxlSuccess s.bus with cxlEvents := s.bus.cxlEvents.drop n } else s

/-- CLEAR_EVENT_RECORDS (R498). -/
def execClearEventRecords (count : Nat) (s : State) : Result := .next (clearEvents count s)

/-- R498: the opcodes that the CXL memory-device mailbox serves (PRESUMED, from the CXL family)
(in part PRESUMED: log 34). -/
def cxlServed : List W16 := [0x4000, 0x0100, 0x0101]

/-- CXL_MAILBOX_UNSUPPORTED (R498): any other command is answered with Unsupported. -/
def execCxlMailboxUnsupported (opcode : W16) (s : State) : Result :=
  .next (if s.bus.linkUp && !decide (opcode ∈ cxlServed) then s.withBus (cxlAnswer cxlUnsupported s.bus) else s)

end Sys2Proof.Machine
end

