-- ==== Sys2Proof/Machine/Power.lean ====
section
/-! DEFINITION. Input power, power states, shutdown and the phases of start-up around verified boot (R582 to R598,
R630 to R632), capping, throttling and temperature (R587 to R590, R178), and loss of control (R478). -/

namespace Sys2Proof.Machine

/-! ### Records and pins -/

/-- A job is open (R522: OPEN, LOADED and SITE). -/
def jobIsOpen (s : State) : Bool :=
  decide (s.mbx.job = .opened) || decide (s.mbx.job = .loaded) || decide (s.mbx.job = .site)

/-- R489: a POWER record of an event; FATAL while a job is open (in part DEDUCED: log 40). -/
def logPower (event rail : Nat) (sev : BitVec 3) (s : State) : State :=
  logEvent 0x500 sev .none ([BitVec.ofNat 8 event, BitVec.ofNat 8 rail, 0, 0] ++ natLe 4 s.pwr.mv.toNat ++ natLe 4 s.pwr.ma.toNat) s

/-- R489: the severity of a POWER record. -/
def powerSev (s : State) : BitVec 3 := if jobIsOpen s then 4 else 1

/-- R616: a sideband output follows its signal, unless EXTEST gives it to the boundary register. -/
def sidebandPin (name : String) (level : Bool) (s : State) : State := if s.dbg.extest then s else emit (.pin name level) s

/-- R626: PG driven. -/
def drivePg (v : Bool) (s : State) : State :=
  if s.pwr.pg = v then s else sidebandPin "PG" v (s.withPwr { s.pwr with pg := v })

/-- R590: THERM_N driven; its assertion sets PWR_EVENTS THERM. -/
def driveTherm (v : Bool) (s : State) : State :=
  if s.pwr.thermN = v then s
  else sidebandPin "THERM_N" (!v) (s.withPwr { s.pwr with thermN := v, therm := s.pwr.therm || v })

/-! ### What losing power loses (R586, R213, R519) -/

/-- R586: the domains outside the Awning and the Logbook lose their power: job state, token state, both tiers, and the
state of every unit. The flash, the NOR flash, the fuses, the fence table and the retirements stay. -/
def losePower (s : State) : State :=
  let s := s.withMbx {}
  let s := s.withBus { perst := s.bus.perst, msix := s.bus.msix, alert := s.bus.alert }
  let s := s.withDev { s.dev with hallsOn := 0, scratch := 0 }
  let s := s.withTal {}
  let s := s.withFns (Vector.replicate 14 {})
  let s := s.withPorts (Vector.replicate 6 {})
  let s := s.withSlice {}
  let s := s.withJob {}
  let s := s.withLoad {}
  let s := s.withStalls []
  let s := s.withMem { s.mem with near := [], far := [], cellars := [], nearScrub := 0, farScrub := 0 }
  let s := s.withTens {}
  let s := s.withLedger {}
  let s := s.withHouse {}
  let s := s.withStep {}
  let s := s.withSnap { flash := s.snap.flash, stored := s.snap.stored }
  s.withSite {}

/-- R595: a phase of start-up begins. -/
def enterPhase (ph : StartPhase) (s : State) : State := s.withPwr { s.pwr with phase := ph, phaseSince := s.awn.tick }

/-- The fields of the power block that stand for rails and readings, at rest: events, the state and the pins stay. -/
def quietPower (p : Pwr) : Pwr :=
  { p with parDone := (false, false, false), farRetried := false, cleared := false, requestP1 := false, cap := 0xFA0, mv := 0, ma := 0,
           watts := 0, halls := Vector.replicate 4 {}, quiet := 0, currentGated := false, levels := [], readings := [], gatedSince := none,
           restTicks := 0 }

/-- R536, R519, R606: the start of a start-up from Sleep, Standby or no power: the mailbox state reads 0, and the
security state that verified boot builds is empty. -/
def beginRails (s : State) : State :=
  let s := losePower s
  let s := s.withPwr { quietPower s.pwr with state := .starting, phase := .rails, restart := false, rangeLoss := false,
                                             startFault := false, phaseSince := s.awn.tick }
  let s := s.withSaf { s.saf with selfFailed := none }
  let s := s.withDbg { tapActive := s.dbg.tapActive, ir := s.dbg.ir, boundary := s.dbg.boundary }
  let s := s.withSec { s.sec with
    meas := Vector.replicate 8 (List.replicate 32 0), attLog := [], logOverflow := false, fallback := false,
    failedBank := none, bootedB := false, cacheOk := false, signQueue := [], attWindow := 0, attSigned := 0,
    installing := none, unlocked := false, boots := s.sec.boots + 1 }
  settleAlert s

/-- R595: Wait ends when the input is in range and PWR_EN is asserted; a latched Standby does not leave it. -/
def tryStart (s : State) : State :=
  if (s.pwr.state = .standby ∨ s.pwr.state = .sleep) ∧ s.pwr.pwrEn = true ∧ s.pwr.inRange = true then beginRails s
  else s

/-- R478, R597: every rail outside the Awning off, PG deasserted, in the latched Standby. -/
def latchOff (s : State) : State :=
  let s := losePower s
  drivePg false (s.withPwr { quietPower s.pwr with state := .latched, phase := .wait, restart := false })

/-- R597: a start-up failure: a FATAL record, ALERT_N and the latched Standby (in part DEDUCED: log 40). -/
def startupFailure (s : State) : State :=
  let s := logPower 1 4 4 s
  settleAlert (let s := latchOff s; s.withPwr { s.pwr with startFault := true })

/-! ### The input (R582, R632) -/

/-- R491: at start-up SEQ resumes at the reserve. -/
def resumeLog (l : Log) : Log := { l with nextSeq := l.reserve, queue := [], waiting := [], lost := 0, lostWindow := 0 }

/-- R582, R6, R491, R547: the input rises through 40 V: the Awning powers up from no power, sticky fields take their
power-on values, the Logbook resumes at its reserve and the fence table is loaded; then the module waits. -/
def awningUp (mv : Nat) (s : State) : State :=
  if mv < 40000 ∨ s.awn.on = true then s
  else
    let s := s.withAwn { on := true }
    let s := s.withSaf { stalls := s.saf.stalls, cellars := s.saf.cellars }
    let s := s.withLog (resumeLog s.log)
    let s := s.withPwr { state := .standby, phase := .wait, pwrEn := s.pwr.pwrEn, mv := BitVec.ofNat 17 mv,
                         inRange := decide (46000 ≤ mv) && decide (mv ≤ 60000) }
    tryStart (settleAlert s)

/-- AWNING_POWER_UP (R582). -/
def execAwningPowerUp (mv : Nat) (s : State) : Result := .next (awningUp mv s)

/-- R582: the input falls below 36 V: the Awning turns off. PWR_EN keeps its level. -/
def awningOff (mv : Nat) (s : State) : State :=
  if 36000 ≤ mv then s
  else
    let s := losePower s
    let s := s.withAwn {}
    let s := s.withLog { s.log with queue := [], waiting := [] }
    let s := s.withPwr { pwrEn := s.pwr.pwrEn }
    s.withDbg {}

/-- AWNING_POWER_OFF (R582). -/
def execAwningPowerOff (mv : Nat) (s : State) : Result := .next (awningOff mv s)

/-- R582: the input leaves 46 V to 60 V. -/
def inputOut (mv : Nat) (s : State) : State :=
  let since := if s.pwr.inRange then s.awn.tick else s.pwr.outSince
  if s.awn.on = false then s
  else if mv < 46000 then
    s.withPwr { s.pwr with undervolt := true, inRange := false, leftHigh := some false, mv := BitVec.ofNat 17 mv, outSince := since }
  else if 60000 < mv then
    s.withPwr { s.pwr with overvolt := true, inRange := false, leftHigh := some true, mv := BitVec.ofNat 17 mv, outSince := since }
  else s

/-- INPUT_OUT_OF_RANGE (R582). -/
def execInputOutOfRange (mv : Nat) (s : State) : Result := .next (inputOut mv s)

/-- R582: the thresholds have 0.5 V of hysteresis in the direction of recovery. -/
def recovered (left : Option Bool) (mv : Nat) : Bool :=
  match left with
  | none => decide (46000 ≤ mv) && decide (mv ≤ 60000)
  | some false => decide (46500 ≤ mv) && decide (mv ≤ 60000)
  | some true => decide (46000 ≤ mv) && decide (mv ≤ 59500)

/-- R582, R632: the input reaches its operating range, and a held PWR_EN starts Rails. -/
def inputIn (mv : Nat) (s : State) : State :=
  if s.awn.on = false ∨ recovered s.pwr.leftHigh mv = false then s
  else tryStart (s.withPwr { s.pwr with inRange := true, leftHigh := none, mv := BitVec.ofNat 17 mv })

/-- INPUT_IN_RANGE (R632). -/
def execInputInRange (mv : Nat) (s : State) : Result := .next (inputIn mv s)

/-! ### Shutdown (R591, R592) -/

/-- The main rails are on, or start-up turns them on. -/
def railsOn (s : State) : Bool :=
  decide (s.pwr.state = .starting) || decide (s.pwr.state = .p0) || decide (s.pwr.state = .p1) || decide (s.pwr.state = .idle)

/-- R591: a shutdown begins: no descriptor is taken, all work stops, a slice member reports itself failed, and a POWER
record is written. -/
def beginShutdown (event : Nat) (rangeLoss : Bool) (s : State) : State :=
  let s := if s.slice.sliceId.isSome then failModule 4 s else s
  let s := logPower event 0xFF (powerSev s) s
  let s := s.withStalls (clearStalls s.stalls)
  s.withPwr { s.pwr with state := .shutdown, rangeLoss := rangeLoss, restart := false }

/-- R582: the input has been out of range for 100 µs. -/
def rangeTimeout (s : State) : State :=
  if s.pwr.inRange = true ∨ railsOn s = false ∨ (s.awn.tick - s.pwr.outSince).toNat < 100000 then s else beginShutdown 2 true s

/-- INPUT_RANGE_TIMEOUT (R582). -/
def execInputRangeTimeout (s : State) : Result := .next (rangeTimeout s)

/-- R595, R592, R630: PWR_EN asserts and has held for 1 µs. During a shutdown the start-up follows the shutdown. -/
def pwrEnAssert (held : Bool) (s : State) : State :=
  if held = false then s
  else
    let s := s.withPwr { s.pwr with pwrEn := true }
    if s.pwr.state = .shutdown then s.withPwr { s.pwr with restart := true } else tryStart s

/-- PWR_EN_ASSERT (R595). -/
def execPwrEnAssert (held : Bool) (s : State) : Result := .next (pwrEnAssert held s)

/-- R591, R584, R630: PWR_EN deasserts and has held for 1 µs: the module shuts down; a latched Standby is left ready
for the next assertion. -/
def pwrEnDeassert (held : Bool) (s : State) : State :=
  if held = false then s
  else
    let s := s.withPwr { s.pwr with pwrEn := false, restart := false }
    if s.pwr.state = .latched then s.withPwr { s.pwr with state := .standby }
    else if railsOn s then beginShutdown 3 false s
    else s

/-- PWR_EN_DEASSERT (R591). -/
def execPwrEnDeassert (held : Bool) (s : State) : Result := .next (pwrEnDeassert held s)

/-- R591, R592: the shutdown sequence has completed: Sleep, or Standby when the input left its range; a PWR_EN asserted
meanwhile starts the module again. -/
def shutdownDone (s : State) : State :=
  if s.pwr.state ≠ .shutdown then s
  else
    let st : PowerState := if s.pwr.rangeLoss then .standby else .sleep
    let s := losePower s
    let s := drivePg false (s.withPwr { quietPower s.pwr with state := st, phase := .wait, restart := false, rangeLoss := false,
                                                               sleepSince := s.awn.tick })
    tryStart s

/-- SHUTDOWN_DONE (R591). -/
def execShutdownDone (s : State) : Result := .next (shutdownDone s)

/-- R493: PG deasserts: a POWER record, the queue drained into the MRAM and every pending freeze completed. -/
def pgDeassert (s : State) : State :=
  if s.pwr.pg = false then s
  else
    let s := drivePg false s
    let s := logPower 0 0xFF (powerSev s) s
    let n := s.log.queue.length + (s.log.waiting.map List.length).sum
    completeFreezes (drainQueue n s)

/-- PG_DEASSERT (R493). -/
def execPgDeassert (s : State) : Result := .next (pgDeassert s)

/-- SLEEP_TIMEOUT (R584): after 300 s of Sleep the module enters Standby. -/
def execSleepTimeout (s : State) : Result :=
  .next (if s.pwr.state = .sleep ∧ 300000000000 ≤ (s.awn.tick - s.pwr.sleepSince).toNat then
    s.withPwr { s.pwr with state := .standby } else s)

/-! ### Idle (R585) -/

/-- R585: work is in progress. -/
def workPresent (s : State) : Bool :=
  queueBusy s || s.step.run.isSome || s.snap.updating.isSome || s.snap.draining.isSome || s.snap.filling.isSome ||
  s.snap.flashWriting.isSome || s.snap.storing.isSome || decide (s.snap.mirror ≠ []) ||
  decide (s.site.outbound ≠ []) || decide (s.site.inbound ≠ []) || s.house.colls.any (fun c => !c.complete)

/-- R584: the state of a module with work: P0 or P1. -/
def activeState (p : Pwr) : PowerState := if p.requestP1 then .p1 else .p0

/-- R585: one tick with or without work; 1 ms of rest is kept. -/
def restTick (s : State) : State :=
  s.withPwr { s.pwr with restTicks := if workPresent s then 0 else min 1000000 (s.pwr.restTicks + 1) }

/-- IDLE_ENTRY (R585): after 1 ms without work. -/
def execIdleEntry (s : State) : Result :=
  .next (if (s.pwr.state = .p0 ∨ s.pwr.state = .p1) ∧ workPresent s = false ∧ 1000000 ≤ s.pwr.restTicks then
    s.withPwr { s.pwr with state := .idle } else s)

/-- IDLE_EXIT (R585): new work ungates the stalls. -/
def execIdleExit (s : State) : Result :=
  .next (if s.pwr.state = .idle ∧ workPresent s = true then s.withPwr { s.pwr with state := activeState s.pwr } else s)

/-! ### Capping and throttling (R583, R587, R588) -/

/-- R588: the cap in force: CAP_W in P1, 4,000 W in P0. -/
def capInForce (p : Pwr) : Nat := if p.requestP1 then p.cap.toNat else 4000

/-- R587: a setting of the ladder from 0 to 3,000 MHz in steps of 50 MHz (in part DESIGN CHOICE: log 51). -/
def rung (mhz : Nat) : Nat := min 3000 (mhz / 50 * 50)

/-- R587: one setting down and one up. -/
def stepDown (mhz : Nat) : Nat := mhz - 50
def stepUp (mhz : Nat) : Nat := min 3000 (mhz + 50)

/-- R588: the least of a Hall's targets. -/
def hallSetting (h : HallPower) : Nat := min h.powerMhz (min h.hallMhz h.thermalMhz)

/-- R587, R551: the effective rate that PWR_ACLK reports (in part DESIGN CHOICE: log 51). -/
def effectiveMhz (s : State) (h : Fin 4) : Nat :=
  if !fnOn s (.hall h) then 0
  else
    let x := s.pwr.halls[h]
    if x.limitGated then 0
    else if s.pwr.currentGated then hallSetting x / 2 else hallSetting x

/-- R587, R603: of the nominal cycles up to number n since power-up, how many hold an ACLK edge at an effective rate. -/
def edgesUpTo (mhz n : Nat) : Nat := n * mhz / 3000

/-- R588: every Hall set to the rate that the power model gives for the cap in force. -/
def applyModel (p : Pwr) : Pwr :=
  { p with halls := Vector.ofFn (fun h => { p.halls[h] with powerMhz := rung (Config.powerModel (capInForce p) h) }), quiet := 0 }

/-- R552, R588: a write of CAP_W; values outside 1,000 to 4,000 keep the previous one. -/
def writeCap (v : W32) (s : State) : State :=
  let w : BitVec 13 := v.extractLsb' 0 13
  if 1000 ≤ w.toNat ∧ w.toNat ≤ 4000 ∧ w ≠ s.pwr.cap then s.withPwr (applyModel { s.pwr with cap := w }) else s

/-- R551, R584, R588: a write of REQUESTED; values other than 0 and 1 keep the previous one. -/
def writeRequested (v : W32) (s : State) : State :=
  let r := (v.extractLsb' 8 3).toNat
  if r ≤ 1 ∧ decide (r = 1) ≠ s.pwr.requestP1 then
    let p := applyModel { s.pwr with requestP1 := decide (r = 1) }
    s.withPwr (if p.state = .p0 ∨ p.state = .p1 then { p with state := activeState p } else p)
  else s

/-- R588, R552: POWER_CAP_CHANGE, a host write of CAP_W (`cap`) or of REQUESTED. -/
def powerCapChange (cap : Bool) (v : W32) (s : State) : State :=
  if !hostReaches s then s else if cap then writeCap v s else writeRequested v s

/-- POWER_CAP_CHANGE (R588). -/
def execPowerCapChange (cap : Bool) (v : W32) (s : State) : Result := .next (powerCapChange cap v s)

/-- R588: one interval of a power rule: the setting and the count of quiet intervals after it. -/
def powerRule (watts cap mhz quiet : Nat) : Nat × Nat :=
  if cap < watts then (stepDown mhz, 0)
  else if 100 * watts < 98 * cap then (if 9 ≤ quiet then (stepUp mhz, 0) else (mhz, quiet + 1))
  else (mhz, 0)

/-- The key of a sensor in the tables of readings and levels. -/
def sensorKey : Sensor → Nat
  | .hallDie h i => 16 * h.val + i.val
  | .cellar c => 64 + c.val
  | .conversion i => 1088 + i.toNat
  | .lpdram i => 1344 + i.val

/-- R589: the throttle, limit and loss-of-control levels by sensor key. -/
def sensorLevels (key : Nat) : Int × Int × Int :=
  if key < 64 then (100, 110, 118)
  else if key < 1088 then (95, 105, 113)
  else if key < 1344 then (115, 125, 130)
  else (95, 105, 110)

/-- R588 to R590: whether a sensor throttles Hall h: its own dies and Cellars, and every conversion stage. -/
def sensorThrottles (h : Fin 4) (key : Nat) : Bool :=
  if key < 64 then decide (key / 16 = h.val)
  else if key < 1088 then decide ((key - 64) / 256 = h.val)
  else decide (key < 1344)

/-- R590: whether a sensor at its limit gates Hall h: its own, or every Hall for a conversion stage or LP-DRAM. -/
def sensorGates (h : Fin 4) (key : Nat) : Bool := sensorThrottles h key || decide (1344 ≤ key)

/-- R588: one interval of the thermal rule. -/
def thermalRule (s : State) (h : Fin 4) (mhz : Nat) : Nat :=
  let mine := s.pwr.readings.filter (fun p => sensorThrottles h p.1)
  if mine.any (fun p => decide ((sensorLevels p.1).1 ≤ p.2)) then stepDown mhz
  else if mine.all (fun p => decide (p.2 ≤ (sensorLevels p.1).1 - 3)) then stepUp mhz
  else mhz

/-- R588: a Hall after one interval. -/
def hallInterval (s : State) (cap inputW : Nat) (hallW : List Nat) (h : Fin 4) : HallPower :=
  let x := s.pwr.halls[h]
  let w := hallW.getD h.val 0
  if !fnOn s (.hall h) then x
  else
    let p := powerRule inputW cap x.powerMhz s.pwr.quiet
    let q := powerRule w 900 x.hallMhz x.hallQuiet
    { x with watts := BitVec.ofNat 10 w, powerMhz := p.1, hallMhz := q.1, hallQuiet := q.2,
             thermalMhz := thermalRule s h x.thermalMhz }

/-- R588, R551, R608: every 100 µs the targets of every Hall move; CAP_HIT records a cap hold. -/
def throttleInterval (inputW : Nat) (hallW : List Nat) (s : State) : State :=
  if railsOn s = false then s
  else
    let cap := capInForce s.pwr
    let q := (powerRule inputW cap 0 s.pwr.quiet).2
    let halls := Vector.ofFn (hallInterval s cap inputW hallW)
    let s := s.withPwr { s.pwr with
      halls := halls, quiet := q, cleared := false, watts := BitVec.ofNat 13 inputW, capHit := s.pwr.capHit || decide (cap < inputW) }
    let least := (List.ofFn (fun h : Fin 4 => if fnOn s (.hall h) then effectiveMhz s h else 3000)).foldl min 3000
    s.withTal { s.tal with
      winEnergy := s.tal.winEnergy + inputW * 1000 * 100000, winPeak := max s.tal.winPeak inputW,
      winAclk := min s.tal.winAclk least }

/-- THROTTLE_INTERVAL (R588). -/
def execThrottleInterval (inputW : Nat) (hallW : List Nat) (s : State) : Result := .next (throttleInterval inputW hallW s)

/-- CURRENT_GATING (R583): the 10 µs average exceeds 92 A. -/
def execCurrentGating (ma : Nat) (s : State) : Result :=
  .next (if railsOn s && decide (92000 < ma) then
    s.withPwr { s.pwr with currentGated := true, ma := BitVec.ofNat 17 ma } else s)

/-- CURRENT_GATING_RELEASE (R583): the 100 µs average falls below 85 A. -/
def execCurrentGatingRelease (ma : Nat) (s : State) : Result :=
  .next (if decide (ma < 85000) then s.withPwr { s.pwr with currentGated := false, ma := BitVec.ofNat 17 ma } else s)

/-! ### Loss of control (R478) -/

/-- A Hall's rails turned off until the next start-up: its function is OFF and its near-tier contents are lost. -/
def hallRailsOff (h : Fin 4) (s : State) : State :=
  let bit : BitVec 4 := 1 <<< h.val
  let s := setFn s (.hall h) { state := .off, lostOff := true }
  let s := s.withMem { s.mem with near := s.mem.near.filter (fun p => decide (p.1 / 137438953472 ≠ h.val)) }
  let s := s.withSaf { s.saf with hallsLost := s.saf.hallsLost ||| bit }
  let s := s.withStalls (s.stalls.filter (fun p => decide (p.1 / 256 ≠ h.val)))
  s.withDev { s.dev with hallsOn := s.dev.hallsOn &&& ~~~bit }

/-- R478: loss of control of a Hall: its rails go off, and the module reports itself failed. -/
def loseHallControl (h : Fin 4) (s : State) : State := failModule 5 (hallRailsOff h s)

/-- R478: loss of control of the module's rails: the module reports itself failed and every rail goes off. -/
def loseModuleControl (s : State) : State := latchOff (failModule 5 s)

/-- R489: a THERMAL record of a sensor. -/
def logThermal (sensor : Sensor) (response : Nat) (t : Int) (s : State) : State :=
  let (kind, index) := match sensor with
    | .hallDie h i => (0, 16 * h.val + i.val)
    | .cellar c => (1, c.val)
    | .conversion i => (2, i.toNat)
    | .lpdram i => (3, i.val)
  logEvent 0x501 (if response = 4 then 4 else 1) .none
    ([BitVec.ofNat 8 kind, BitVec.ofNat 8 response] ++ natLe 2 index ++ natLe 2 (BitVec.ofInt 16 t).toNat) s

/-- R478: LOSS_OF_CONTROL (in part DEDUCED: log 41). -/
def lossOfControl (c : ControlLoss) (s : State) : State :=
  if railsOn s = false then s
  else
    match c with
    | .hallRail h => loseHallControl h (logPower 1 h.val 4 s)
    | .hallTemp h =>
      loseHallControl h (driveTherm true (logThermal (.hallDie h 0) 4 (sget 0 s.pwr.readings (16 * h.val)) s))
    | .moduleRail => loseModuleControl (logPower 1 4 4 s)
    | .moduleTemp => loseModuleControl (driveTherm true (logThermal (.conversion 0) 4 (sget 0 s.pwr.readings 1088) s))

/-- LOSS_OF_CONTROL (R478). -/
def execLossOfControl (c : ControlLoss) (s : State) : Result := .next (lossOfControl c s)

/-! ### Temperature (R178, R589, R590) -/

/-- A level with hysteresis: up to the highest whose bound the reading reaches, down while the reading is 3 °C or more
below the bound of the level held. -/
def levelGo (t : Int) : Nat → List Int → Nat → Nat
  | _, [], n => n
  | held, b :: bs, n =>
    if b ≤ t ∨ (n < held ∧ b - 3 < t) then levelGo t held bs (n + 1) else n

/-- The level of a reading against ascending bounds, from the level held. -/
def levelOf (bounds : List Int) (held : Nat) (t : Int) : Nat := levelGo t held bounds 0

/-- R590: gating, with the tick at which it began, and THERM_N follow the sensors at their limit (in part DEDUCED: log 41). -/
def settleThermal (s : State) : State :=
  let hot := s.pwr.levels.filter (fun p => decide (2 ≤ p.2))
  let s := s.withPwr { s.pwr with
    gatedSince := if hot = [] then none else some (s.pwr.gatedSince.getD s.awn.tick),
    halls := Vector.ofFn (fun h => { s.pwr.halls[h] with limitGated := hot.any (fun p => sensorGates h p.1) }) }
  driveTherm (decide (hot ≠ [])) s

/-- R551: the hottest readings of the Halls (in part DEDUCED: log 40). -/
def settleReadings (s : State) : State :=
  let top := fun (f : Nat → Bool) => (s.pwr.readings.filter (fun p => f p.1)).foldl (fun m p => max m p.2) (0 : Int)
  s.withPwr { s.pwr with
    halls := Vector.ofFn (fun h => { s.pwr.halls[h] with
      hallC := top (fun k => decide (k < 64) && decide (k / 16 = h.val)),
      cellarC := top (fun k => decide (64 ≤ k) && decide (k < 1088) && decide ((k - 64) / 256 = h.val)) }) }

/-- R590, R478: a sensor at its loss-of-control level. -/
def sensorLost (sensor : Sensor) (s : State) : State :=
  match sensor with
  | .hallDie h _ => loseHallControl h s
  | .cellar c => loseHallControl (hallOf c) s
  | .conversion _ => loseModuleControl s
  | .lpdram _ => loseModuleControl s

/-- R589: a sensor's reading entered with its level. -/
def enterReading (sensor : Sensor) (t : Int) (s : State) : State :=
  let key := sensorKey sensor
  let (a, b, c) := sensorLevels key
  let n := levelOf [a, b, c] (sget 0 s.pwr.levels key) t
  settleThermal (settleReadings (s.withPwr { s.pwr with
    readings := sput 0 s.pwr.readings key t, levels := sput 0 s.pwr.levels key n }))

/-- R489, R178, R589: the response recorded when a level rises or falls (in part DEDUCED: log 41). -/
def levelRecord (sensor : Sensor) (old new base : Nat) (t : Int) (s : State) : State :=
  if new = old then s else logThermal sensor (if old < new then new + base else 5) t s

/-- R178, R589: a Cellar's higher reading: its row, and the levels of its Hall. -/
def cellarTemp (c : Fin 1024) (t : Int) (s : State) : State :=
  let x := sget {} s.mem.cellars c.val
  let held := if x.row = 3 ∧ sget 0 s.pwr.levels (sensorKey (.cellar c)) = 3 then 4 else x.row
  let n := levelOf [85, 95, 105, 113] held t
  let s := s.withMem { s.mem with cellars := sput {} s.mem.cellars c.val { x with row := min 3 n } }
  let s := levelRecord (.cellar c) held n 0 t (enterReading (.cellar c) t s)
  if held < n ∧ n = 4 then sensorLost (.cellar c) s else s

/-- CELLAR_TEMPERATURE_SAMPLE (R178): the higher of the two readings decides. -/
def execCellarTemperatureSample (c : Fin 1024) (base top : Int) (s : State) : Result :=
  .next (if railsOn s then cellarTemp c (max base top) s else s)

/-- R589: a sensor crosses a level or returns below it (in part DEDUCED: log 41). -/
def thermalLevel (sensor : Sensor) (t : Int) (s : State) : State :=
  match sensor with
  | .cellar c => cellarTemp c t s
  | _ =>
    let old := sget 0 s.pwr.levels (sensorKey sensor)
    let s := enterReading sensor t s
    let new := sget 0 s.pwr.levels (sensorKey sensor)
    let s := levelRecord sensor old new 1 t s
    if old < new ∧ new = 3 then sensorLost sensor s else s

/-- THERMAL_LEVEL (R589). -/
def execThermalLevel (sensor : Sensor) (t : Int) (s : State) : Result :=
  .next (if railsOn s then thermalLevel sensor t s else s)

/-- R590: limit gating that has lasted 1 s ends the running STEP_RUN or EVAL_RUN and is reported to the lead
(in part DEDUCED: log 41). -/
def thermalLimit (s : State) : State :=
  if s.pwr.gatedSince.any (fun t => decide (1000000000 ≤ (s.awn.tick - t).toNat)) && s.step.run.isSome then
    emit (.thermalLimit (memberIndex s)) (endRun rThermalLimit {} s)
  else s

/-- THERMAL_LIMIT (R590). -/
def execThermalLimit (s : State) : Result := .next (thermalLimit s)

/-! ### Start-up around verified boot (R595 to R598) -/

/-- R595, R598, R632: every rail is in regulation: PG asserts, and a PERST_N deasserted before is taken now. A Hall whose
rails fail is left off (in part DEDUCED: log 40). -/
def railsUp (halls : BitVec 4) (s : State) : State :=
  if s.pwr.phase ≠ .rails ∨ s.pwr.state ≠ .starting then s
  else
    let s := enterPhase .fuses s
    let s := s.withDev { s.dev with hallsOn := halls }
    let s := s.withSaf { s.saf with hallsLost := s.saf.hallsLost &&& ~~~halls }
    let s := drivePg true s
    if s.bus.perst then s else s.withBus { s.bus with trainArmed := true }

/-- RAILS_UP (R595). -/
def execRailsUp (halls : BitVec 4) (s : State) : Result := .next (railsUp halls s)

/-- R595, R599: the end of verified boot: every function of the module starts. A Hall whose rails are off stays OFF. -/
def startFunctions (s : State) : State :=
  let s := s.withFns (Vector.ofFn (fun i : Fin 14 =>
    if decide (i.val < 4) && !s.dev.hallsOn.getLsbD i.val then {} else { state := .starting }))
  let s := s.withPorts (Vector.replicate 6 { state := .training, detectAt := s.awn.tick })
  enterPhase .parallel (s.withPwr { s.pwr with parDone := (false, false, false), farRetried := false })

/-- R595: Ready starts when Far tier, Self-test and Links have all ended. -/
def parallelEnd (s : State) : State :=
  if s.pwr.parDone = (true, true, true) then enterPhase .ready s else s

/-- R597, R182: a far-tier training attempt: the tier is zeroed, or trained again once, or start-up fails. -/
def farTraining (failed : BitVec 24) (s : State) : State :=
  if s.pwr.phase ≠ .parallel ∨ s.pwr.parDone.1 = true then s
  else if failed = 0 then
    parallelEnd (let s := s.withMem { s.mem with far := [] }
                 s.withPwr { s.pwr with parDone := (true, s.pwr.parDone.2) })
  else if s.pwr.farRetried then startupFailure s
  else s.withPwr { s.pwr with farRetried := true }

/-- FAR_TIER_TRAINING (R597). -/
def execFarTierTraining (failed : BitVec 24) (s : State) : Result := .next (farTraining failed s)

/-- A Hall that was STARTING is ON. -/
def hallStarted (h : Fin 4) (s : State) : State :=
  let f := getFn s (.hall h)
  if f.state = .starting then setFn s (.hall h) { f with state := .on } else s

/-- R595, R597, R480: the start-up self-test: the Cellars are cleared, a failed stall is fenced, and the Halls are ON. -/
def startupSelfTest (failed : List (Fin 1024)) (s : State) : State :=
  if s.pwr.phase ≠ .parallel ∨ s.pwr.parDone.2.1 = true then s
  else
    let s := s.withMem { s.mem with near := [] }
    let s := s.withSaf { s.saf with startTest := s.awn.tick }
    let s := failed.foldl (fun s i => let seq := nextSeq s; fenceStall i seq (selfTestFail 0 (.stall i) 0 0 s)) s
    let s := [0, 1, 2, 3].foldl (fun s h => hallStarted h s) s
    parallelEnd (s.withPwr { s.pwr with parDone := (s.pwr.parDone.1, true, s.pwr.parDone.2.2) })

/-- STARTUP_SELF_TEST (R595). -/
def execStartupSelfTest (failed : List (Fin 1024)) (s : State) : Result := .next (startupSelfTest failed s)

/-- R595: a port's training has ended. -/
def portTrained (t : TPort) : Bool := portLive t || decide (t.state = .down)

/-- A function that was STARTING is ON. -/
def fnStarted (f : Func) (s : State) : State :=
  let x := getFn s f
  if x.state = .starting then setFn s f { x with state := .on } else s

/-- R595: every torus port is UNVERIFIED or DOWN, and the ports, the Counting House and the Barter unit are ON. -/
def startupLinks (s : State) : State :=
  if s.pwr.phase ≠ .parallel ∨ s.pwr.parDone.2.2 = true ∨ s.ports.toList.all portTrained = false then s
  else
    let s := (allPorts.map Func.torus ++ [Func.countingHouse, Func.barter]).foldl (fun s f => fnStarted f s) s
    parallelEnd (s.withPwr { s.pwr with parDone := (s.pwr.parDone.1, s.pwr.parDone.2.1, true) })

/-- STARTUP_LINKS (R595). -/
def execStartupLinks (s : State) : Result := .next (startupLinks s)

/-- R536, R538: the values that Ondarel writes during start-up. -/
def bootDev (s : State) : Dev :=
  { s.dev with stepping := Config.stepping, serial := Config.serial, fwVersion := Config.fwVersion,
               planRange := Config.planNewest ++ Config.planOldest, bootId := Config.bootId s.sec.boots }

/-- R607: the close of the first telemetry window: the next multiple of the length in fabric time. -/
def nextClose (tick len : Nat) : Nat := if len = 0 then tick else (tick / len + 1) * len

/-- R561, R595: the bound of a phase in ticks. Of the phases that run side by side, Links and Self-test count until they end, and the
far tier for each of its attempts. -/
def phaseBound (p : Pwr) : StartPhase → Nat
  | .rails => 100000000
  | .fuses => 5000000
  | .loader => 100000000
  | .firmware => 1500000000
  | .identity => 200000000
  | .parallel =>
    if !p.parDone.2.2 then 500000000
    else if !p.parDone.2.1 then 4000000000
    else if p.farRetried then 16000000000 else 8000000000
  | .ready => 100000000
  | _ => 0

/-- R597: a phase of start-up has exceeded its bound. Wait has none. -/
def phaseTimeout (ph : StartPhase) (s : State) : State :=
  if ph ≠ s.pwr.phase ∨ s.pwr.state ≠ .starting ∨ ph = .recovery ∨ ph = .wait ∨ ph = .done ∨ ph = .off ∨
      (s.awn.tick - s.pwr.phaseSince).toNat ≤ phaseBound s.pwr ph then s
  else startupFailure s

/-- STARTUP_PHASE_TIMEOUT (R597). -/
def execStartupPhaseTimeout (ph : StartPhase) (s : State) : Result := .next (phaseTimeout ph s)

/-! ### PERST_N and the HOST link (R497, R502, R598) -/

/-- R6: the non-sticky register fields at their reset values (in part PRESUMED: log 42). -/
def resetRegisters (s : State) : State :=
  let s := s.withDev { s.dev with scratch := 0 }
  let s := s.withTal { s.tal with select := 0, snapTick := 0, window := 0x0EE6B280, snapBusy := false, snapshot := [],
                                  taking := none }
  let p : Pwr := { s.pwr with requestP1 := false, cap := 0xFA0, mv := 0, ma := 0, watts := 0, cleared := true,
                              halls := s.pwr.halls.map (fun x => { x with watts := 0, hallC := 0, cellarC := 0 }) }
  let p : Pwr := if p.state = .p1 then { p with state := .p0 } else p
  let s := s.withPwr (if s.pwr.requestP1 then applyModel p else p)
  s.withDbg { s.dbg with probeEn := false, probes := Vector.replicate 32 (0, false), pins := 0, tapActive := false }

/-- R502, R6, R630: PERST_N asserts and has held for 1 µs: the link goes down and non-sticky fields are reset; rings,
tokens and the job stay (in part PRESUMED: log 42). -/
def perstAssert (held : Bool) (s : State) : State :=
  if held = false then s
  else
    let s := s.withBus { s.bus with perst := true, trainArmed := false, linkUp := false, busMaster := false, captured := [],
                                    halves := [], cxlReturn := 0, cxlOut := [] }
    let s := s.withMbx { s.mbx with takes := false }
    if exchangeOn s then resetRegisters s else s

/-- PERST_N_ASSERT (R502). -/
def execPerstNAssert (held : Bool) (s : State) : Result := .next (perstAssert held s)

/-- R598, R632: PERST_N deasserts: the HOST port trains, at once when PG is asserted and else when PG asserts. -/
def perstDeassert (held : Bool) (s : State) : State :=
  if held = false then s
  else s.withBus { s.bus with perst := false, trainArmed := s.bus.trainArmed || (s.pwr.pg && !s.bus.linkUp) }

/-- PERST_N_DEASSERT (R598). -/
def execPerstNDeassert (held : Bool) (s : State) : Result := .next (perstDeassert held s)

/-- R497: the widths and rates that the HOST port accepts. -/
def hostWidthOk (lanes gts : Nat) : Bool := decide (lanes ∈ [1, 2, 4, 8]) && decide (gts ∈ [32, 64])

/-- R497: training ends: the port is up at an allowed width and rate, or stays down. -/
def hostTrained (lanes gts : Nat) (s : State) : State :=
  if s.bus.trainArmed = false then s
  else if hostWidthOk lanes gts then
    s.withBus { s.bus with trainArmed := false, linkUp := true, width := lanes, rate := gts }
  else s.withBus { s.bus with trainArmed := false, linkUp := false }

/-- HOST_LINK_TRAINED (R497). -/
def execHostLinkTrained (lanes gts : Nat) (s : State) : Result := .next (hostTrained lanes gts s)

/-- HOST_RETRAIN_TIMER (R497): a port that is down trains again. -/
def execHostRetrainTimer (s : State) : Result :=
  .next (if !s.bus.linkUp && !s.bus.perst && s.pwr.pg then s.withBus { s.bus with trainArmed := true } else s)

/-- HOST_LINK_DOWN (R502): the link goes down; commands already taken go on, and no descriptor is taken until the link
is up and a doorbell has been written. -/
def execHostLinkDown (s : State) : Result :=
  .next ((s.withBus { s.bus with linkUp := false, trainArmed := false }).withMbx { s.mbx with takes := false })

/-- R501, R605: stalls that waited on host memory go on. -/
def resumeHost (t : Sparse Stall) : Sparse Stall :=
  t.map (fun p => (p.1, if p.2.wait = some waitHost then { p.2 with wait := none, busy := true } else p.2))

/-- BUS_MASTER_ENABLE_SET (R501): waiting host-memory transfers resume. -/
def execBusMasterEnableSet (s : State) : Result :=
  .next (if hostReaches s then (s.withBus { s.bus with busMaster := true }).withStalls (resumeHost s.stalls) else s)

/-- BUS_MASTER_ENABLE_CLEAR (R501): every transfer that needs host memory waits. -/
def execBusMasterEnableClear (s : State) : Result :=
  .next (if hostReaches s then s.withBus { s.bus with busMaster := false } else s)

end Sys2Proof.Machine
end

