-- ==== Sys2Proof/Machine/Awning.lean ====
section
/-! DEFINITION. Fabric time (R343 to R354): the time tree, offsets and steps, RACKCLK, FT_SYNC and the comparators. -/

namespace Sys2Proof.Machine

/-! ### Time -/

/-- R346: a time in units of 1/256 ns. -/
def stamp256 (tick : W64) (frac : W32) : Nat := 256 * tick.toNat + frac.toNat / 16777216

/-- R541: the code of a time state. -/
def timeCode : TimeState → Nat
  | .free => 0 | .acquiring => 1 | .synced => 2 | .holdover => 3

/-- R489: a TIME record. -/
def logTime (event : Nat) (old new : TimeState) (before after : W64) (s : State) : State :=
  logEvent 0x401 1 .none
    ([BitVec.ofNat 8 event, BitVec.ofNat 8 (timeCode old), BitVec.ofNat 8 (timeCode new), 0] ++
      natLe 4 s.awn.theta.toNat ++ natLe 8 before.toNat ++ natLe 8 after.toNat) s

/-- R347, R355: the time state changes, and every change enters the Logbook (in part DEDUCED: log 43). -/
def setTimeState (x : TimeState) (s : State) : State :=
  let old := s.awn.tstate
  if old = x then s
  else
    let s := s.withAwn { s.awn with tstate := x, goodExch := 0, stepped := false }
    logTime 0 old x 0 0 s

/-- The least multiple of a length at or above a time. -/
def multipleFrom (t len : Nat) : Nat := if len = 0 then t else (t + len - 1) / len * len

/-- R348: fabric time moves by a step to a value in 1/256 ns: the TIME record is written, and the telemetry window
closes without a record. -/
def stepTime (at256 : Nat) (s : State) : State :=
  let old := s.awn.tick
  let new : W64 := BitVec.ofNat 64 (at256 / 256)
  let s := s.withAwn { s.awn with
    tick := new, frac := BitVec.ofNat 32 (at256 % 256 * 16777216), lastEdge := s.awn.lastEdge.map (fun e => new - (old - e)) }
  let o := multipleFrom new.toNat s.tal.window.toNat
  let s := s.withTal { s.tal with
    opened := BitVec.ofNat 64 o, closes := BitVec.ofNat 64 (o + s.tal.window.toNat), winCounts := [], winEnergy := 0,
    winPeak := 0, winAclk := 3000 }
  logTime 1 s.awn.tstate s.awn.tstate old new s

/-! ### The time tree (R345, R347) -/

/-- R345: this module's ROOT_ID. -/
def ownRootId (s : State) : W64 := s.awn.rootPriority ++ s.dev.serial.extractLsb' 0 56

/-- R345: a port's advertisement beats another. -/
def advertBetter (a b : Advert) : Bool :=
  decide (a.rootId.toNat < b.rootId.toNat) || (decide (a.rootId = b.rootId) && decide (a.hops < b.hops))

/-- R345: the best advertisement among ports in port order (in part DEDUCED: log 43). -/
def bestAdvert (l : Sparse Advert) : Option (Nat × Advert) :=
  l.foldl (fun best p =>
    match best with
    | none => some p
    | some q => if advertBetter p.2 q.2 then some p else some q) none

/-- R345, R347: parent, root and HOPS are chosen again, and the time state follows. An advertisement of this module's
own ROOT_ID, heard back from a child, does not beat it (in part DEDUCED: log 43). -/
def elect (s : State) : State :=
  let own := ownRootId s
  match bestAdvert s.awn.adverts with
  | some (p, a) =>
    if a.rootId.toNat < own.toNat then
      let gained := s.awn.parent.isNone
      let s := s.withAwn { s.awn with
        isRoot := false, parent := some (portOfIx p), hops := BitVec.ofNat 8 (a.hops + 1), rootId := a.rootId }
      if gained && (decide (s.awn.tstate = .free) || decide (s.awn.tstate = .holdover)) then setTimeState .acquiring s
      else s
    else becomeRoot own s
  | none => becomeRoot own s
where
  /-- R345, R347: this module is the root: SYNCED while RACKCLK is present. -/
  becomeRoot (own : W64) (s : State) : State :=
    let s := s.withAwn { s.awn with isRoot := true, parent := none, hops := 0, rootId := own }
    if s.awn.rackOk then setTimeState .synced s
    else if s.awn.tstate = .acquiring then setTimeState .free s
    else s

/-- R345: every 100 µs a TIME flit leaves on a port; a new AWN_ROOT_PRIORITY is in it (R545). -/
def timeExchange (p : Port) (s : State) : State :=
  if s.awn.on = false ∨ portLive (getPort s p) = false then s
  else
    let s := elect s
    let e := (getPort s p).lastTime.getD (0, 0)
    emit (.timeFlit p e.1 e.2 s.awn.rootId s.awn.hops.toNat s.awn.tstate) s

/-- TIME_EXCHANGE (R346). -/
def execTimeExchange (p : Port) (s : State) : Result := .next (timeExchange p s)

/-- R346: θ in 1/256 ns from the four stamps and the port's asymmetry (in part DEDUCED: log 43). -/
def thetaOf (t1 t2 t3 t4 : Nat) (alpha : Int) : Int := (((t2 : Int) - t1) - ((t4 : Int) - t3)) / 2 - alpha

/-- R346: the slew over the next 100 µs, at most 50 ppm, which is 5 ns (in part DEDUCED: log 43). -/
def slewOf (theta : Int) : Int := max (-1280) (min 1280 (theta / 4))

/-- R347, R348: what an exchange with the parent does to the time state. -/
def afterExchange (theta : Int) (t4 : Nat) (s : State) : State :=
  let s := if s.awn.tstate = .acquiring ∧ s.awn.stepped = false ∧ jobIsOpen s = false then
      let s := s.withAwn { s.awn with stepped := true }
      stepTime ((t4 : Int) + theta).toNat s
    else s
  let good := if theta.natAbs < 2560 then s.awn.goodExch + 1 else 0
  let s := s.withAwn { s.awn with goodExch := good }
  match s.awn.tstate with
  | .acquiring => if 8 ≤ good then setTimeState .synced s else s
  | .synced =>
    if 25600 < theta.natAbs then
      let s := settleAlert (s.withSaf { s.saf with timeFault := true })
      if jobIsOpen s then logTime 0 .synced .synced 0 0 s else setTimeState .acquiring s
    else s
  | _ => s

/-- R346: the exchange with the parent, once the parent echoes a flit of this module. -/
def exchange (p : Port) (f : TimeFlit) (rx : Nat) (s : State) : State :=
  if s.awn.parent = some p ∧ f.echoTx ≠ 0 then
    let theta := thetaOf f.echoTx f.echoRx f.tx rx (getPort s p).alpha
    let s := s.withAwn { s.awn with theta := BitVec.ofInt 32 theta, slew := slewOf theta }
    afterExchange theta rx s
  else s

/-- R324, R345, R346: a TIME flit received. -/
def timeFlit (p : Port) (f : TimeFlit) (rx : Nat) (s : State) : State :=
  let t := getPort s p
  if s.awn.on = false ∨ portLive t = false then s
  else if timeOk f = false then setPort s p { t with counts := { t.counts with crcFails := add48 t.counts.crcFails 1 } }
  else
    let s := setPort s p { t with lastTime := some (f.tx, rx) }
    let s := if f.hops.toNat < 64 then
        s.withAwn { s.awn with
          adverts := sput { rootId := 0, hops := 64, heard := 0 } s.awn.adverts (portIx p).val
            { rootId := f.rootId, hops := f.hops.toNat, heard := s.awn.tick } }
      else s
    exchange p f rx (elect s)

/-- TIME_FLIT (R346). -/
def execTimeFlit (p : Port) (f : TimeFlit) (rx : Nat) (s : State) : Result := .next (timeFlit p f rx s)

/-- R345: an advertisement not renewed within 1 ms expires. -/
def expireAdvert (p : Port) (s : State) : State :=
  let old := s.awn.adverts.any (fun a => decide (a.1 = (portIx p).val) && decide (1000000 ≤ (s.awn.tick - a.2.heard).toNat))
  if old then elect (s.withAwn { s.awn with adverts := s.awn.adverts.filter (fun a => decide (a.1 ≠ (portIx p).val)) }) else s

/-- ADVERTISEMENT_EXPIRY (R345). -/
def execAdvertisementExpiry (p : Port) (s : State) : Result := .next (expireAdvert p s)

/-- RACKCLK_LOSS (R344): the Awning runs from its own oscillator and enters HOLDOVER. -/
def execRackclkLoss (s : State) : Result :=
  .next (if s.awn.on = false then s else setTimeState .holdover (s.withAwn { s.awn with rackOk := false }))

/-- R344, R347: RACKCLK returns: the root is SYNCED, a module with a parent acquires again
(in part DEDUCED: log 43). -/
def rackReturn (s : State) : State :=
  if s.awn.on = false then s
  else
    let s := elect (s.withAwn { s.awn with rackOk := true })
    if s.awn.tstate = .holdover then setTimeState (if s.awn.parent.isSome then .acquiring else .free) s else s

/-- RACKCLK_RETURN (R344). -/
def execRackclkReturn (s : State) : Result := .next (rackReturn s)

/-! ### FT_SYNC (R350, R351, R544, R635) -/

/-- R351: the armed edge: loaded at the root with no job open, else refused. -/
def armedEdge (s : State) : State :=
  let now := s.awn.tick
  if s.awn.syncArm = false ∨ s.awn.armTick = some now then s
  else
    let v := match s.awn.syncPrev with
      | some (t, old) => if t = now then old else s.awn.syncValue
      | none => s.awn.syncValue
    let s := s.withAwn { s.awn with syncArm := false, armTick := none }
    if s.awn.isRoot && !jobIsOpen s then stepTime (256 * v.toNat) s
    else s.withAwn { s.awn with syncRefused := true, refusedAt := some now }

/-- R350, R635: a rising FT_SYNC edge; one sooner than 1 µs after the last accepted edge is ignored. -/
def ftSyncEdge (s : State) : State :=
  let now := s.awn.tick
  let soon := match s.awn.lastEdge with
    | some t => decide ((now - t).toNat < 1000)
    | none => false
  if s.awn.on = false ∨ soon = true then s
  else armedEdge (s.withAwn { s.awn with syncCapture := now, lastEdge := some now })

/-- FT_SYNC_EDGE (R350). -/
def execFtSyncEdge (s : State) : Result := .next (ftSyncEdge s)

/-! ### Comparators (R352 to R354, R451) -/

/-- R352, R353: comparator n fires now: its TARGET is reached, and one enabled or written at or below the time waits for the next tick. -/
def cmpDue (now : W64) (c : Cmp) : Bool :=
  c.enable && !c.quiet && (if c.lateDue then decide (now ≠ c.armedAt) else decide (c.target.toNat ≤ now.toNat))

/-- R352: a comparator after it has fired at tick now. -/
def cmpFired (now : W64) (c : Cmp) : Cmp :=
  let c := { c with fired := true, firedAt := some now, late := c.late || c.lateDue,
                    lateAt := if c.lateDue then some now else c.lateAt, lateDue := false }
  if c.period = 0 then { c with quiet := true }
  else
    let k := if c.target.toNat ≤ now.toNat then (now.toNat - c.target.toNat) / c.period.toNat + 1 else 0
    { c with target := c.target + BitVec.ofNat 64 (k * c.period.toNat), missed := add32 c.missed (k - 1) }

/-- R354, R451: comparator n fires; comparator 0 makes a snapshot trigger due at the lead. -/
def fireCmp (n : Fin 16) (s : State) : State :=
  let c := s.awn.cmps[n]
  if s.awn.on = false ∨ cmpDue s.awn.tick c = false then s
  else
    let s := s.withAwn { s.awn with cmps := s.awn.cmps.set n (cmpFired s.awn.tick c) }
    let s := if n = 0 ∧ jobIsOpen s = true ∧ isLead s = true then s.withSnap { s.snap with trigger := true } else s
    settleAlert s

/-- COMPARATOR_FIRE (R352). -/
def execComparatorFire (n : Fin 16) (s : State) : Result := .next (fireCmp n s)

/-- R541: the BAR0 offset of comparator n's TARGET_LO. -/
def cmpOffset (n : Fin 16) : Nat := 0x20100 + 0x20 * n.val

/-- R8: the lower half that a write to a _HI register commits with it: the one written last, else the current one
(in part DEDUCED: log 50). -/
def loHalf (s : State) (off : Nat) (current : W32) : W32 := (sget none s.bus.halves off).getD current

/-- R8: a lower half written and not committed (in part DEDUCED: log 50). -/
def putHalf (off : Nat) (v : W32) (s : State) : State :=
  s.withBus { s.bus with halves := sput none s.bus.halves off (some v) }

/-- R8: a pair committed. -/
def dropHalf (off : Nat) (s : State) : State := s.withBus { s.bus with halves := sput none s.bus.halves off none }

/-- R353: an enabled comparator whose TARGET lies at or below the current time fires at the next tick, with LATE. -/
def armLate (now : W64) (c : Cmp) : Cmp :=
  { c with quiet := false, lateDue := c.enable && decide (c.target.toNat ≤ now.toNat), armedAt := now }

/-- R353, R8, R542: a host write of a half of TARGET; the upper half commits the pair. A firing that falls in the tick
of the write uses the old TARGET. -/
def cmpTargetWrite (n : Fin 16) (hi : Bool) (v : W32) (s : State) : State :=
  if !hostReaches s || decide (n.val < 8) then s
  else if !hi then putHalf (cmpOffset n) v s
  else
    let s := fireCmp n s
    let c := s.awn.cmps[n]
    let lo := loHalf s (cmpOffset n) (c.target.extractLsb' 0 32)
    let s := dropHalf (cmpOffset n) s
    s.withAwn { s.awn with cmps := s.awn.cmps.set n (armLate s.awn.tick { c with target := v ++ lo }) }

/-- CMP_TARGET_WRITE (R353). -/
def execCmpTargetWrite (n : Fin 16) (hi : Bool) (v : W32) (s : State) : Result := .next (cmpTargetWrite n hi v s)

/-- R5: a W1C bit after a host write: it stays set where the write does not clear it, or the module has set it in this tick. -/
def afterW1c (now : W64) (bit clear : Bool) (setAt : Option W64) : Bool := bit && (!clear || decide (setAt = some now))

/-- R541, R543: a comparator after a write of its CONTROL. -/
def cmpControl (now : W64) (v : W32) (c : Cmp) : Cmp :=
  let en := v.getLsbD 0
  let was := c.enable
  let c := { c with alertEn := v.getLsbD 1, enable := en, fired := afterW1c now c.fired (v.getLsbD 8) c.firedAt,
                    late := afterW1c now c.late (v.getLsbD 9) c.lateAt }
  if en && !was then armLate now { c with missed := 0 }
  else if en then c else { c with lateDue := false }

/-- R542, R543, R548: a host write of AWN_CMP_CONTROL. -/
def cmpControlWrite (n : Fin 16) (v : W32) (s : State) : State :=
  if !hostReaches s || decide (n.val < 8) then s
  else settleAlert (s.withAwn { s.awn with cmps := s.awn.cmps.set n (cmpControl s.awn.tick v s.awn.cmps[n]) })

/-- CMP_CONTROL_WRITE (R543). -/
def execCmpControlWrite (n : Fin 16) (v : W32) (s : State) : Result := .next (cmpControlWrite n v s)

/-- R545: a host write of AWN_ROOT_PRIORITY, in force from the next TIME flit. -/
def rootPriorityWrite (v : W32) (s : State) : State :=
  if !hostReaches s then s else s.withAwn { s.awn with rootPriority := v.extractLsb' 0 8 }

/-- AWN_ROOT_PRIORITY (R545). -/
def execAwnRootPriority (v : W32) (s : State) : Result := .next (rootPriorityWrite v s)

/-! ### The tick (R343) -/

/-- R343, log 4: fabric time advances by 1, and the real-time clock by 1 every 10⁹ ticks
(in part DESIGN CHOICE: log 8) (in part DESIGN CHOICE: log 85). -/
def tickTime (a : Awn) : Awn :=
  let r := a.rtcTicks + 1
  { a with tick := a.tick + 1, rtcTicks := if r < 1000000000 then r else 0, rtc := if r < 1000000000 then a.rtc else a.rtc + 1 }

end Sys2Proof.Machine
end

