-- ==== Sys2Proof/Machine/Groups.lean ====
section
/-! DEFINITION. The members of a slice under the cuts of R293 and R294, the groups of R357 and the collective instances
of a step (R358). -/

namespace Sys2Proof.Machine

/-! ### Sorting -/

/-- An element put before the first one that it may stand before. -/
def insertBy {α : Type} (le : α → α → Bool) (x : α) : List α → List α
  | [] => [x]
  | y :: t => if le x y then x :: y :: t else y :: insertBy le x t

/-- A list in order; equal elements keep theirs. -/
def sortBy {α : Type} (le : α → α → Bool) : List α → List α
  | [] => []
  | x :: t => insertBy le x (sortBy le t)

/-- Ascending numbers. -/
def sortNat (l : List Nat) : List Nat := sortBy (fun a b => decide (a ≤ b)) l

/-! ### The layer routing descriptor (R216) -/

def rtHold (w : W128) : Bool := w.getLsbD 57
def rtLayer (w : W128) : Nat := bits128 w 96 16
def rtCapMin (w : W128) : Nat := bits128 w 64 32
def rtBf16 (w : W128) : Bool := w.getLsbD 58
def rtHalve (w : W128) : Bool := w.getLsbD 56
def rtGate (w : W128) : Nat := bits128 w 54 2
def rtRenorm (w : W128) : Bool := w.getLsbD 53
def rtDefer (w : W128) : Bool := w.getLsbD 52
def rtK (w : W128) : Nat := bits128 w 48 4
def rtE (w : W128) : Nat := bits128 w 32 16
def rtCf (w : W128) : W32 := w.extractLsb' 0 32
def rtReserved (w : W128) : Bool := decide (bits128 w 112 16 ≠ 0) || decide (bits128 w 59 5 ≠ 0)

/-- ⌈a / b⌉. -/
def ceilDiv (a b : Nat) : Nat := (a + b - 1) / b

/-- R221: the capacity of a batch of T tokens. -/
def capacity (d : W128) (t : Nat) : Nat :=
  let need := match ofA32 (rtCf d) with
    | .fin _ m e => if 0 ≤ e then ceilDiv (m * 2 ^ e.toNat * t * rtK d) (rtE d)
        else ceilDiv (m * t * rtK d) (rtE d * 2 ^ (-e).toNat)
    | _ => t
  min (max need (rtCapMin d)) t

/-- R222: the bound on one module's tokens in a routing batch. -/
def tokensMax (l : ExpertLayer) : Nat := if rtHalve l.desc then (l.bound + 1) / 2 else l.bound

/-- R245: the bound on the ACTIVE entries of a module that serves n experts of a layer, under a routing group of q. -/
def activeBound (l : ExpertLayer) (q n : Nat) : Nat :=
  2 * (tokensMax l * rtK l.desc + 2 * (n * capacity l.desc (q * tokensMax l)))

/-! ### Cuts (R293, R294) -/

/-- R293: the sequence ring length of the loaded plan. -/
def cutQ (s : State) : Nat := max 1 ((s.load.plan.map (·.q)).getD 1)
/-- R293: the pipeline depth. -/
def cutP (s : State) : Nat := max 1 ((s.load.plan.map (·.p)).getD 1)
/-- R293: the number of replicas. -/
def cutD (s : State) : Nat := max 1 ((s.load.plan.map (·.d)).getD 1)

/-- R294: a member's segment position c. -/
def segPos (s : State) (i : Nat) : Nat := i % max 1 s.slice.extent.1 % cutQ s

/-- R294: a member's group index r. -/
def groupIndex (s : State) (i : Nat) : Nat :=
  let ax := max 1 s.slice.extent.1
  i % ax / cutQ s + ax / cutQ s * (i / ax)

/-- R294: a member's stage p. -/
def stageOf (s : State) (i : Nat) : Nat := groupIndex s i % cutP s

/-- R294: a member's replica d. -/
def replicaOf (s : State) (i : Nat) : Nat := groupIndex s i / cutP s

/-- R294: the member at segment position c of the ring (p, d). -/
def memberAt (s : State) (c p d : Nat) : Nat :=
  ((List.range (memberCount s)).find? (fun i => segPos s i = c ∧ stageOf s i = p ∧ replicaOf s i = d)).getD 0

/-- R291: F(k), the axis position at which ring position k of an axis of extent a stands. -/
def ringPlace (a k : Nat) : Nat := if k < (a + 1) / 2 then 2 * k else 2 * (a - k) - 1

/-- R294: the ring position k with F(k) = c. -/
def ringPos (a c : Nat) : Nat := ((List.range a).find? (fun k => ringPlace a k = c)).getD 0

/-- R294: this module's routing-group member index. -/
def ownSeg (s : State) : Nat := segPos s (memberIndex s)

/-- R294: a member's ring position in its sequence ring. -/
def seqPos (s : State) (i : Nat) : Nat := ringPos (cutQ s) (segPos s i)

/-- R291, R294: the member at a ring position of this module's sequence ring. -/
def ringMember (s : State) (k : Nat) : Nat :=
  memberAt s (ringPlace (cutQ s) (k % cutQ s)) (stageOf s (memberIndex s)) (replicaOf s (memberIndex s))

/-! ### Groups (R357) -/

/-- R357: a member's group of a kind, numbered within the slice (log entry 20). -/
def groupNo (s : State) (g : CollGroup) (i : Nat) : Nat :=
  match g with
  | .slice => 0
  | .replica => stageOf s i * cutQ s + segPos s i
  | .routing => groupIndex s i
  | .stage => stageOf s i

/-- R357: how many groups of a kind the slice has. -/
def groupCount (s : State) (g : CollGroup) : Nat :=
  match g with
  | .slice => 1
  | .replica => cutP s * cutQ s
  | .routing => cutP s * cutD s
  | .stage => cutP s

/-- R357: how many members a group of a kind has. -/
def groupSize (s : State) (g : CollGroup) : Nat :=
  match g with
  | .slice => memberCount s
  | .replica => cutD s
  | .routing => cutQ s
  | .stage => cutQ s * cutD s

/-- R357: the members of this module's group, in ascending member index. -/
def groupMembers (s : State) (g : CollGroup) : List Nat :=
  (List.range (memberCount s)).filter (fun i => groupNo s g i = groupNo s g (memberIndex s))

/-- R357: this module's index within its group. -/
def localIndex (s : State) (g : CollGroup) : Nat := (groupMembers s g).findIdx (fun i => i = memberIndex s)

/-- R440: the member that carries a role. -/
def carrier (s : State) (i : Nat) : Nat :=
  match s.slice.remap.find? (fun p => p.1 = i) with
  | some (_, q) => q
  | none => i

/-- R357, R440: the slice member that stands at a place of this module's group. -/
def groupMember (s : State) (g : CollGroup) (j : Nat) : Nat := carrier s ((groupMembers s g).getD j 0)

/-! ### The collectives of a step (R358, R387, R254) -/

/-- The program's collective entries. -/
def collEntries (s : State) : List CollEntry := (s.load.prog.map (·.collectives)).getD []

/-- The number that stands for the norm gather among the entries (R387) (in part DESIGN CHOICE: log 20). -/
def normInst (s : State) : Nat := (collEntries s).length
/-- The number that stands for the visit all-reduce (R254) (in part DESIGN CHOICE: log 20). -/
def visitInst (s : State) : Nat := (collEntries s).length + 1

/-- R360: FUSE_NORM of an entry. -/
def entryFuse (e : CollEntry) : Bool := e.flags.getLsbD 1
/-- R360: AVG of an entry. -/
def entryAvg (e : CollEntry) : Bool := e.flags.getLsbD 0
/-- R360: LATE_POLICY of an entry. -/
def entryPolicy (e : CollEntry) : Nat := e.flags.toNat / 4 % 4

/-- R254: the elements of the visit all-reduce: two counts per directory entry and one per layer. -/
def visitCount (s : State) : Nat := 2 * s.ledger.dir.length + ((s.load.prog.map (·.layers.length)).getD 0)

/-- R387: how many shards of an entry have elements. -/
def shardsOf (s : State) (e : CollEntry) : Nat :=
  if e.op = 0 then (if e.count = 0 then 0 else 1) else min (groupSize s e.group) ((e.count + 63) / 64)

/-- R387: the number of norm terms of a step. -/
def normTermCount (s : State) (eval : Option Nat) : Nat :=
  (((collEntries s).filter (fun e => decide (e.eval = eval) && entryFuse e)).map
    (fun e => groupCount s e.group * shardsOf s e)).foldl (· + ·) 0

/-- The entry of an instance number; the norm gather and the visit all-reduce have entries of their own
(log entry 20). -/
def instEntry (s : State) (n : Nat) : CollEntry :=
  match (collEntries s)[n]? with
  | some e => e
  | none =>
    if n = normInst s then
      { group := .slice, window := 0, op := 3, flags := 0, wfmt := 0, rfmt := 0, root := 0, members := memberCount s,
        count := 3 * normTermCount s none, d := 0, shape := [3 * normTermCount s none, 1, 1, 1], tensor := 0,
        eval := none, reservedOk := true }
    else
      { group := .slice, window := 0, op := 1, flags := 0, wfmt := 0, rfmt := 0, root := 0, members := memberCount s,
        count := visitCount s, d := 0, shape := [visitCount s, 1, 1, 1], tensor := 0, eval := none,
        reservedOk := true }

/-- R358, R387: the entries of a step or of an evaluation list in the plan's order, the norm gather directly after the
last FUSE_NORM entry and the visit all-reduce of a training step last (log entry 20). -/
def instanceOrder (s : State) (eval : Option Nat) : List Nat :=
  let own := ((collEntries s).zipIdx.filter (fun x => x.1.eval = eval)).map (·.2)
  let fuse := fun n => entryFuse (instEntry s n)
  let order := match (own.filter fuse).getLast? with
    | none => own
    | some l => own.filter (fun n => decide (n ≤ l)) ++ [normInst s] ++ own.filter (fun n => decide (l < n))
  if eval.isNone && decide (0 < s.ledger.dir.length) then order ++ [visitInst s] else order

/-- R358: the first position of each instance number in the slice-wide order, every group counted. -/
def instancePlaces (s : State) (eval : Option Nat) : List (Nat × Nat) × Nat :=
  (instanceOrder s eval).foldl (fun x n => (x.1 ++ [(n, x.2)], x.2 + groupCount s (instEntry s n).group)) ([], 0)

/-- R358: the step's full count of instances. -/
def instanceCount (s : State) (eval : Option Nat) : Nat := (instancePlaces s eval).2

/-- The evaluation list that runs, none in training (in part DESIGN CHOICE: log 20). -/
def runList (s : State) : Option Nat :=
  match s.step.run with
  | some r => if r.eval then some r.evalList else none
  | none => none

/-- R358: the sequence number of a position: training numbers run modulo 2^47 and evaluation numbers above it. -/
def seqOf (s : State) (pos : Nat) : W48 :=
  if (runList s).isSome then BitVec.ofNat 48 (2 ^ 47 + pos)
  else BitVec.ofNat 48 ((s.job.collSeq.toNat + pos) % 2 ^ 47)

/-- R358: this module's instances of the running step: instance number, position and sequence number. -/
def ownInstances (s : State) : List (Nat × Nat × W48) :=
  (instancePlaces s (runList s)).1.map (fun x =>
    let pos := x.2 + groupNo s (instEntry s x.1).group (memberIndex s)
    (x.1, pos, seqOf s pos))

end Sys2Proof.Machine
end

