-- ==== Sys2Proof/Machine/Ring.lean ====
section
/-! DEFINITION. The attention ring of a module (R57 to R60, R291): the key and value blocks, the partial results combined in
ring-step order, the causal skip and the gradients that travel with the blocks. -/

namespace Sys2Proof.Machine

/-- Two partial tiles added element by element; an element that one tile lacks is taken from the other. -/
def addTiles : List W32 → List W32 → List W32
  | [], ys => ys
  | xs, [] => xs
  | x :: xs, y :: ys => addRne x y :: addTiles xs ys

/-! ### Blocks and their order (R57, R291) -/

/-- R57: at ring step j the module at ring position i uses the block that began at (i − j) mod m. -/
def ringOrigin (m i j : Nat) : Nat := (i + (m - j % m)) % m

/-- The module's own ring position and the length of its ring. -/
def ownPos (s : State) : Nat := seqPos s (memberIndex s)

/-- The attention ring that a clause of the program belongs to. -/
def clauseRing (s : State) (clause : Nat) : Option ClauseRing :=
  s.load.prog.bind (fun p => (p.clauses[clause]?).bind (·.attention))

/-- The content that this module holds of a tensor that is not state. -/
def tensorBytes (s : State) (tid : W64) : Bytes :=
  (s.tens.plain.filter (fun x => x.desc.tid = tid)).flatMap (·.content)

/-- The values that this module holds of a tensor that is not state, as FP32. -/
def tensorValues (s : State) (tid : W64) : List W32 :=
  (s.tens.plain.filter (fun x => x.desc.tid = tid)).flatMap (fun x =>
    (List.range x.desc.elems).map (fun k => toA32 (decode x.desc.fmt (unpackCode x.desc.fmt x.content k))))

/-- R57: the block that begins at this module. -/
def ownBlock (s : State) (r : ClauseRing) : KvBlock := { origin := ownPos s, bytes := r.kv.flatMap (tensorBytes s) }

/-- R57, R60: a block goes on to the next module of the ring. -/
def passBlock (r : ClauseRing) (j : Nat) (b : KvBlock) (s : State) : State :=
  emit (.kvBlock (ringMember s (ownPos s + 1)) r.ring j b) s

/-! ### The softmax of a ring step (R57) -/

/-- 2 to the power a − b, one rounding for the difference and one for the power (in part DESIGN CHOICE: log 87). -/
def expDiff (a b : W32) : W32 := toA32 (Val.exp2 (ofA32 (toA32 (Val.add (ofA32 a) (Val.neg (ofA32 b))))))

/-- R57: x scaled by f and y scaled by g, added (in part DESIGN CHOICE: log 87). -/
def weigh (f g x y : W32) : W32 := addRne (mulRne f x) (mulRne g y)

/-- R57: a ring step's partial result joins those combined so far, by the running maximum and the running sum of each row
(DESIGN CHOICE: log 87). -/
def combineRing (acc maxima sums : List W32) (a : AttnRing) : AttnRing :=
  if a.maxima.isEmpty then { a with acc := acc, maxima := maxima, sums := sums }
  else
    let top := List.zipWith fmax32 a.maxima maxima
    let f := List.zipWith expDiff a.maxima top
    let g := List.zipWith expDiff maxima top
    let width := acc.length / max 1 maxima.length
    let at' := fun (l : List W32) (k : Nat) => l.getD (k / max 1 width) 0
    { a with
      maxima := top,
      sums := (List.range top.length).map (fun k => weigh (f.getD k 0) (g.getD k 0) (a.sums.getD k 0) (sums.getD k 0)),
      acc := (List.range acc.length).map (fun k => weigh (at' f k) (at' g k) (a.acc.getD k 0) (acc.getD k 0)) }

/-! ### Ring steps -/

/-- R59: under a causal mask a block that lies wholly after the module's own query block needs no arithmetic
(in part DESIGN CHOICE: log 87). -/
def skipsBlock (s : State) (r : ClauseRing) (b : KvBlock) : Bool := r.causal && decide (ownPos s < b.origin)

/-- R60: the module's contribution joins the gradients that travel with a block. -/
def addGrads (keys values : List W32) (b : KvBlock) : KvBlock :=
  { b with keyGrads := addTiles b.keyGrads keys, valueGrads := addTiles b.valueGrads values }

/-- R57, R58: the block at hand comes into use; in the forward pass it goes on at once while another step follows. -/
def useBlock (r : ClauseRing) (a : AttnRing) (b : KvBlock) (s : State) : State :=
  let s := if !r.backward && decide (a.j + 1 < cutQ s) then passBlock r a.j b s else s
  s.withStep { s.step with rings := sput none s.step.rings r.ring (some { a with inUse := some b }) }

/-- R57, R58, R60: ring step j ends: in the backward pass the block goes on with its gradients, and the block that has arrived
comes into use. -/
def nextStep (r : ClauseRing) (a : AttnRing) (b : KvBlock) (s : State) : State :=
  let s := if r.backward then passBlock r a.j b s else s
  let put := fun (x : AttnRing) (s : State) => s.withStep { s.step with rings := sput none s.step.rings r.ring (some x) }
  if cutQ s ≤ a.j + 1 then put { a with inUse := none, done := true } s
  else
    match a.arriving with
    | some n => useBlock r { a with j := a.j + 1, arriving := none } n s
    | none => put { a with j := a.j + 1, inUse := none } s

/-- R59: steps that need no arithmetic end at once; the first number bounds them. -/
def skipSteps : Nat → ClauseRing → State → State
  | 0, _, s => s
  | n + 1, r, s =>
    match sget none s.step.rings r.ring with
    | some a =>
      match a.inUse with
      | some b => if skipsBlock s r b then skipSteps n r (nextStep r a b s) else s
      | none => s
    | none => s

/-- R57: a ring starts with the module's own block. -/
def startRing (clause : Nat) (r : ClauseRing) (s : State) : State :=
  skipSteps 2 r (useBlock r { clause := clause } (ownBlock s r) s)

/-- R57: the ring of a clause that begins its work, started unless it runs. -/
def openRing (clause : Nat) (s : State) : State :=
  match clauseRing s clause with
  | none => s
  | some r =>
    match sget none s.step.rings r.ring with
    | some a => if a.done then startRing clause r s else s
    | none => startRing clause r s

/-- R58: a clause whose next block has not arrived: its stalls count WAIT_PEER. -/
def ringWaits (s : State) (clause : Nat) : Bool :=
  match clauseRing s clause with
  | none => false
  | some r => (sget none s.step.rings r.ring).any (fun a => a.inUse.isNone && !a.done)

/-- R57, R60: the parts of a ring step are written whole: they are combined, or join the block's gradients, and the step ends. -/
def ringStep (clause : Nat) (s : State) : State :=
  match clauseRing s clause with
  | none => s
  | some r =>
    if r.parts.any (fun t => (sget none s.tens.writes t.toNat).isSome) then s
    else
      match sget none s.step.rings r.ring with
      | none => s
      | some a =>
        match a.inUse with
        | none => s
        | some b =>
          let part := fun k => tensorValues s (r.parts.getD k 0)
          let (a, b) := if r.backward then (a, addGrads (part 0) (part 1) b)
            else (combineRing (part 0) (part 1) (part 2) a, b)
          skipSteps 2 r (nextStep r a b s)

/-! ### Arrival (R58, R60) -/

/-- A32 words of a byte string. -/
def wordsOf : Nat → Bytes → List W32
  | 0, _ => []
  | n + 1, b => if b.length < 4 then [] else BitVec.ofNat 32 (leNat (b.take 4)) :: wordsOf n (b.drop 4)

/-- R60: the elements of the gradients that travel with a block. -/
def gradElems (s : State) (r : ClauseRing) : Nat × Nat :=
  if r.backward then ((tensorValues s (r.parts.getD 0 0)).length, (tensorValues s (r.parts.getD 1 0)).length) else (0, 0)

/-- R58: the bytes of a block, and of the gradients that travel with it. -/
def blockBytes (s : State) (r : ClauseRing) : Nat × Nat :=
  ((ownBlock s r).bytes.length, 4 * ((gradElems s r).1 + (gradElems s r).2))

/-- R58, R60: a whole block has arrived: it comes into use when the module waits for it, is held as the arriving one, or, its
round over, returns its gradients to this module. -/
def blockArrives (r : ClauseRing) (a : AttnRing) (b : KvBlock) (s : State) : State :=
  let a := { a with wire := [], got := a.got + 1 }
  let put := fun (x : AttnRing) => s.withStep { s.step with rings := sput none s.step.rings r.ring (some x) }
  if a.inUse.isNone && !a.done then skipSteps 2 r (useBlock r a b s)
  else put { a with arriving := some b }

/-- R58: bytes of a key and value block arrive from the previous module of the ring
(in part DESIGN CHOICE: log 87). -/
def ringBytes (n : Nat) (bytes : Bytes) (s : State) : State :=
  match sget none s.step.rings n with
  | none => s
  | some a =>
    match clauseRing s a.clause with
    | none => s
    | some r =>
      let w := a.wire ++ bytes
      let (k, g) := blockBytes s r
      if w.length < k + g then s.withStep { s.step with rings := sput none s.step.rings n (some { a with wire := w }) }
      else
        let grads := wordsOf (g / 4) ((w.drop k).take g)
        let b : KvBlock :=
          { origin := ringOrigin (cutQ s) (ownPos s) (a.got + 1), bytes := w.take k,
            keyGrads := grads.take (gradElems s r).1, valueGrads := grads.drop (gradElems s r).1 }
        blockArrives r a b s

end Sys2Proof.Machine
end

