-- ==== Sys2Proof/Machine/Links.lean ====
section
/-! DEFINITION. The torus links (R314 to R342): training, identity, flits and their retry, lanes and width, and the
routing of packets inside a slice. -/

namespace Sys2Proof.Machine

/-! ### Lanes and width (R332 to R336) -/

/-- R333: whether the n lanes from lane lo are all good. -/
def lanesGood (bad : W16) (lo n : Nat) : Bool := (List.range n).all (fun i => !bad.getLsbD (lo + i))

/-- R333: the width of a port whose ends have dropped the lanes given; 0 when no group qualifies. -/
def widthOf (bad : W16) : Nat :=
  if lanesGood bad 0 16 then 16
  else if lanesGood bad 0 8 || lanesGood bad 8 8 then 8
  else if lanesGood bad 0 4 || lanesGood bad 4 4 || lanesGood bad 8 4 || lanesGood bad 12 4 then 4
  else 0

/-- R333: the lanes that carry flits: all 16, the good half or the lowest good quarter. -/
def lanesOf (bad : W16) : W16 :=
  if lanesGood bad 0 16 then 0xFFFF
  else if lanesGood bad 0 8 then 0x00FF
  else if lanesGood bad 8 8 then 0xFF00
  else if lanesGood bad 0 4 then 0x000F
  else if lanesGood bad 4 4 then 0x00F0
  else if lanesGood bad 8 4 then 0x0F00
  else if lanesGood bad 12 4 then 0xF000
  else 0

/-- R332, R336, R355: lanes newly dropped are counted and recorded. -/
def dropLanes (p : Port) (mask : W16) (s : State) : State :=
  let t := getPort s p
  let new := (List.range 16).filter (fun i => mask.getLsbD i && !t.dropped.getLsbD i)
  let s := setPort s p { t with
    dropped := t.dropped ||| mask, counts := { t.counts with lanesDropped := add48 t.counts.lanesDropped new.length } }
  new.foldl (fun s i => logLink p i 0 [] s) s

/-- R334, R335: the port enters RETRAIN. -/
def enterRetrain (p : Port) (s : State) : State :=
  let t := getPort s p
  if portLive t then
    logLink p 0xFF 1 [] (setPort s p { t with
      state := .retrain, retried := false, counts := { t.counts with retrains := add48 t.counts.retrains 1 } })
  else s

/-! ### Training (R317 to R320) -/

/-- R319: the first phases of training. -/
def inPhase (t : TPort) (ph : TrainPhase) : Bool := decide (t.state = .training) && decide (t.phase = ph)

/-- R319: the port detects now: in the first phase, or DOWN with the second since its last detection over. -/
def detecting (s : State) (t : TPort) : Bool :=
  inPhase t .detect || (decide (t.state = .down) && decide (1000000000 ≤ (s.awn.tick - t.detectAt).toNat))

/-- R319: signal on at least four lanes ends detection, in training or when a DOWN port repeats it. -/
def linkDetect (p : Port) (lanes : Nat) (s : State) : State :=
  let t := getPort s p
  if 4 ≤ lanes && detecting s t then
    setPort s p { t with state := .training, phase := .probe } else s

/-- LINK_DETECT (R319). -/
def execLinkDetect (p : Port) (lanes : Nat) (s : State) : Result := .next (linkDetect p lanes s)

/-- R319: no signal within 10 ms: the port is DOWN, and a DOWN port begins the wait for its next detection again. -/
def detectRetry (p : Port) (s : State) : State :=
  let t := getPort s p
  let waited := (s.awn.tick - t.detectAt).toNat
  if inPhase t .detect then (if 10000000 ≤ waited then portDown p s else s)
  else if t.state = .down ∧ 1000000000 ≤ waited then setPort s p { t with detectAt := s.awn.tick }
  else s

/-- DETECT_RETRY (R319). -/
def execDetectRetry (p : Port) (s : State) : Result := .next (detectRetry p s)

/-- R317: the reach class from the measured loss in tenths of a dB, or as the request named it. -/
def reachClass (req lossTenths : Nat) : Nat := if req = 0 then (if lossTenths ≤ 240 then 1 else 2) else req

/-- R317: the probe phase chooses the reach class. -/
def linkProbe (p : Port) (loss : Nat) (s : State) : State :=
  let t := getPort s p
  if inPhase t .probe then setPort s p { t with reach := reachClass t.reachReq loss, phase := .equalise } else s

/-- LINK_PROBE (R317). -/
def execLinkProbe (p : Port) (loss : Nat) (s : State) : Result := .next (linkProbe p loss s)

/-- R318: every lane is adapted or failed. -/
def linkEqualise (p : Port) (failed : W16) (s : State) : State :=
  if inPhase (getPort s p) .equalise then
    let s := dropLanes p failed s
    setPort s p { getPort s p with phase := .lock }
  else s

/-- LINK_EQUALISE (R318). -/
def execLinkEqualise (p : Port) (failed : BitVec 16) (s : State) : Result := .next (linkEqualise p failed s)

/-- R333: the lock phase agrees the width from the lanes that either end has dropped. -/
def linkLock (p : Port) (failed farDropped : W16) (asym : Int) (s : State) : State :=
  if inPhase (getPort s p) .lock then
    let s := dropLanes p failed s
    let t := getPort s p
    let w := widthOf (t.dropped ||| farDropped)
    let s := setPort s p { t with farDropped := farDropped, width := w, lanes := lanesOf (t.dropped ||| farDropped), alpha := asym, phase := .flitSync }
    if w = 0 then portDown p s else s
  else s

/-- LINK_LOCK (R333). -/
def execLinkLock (p : Port) (failed farDropped : BitVec 16) (asym : Int) (s : State) : Result :=
  .next (linkLock p failed farDropped asym s)

/-- R327, R328, R340: the retry state of a port that has newly trained: sequence spaces, buffers and credits begin again
(in part DEDUCED: log 44). -/
def freshLink (t : TPort) : TPort :=
  { t with expected := 0, nak := none, unacked := 0, txNext := 0, replay := [], rx := [],
           freed := Vector.replicate 4 0, farFreed := Vector.replicate 4 0, credits := #v[2048, 2048, 64, 64],
           farIdent := none, lastTime := none }

/-- R319, R322: CONTROL flits pass both ways: the port is UNVERIFIED, and an IDENT leaves at the identity phase. -/
def linkFlitSync (p : Port) (s : State) : State :=
  let t := getPort s p
  if inPhase t .flitSync then
    let s := setPort s p { freshLink t with state := .unverified }
    if s.slice.coords.isSome then emit (identOut s p) s else s
  else s

/-- LINK_FLIT_SYNC (R319). -/
def execLinkFlitSync (p : Port) (s : State) : Result := .next (linkFlitSync p s)

/-! ### Identity (R321, R322) -/

/-- R321: the far end's IDENT fits this port. -/
def identFits (s : State) (p : Port) (i : Ident) : Bool :=
  decide ((i.lx, i.ly, i.lz) = s.slice.lens) && decide (farCoords s p = some (i.x, i.y, i.z))

/-- R321: the IDENT of this module on a port. -/
def ownIdentBytes (s : State) (p : Port) : Bytes :=
  let c := s.slice.coords.getD (0, 0, 0)
  identBytes c.1 c.2.1 c.2.2 s.slice.lens.1 s.slice.lens.2.1 s.slice.lens.2.2 (portIx p).val s.slice.coords.isSome
    (s.slice.sliceId.getD 0) s.dev.serial (getPort s p).reach

/-- R321: the far end's. -/
def farIdentBytes (i : Ident) : Bytes :=
  identBytes i.x i.y i.z i.lx i.ly i.lz i.port i.assigned i.sliceId i.serial i.reach.toNat

/-- R321, R324: a received IDENT puts the port UP or MISWIRED once both ends have their coordinates. -/
def identFlit (p : Port) (i : Ident) (s : State) : State :=
  let t := getPort s p
  if !portLive t then s
  else if !identOk i then setPort s p { t with counts := { t.counts with crcFails := add48 t.counts.crcFails 1 } }
  else
    let s := setPort s p { t with farIdent := some i }
    if s.slice.coords.isNone || !i.assigned then s
    else if identFits s p i then setPort s p { getPort s p with state := .up }
    else if t.state = .miswired then s
    else logLink p 0xFF 3 (ownIdentBytes s p ++ farIdentBytes i) (setPort s p { getPort s p with state := .miswired })

/-- IDENT_FLIT (R321). -/
def execIdentFlit (p : Port) (i : Ident) (s : State) : Result := .next (identFlit p i s)

/-- IDENT_TIMER (R322): at least every 10 ms an IDENT leaves on every port. -/
def execIdentTimer (s : State) : Result := .next (sendIdents s)

/-! ### Flits and retry (R323 to R331) -/

/-- R327: a CONTROL flit leaves on a port. -/
def sendControl (p : Port) (ackSeq : W16) (nak : Bool) (s : State) : State :=
  emit (.control p ackSeq nak (getPort s p).freed.toList) s

/-- R328: a NAK for the expected number, unless one left for it within 2 µs. -/
def sendNak (p : Port) (s : State) : State :=
  let t := getPort s p
  let recent := match t.nak with
    | some (e, at') => decide (e = t.expected) && decide ((s.awn.tick - at').toNat < 2000)
    | none => false
  if recent then s
  else
    let s := setPort s p { t with
      nak := some (t.expected, s.awn.tick), counts := { t.counts with naksSent := add48 t.counts.naksSent 1 } }
    sendControl p t.expected true s

/-- R329: an acknowledgement leaves. -/
def sendAck (p : Port) (s : State) : State :=
  let t := getPort s p
  sendControl p (t.expected - 1) false (setPort s p { t with unacked := 0 })

/-- R328: a data flit with a valid CRC. -/
def acceptFlit (p : Port) (f : Flit) (s : State) : State :=
  let t := getPort s p
  if f.seq = t.expected then
    let t := { t with expected := t.expected + 1, unacked := t.unacked + 1, rx := t.rx ++ [f] }
    let s := setPort s p t
    if 32 ≤ t.unacked then sendAck p s else s
  else if 1 ≤ (t.expected - f.seq).toNat ∧ (t.expected - f.seq).toNat ≤ 32768 then
    setPort s p { t with counts := { t.counts with dupFlits := add48 t.counts.dupFlits 1 } }
  else sendNak p s

/-- R320, R324, R328: a data flit arrives; a port carries data flits in UP alone. -/
def dataFlit (p : Port) (f : Flit) (s : State) : State :=
  let t := getPort s p
  if t.state ≠ .up then s
  else if !flitOk f then
    sendNak p (setPort s p { t with counts := { t.counts with crcFails := add48 t.counts.crcFails 1 } })
  else if isData f then acceptFlit p f s
  else s

/-- DATA_FLIT (R328). -/
def execDataFlit (p : Port) (f : Flit) (s : State) : Result := .next (dataFlit p f s)

/-! ### Routing (R325, R326, R338 to R342) -/

/-- R338: the output toward a destination on one axis: from relative place a to b, with the slice's extent and the
torus length; none when they are equal. The flag says that the hop crosses the axis's wrap link. -/
def axisHop (pos neg : Port) (cur dest ext len : Nat) (rel : Nat → Nat) : Option (Port × Bool) :=
  if cur = dest then none
  else if ext = len then
    let up := (dest + len - cur) % len
    if 2 * up ≤ len then some (pos, decide (cur + 1 = len)) else some (neg, decide (cur = 0))
  else if rel cur < rel dest then some (pos, false)
  else some (neg, false)

/-- R338: dimension order: x, then y, then z. -/
def routeHop (s : State) (pkt : Packet) : Option (Port × Bool) :=
  match s.slice.coords with
  | none => none
  | some (x, y, z) =>
    let l := s.slice.lens
    let o := s.slice.origin
    let a := s.slice.extent
    match axisHop .px .nx x pkt.destX a.1 l.1 (fun c => relCoord c o.1 l.1) with
    | some h => some h
    | none =>
      match axisHop .py .ny y pkt.destY a.2.1 l.2.1 (fun c => relCoord c o.2.1 l.2.1) with
      | some h => some h
      | none => axisHop .pz .nz z pkt.destZ a.2.2 l.2.2 (fun c => relCoord c o.2.2 l.2.2)

/-- The axis of a port. -/
def axisOf : Port → Nat
  | .px => 0 | .nx => 0 | .py => 1 | .ny => 1 | .pz => 2 | .nz => 2

/-- R326, R339: the virtual channel on an output: T0 on entering an axis, T1 from its wrap link on. -/
def outVc (source : Option Port) (pkt : Packet) (out : Port) (wrap : Bool) : VC :=
  let onT1 := match source with
    | some q => decide (axisOf q = axisOf out) && (decide (pkt.vc = .bulkT1) || decide (pkt.vc = .prioT1))
    | none => false
  let t1 := onT1 || wrap
  if pkt.cls = 4 then (if t1 then .prioT1 else .prioT0) else (if t1 then .bulkT1 else .bulkT0)

/-- R340, R327: the slots that a packet held in its input buffer are freed. -/
def freeInput (source : Option Port) (pkt : Packet) (s : State) : State :=
  match source with
  | none => s
  | some q =>
    let t := getPort s q
    let ix := vcIx pkt.vc
    let mine := t.rx.filter (fun f => f.vc = pkt.vc)
    let n := min pkt.flits mine.length
    setPort s q { t with
      rx := t.rx.filter (fun f => decide (f.vc ≠ pkt.vc)) ++ mine.drop n,
      freed := t.freed.set ix (t.freed[ix] + BitVec.ofNat 16 n) }

/-- R326: a packet that a router discards. -/
def badPacket (s : State) (pkt : Packet) : Bool :=
  decide (s.slice.sliceId ≠ some pkt.sliceId) || decide (4 < pkt.cls) || !pkt.reservedOk

/-- R289: the output's far end belongs to this slice and the port is UP. -/
def outputOpen (s : State) (p : Port) : Bool := decide ((getPort s p).state = .up) && carriesSlice s (getPort s p)

/-- R330, R340: the packet leaves on an output: its flits take sequence numbers, credits and places in the replay
buffer (in part DEDUCED: log 44). -/
def sendPacket (p : Port) (vc : VC) (pkt : Packet) (s : State) : State :=
  let t := getPort s p
  let fs := (List.range pkt.flits).map (packetFlit pkt vc t.txNext)
  let ix := vcIx vc
  let s := setPort s p { t with
    txNext := t.txNext + BitVec.ofNat 16 pkt.flits,
    replay := t.replay ++ fs.map (fun f => { flit := f, sentAt := s.awn.tick, sends := 1 }),
    credits := t.credits.set ix (t.credits[ix] - pkt.flits) }
  emits (fs.map (Out.flit p)) s

/-- R341: an input's place in the round-robin order of an output. -/
def inputIx : Option Port → Nat
  | none => 0
  | some q => (portIx q).val + 1

/-- R338, R339: the virtual channel that a waiting packet takes on an output. -/
def packetVc (s : State) (p : Port) (x : Option Port × Packet) : VC :=
  outVc x.1 x.2 p ((routeHop s x.2).any (·.2))

/-- R342: a waiting packet with no packet of its input and virtual channel before it. -/
def leadsInput (t : TPort) (x : Option Port × Packet) : Bool :=
  decide (t.waiting.find? (fun y => decide (y.1 = x.1) && decide (y.2.vc = x.2.vc) && decide (y.2.cls = x.2.cls)) = some x)

/-- R289, R330, R340: an output takes a packet now: its far end belongs to the slice, it holds a credit for every flit and the replay
buffer has room. -/
def outputTakes (s : State) (p : Port) (x : Option Port × Packet) : Bool :=
  let t := getPort s p
  outputOpen s p && decide (x.2.flits ≤ t.credits[vcIx (packetVc s p x)]) && decide (t.replay.length + x.2.flits ≤ 8192)

/-- R341: the packet that an output serves next: PRIO before BULK, and within a class the inputs in turn after the last served
(in part DESIGN CHOICE: log 100). -/
def nextServed (s : State) (p : Port) : Option (Option Port × Packet) :=
  let t := getPort s p
  let ready := t.waiting.filter (fun x => leadsInput t x && outputTakes s p x)
  let prio := ready.filter (fun x => decide (x.2.cls = 4))
  let (pick, last) := if prio = [] then (ready, t.lastBulk) else (prio, t.lastPrio)
  (sortBy (fun (x y : Option Port × Packet) => decide ((inputIx x.1 + 6 - last) % 7 ≤ (inputIx y.1 + 6 - last) % 7)) pick).head?

/-- R340, R341: an output serves its waiting packets as long as it can; the first number bounds them. -/
def serveOutput : Nat → Port → State → State
  | 0, _, s => s
  | n + 1, p, s =>
    match nextServed s p with
    | none => s
    | some x =>
      let t := getPort s p
      let t := { t with waiting := t.waiting.erase x }
      let t := if x.2.cls = 4 then { t with lastPrio := inputIx x.1 } else { t with lastBulk := inputIx x.1 }
      serveOutput n p (sendPacket p (packetVc s p x) x.2 (freeInput x.1 x.2 (setPort s p t)))

/-- R340, R341: an output serves the packets that wait for it. -/
def servePort (p : Port) (s : State) : State := serveOutput (getPort s p).waiting.length p s

/-- R58: a packet of the module before in an attention ring brings bytes of that ring's next block. -/
def ringPacket (pkt : Packet) (s : State) : State :=
  if decide (pkt.cls = 0) && decide (pkt.src = ringMember s (ownPos s + (cutQ s - 1))) then
    ringBytes pkt.stream.toNat (pkt.payload.take pkt.bytes) s
  else s

/-- R325, R340: the flits that an input has accepted on the packet's virtual channel and that no waiting packet of it holds begin with this
packet: HEAD, BODY and TAIL, or a SOLO, with its reserved header bytes 0 as the packet says. -/
def atInput (s : State) (q : Port) (pkt : Packet) : Bool :=
  let held := allPorts.flatMap (fun p => (getPort s p).waiting.filter (fun x => decide (x.1 = some q) && decide (x.2.vc = pkt.vc)))
  let mine := ((getPort s q).rx.filter (fun f => f.vc = pkt.vc)).drop ((held.map (·.2.flits)).foldl (· + ·) 0)
  decide (1 ≤ pkt.flits) && decide (mine.head?.map (fun f => (headerReserved f).all (· = 0)) = some pkt.reservedOk) &&
  decide ((mine.take pkt.flits).map flitShown = (List.range pkt.flits).map (fun i => flitShown (packetFlit pkt pkt.vc 0 i)))

/-- R326, R338 to R341: a router takes the packet at the head of an input: it is discarded, delivered to a Hall or the Clerk, or it
waits for its output, which serves what it can. -/
def packetForward (source : Option Port) (pkt : Packet) (s : State) : State :=
  if source.any (fun q => !atInput s q pkt) then s
  else if badPacket s pkt then
    let s := freeInput source pkt s
    match source with
    | some q =>
      let t := getPort s q
      setPort s q { t with counts := { t.counts with discarded := add48 t.counts.discarded 1 } }
    | none => s
  else
    match routeHop s pkt with
    | none => ringPacket pkt (emit (.hallPacket pkt) (freeInput source pkt s))
    | some (p, _) =>
      let t := getPort s p
      servePort p (setPort s p { t with waiting := t.waiting ++ [(source, pkt)] })

/-- PACKET_FORWARD (R338). -/
def execPacketForward (source : Option Port) (pkt : Packet) (s : State) : Result := .next (packetForward source pkt s)

/-! ### Acknowledgements and replay (R327, R329 to R331) -/

/-- R329: held flits that an acknowledgement up to a number covers leave the buffer (in part DEDUCED: log 44). -/
def freeAcked (ack : W16) : List HeldFlit → List HeldFlit
  | [] => []
  | f :: t => if (ack - f.flit.seq).toNat < 32768 then freeAcked ack t else f :: t

/-- R329: whether a held flit has a number or a later one. -/
def heldFrom (seq : W16) (f : HeldFlit) : Bool := decide ((f.flit.seq - seq).toNat < 32768)

/-- R329, R331, R334: the held flits that `sel` names leave again, in sequence order (in part DEDUCED: log 44). -/
def resend (p : Port) (sel : HeldFlit → Bool) (s : State) : State :=
  let t := getPort s p
  let fs := t.replay.filter sel
  let s := setPort s p { t with
    replay := t.replay.map (fun f => if sel f then { f with sentAt := s.awn.tick, sends := f.sends + 1 } else f),
    counts := { t.counts with replayed := add48 t.counts.replayed fs.length } }
  emits (fs.map (fun f => Out.flit p f.flit)) s

/-- R340: the size of the far end's buffer of a virtual channel, in flits. -/
def vcSlots (i : Fin 4) : Nat := if i.val < 2 then 2048 else 64

/-- R327: credits returned by FREED counts (in part DEDUCED: log 44). -/
def takeCredits (freed : List W16) (t : TPort) : TPort :=
  { t with
    credits := Vector.ofFn (fun i => min (vcSlots i) (t.credits[i] + ((freed.getD i.val t.farFreed[i]) - t.farFreed[i]).toNat)),
    farFreed := Vector.ofFn (fun i => freed.getD i.val t.farFreed[i]) }

/-- R324, R327, R329: a CONTROL flit. -/
def controlFlit (p : Port) (c : ControlFlit) (s : State) : State :=
  let t := getPort s p
  if !portLive t then s
  else if !controlOk c then setPort s p { t with counts := { t.counts with crcFails := add48 t.counts.crcFails 1 } }
  else
    let t := takeCredits c.freed t
    servePort p (if c.nak then resend p (heldFrom c.ackSeq) (setPort s p t)
      else setPort s p { t with replay := freeAcked c.ackSeq t.replay })

/-- CONTROL_FLIT (R329). -/
def execControlFlit (p : Port) (c : ControlFlit) (s : State) : Result := .next (controlFlit p c s)

/-- ACK_TIMER (R329): at least every 100 ns an acknowledgement leaves. -/
def execAckTimer (p : Port) (s : State) : Result :=
  .next (if portLive (getPort s p) then sendAck p s else s)

/-- R331: the oldest held flit has stayed unacknowledged for 4 µs (in part DESIGN CHOICE: log 85). -/
def replayTimeout (p : Port) (s : State) : State :=
  let t := getPort s p
  match t.replay with
  | [] => s
  | f :: _ =>
    if t.state ≠ .up ∨ (s.awn.tick - f.sentAt).toNat < 4000 then s
    else if 16 ≤ f.sends then enterRetrain p s
    else
      resend p (fun _ => true) (setPort s p { t with
        counts := { t.counts with replayTimeouts := add48 t.counts.replayTimeouts 1 } })

/-- REPLAY_TIMEOUT (R331). -/
def execReplayTimeout (p : Port) (s : State) : Result := .next (replayTimeout p s)

/-! ### Lane errors and RETRAIN (R332 to R335) -/

/-- R355: a lane's FEC counts of a window. -/
def addFec (t : TPort) (errors : List (Nat × Nat)) : TPort :=
  { t with
    fecCorrected := Vector.ofFn (fun i => add48 t.fecCorrected[i] (errors.getD i.val (0, 0)).1),
    fecUncorrected := Vector.ofFn (fun i => add48 t.fecUncorrected[i] (errors.getD i.val (0, 0)).2) }

/-- R332: the lanes over budget in a window. -/
def overBudget (errors : List (Nat × Nat)) : W16 :=
  (List.range 16).foldl (fun m i =>
    let e := errors.getD i (0, 0)
    if 42500 < e.1 ∨ 16 < e.2 then m ||| (1 : W16) <<< i else m) 0

/-- R332, R334: lanes over budget or failed are dropped and the port enters RETRAIN. -/
def loseLanes (p : Port) (mask : W16) (s : State) : State :=
  let new := mask &&& ~~~(getPort s p).dropped
  if new = 0 then s else enterRetrain p (dropLanes p new s)

/-- R332: the close of a 100 ms window of lane errors. -/
def laneWindow (p : Port) (errors : List (Nat × Nat)) (s : State) : State :=
  let t := getPort s p
  if !portLive t then s
  else loseLanes p (overBudget errors) (setPort s p (addFec t errors))

/-- LANE_ERROR_WINDOW_CLOSE (R332). -/
def execLaneErrorWindowClose (p : Port) (errors : List (Nat × Nat)) (s : State) : Result := .next (laneWindow p errors s)

/-- LANE_LOCK_LOSS (R332): the lane fails at once. -/
def execLaneLockLoss (p : Port) (lane : Fin 16) (s : State) : Result :=
  .next (if portLive (getPort s p) then loseLanes p ((1 : W16) <<< lane.val) s else s)

/-- R334: lock and flit sync have run at the new width; the port is back and sends again from its oldest held flit. -/
def retrain (p : Port) (farDropped : W16) (s : State) : State :=
  let t := getPort s p
  if t.state ≠ .retrain then s
  else
    let w := widthOf (t.dropped ||| farDropped)
    if w = 0 then portDown p (setPort s p { t with farDropped := farDropped, width := 0, lanes := 0 })
    else
      let back : PortState := match t.farIdent with
        | some i => if s.slice.coords.isSome && i.assigned then (if identFits s p i then .up else .miswired) else .unverified
        | none => .unverified
      let s := setPort s p { t with
        state := back, farDropped := farDropped, width := w, lanes := lanesOf (t.dropped ||| farDropped), retried := false }
      servePort p (if t.replay = [] then s else resend p (fun _ => true) s)

/-- RETRAIN (R334). -/
def execRetrain (p : Port) (farDropped : BitVec 16) (s : State) : Result := .next (retrain p farDropped s)

/-- R335: a failed RETRAIN drops the lanes that failed and retries once; a second failure takes the port DOWN. -/
def retrainFail (p : Port) (failed : W16) (s : State) : State :=
  let t := getPort s p
  if t.state ≠ .retrain then s
  else
    let s := dropLanes p failed s
    let t' := getPort s p
    if t.retried ∨ widthOf (t'.dropped ||| t'.farDropped) = 0 then portDown p s
    else setPort s p { t' with retried := true }

/-- RETRAIN_FAIL (R335). -/
def execRetrainFail (p : Port) (failed : BitVec 16) (s : State) : Result := .next (retrainFail p failed s)

end Sys2Proof.Machine
end

