-- ==== Sys2Proof/Machine/Functions.lean ====
section
/-! DEFINITION. Function states (R528, R599 to R602): FUNC_ENABLE, FUNC_DISABLE, the end of a transition, and a lane
fault of an Ethernet port (R316). -/

namespace Sys2Proof.Machine

/-- R528: the function a FUNC code names. -/
def funcOf (code : Nat) : Option Func :=
  match code with
  | 0x00 => some (.hall 0) | 0x01 => some (.hall 1) | 0x02 => some (.hall 2) | 0x03 => some (.hall 3)
  | 0x10 => some (.eth .ethA) | 0x11 => some (.eth .ethB)
  | 0x20 => some .barter | 0x21 => some .countingHouse
  | 0x30 => some (.torus .px) | 0x31 => some (.torus .nx) | 0x32 => some (.torus .py)
  | 0x33 => some (.torus .ny) | 0x34 => some (.torus .pz) | 0x35 => some (.torus .nz)
  | _ => none

/-- R392: the Ethernet port of a route. -/
def routePort (r : Nat) : EthPort := if r % 2 = 0 then .ethA else .ethB

/-- R417, R528: the routes through an Ethernet port stop being UP. -/
def routesDown (e : EthPort) (s : State) : State :=
  s.withSite { s.site with
    sessions := s.site.sessions.map (fun x =>
      { x with routes := x.routes.mapIdx (fun i r => if routePort i = e then { r with up := false } else r) }) }

/-- R316: the bit of an Ethernet port in `Bus.ethDown`. -/
def ethBit : EthPort → BitVec 2
  | .ethA => 1
  | .ethB => 2

/-- R599: what the start of STARTING does: a torus port trains from OFF with the class its request gave (R317, R336). -/
def beginStart (f : Func) (reach : Nat) (s : State) : State :=
  let s := setFn s f { getFn s f with state := .starting }
  match f with
  | .torus p =>
    let t := getPort s p
    setPort s p { state := .training, detectAt := s.awn.tick, reachReq := reach, counts := t.counts, fecCorrected := t.fecCorrected,
                  fecUncorrected := t.fecUncorrected }
  | .eth e => s.withBus { s.bus with ethDown := s.bus.ethDown &&& ~~~ethBit e }
  | _ => s

/-- R337, R417, R528: what the start of STOPPING does. -/
def beginStop (f : Func) (s : State) : State :=
  let s := setFn s f { getFn s f with state := .stopping }
  match f with
  | .torus p => if carriesSlice s (getPort s p) then reportPortDown p s else s
  | .eth e => routesDown e s
  | _ => s

/-- R599: what the end of STARTING does. -/
def endStart (f : Func) (s : State) : State :=
  match f with
  | .hall h =>
    let bit : BitVec 4 := 1 <<< h.val
    s.withDev { s.dev with hallsOn := s.dev.hallsOn ||| (bit &&& ~~~s.saf.hallsLost) }
  | _ => s

/-- R599: what the end of STOPPING does: a Hall's near-tier contents are lost, session keys are erased, a torus port is
OFF and its replay buffer discarded. -/
def endStop (f : Func) (s : State) : State :=
  match f with
  | .hall h =>
    let bit : BitVec 4 := 1 <<< h.val
    let s := s.withMem { s.mem with near := s.mem.near.filter (fun p => decide (p.1 / 137438953472 ≠ h.val)) }
    let s := s.withStalls (s.stalls.filter (fun p => decide (p.1 / 256 ≠ h.val)))
    s.withDev { s.dev with hallsOn := s.dev.hallsOn &&& ~~~bit }
  | .barter => s.withSite { s.site with sessions := [] }
  | .torus p =>
    let t := getPort s p
    setPort s p { counts := t.counts, fecCorrected := t.fecCorrected, fecUncorrected := t.fecUncorrected }
  | _ => s

/-- R528, R601: a pending request that a later request overtakes ends REFUSED with PENDING_FUNCTION. -/
def overtake (f : Func) (s : State) : State :=
  let x := getFn s f
  match x.pending with
  | none => s
  | some k => finish k rPendingFunction (setFn s f { x with pending := none })

/-- R600: a request starts or joins a transition and reads RUNNING. -/
def joinFn (f : Func) (k : CmdRef) (s : State) : State :=
  let x := getFn s f
  setRunning k (setFn s f { x with joined := x.joined ++ [k] })

/-- R600: a request against a transition is held as pending. -/
def holdFn (f : Func) (k : CmdRef) (s : State) : State :=
  let x := getFn s f
  refreshStatus k (updCmd k (fun c => { c with pendingFn := true }) (setFn s f { x with pending := some k }))

/-- R600, R601: a request that a function reach ON (`on`) or OFF. -/
def requestFn (k : CmdRef) (f : Func) (on : Bool) (reach : Nat) (s : State) : State :=
  let s := overtake f s
  match (getFn s f).state, on with
  | .on, true => finish k rOK s
  | .off, false => finish k rOK s
  | .off, true => joinFn f k (beginStart f reach s)
  | .on, false => joinFn f k (beginStop f s)
  | .starting, true => joinFn f k s
  | .stopping, false => joinFn f k s
  | .starting, false => holdFn f k s
  | .stopping, true => holdFn f k s

/-- R523: REACH of a FUNC_ENABLE. -/
def reachArg (c : Cmd) : Nat := field c.bytes 81 1

/-- R528, R590: a FUNC_ENABLE that is refused. -/
def enableBad (s : State) (f : Func) (c : Cmd) : Bool :=
  (getFn s f).lostOff || (match f with | .torus _ => decide (3 < reachArg c) | _ => false)

/-- A command that already waits for a function does not request again. -/
def alreadyWaits (s : State) (k : CmdRef) : Bool :=
  s.fns.toList.any (fun x => decide (k ∈ x.joined) || decide (x.pending = some k))

/-- R528, R600: FUNC_ENABLE. -/
def funcEnable (k : CmdRef) (s : State) : State :=
  match ready s k 0x60 with
  | none => s
  | some c =>
    if alreadyWaits s k then s
    else
      match funcOf (field c.bytes 80 1) with
      | none => finish k rBadDescriptor s
      | some f => if enableBad s f c then finish k rBadDescriptor s else requestFn k f true (reachArg c) s

/-- FUNC_ENABLE (R600). -/
def execFuncEnable (k : CmdRef) (s : State) : Result := .next (funcEnable k s)

/-- R528: a FUNC_DISABLE that is refused: a Hall in LOADED or SITE, the Barter unit in SITE. -/
def disableBad (s : State) (f : Func) : Bool :=
  match f with
  | .hall _ => decide (s.mbx.job = .loaded) || decide (s.mbx.job = .site)
  | .barter => decide (s.mbx.job = .site)
  | _ => false

/-- R528, R600: FUNC_DISABLE. -/
def funcDisable (k : CmdRef) (s : State) : State :=
  match ready s k 0x61 with
  | none => s
  | some c =>
    if alreadyWaits s k then s
    else
      match funcOf (field c.bytes 80 1) with
      | none => finish k rBadDescriptor s
      | some f => if disableBad s f then finish k rBadDescriptor s else requestFn k f false 0 s

/-- FUNC_DISABLE (R600). -/
def execFuncDisable (k : CmdRef) (s : State) : Result := .next (funcDisable k s)

/-- R599: the condition under which a transition can be complete: a torus port has trained to UNVERIFIED or is DOWN; no
collective of a stopping Counting House holds a lease. -/
def transitionReady (s : State) (f : Func) : Bool :=
  match f, (getFn s f).state with
  | .torus p, .starting => portTrained (getPort s p)
  | .countingHouse, .stopping => s.house.colls.all (fun c => decide (c.lease ≠ some true) || c.complete)
  | _, _ => true

/-- R600: the commands that wait for a transition end DONE with OK. -/
def endJoined (f : Func) (s : State) : State :=
  let x := getFn s f
  x.joined.foldl (fun s k => finish k rOK s) (setFn s f { x with joined := [] })

/-- R600, R601: a pending request starts the opposite transition at the end of this one. -/
def startPending (f : Func) (s : State) : State :=
  let x := getFn s f
  match x.pending with
  | none => s
  | some k =>
    let s := setFn s f { x with pending := none }
    let reach := ((findCmd s k).map reachArg).getD 0
    joinFn f k (if x.state = .off then beginStart f reach s else beginStop f s)

/-- R599 to R601: a transition completes. -/
def transitionDone (f : Func) (s : State) : State :=
  let x := getFn s f
  if !transitionReady s f then s
  else
    match x.state with
    | .starting => startPending f (endJoined f (endStart f (setFn s f { x with state := .on })))
    | .stopping => startPending f (endJoined f (endStop f (setFn s f { x with state := .off })))
    | _ => s

/-- FUNCTION_TRANSITION_DONE (R599). -/
def execFunctionTransitionDone (f : Func) (s : State) : Result := .next (transitionDone f s)

/-- ETHERNET_LANE_FAULT (R316): the port goes down, and routes through it stop being UP. -/
def execEthernetLaneFault (e : EthPort) (_lane : Fin 8) (s : State) : Result :=
  .next (if fnOn s (.eth e) then routesDown e (s.withBus { s.bus with ethDown := s.bus.ethDown ||| ethBit e }) else s)

end Sys2Proof.Machine
end

