-- ==== Sys2Proof/Machine/Security.lean ====
section
/-! DEFINITION. Secure boot, measurements, the identity key and keys (R556 to R581): images, verified boot, signatures,
ATTEST and KEY_INSTALL. -/

namespace Sys2Proof.Machine

/-! ### Images (R558 to R560) -/

/-- R559: the fields of a header of an image or package, with its body's place. -/
structure ImageHdr where
  magicOk : Bool
  kind : Nat
  svn : Nat
  version : W32
  bytes : Nat
  keySlot : Nat
  digest : Bytes
  signerPk : Bytes
  signed : Bytes
  signature : Bytes
  reservedOk : Bool
  deriving DecidableEq, Repr

/-- Every byte of a range is 0. -/
def zeroRange (b : Bytes) (lo n : Nat) : Bool := ((b.drop lo).take n).all (fun x => decide (x = 0))

/-- R559: the header in 4,096 bytes. -/
def parseHdr (b : Bytes) : ImageHdr :=
  { magicOk := decide (field b 0 4 = 0x52444E4F) && decide (field b 4 2 = 1), kind := field b 6 1, svn := field b 7 1,
    version := BitVec.ofNat 32 (field b 8 4), bytes := field b 12 8, keySlot := field b 20 1,
    digest := (b.drop 24).take 32, signerPk := (b.drop 56).take 68, signed := b.take 128,
    signature := (b.drop 128).take 2820,
    reservedOk := zeroRange b 21 3 && zeroRange b 124 4 && zeroRange b 2948 1148 }

/-- R560: the first check that a header and its body fail, numbered from 0 in the rule's order; none when it verifies. -/
def failedCheck (s : State) (kind : Nat) (h : ImageHdr) (body : Bytes) : Option Nat :=
  if !(h.magicOk && decide (h.kind = kind) && h.reservedOk) then some 0
  else if hk : h.keySlot < 4 then
    if s.sec.revoked.getLsbD h.keySlot || decide (hash32 h.signerPk ≠ Config.keyHash ⟨h.keySlot, hk⟩) then some 1
    else if !Config.verify h.signerPk h.signed h.signature then some 2
    else if h.digest ≠ hash32 body then some 3
    else if h.svn < s.sec.svn ∨ 128 < h.svn then some 4
    else none
  else some 1

/-- R558: the address of image i (LOADER, MGMT, JOB) of a bank: each lies after the most that those before it take
(in part DESIGN CHOICE: log 45). -/
def imageBase (bankB : Bool) (i : Nat) : Nat :=
  (if bankB then 0x07800000 else 0) + (match i with | 0 => 0 | 1 => 0x00400000 | _ => 0x02000000)

/-- R558: the most bytes of an image (in part DESIGN CHOICE: log 45). -/
def imageMax (i : Nat) : Nat := match i with | 0 => 0x00400000 | 1 => 0x01C00000 | _ => 0x05800000

/-- R558, R559: the header of an image in the NOR (in part DESIGN CHOICE: log 45). -/
def norHdr (s : State) (bankB : Bool) (i : Nat) : ImageHdr := parseHdr (readBytes s.sec.nor (imageBase bankB i) 4096)

/-- R559: the body of an image in the NOR, no longer than the image's place (in part DESIGN CHOICE: log 45). -/
def norBody (s : State) (bankB : Bool) (i : Nat) : Bytes :=
  readBytes s.sec.nor (imageBase bankB i + 4096) (min (norHdr s bankB i).bytes (imageMax i - 4096))

/-- R560: the check that image i of a bank fails. -/
def norFails (s : State) (bankB : Bool) (i : Nat) : Option Nat :=
  failedCheck s (i + 1) (norHdr s bankB i) (norBody s bankB i)

/-! ### Records and measurements (R565, R581) -/

/-- R565: the 64 bytes of a log entry (in part DEDUCED: log 46). -/
def attEntryBytes (e : AttEntry) : Bytes :=
  rec64 (natLe 1 e.reg ++ natLe 1 e.event ++ natLe 6 e.epoch.toNat ++ natLe 8 e.tick.toNat ++ e.digest)

/-! ### Verified boot (R557, R561 to R564) -/

/-- R557, R561: fuses are sensed, and a partial SVN burn is completed (in part DEDUCED: log 46). -/
def fuses (pendingSvn : Nat) (s : State) : State :=
  if s.pwr.phase ≠ .fuses then s
  else enterPhase .loader (s.withSec { s.sec with svn := min 128 (max s.sec.svn pendingSvn) })

/-- FUSES (R561). -/
def execFuses (pendingSvn : Nat) (s : State) : Result := .next (fuses pendingSvn s)

/-- R562: the bank that this attempt boots. -/
def bootBank (s : State) : Bool :=
  match s.sec.failedBank with
  | some (b, _, _) => !b
  | none => s.sec.preferB

/-- R562, R563: an image of the bank fails: the other bank boots from the Loader phase on, or the module enters
recovery. -/
def bankFails (image check : Nat) (s : State) : State :=
  match s.sec.failedBank with
  | none =>
    enterPhase .loader (s.withSec { s.sec with failedBank := some (s.sec.preferB, image, check), fallback := true })
  | some (b, i, c) =>
    let one := [BitVec.ofNat 8 i, BitVec.ofNat 8 c]
    let two := [BitVec.ofNat 8 image, BitVec.ofNat 8 check]
    logSecurity 2 (if b then two ++ one else one ++ two) (enterPhase .recovery s)

/-- R561, R562: the Boot ROM verifies LOADER. -/
def loader (s : State) : State :=
  if s.pwr.phase ≠ .loader then s
  else
    let b := bootBank s
    match norFails s b 0 with
    | some c => bankFails 0 c s
    | none =>
      extend 0 (norHdr s b 0).digest (enterPhase .firmware (s.withSec { s.sec with bootedB := b }))

/-- LOADER (R562). -/
def execLoader (s : State) : Result := .next (loader s)

/-- R565: what register 3 is extended by (in part DEDUCED: log 46). -/
def bootFacts (s : State) : Bytes :=
  hash32 [BitVec.ofNat 8 s.sec.svn, s.sec.revoked.setWidth 8, if s.sec.bootedB then 1 else 0,
          if s.sec.fallback then 1 else 0]

/-- R561, R562: LOADER verifies MGMT and JOB of the same bank; the bank booted is recorded. -/
def firmwareVerify (s : State) : State :=
  if s.pwr.phase ≠ .firmware then s
  else
    let b := s.sec.bootedB
    match norFails s b 1, norFails s b 2 with
    | some c, _ => bankFails 1 c s
    | none, some c => bankFails 2 c s
    | none, none =>
      let s := extend 1 (norHdr s b 1).digest s
      let s := extend 2 (norHdr s b 2).digest s
      let s := extend 3 (bootFacts s) s
      let vs := [0, 1, 2].flatMap (fun i => natLe 4 (norHdr s b i).version.toNat)
      logSecurity 1 ([if b then 1 else 0, if s.sec.fallback then 1 else 0] ++ vs) (enterPhase .identity s)

/-- FIRMWARE_VERIFY (R561). -/
def execFirmwareVerify (s : State) : Result := .next (firmwareVerify s)

/-- R567: the leaf at which the module resumes: the largest reserve among the valid copies. With no valid copy the spec
states none: a free value (in part DEDUCED: log 47). -/
def resumeLeaf (s : State) : State :=
  let (a, _, va) := s.sec.leafA
  let (b, _, vb) := s.sec.leafB
  match va, vb with
  | true, true => s.withSec { s.sec with nextLeaf := max a b }
  | true, false => s.withSec { s.sec with nextLeaf := a }
  | false, true => s.withSec { s.sec with nextLeaf := b }
  | false, false => let (v, s) := takeFree 20 s; s.withSec { s.sec with nextLeaf := v.toNat }

/-- R561, R567: the leaf reserve is read and the node cache checked; verified boot ends. -/
def bootIdentity (cacheOk : Bool) (s : State) : State :=
  if s.pwr.phase ≠ .identity then s
  else
    let s := resumeLeaf s
    startFunctions (s.withSec { s.sec with cacheOk := cacheOk })

/-- BOOT_IDENTITY (R561). -/
def execBootIdentity (cacheOk : Bool) (s : State) : Result := .next (bootIdentity cacheOk s)

/-- CACHE_REBUILT (R581): the node cache is rebuilt, and signatures go on. -/
def execCacheRebuilt (ms : W32) (s : State) : Result :=
  .next (if s.sec.cacheOk || decide (s.pwr.phase ≠ .done) then s
    else logSecurity 9 (natLe 4 ms.toNat) (s.withSec { s.sec with cacheOk := true }))

/-- R564: the fuses are burnt up to the least SVN of the booted bank. -/
def burnSvn (s : State) : State :=
  let b := s.sec.bootedB
  let least := min (norHdr s b 0).svn (min (norHdr s b 1).svn (norHdr s b 2).svn)
  if s.sec.svn < least then
    logSecurity 3 [BitVec.ofNat 8 s.sec.svn, BitVec.ofNat 8 least] (s.withSec { s.sec with svn := least })
  else s

/-- R536, R595, R564: start-up ends and READY reads 1. -/
def readyNow (s : State) : State :=
  if s.pwr.phase ≠ .ready then s
  else
    let s := s.withDev (bootDev s)
    let s := s.withMbx { s.mbx with ready := true }
    let s := s.withTal { s.tal with
      opened := s.awn.tick, closes := BitVec.ofNat 64 (nextClose s.awn.tick.toNat s.tal.window.toNat) }
    burnSvn (s.withPwr { s.pwr with phase := .done, state := activeState s.pwr })

/-- READY (R595). -/
def execReady (s : State) : Result := .next (readyNow s)

/-! ### The identity key (R566 to R568) -/

/-- The identity key's leaves. -/
def leafCount : Nat := 1048576

/-- R568: leaves left (in part DEDUCED: log 47). -/
def leavesLeft (s : State) : Nat := leafCount - s.sec.nextLeaf

/-- R567: the reserve rises by 16 in copy A and then in copy B before a leaf at or above it signs
(in part DEDUCED: log 47). -/
def raiseLeaf (s : State) : State :=
  let r := max s.sec.leafA.1 s.sec.leafB.1
  if s.sec.nextLeaf < r then s
  else
    let g := max s.sec.leafA.2.1 s.sec.leafB.2.1 + 1
    s.withSec { s.sec with leafA := (s.sec.nextLeaf + 16, g, true), leafB := (s.sec.nextLeaf + 16, g, true) }

/-- R568: the IDX_LOW record at leaf 983,040 and at every 4,096 after it. -/
def idxLow (s : State) : State :=
  let n := s.sec.nextLeaf
  if 983040 ≤ n ∧ (n - 983040) % 4096 = 0 then logSecurity 8 (natLe 4 (leavesLeft s)) s else s

/-- R567: the next leaf is used (in part DEDUCED: log 47). -/
def useLeaf (s : State) : Nat × State :=
  let s := raiseLeaf s
  let n := s.sec.nextLeaf
  (n, idxLow (s.withSec { s.sec with nextLeaf := n + 1 }))

/-! ### ATTEST (R571, R572) -/

/-- R571: bytes [403:0] of the signed record. -/
def attestRecord (s : State) (nonce : Bytes) : Bytes :=
  natLe 4 0x54545441 ++ natLe 2 1 ++ natLe 2 s.sec.attLog.length ++ (nonce ++ List.replicate 32 0).take 32 ++
  natLe 8 Config.serial.toNat ++ natLe 8 s.dev.bootId.toNat ++ natLe 8 s.awn.tick.toNat ++ natLe 4 s.awn.rtc.toNat ++
  natLe 1 s.sec.svn ++
  natLe 1 ((if s.sec.bootedB then 1 else 0) + (if s.sec.fallback then 2 else 0) + (if s.sec.unlocked then 4 else 0) +
    (if s.awn.tstate = .synced then 8 else 0) + (if s.sec.logOverflow then 16 else 0)) ++
  natLe 2 0 ++ natLe 4 (leavesLeft s) ++ natLe 4 0 ++ s.sec.meas.toList.flatMap id ++ Config.idkPublic

/-- R571: the length of what ATTEST writes. -/
def attestBytes (s : State) : Nat := 3224 + 64 * s.sec.attLog.length + 2948

/-- R572: the window of an ATTEST at a tick. -/
def attWindowOf (tick : W64) : Nat := tick.toNat / 60000000000

/-- R572: an ATTEST that the window admits waits for its signature. -/
def admitAttest (k : CmdRef) (s : State) : State :=
  let s := s.withSec { s.sec with attSigned := s.sec.attSigned + 1, signQueue := s.sec.signQueue ++ [.attest k] }
  setRunning k s

/-- R568, R571, R572: ATTEST in its window: refused, admitted, or left QUEUED until the next window. -/
def attestNow (k : CmdRef) (s : State) : State :=
  match ready s k 0x80 with
  | none => s
  | some c =>
    if c.phase = .running then s
    else if (bufA c).bytes < attestBytes s then finish k rBadDescriptor s
    else if leafCount ≤ s.sec.nextLeaf then finish k rAuthFail s
    else if s.sec.attSigned < 16 then admitAttest k s
    else s

/-- R572: an ATTEST that waits for its signature. -/
def isAttest : SignReq → Bool
  | .attest _ => true
  | _ => false

/-- R572: a new window opens: the ATTESTs that wait for their signature count in it, and queued ones are taken in order, as many as it
allows. -/
def attestWindow (s : State) : State :=
  let w := attWindowOf s.awn.tick
  if w = s.sec.attWindow then s
  else
    let s := s.withSec { s.sec with attWindow := w, attSigned := (s.sec.signQueue.filter isAttest).length }
    let ks := (s.mbx.cmds.filter (fun c => decide (cmdOp c = 0x80) && !c.isRepeat && decide (c.phase = .queued))).map (·.ref)
    ks.foldl (fun s k => attestNow k s) s

/-- R572: ATTEST: in a window that no event has opened yet, the window opens first. -/
def attest (k : CmdRef) (s : State) : State := attestNow k (attestWindow s)

/-- ATTEST (R571). -/
def execAttest (k : CmdRef) (s : State) : Result := .next (attest k s)

/-- ATTEST_WINDOW (R572). -/
def execAttestWindow (s : State) : Result := .next (attestWindow s)

/-- R571, R568: the signed record, the log and the certificate are written, and ATTEST ends. The length is known when
it signs: a log that has grown since beyond BUF_A ends it with BAD_DESCRIPTOR. -/
def finishAttest (k : CmdRef) (s : State) : State :=
  match findCmd s k with
  | none => s
  | some c =>
    if (bufA c).bytes < attestBytes s then finish k rBadDescriptor s
    else if leafCount ≤ s.sec.nextLeaf then finish k rAuthFail s
    else
      let (leaf, s) := useLeaf s
      let r := attestRecord s ((c.bytes.drop 80).take 32)
      let cert := (s.sec.identityCert ++ List.replicate 2948 0).take 2948
      let n := attestBytes s
      let s := writeBuf (bufA c) 0 (r ++ Config.sign leaf r ++ s.sec.attLog.flatMap attEntryBytes ++ cert) s
      finish k rOK (addRecord k (rec64 (natLe 2 1 ++ natLe 2 0 ++ natLe 4 n)) s)

/-! ### Certificates (R569, R570) -/

/-- R569: a certificate of a kind is well formed. -/
def certForm (kind : Nat) (b : Bytes) : Bool :=
  decide (b.length = 2948) && decide (field b 0 4 = 0x54524543) && decide (field b 4 2 = 1) && decide (field b 6 1 = kind) &&
  zeroRange b 7 1 && zeroRange b 124 4

/-- R569: ISSUER_PK. -/
def certIssuer (b : Bytes) : Bytes := (b.drop 8).take 68

/-- R569: SUBJECT_HASH. -/
def certSubject (b : Bytes) : Bytes := (b.drop 76).take 32

/-- R570: a certificate is valid at a time of the real-time clock. -/
def certValid (rtc : W32) (b : Bytes) : Bool :=
  Config.verify (certIssuer b) (b.take 128) ((b.drop 128).take 2820) && decide (field b 116 4 ≤ rtc.toNat) &&
  (decide (field b 120 4 = 0) || decide (rtc.toNat < field b 120 4))

/-! ### KEY_INSTALL (R573, R574) -/

/-- R523: KEY_KIND. -/
def keyKind (c : Cmd) : Nat := field c.bytes 80 1

/-- A KEY_INSTALL of a kind that can run now, in a state that allows it. -/
def keyReady (s : State) (k : CmdRef) (kind : Nat) : Option Cmd :=
  match ready s k 0x81 with
  | some c => if keyKind c = kind then some c else none
  | none => none

/-- The package in BUF_A. -/
def package (s : State) (c : Cmd) : Bytes := readBuf s (bufA c) 0 (bufA c).bytes

/-- R573: the membership certificates with a new one: it replaces one of the same issuer. -/
def putCert (b : Bytes) (l : List Bytes) : List Bytes :=
  if l.any (fun x => decide (certIssuer x = certIssuer b)) then
    l.map (fun x => if certIssuer x = certIssuer b then b else x)
  else l ++ [b]

/-- R573: KEY_INSTALL MEMBERSHIP. -/
def membership (k : CmdRef) (s : State) : State :=
  match keyReady s k 1 with
  | none => s
  | some c =>
    let b := package s c
    if !certForm 1 b then finish k rBadDescriptor s
    else if !(certValid s.awn.rtc b && decide (certSubject b = Config.idkHash) &&
        decide (field b 108 8 = Config.serial.toNat)) then finish k rAuthFail s
    else if 4 < (putCert b s.sec.memberships).length then finish k rBadDescriptor s
    else
      let s := s.withSec { s.sec with memberships := putCert b s.sec.memberships }
      let s := extend 5 (hash32 b) s
      finish k rOK (logSecurity 6 ((hash32 (certIssuer b)).take 16) s)

/-- MEMBERSHIP (R573). -/
def execMembership (k : CmdRef) (s : State) : Result := .next (membership k s)

/-- R573: the three images of a FIRMWARE package, one after another: each whole image, header and body. -/
def packageImages (b : Bytes) : List Bytes :=
  let n0 := 4096 + field b 12 8
  let r1 := b.drop n0
  let n1 := 4096 + field r1 12 8
  [b.take n0, r1.take n1, r1.drop n1]

/-- R573: the package holds three whole images that fit their places. -/
def firmwareForm (b : Bytes) : Bool :=
  let l := packageImages b
  (List.range 3).all (fun i =>
    let x := l.getD i []
    decide (4096 ≤ x.length) && decide (x.length = 4096 + field x 12 8) && decide (x.length ≤ imageMax i))

/-- R560, R573: an image of a package verifies. -/
def imageOk (s : State) (i : Nat) (x : Bytes) : Bool := (failedCheck s (i + 1) (parseHdr x) (x.drop 4096)).isNone

/-- R573, R574: the start of a FIRMWARE install: the images are verified and written to the bank not booted
(in part DESIGN CHOICE: log 48). -/
def beginInstall (k : CmdRef) (c : Cmd) (s : State) : State :=
  let b := package s c
  if !firmwareForm b then finish k rBadDescriptor s
  else
    let l := packageImages b
    if !(imageOk s 0 (l.getD 0 []) && imageOk s 1 (l.getD 1 []) && imageOk s 2 (l.getD 2 [])) then finish k rAuthFail s
    else
      let bankB := !s.sec.bootedB
      let nor := [0, 1, 2].foldl (fun m i => writeBytes m (imageBase bankB i) (l.getD i [])) s.sec.nor
      setRunning k (s.withSec { s.sec with nor := nor, installing := some k })

/-- R573, R574: the end of the install: the bank is read back and verified and then named preferred
(in part DESIGN CHOICE: log 48). -/
def endInstall (k : CmdRef) (s : State) : State :=
  let bankB := !s.sec.bootedB
  let s := s.withSec { s.sec with installing := none }
  if (norFails s bankB 0).isSome || (norFails s bankB 1).isSome || (norFails s bankB 2).isSome then finish k rAuthFail s
  else
    let h := norHdr s bankB 2
    let s := s.withSec { s.sec with preferB := bankB }
    finish k rOK (logSecurity 5 ([if bankB then 1 else 0] ++ natLe 4 h.version.toNat ++ natLe 1 h.svn) s)

/-- R573, R574: KEY_INSTALL FIRMWARE. An install takes two steps of the command: it starts, and it ends. A second
install between them ends with BAD_DESCRIPTOR (in part DESIGN CHOICE: log 48). -/
def firmware (k : CmdRef) (s : State) : State :=
  match keyReady s k 2 with
  | none => s
  | some c =>
    if s.sec.installing = some k then endInstall k s
    else if s.sec.installing.isSome then finish k rBadDescriptor s
    else beginInstall k c s

/-- FIRMWARE (R574). -/
def execFirmware (k : CmdRef) (s : State) : Result := .next (firmware k s)

/-- R573: KEY_INSTALL KEY_REVOKE: the named slot is revoked under another slot's signature. -/
def keyRevoke (k : CmdRef) (s : State) : State :=
  match keyReady s k 3 with
  | none => s
  | some c =>
    let b := package s c
    let h := parseHdr b
    let slot := field b 4096 1
    if b.length ≠ 4160 ∨ h.bytes ≠ 64 ∨ 4 ≤ slot then finish k rBadDescriptor s
    else if (failedCheck s 4 h (b.drop 4096)).isSome ∨ h.keySlot = slot then finish k rAuthFail s
    else
      let r := s.sec.revoked ||| (1 : BitVec 4) <<< slot
      if r = 15 then finish k rBadDescriptor s
      else finish k rOK (logSecurity 4 [BitVec.ofNat 8 slot] (s.withSec { s.sec with revoked := r }))

/-- KEY_REVOKE (R573). -/
def execKeyRevoke (k : CmdRef) (s : State) : Result := .next (keyRevoke k s)

/-- R573, R575: KEY_INSTALL DEBUG_UNLOCK: LOCKED reads 0 until the next start-up. -/
def debugUnlock (k : CmdRef) (s : State) : State :=
  match keyReady s k 4 with
  | none => s
  | some c =>
    let b := package s c
    let h := parseHdr b
    if b.length ≠ 4160 ∨ h.bytes ≠ 64 then finish k rBadDescriptor s
    else if (failedCheck s 5 h (b.drop 4096)).isSome ∨ field b 4096 8 ≠ Config.serial.toNat ∨
        field b 4104 8 ≠ s.dev.bootId.toNat then finish k rAuthFail s
    else
      let s := (s.withDbg { s.dbg with locked := false }).withSec { s.sec with unlocked := true }
      let s := extend 4 (hash32 (b.take 4096)) s
      finish k rOK (logSecurity 7 (natLe 8 s.dev.bootId.toNat) s)

/-- DEBUG_UNLOCK (R573). -/
def execDebugUnlock (k : CmdRef) (s : State) : Result := .next (debugUnlock k s)

end Sys2Proof.Machine
end

