-- ==== Sys2Proof/Machine/Registers.lean ====
section
/-! DEFINITION. The registers of the mailbox BAR (R4 to R8, R534 to R554): what each reads as, pairs, host writes, the
Tally snapshot, the telemetry window's length and the probe pins. -/

namespace Sys2Proof.Machine

/-! ### Reading (R534 to R553) -/

/-- The value of a Bool as a number. -/
def bitN (b : Bool) : Nat := if b then 1 else 0

/-- R537: the index of an array register at `base` with `n` entries `stride` apart, or none. -/
def arrayIx (off base stride n : Nat) : Option Nat :=
  if base ≤ off ∧ (off - base) % stride = 0 ∧ (off - base) / stride < n then some ((off - base) / stride) else none

/-- R522, R539: the code of a job state. -/
def jobCode : JobState → Nat
  | .noHello => 0 | .idle => 1 | .opened => 2 | .loaded => 3 | .site => 4

/-- R549: count register c of the stall that TAL_SELECT names. -/
def talCount (s : State) (c : Nat) : W48 := sget 0 s.tal.snapshot (14 * s.tal.select.toNat + c)

/-- R534: the 64-bit value of the pair whose _LO register lies at an offset of BAR0; none elsewhere. -/
def pairValue (s : State) (off : Nat) : Option W64 :=
  if off = 0x8 then some s.dev.serial
  else if off = 0x20 then some s.dev.bootId
  else if off = 0x20000 then some s.awn.tick
  else if off = 0x20010 then some s.awn.rootId
  else if off = 0x20028 then some s.awn.syncCapture
  else if off = 0x20030 then some s.awn.syncValue
  else if off = 0x30010 then some (s.saf.corrections.setWidth 64)
  else if off = 0x30018 then some (s.saf.detections.setWidth 64)
  else if off = 0x30028 then some s.saf.lastSeq
  else if off = 0x40008 then some s.tal.snapTick
  else if off = 0x40010 then some s.tal.window
  else
    match arrayIx off 0x10200 8 16, arrayIx off 0x20100 0x20 16, arrayIx off 0x40100 8 14 with
    | some c, _, _ => some (s.mbx.rings.toList.getD c {}).mark
    | _, some n, _ => some (s.awn.cmps.toList.getD n {}).target
    | _, _, some c => some ((talCount s c).setWidth 64)
    | _, _, _ => none

/-- R546: the code of a stall's or Cellar's fence state in a map register j. -/
def fenceMap (t : Sparse Fence) (j : Nat) : Nat :=
  (List.range 16).foldl (fun m i => m + fenceCode (sget {} t (16 * j + i)).state * 4 ^ i) 0

/-- R551: PWR_THROTTLE: the Halls held below 3,000 MHz by temperature and by power. -/
def throttleBits (s : State) : Nat :=
  (List.ofFn (fun h : Fin 4 =>
    let x := s.pwr.halls[h]
    let on := fnOn s (.hall h)
    let m := hallSetting x
    let th := on && (x.limitGated || (decide (m < 3000) && decide (x.thermalMhz = m)))
    let pw := on && (s.pwr.currentGated || (decide (m < 3000) && decide (min x.powerMhz x.hallMhz = m)))
    (bitN th * 16 + bitN pw) * 2 ^ h.val)).foldl (· + ·) 0

/-- R537: an entry of an array register, or `next` where the offset names none. -/
def arrayReg (off base stride n : Nat) (entry : Nat → Nat) (next : Nat) : Nat :=
  match arrayIx off base stride n with
  | some i => entry i
  | none => next

/-- R551, R6: PWR_STATE CURRENT. -/
def powerCode (s : State) : Nat :=
  if s.pwr.cleared then 0 else
  match s.pwr.state with
  | .p1 => 1
  | .idle => 2
  | _ => 0

/-- R551: the PWR_ block's per-Hall registers. -/
def pwrHall (s : State) (h : Nat) (reg : Nat) : Nat :=
  if hh : h < 4 then
    let x := s.pwr.halls[h]
    match reg with
    | 0 => x.watts.toNat
    | 1 => (BitVec.ofInt 8 x.cellarC).toNat * 256 + (BitVec.ofInt 8 x.hallC).toNat
    | _ => if s.pwr.cleared then 0 else effectiveMhz s ⟨h, hh⟩
  else 0

/-- R541: AWN_CMP_CONTROL. -/
def cmpControlWord (c : Cmp) : Nat := bitN c.late * 512 + bitN c.fired * 256 + bitN c.alertEn * 2 + bitN c.enable

/-- The registers of the DEV_ and MBX_ blocks that are no pair (R538, R539). -/
def regDevMbx (s : State) (off : Nat) : Nat :=
  match off with
  | 0x0 => 0x03544856
  | 0x4 => s.dev.stepping.toNat
  | 0x10 => s.dev.fwVersion.toNat
  | 0x14 => 1
  | 0x18 => s.dev.planRange.toNat
  | 0x28 => s.dev.hallsOn.toNat * 16 + 15
  | 0x2C => s.dev.scratch.toNat
  | 0x10000 => bitN s.mbx.ready * 256 + jobCode s.mbx.job
  | 0x10008 => s.mbx.overrun.toNat
  | 0x1000C => s.mbx.retained.length
  | _ => arrayReg off 0x10100 4 16 (fun c =>
      let r := s.mbx.rings.toList.getD c {}
      r.tail.toNat * 256 + r.head.toNat) 0

/-- The registers of the AWN_ block that are no pair (R541). -/
def regAwn (s : State) (off : Nat) : Nat :=
  match off with
  | 0x20008 =>
    ((s.awn.parent.map (fun p => (portIx p).val)).getD 7) * 65536 + s.awn.hops.toNat * 256 +
      bitN s.awn.rackOk * 8 + bitN s.awn.isRoot * 4 + timeCode s.awn.tstate
  | 0x2000C => s.awn.rootPriority.toNat
  | 0x20018 => s.awn.theta.toNat
  | 0x2001C => s.awn.rtc.toNat
  | 0x20020 => bitN s.awn.syncRefused * 2 + bitN s.awn.syncArm
  | 0x20040 => (List.range 16).foldl (fun m i => m + bitN (s.awn.cmps.toList.getD i {}).fired * 2 ^ i) 0
  | _ =>
    let cmp := fun n => s.awn.cmps.toList.getD n {}
    arrayReg off 0x20108 0x20 16 (fun n => (cmp n).period.toNat)
      (arrayReg off 0x2010C 0x20 16 (fun n => cmpControlWord (cmp n))
        (arrayReg off 0x20110 0x20 16 (fun n => (cmp n).missed.toNat) 0))

/-- The registers of the SAF_ block that are no pair (R546). -/
def regSaf (s : State) (off : Nat) : Nat :=
  match off with
  | 0x30000 =>
    s.saf.pipesFenced.toNat * 65536 + s.saf.clerkFenced.toNat * 4096 + s.saf.hallsLost.toNat * 256 +
      bitN s.saf.corrected * 8 + bitN s.saf.detected * 4 + bitN s.saf.fatal * 2 + bitN s.saf.timeFault
  | 0x30004 => bitN s.saf.timeFaultEn * 2 + bitN s.saf.fatalEn
  | 0x30020 => s.saf.replays.toNat
  | 0x30024 =>
    let n := fun (st : FenceState) => (s.saf.stalls.filter (fun p => decide (p.2.state = st))).length
    n .retired * 65536 + n .fenced
  | _ => arrayReg off 0x30100 4 64 (fenceMap s.saf.stalls) (arrayReg off 0x30200 4 64 (fenceMap s.saf.cellars) 0)

/-- The registers of the TAL_, PWR_ and DBG_ blocks that are no pair (R549, R551, R553). -/
def regRest (s : State) (off : Nat) : Nat :=
  match off with
  | 0x40000 => bitN s.tal.snapBusy * 2
  | 0x40004 => s.tal.select.toNat
  | 0x50000 => bitN s.pwr.requestP1 * 256 + powerCode s
  | 0x50004 => s.pwr.cap.toNat
  | 0x50008 => s.pwr.mv.toNat
  | 0x5000C => s.pwr.ma.toNat
  | 0x50010 => s.pwr.watts.toNat
  | 0x50050 => if s.pwr.cleared then 0 else throttleBits s
  | 0x50054 => bitN s.pwr.therm * 8 + bitN s.pwr.capHit * 4 + bitN s.pwr.overvolt * 2 + bitN s.pwr.undervolt
  | 0x80000 => bitN s.dbg.locked * 2 + bitN (s.dbg.probeEn && !s.dbg.locked)
  | 0x80004 => bitN s.dbg.tapActive
  | _ =>
    arrayReg off 0x50020 4 4 (fun h => pwrHall s h 0)
      (arrayReg off 0x50030 4 4 (fun h => pwrHall s h 1)
        (arrayReg off 0x50040 4 4 (fun h => pwrHall s h 2)
          (arrayReg off 0x80100 4 32 (fun p =>
            let x := s.dbg.probes.toList.getD p (0, false)
            bitN x.2 * 65536 + x.1.toNat) 0)))

/-- R534 to R553: what an aligned 32-bit read of an offset of BAR0 returns now. Offsets that no map lists read as 0. -/
def regValue (s : State) (off : Nat) : W32 :=
  match pairValue s off with
  | some v => v.extractLsb' 0 32
  | none =>
    match pairValue s (off - 4) with
    | some v => v.extractLsb' 32 32
    | none =>
      BitVec.ofNat 32
        (if off < 0x20000 then regDevMbx s off
         else if off < 0x30000 then regAwn s off
         else if off < 0x40000 then regSaf s off
         else regRest s off)

/-- R7: what the next read of a _HI register returns: the captured half where a _LO read has captured it. -/
def hiValue (s : State) (off : Nat) : W32 := (sget none s.bus.captured off).getD (regValue s off)

/-- R7: a host read of an aligned register. The read of a _LO register captures both halves and returns the pair (R534); the next read
of its _HI register returns the captured half and uses it up. An aligned 64-bit read of a slot returns its bytes (R499, R510). -/
def pairLoRead (off : BitVec 21) (s : State) : State :=
  if !hostReaches s then s
  else if 0x100000 ≤ off.toNat then
    let v := if off.toNat < 0x180000 ∧ off.toNat % 8 = 0 then leNat (readBytes s.mbx.ringMem (off.toNat - 0x100000) 8) else 0
    s.withBus { s.bus with readData := BitVec.ofNat 64 v }
  else
    match pairValue s off.toNat with
    | some v =>
      s.withBus { s.bus with
        captured := sput none s.bus.captured (off.toNat + 4) (some (v.extractLsb' 32 32)), readData := v }
    | none =>
      s.withBus { s.bus with
        captured := sput none s.bus.captured off.toNat none, readData := (hiValue s off.toNat).setWidth 64 }

/-- PAIR_LO_READ (R7). -/
def execPairLoRead (off : BitVec 21) (s : State) : Result := .next (pairLoRead off s)

/-! ### The Tally snapshot and the telemetry window (R549, R550, R607) -/

/-- R550: SNAP starts a snapshot of every counter at this tick, unless one is busy. -/
def talSnap (v : W32) (s : State) : State :=
  if !hostReaches s || !v.getLsbD 0 || s.tal.snapBusy then s
  else s.withTal { s.tal with snapBusy := true, taking := some (s.awn.tick, s.tal.counts) }

/-- TAL_SNAP (R550). -/
def execTalSnap (v : W32) (s : State) : Result := .next (talSnap v s)

/-- R550: the snapshot completes. -/
def snapshotDone (s : State) : State :=
  match s.tal.taking with
  | none => s
  | some (t, c) => s.withTal { s.tal with snapBusy := false, taking := none, snapTick := t, snapshot := c }

/-- TALLY_SNAPSHOT_DONE (R550). -/
def execTallySnapshotDone (s : State) : Result := .next (snapshotDone s)

/-- R8, R12, R549: a host write of a half of TAL_WINDOW; the upper half commits the pair, and zero is refused. -/
def talWindowWrite (hi : Bool) (v : W32) (s : State) : State :=
  if !hostReaches s then s
  else if !hi then putHalf 0x40010 v s
  else
    let w : W64 := v ++ loHalf s 0x40010 (s.tal.window.extractLsb' 0 32)
    let s := dropHalf 0x40010 s
    if w = 0 then s else s.withTal { s.tal with window := w }

/-- TAL_WINDOW_WRITE (R607). -/
def execTalWindowWrite (hi : Bool) (v : W32) (s : State) : Result := .next (talWindowWrite hi v s)

/-! ### Probe pins (R553, R613) -/

/-- R613: a signal of the catalogue. -/
def signalOk (sig : W16) : Bool :=
  let cls := sig.toNat / 4096
  let i := sig.toNat % 4096
  match cls with
  | 0 => decide (i ≤ 1)
  | 1 => decide (i < 1024)
  | 2 => decide (i < 1024)
  | 3 => decide (i < 4)
  | 4 => decide (i < 24)
  | 5 => decide (i < 18)
  | 6 => decide (i < 4)
  | 7 => decide (i < 16)
  | _ => false

/-- R613: the level of a catalogue signal now; the pulses of classes 4 and 6 are momentary and the adder pipes of class 7 work within a
command, so that they stand low between commands (in part DESIGN CHOICE: log 102). -/
def probeSignal (s : State) (sig : W16) : Bool :=
  let i := sig.toNat % 4096
  let st := sget {} s.stalls i
  match sig.toNat / 4096 with
  | 0 => decide (i = 1)
  | 1 => st.busy
  | 2 => !st.busy && st.wait.isSome
  | 3 => if h : i < 4 then decide (edgesUpTo (effectiveMhz s ⟨i, h⟩) (3 * s.awn.tick.toNat) / 512 % 2 = 1) else false
  | 4 =>
    let t := getPort s (portOfIx (i / 4))
    match i % 4 with
    | 0 => decide (t.state = .up)
    | 3 => t.replay.any (fun f => decide (1 < f.sends))
    | _ => false
  | 5 =>
    match i with
    | 0 => decide (s.awn.tick.toNat % 1000 = 0)
    | 1 => decide (s.awn.tick.toNat % 1000000000 = 0)
    | n + 2 => (s.awn.cmps.toList.getD n {}).fired
  | _ => false

/-- R553, R554, R613: the PRB pins take the levels of their signals, inverted where INVERT is set; all are low while PROBE_EN is 0. -/
def drivePins (s : State) : State :=
  let level := fun (p : Nat) =>
    let x := s.dbg.probes.toList.getD p (0, false)
    probeSignal s x.1 != x.2
  let on := s.dbg.probeEn && !s.dbg.locked
  s.withDbg { s.dbg with pins :=
    if on then (List.range 32).foldl (fun m p => if level p then m ||| (1 : W32) <<< p else m) 0 else 0 }

/-- R613: a write of DBG_PROBE_SELECT; a reserved class or instance leaves the register unchanged. -/
def setProbe (p : Fin 32) (v : W32) (s : State) : State :=
  let sig : W16 := v.extractLsb' 0 16
  if signalOk sig then drivePins (s.withDbg { s.dbg with probes := s.dbg.probes.set p (sig, v.getLsbD 16) }) else s

/-- DBG_PROBE_SELECT (R613). -/
def execDbgProbeSelect (p : Fin 32) (v : W32) (s : State) : Result := .next (if hostReaches s then setProbe p v s else s)

/-! ### Host writes (R4, R503, R534, R540) -/

/-- R351, R541: a write of AWN_SYNC_CONTROL. -/
def writeSyncControl (v : W32) (s : State) : State :=
  let arm := v.getLsbD 0
  s.withAwn { s.awn with
    syncArm := arm, armTick := if arm && !s.awn.syncArm then some s.awn.tick else (if arm then s.awn.armTick else none),
    syncRefused := afterW1c s.awn.tick s.awn.syncRefused (v.getLsbD 1) s.awn.refusedAt }

/-- R8, R544: a write of AWN_SYNC_VALUE_HI commits the pair; the pair before the tick's first commit is kept. -/
def writeSyncValue (v : W32) (s : State) : State :=
  let w : W64 := v ++ loHalf s 0x20030 (s.awn.syncValue.extractLsb' 0 32)
  let prev := match s.awn.syncPrev with
    | some (t, x) => if t = s.awn.tick then some (t, x) else some (s.awn.tick, s.awn.syncValue)
    | none => some (s.awn.tick, s.awn.syncValue)
  let s := dropHalf 0x20030 s
  s.withAwn { s.awn with syncValue := w, syncPrev := prev }

/-- R352: a write of AWN_CMP_PERIOD: 0 or 1,000 and more; any other value keeps the previous one. -/
def writePeriod (n : Fin 16) (v : W32) (s : State) : State :=
  if n.val < 8 ∨ (v ≠ 0 ∧ v.toNat < 1000) then s
  else s.withAwn { s.awn with cmps := s.awn.cmps.set n { s.awn.cmps[n] with period := v } }

/-- R5, R546: a write of SAF_STATUS clears the W1C bits written 1. The write stands in an XCLK cycle of its own, after the setting of a bit
(DESIGN CHOICE: log 101). -/
def writeSafStatus (v : W32) (s : State) : State :=
  settleAlert (s.withSaf { s.saf with
    corrected := s.saf.corrected && !v.getLsbD 3, detected := s.saf.detected && !v.getLsbD 2,
    fatal := s.saf.fatal && !v.getLsbD 1, timeFault := s.saf.timeFault && !v.getLsbD 0 })

/-- R5, R551: a write of PWR_EVENTS, in an XCLK cycle of its own (DESIGN CHOICE: log 101). -/
def writePwrEvents (v : W32) (s : State) : State :=
  s.withPwr { s.pwr with
    therm := s.pwr.therm && !v.getLsbD 3, capHit := s.pwr.capHit && !v.getLsbD 2,
    overvolt := s.pwr.overvolt && !v.getLsbD 1, undervolt := s.pwr.undervolt && !v.getLsbD 0 }

/-- R541, R353: a write of a register of comparator n, by its offset within the comparator. -/
def writeCmp (n : Nat) (reg : Nat) (v : W32) (s : State) : State :=
  if h : n < 16 then
    match reg with
    | 0 => cmpTargetWrite ⟨n, h⟩ false v s
    | 4 => cmpTargetWrite ⟨n, h⟩ true v s
    | 8 => writePeriod ⟨n, h⟩ v s
    | 12 => cmpControlWrite ⟨n, h⟩ v s
    | _ => s
  else s

/-- R4, R534 to R553: an aligned 32-bit host write at an offset of the register blocks. RO registers and offsets that no
map lists ignore it (in part DEDUCED: log 50). -/
def write32 (off : Nat) (v : W32) (s : State) : State :=
  match off with
  | 0x2C => s.withDev { s.dev with scratch := v }
  | 0x10004 => doorbell v s
  | 0x10008 => s.withMbx { s.mbx with overrun := s.mbx.overrun &&& ~~~(v.extractLsb' 0 16) }
  | 0x2000C => rootPriorityWrite v s
  | 0x2001C => s.withAwn { s.awn with rtc := v, rtcTicks := 0 }
  | 0x20020 => writeSyncControl v s
  | 0x20030 => putHalf 0x20030 v s
  | 0x20034 => writeSyncValue v s
  | 0x30000 => writeSafStatus v s
  | 0x30004 => settleAlert (s.withSaf { s.saf with timeFaultEn := v.getLsbD 1, fatalEn := v.getLsbD 0 })
  | 0x40000 => talSnap v s
  | 0x40004 => s.withTal { s.tal with select := v.extractLsb' 0 10 }
  | 0x40010 => talWindowWrite false v s
  | 0x40014 => talWindowWrite true v s
  | 0x50000 => writeRequested v s
  | 0x50004 => writeCap v s
  | 0x50054 => writePwrEvents v s
  | 0x80000 => drivePins (s.withDbg { s.dbg with probeEn := v.getLsbD 0 })
  | _ =>
    if 0x20100 ≤ off ∧ off < 0x20300 then writeCmp ((off - 0x20100) / 0x20) ((off - 0x20100) % 0x20) v s
    else
      match arrayIx off 0x80100 4 32 with
      | some p => if h : p < 32 then setProbe ⟨p, h⟩ v s else s
      | none => s

/-- R499: the slot that a byte of the descriptor rings belongs to. -/
def slotOfOffset (o : Nat) : CmdRef := { ch := ⟨o / 0x8000 % 16, Nat.mod_lt _ (by decide)⟩, slot := BitVec.ofNat 8 (o / 0x80) }

/-- R503: bytes written to the descriptor rings; a slot that the module owns ignores them. -/
def writeRing (o : Nat) : Bytes → State → State
  | [], s => s
  | b :: t, s =>
    writeRing (o + 1) t
      (if slotOwned s (slotOfOffset o) then s
       else s.withMbx { s.mbx with ringMem := writeByte s.mbx.ringMem o b })

/-- R4, R499, R534: a host write of 4 or 8 bytes at an offset of BAR0 (in part DEDUCED: log 50). -/
def registerWrite (off : BitVec 21) (width : Nat) (v : W64) (s : State) : State :=
  let o := off.toNat
  if !hostReaches s then s
  else if 0x100000 ≤ o then
    if o + width ≤ 0x180000 ∧ width ≤ 8 then writeRing (o - 0x100000) (natLe width v.toNat) s else s
  else if width = 4 ∧ o % 4 = 0 then write32 o (v.extractLsb' 0 32) s
  else if width = 8 ∧ o % 8 = 0 ∧ (pairValue s o).isSome then
    write32 (o + 4) (v.extractLsb' 32 32) (write32 o (v.extractLsb' 0 32) s)
  else s

/-- REGISTER_WRITE (R4). -/
def execRegisterWrite (off : BitVec 21) (width : Nat) (v : W64) (s : State) : Result := .next (registerWrite off width v s)

end Sys2Proof.Machine
end

