-- ==== Sys2Proof/Machine/Debug.lean ====
section
/-! DEFINITION. Telemetry windows (R607, R608), the Tally's count of a tick (R603 to R605), JTAG and the instrument
network (R615 to R618), the Logbook reader (R496) and the SPI NOR writer (R563). -/

namespace Sys2Proof.Machine

/-! ### The Tally (R603 to R606) -/

/-- R311, R47: a stall that holds no role of the placement is UNPLACED. -/
def stallPlaced (s : State) (i : Nat) : Bool :=
  match s.load.phys with
  | some m => m.roles.any (fun r => decide (r.stall.val = i))
  | none => false

/-- R429, R605: a stall of this module's update clauses, which runs the standby update while one is under way. -/
def updatesStandby (s : State) (i : Nat) : Bool :=
  s.snap.updating.isSome &&
  (match s.load.prog, s.load.phys with
    | some p, some m =>
      let clauses := (p.sentences.filter (fun x => x.kind = .update)).flatMap (·.clauses)
      m.roles.any (fun r => decide (r.stall.val = i) && decide (r.clause ∈ clauses))
    | _, _ => false)

/-- R430: this member's mirror of the step waits for the partner to take it. -/
def mirrorWaits (s : State) : Bool := s.step.run.isSome && decide (0 < s.step.mirrored) && !s.step.mirrorAcked

/-- R47, R395, R429, R430, R604, R605: the cause to which a nominal cycle of a stall counts. `edge` says that the cycle holds an ACLK
edge. -/
def tallyCause (s : State) (h : Fin 4) (i : Nat) (edge : Bool) : Nat :=
  let f := (sget {} s.saf.stalls i).state
  let x := s.pwr.halls[h]
  if f = .fenced ∨ f = .retired then 12
  else if !stallPlaced s i && !underTest s i then 13
  else if !edge then
    (if x.limitGated || (decide (x.thermalMhz = hallSetting x) && decide (x.thermalMhz < 3000)) then 11 else 10)
  else
    let st := sget {} s.stalls i
    if st.busy || underTest s i || updatesStandby s i then 0
    else match st.wait with
      | some w => w.val
      | none => if mirrorWaits s then 5 else if s.site.boundary ≠ 0 then 9 else 8

/-- R603: whether nominal cycle n holds an ACLK edge. -/
def hasEdge (mhz n : Nat) : Bool := decide (edgesUpTo mhz n < edgesUpTo mhz (n + 1))

/-- R603: one nominal cycle added to a counter, which stops at its maximum and sets SATURATED. -/
def countCycle (i cause : Nat) (t : Tal) : Tal :=
  let k := 14 * i + cause
  let c := add48 (sget 0 t.counts k) 1
  let w := 14 * (i / 256) + cause
  { t with
    counts := sput 0 t.counts k c, winCounts := sput 0 t.winCounts w (sget 0 t.winCounts w + 1),
    saturated := if c.toNat = 2 ^ 48 - 1 ∧ i ∉ t.saturated then t.saturated ++ [i] else t.saturated }

/-- R603, R604: one nominal cycle of every stall of a Hall that is ON. -/
def tallyHall (s : State) (h : Fin 4) (cycle : Nat) (t : Tal) : Tal :=
  if !fnOn s (.hall h) then t
  else
    let edge := hasEdge (effectiveMhz s h) cycle
    (List.range 256).foldl (fun t j => let i := 256 * h.val + j; countCycle i (tallyCause s h i edge) t) t

/-- R603: the three nominal cycles of one tick, in every Hall (in part DESIGN CHOICE: log 8). -/
def tallyTick (s : State) : State :=
  let c := 3 * s.awn.tick.toNat
  s.withTal ([0, 1, 2].foldl (fun t j => [0, 1, 2, 3].foldl (fun t h => tallyHall s h (c + j) t) t) s.tal)

/-! ### Telemetry windows (R607, R608) -/

/-- R608: the record of the current window. -/
def windowRecord (s : State) : WindowRec :=
  let hs := (List.ofFn (fun h : Fin 4 => h)).filter (fun h => fnOn s (.hall h))
  let top := fun (f : HallPower → Int) => s.pwr.halls.toList.foldl (fun m x => max m (f x)) 0
  { opened := s.tal.opened,
    halls := hs.map (fun h => (h.val, (List.range 14).map (fun c => sget 0 s.tal.winCounts (14 * h.val + c)))),
    energyMj := s.tal.winEnergy / 1000000000, peakW := s.tal.winPeak, hallC := top (·.hallC), cellarC := top (·.cellarC),
    leastAclk := s.tal.winAclk, lost := s.log.lostWindow }

/-- R607, R608: the window's record enters the ring of 64, and the next window runs to the least multiple of the length
that exceeds this close. -/
def windowClose (s : State) : State :=
  if s.pwr.phase ≠ .done ∨ s.awn.tick.toNat < s.tal.closes.toNat then s
  else
    let r := windowRecord s
    let b := s.tal.closes
    let ring := s.tal.ring ++ [r]
    let s := s.withLog { s.log with lostWindow := 0 }
    s.withTal { s.tal with
      ring := if 64 < ring.length then ring.tail else ring, opened := b,
      closes := BitVec.ofNat 64 (nextClose b.toNat s.tal.window.toNat), winCounts := [], winEnergy := 0, winPeak := 0,
      winAclk := 3000 }

/-- TELEMETRY_WINDOW_CLOSE (R608). -/
def execTelemetryWindowClose (s : State) : Result := .next (windowClose s)

/-! ### JTAG (R615, R616, R618) -/

/-- R615: an instruction is selected; the TAP is outside Test-Logic-Reset (in part DEDUCED: log 33). -/
def selectIr (i : Jtag) (s : State) : State :=
  if s.awn.on then s.withDbg { s.dbg with ir := i, tapActive := true } else s

/-- R615: the identification register: STEPPING modulo 16, part 0x0354, manufacturer 0x4B3 and a 1. -/
def idcodeValue : W32 := (Config.stepping.extractLsb' 0 4) ++ (0x0354967 : BitVec 28)

/-- R615, R616: EXTEST, available only in NO_HELLO: the module goes out of service until the next start-up. In any other
job state the code acts as BYPASS (in part DEDUCED: log 33) (in part DEDUCED: log 108). -/
def extest (s : State) : State :=
  if s.mbx.job = .noHello then
    let s := selectIr .extest s
    if s.awn.on then s.withDbg { s.dbg with extest := true } else s
  else selectIr .bypass s

/-- EXTEST (R616). -/
def execExtest (s : State) : Result := .next (extest s)

/-- R615: SAMPLE/PRELOAD shifts out the pins and preloads the boundary register. -/
def samplePreload (preload pins : BitVec 64) (s : State) : State :=
  if s.awn.on = false then s
  else
    let s := selectIr .samplePreload s
    emit (.tdo (bytesOf 64 pins 8)) (s.withDbg { s.dbg with boundary := preload })

/-- SAMPLE_PRELOAD (R615). -/
def execSamplePreload (preload pins : BitVec 64) (s : State) : Result := .next (samplePreload preload pins s)

/-- IDCODE (R615). -/
def execIdcode (s : State) : Result :=
  .next (if s.awn.on then emit (.tdo (bytesOf 32 idcodeValue 4)) (selectIr .idcode s) else s)

/-- IJTAG_ACCESS (R617). -/
def execIjtagAccess (s : State) : Result := .next (selectIr .ijtag s)

/-- R615: the codes of the other instructions. -/
def otherCodes : List Byte := [0x00, 0x01, 0x02, 0x10]

/-- BYPASS (R615): 0xFF, or any code that names no other instruction. -/
def execBypass (code : Byte) (s : State) : Result :=
  .next (if code ∈ otherCodes then s else selectIr .bypass s)

/-- TEST_LOGIC_RESET (R618): IDCODE is selected and TAP_ACTIVE reads 0. -/
def execTestLogicReset (_trst : Bool) (s : State) : Result :=
  .next (s.withDbg { s.dbg with ir := .idcode, tapActive := false })

/-! ### The instrument network (R617, R496, R563) -/

/-- R584, R617: the domain of a segment is powered. -/
def segmentPowered (s : State) (g : Fin 5) : Bool :=
  match g.val with
  | 0 => s.awn.on
  | 1 => s.pwr.pg || decide (s.pwr.state = .sleep)
  | 2 => s.pwr.pg || decide (s.pwr.state = .sleep)
  | 3 => s.pwr.pg
  | _ => fnOn s (.hall 0) || fnOn s (.hall 1) || fnOn s (.hall 2) || fnOn s (.hall 3)

/-- R617: a segment reads as open. -/
def segmentOpen (s : State) (g : Fin 5) : Bool := s.dbg.segments.getLsbD g.val && segmentPowered s g

/-- R575, R617: a segment that LOCKED keeps closed. -/
def segmentLocked (s : State) (g : Fin 5) : Bool := s.dbg.locked && decide (2 ≤ g.val)

/-- R617: a write of a segment-insertion bit. -/
def segmentInsert (g : Fin 5) (insert : Bool) (s : State) : State :=
  let bit : BitVec 5 := 1 <<< g.val
  if s.dbg.ir ≠ .ijtag ∨ segmentPowered s g = false then s
  else if insert then
    (if segmentLocked s g then s.withDbg { s.dbg with segments := s.dbg.segments &&& ~~~bit }
     else s.withDbg { s.dbg with segments := s.dbg.segments ||| bit })
  else s.withDbg { s.dbg with segments := s.dbg.segments &&& ~~~bit }

/-- SEGMENT_INSERT (R617). -/
def execSegmentInsert (g : Fin 5) (insert : Bool) (s : State) : Result := .next (segmentInsert g insert s)

/-- R487, R496: what the Logbook reader addresses: event storage in its 64 MiB, then 8 bytes of the freeze table and 8 of
the sequence reserve (in part DESIGN CHOICE: log 49). -/
def instrumentBytes (s : State) (addr : Nat) : Bytes :=
  if addr < 0x4000000 then
    let r := addr / 64
    match (sget [] s.log.segs (r / 65536))[r % 65536]? with
    | some x => logBytes x
    | none => List.replicate 64 0
  else if addr < 0x4000008 then natLe 8 ((List.range 16).foldl (fun m i => m + (if i ∈ s.log.frozen then 2 ^ i else 0)) 0)
  else natLe 8 s.log.reserve.toNat

/-- R496: the Logbook reader in segment 0, in every power state (in part DESIGN CHOICE: log 49). -/
def instrumentRead (addr : Nat) (s : State) : State :=
  if s.dbg.ir = .ijtag ∧ segmentOpen s 0 = true then
    let b := instrumentBytes s addr
    emit (.tdo b) (s.withDbg { s.dbg with instrument := b })
  else s

/-- LOGBOOK_INSTRUMENT_READ (R496): the rest of the control region cannot be read (in part DEDUCED: log 86). -/
def execLogbookInstrumentRead (addr : Nat) (s : State) : Result :=
  if 0x4000010 ≤ addr then .fault (.noSuchAddress addr) else .next (instrumentRead addr s)

/-- R563: the SPI instrument writes the NOR, in recovery only. -/
def spiNorWrite (addr : BitVec 28) (b : Bytes) (s : State) : State :=
  if s.pwr.phase = .recovery ∧ s.dbg.ir = .ijtag ∧ segmentOpen s 1 = true then
    s.withSec { s.sec with nor := writeBytes s.sec.nor addr.toNat (b.take (0x10000000 - addr.toNat)) }
  else s

/-- SPI_NOR_WRITE (R563). -/
def execSpiNorWrite (addr : BitVec 28) (b : Bytes) (s : State) : Result := .next (spiNorWrite addr b s)

end Sys2Proof.Machine
end

