-- ==== Sys2Proof/Machine/Verb.lean ====
section
/-! DEFINITION. The Verb unit (R115 to R143): spans, the thirty-one instructions, PUT, summaries and decisions. Each
instruction runs for every element of the stall's span. -/

namespace Sys2Proof.Machine

/-! ### Lanes -/

/-- What one lane produces: a word and what R132 counts of it. -/
structure LaneOut where
  word : W32
  inv : Bool := false
  ovf : Bool := false
  deriving DecidableEq, Repr

/-- Whether A32 bits are an infinity. -/
def isInf32 (x : W32) : Bool := isNonfinite32 x && !isNan32 x

/-- R132: a floating-point result with its INVALID and OVERFLOW events. -/
def fpOut (ops : List W32) (y : W32) : LaneOut :=
  { word := y, inv := isNan32 y && !ops.any isNan32, ovf := isInf32 y && !ops.any isNonfinite32 }

/-- The first, second and third operand of a lane. -/
def op1 (l : List W32) : W32 := l.getD 0 0
def op2 (l : List W32) : W32 := l.getD 1 0
def op3 (l : List W32) : W32 := l.getD 2 0

/-- An instruction over all elements of a span (in part DESIGN CHOICE: log 29). -/
def runLanes (s : State) (st : Stall) (sp : Span) (srcs : List (BitVec 6)) (f : Nat → List W32 → LaneOut) : List LaneOut :=
  (List.range (spanSize sp)).map (fun e => f e (srcs.map (fun q => (operand s st sp q e).1)))

/-- R117: the registers after an instruction with destination d. -/
def writeDest (regs : List (Vector W32 32)) (d : BitVec 5) (outs : List LaneOut) : List (Vector W32 32) :=
  List.zipWith (fun v o => v.set d.toNat o.word d.isLt) regs outs

/-! ### Ends of instructions and spans -/

/-- The inputs, by number, that an instruction names. -/
def inputsOf (srcs : List (BitVec 6)) : List Nat :=
  ((srcs.filter (fun q => decide (32 ≤ q.toNat) && decide (q.toNat < 40))).map (fun q => q.toNat - 32)).eraseDups

/-- R120, R132: decodings to ±∞ of the inputs that this instruction reads first (in part DESIGN CHOICE: log 13). -/
def decodeOverflows (st : Stall) (sp : Span) (srcs : List (BitVec 6)) : Nat :=
  ((inputsOf srcs).filter (fun j => decide (j ∉ sp.decoded))).foldl
    (fun n j => n + ((List.range (spanSize sp)).filter (fun e => (inputWord st sp j e).2)).length) 0

/-- R121: whether a later instruction of the verb names ACCk. -/
def accNamedLater (sp : Span) (k : Nat) : Bool :=
  (sp.header.instrs.drop (sp.pc + 1)).any (fun w => (iwSources w).any (fun q => decide (q.toNat = 40 + k)))

/-- R121, R31: the buffers of accumulator operands that no later instruction names return to FREE. -/
def releaseAccs (sp : Span) (srcs : List (BitVec 6)) (bufs : Vector Buf 4) : Vector Buf 4 :=
  [0, 1].foldl (fun bs k =>
    if srcs.any (fun q => decide (q.toNat = 40 + k)) && !accNamedLater sp k then
      match sp.init.accs[k]? with
      | some b => bs.set b {}
      | none => bs
    else bs) bufs

/-- The flits of a queue after n bits from `pos` have been taken: what remains, the new position and how many slots
became free; `k` bounds the flits. -/
def popBits : Nat → List StreamFlit → Nat → List StreamFlit × Nat × Nat
  | 0, q, pos => (q, pos, 0)
  | _ + 1, [], pos => ([], pos, 0)
  | k + 1, f :: t, pos =>
    if 8 * f.bytes.length ≤ pos then
      let (q, p, n) := popBits k t (pos - 8 * f.bytes.length)
      (q, p, n + 1)
    else (f :: t, pos, 0)

/-- R38: a credit for a freed queue slot returns to the stream's producer on VC2: the stream and the producer. -/
def returnCredit (i : Fin 1024) (c : Nat × Nat) (s : State) : State := aisleSend i .vc2 (.credit c.1 i.val) [c.2] s

/-- n bits of a stream consumed: first of the bytes already taken out of their slots. What is left of the stream, and how many
slots became free. -/
def consumeBits (q : InStream) (n : Nat) : InStream × Nat :=
  let p := q.pos + n
  let d := min q.taken.length (p / 8)
  let taken := q.taken.drop d
  if taken.isEmpty then
    let (rest, pos, freed) := popBits q.queue.length q.queue (p - 8 * d)
    ({ q with taken := [], queue := rest, pos := pos }, freed)
  else ({ q with taken := taken, pos := p - 8 * d }, 0)

/-- R38, R123: the end of a span takes its elements from queue INj and returns a credit for each freed slot. -/
def popQueue (sp : Span) (j : Nat) (x : Stall × List (Nat × Nat)) : Stall × List (Nat × Nat) :=
  match sp.header.ins.getD j none with
  | none => x
  | some w =>
    if sdQueue w && decide (j ∈ sp.decoded) then
      let id := inQueue sp j
      let (q, n) := consumeBits (sget {} x.1.ins id) (fmtBits (sdFmt w) * spanSize sp)
      let q := if sdMx w then { q with scales := q.scales.drop (spanBlocks sp) } else q
      ({ x.1 with ins := sput {} x.1.ins id q }, x.2 ++ List.replicate n (id, q.producer))
    else x

/-- R38, R39: an instruction that lacks elements of queue INj takes those that have arrived out of their slots, whose credits
return, so that the rest of the span can follow. -/
def pullQueue (sp : Span) (j : Nat) (x : Stall × List (Nat × Nat)) : Stall × List (Nat × Nat) :=
  match sp.header.ins.getD j none with
  | none => x
  | some w =>
    let id := inQueue sp j
    let q := sget {} x.1.ins id
    if sdQueue w && decide (q.queue ≠ []) && decide (8 * (queueBytes q).length < q.pos + fmtBits (sdFmt w) * spanSize sp) then
      ({ x.1 with ins := sput {} x.1.ins id { q with taken := queueBytes q, queue := [] } },
        x.2 ++ List.replicate q.queue.length (id, q.producer))
    else x

/-- R137, R97: the value of a summary slot on a stall when its last span ends, in 64 bits; 0 for a MAX or MIN that took no
element, of which the spec states no value (DESIGN CHOICE: log 89). -/
def slotValue (kind : SlotKind) (a : SlotAcc) : W64 :=
  match kind with
  | .sum => (cascadeMerge a.cascade).setWidth 64
  | .max | .min => (a.extreme.getD 0).setWidth 64
  | .nfc => a.nfc

/-- R106, R311: the role of the clause that a stall runs; the stall's own number where no placement names one. -/
def stallRole (s : State) (i : Fin 1024) (clause : Nat) : Nat :=
  match s.load.phys.bind (fun m => m.roles.find? (fun r => decide (r.stall = i) && decide (r.clause = clause))) with
  | some r => r.role
  | none => i.val

/-- R131: the streams of a verb's draw slots stand past the tensor once its spans have ended; the counter is the same from
whichever stall it is set. -/
def passDraws (sp : Span) (s : State) : State :=
  (List.range 4).foldl (fun s k =>
    match sp.header.draws.getD k none with
    | some id => passRange s id (sp.drawBase.getD k 0 + BitVec.ofNat 64 sp.init.elems)
    | none => s) s

/-- R133, R138: a verb's last span on a stall: its counters join the verb's totals, its summary partials leave for
the Clerk under the stall's role, and its draw streams stand past the tensor (R131). -/
def endVerb (i : Fin 1024) (sp : Span) (s : State) : State :=
  let st := getStall s i
  let v := sp.init.verb
  let role := stallRole s i st.ctx
  let partials := (List.range 4).filterMap (fun k =>
    match sp.header.slots.getD k none with
    | some kind => some (Out.summaryPartial v k role (slotValue kind (sget {} st.slots (4 * v + k))))
    | none => none)
  let s := verbTotal v (sget {} st.sticky v) s
  let s := setStall s i
    { st with sticky := sput {} st.sticky v {},
              slots := (List.range 4).foldl (fun t k => sput {} t (4 * v + k) {}) st.slots }
  emits partials (passDraws sp s)

/-- The end of a span: queue elements are taken, the span leaves the unit, and the last span of the tensor ends the
verb on this stall and, with the parts of a ring step written, the ring step (R57). -/
def endSpan (i : Fin 1024) (sp : Span) (s : State) : State :=
  let st := getStall s i
  let (st', credits) := (List.range 8).foldl (fun x j => popQueue sp j x) (st, [])
  let s := credits.foldl (fun s c => returnCredit i c s) (setStall s i { st' with span := none, busy := false })
  if sp.init.last then ringStep st.ctx (endVerb i sp s) else s

/-- The end of an instruction: counters of R132, accumulators of R121, and the next instruction or the span's end. -/
def endInstr (i : Fin 1024) (sp : Span) (srcs : List (BitVec 6)) (regs : List (Vector W32 32)) (inv ovf nf : Nat)
    (s : State) : State :=
  let st := getStall s i
  let v := sp.init.verb
  let sp' := { sp with regs := regs, pc := sp.pc + 1, decoded := (sp.decoded ++ inputsOf srcs).eraseDups }
  let s := setStall s i
    { st with sticky := sput {} st.sticky v (addSticky (sget {} st.sticky v) inv ovf nf),
              bufs := releaseAccs sp srcs st.bufs, span := some sp', wait := none, busy := true }
  if sp.pc + 1 < sp.header.instrs.length then s else endSpan i sp' s

/-- R39, R123: an instruction waits; what has arrived of the queue operands it names has left its slots. -/
def instrWaits (i : Fin 1024) (sp : Span) (srcs : List (BitVec 6)) (cause : Fin 14) (s : State) : State :=
  let (st, credits) := (inputsOf srcs).foldl (fun x j => pullQueue sp j x) (getStall s i, [])
  stallWaits i cause (credits.foldl (fun s c => returnCredit i c s) (setStall s i st))

/-- R134: instruction w of the span in progress, run by `f`: with no span, or when the verb's next instruction is another, nothing
happens; an operand that is not ready makes the stall wait (in part DESIGN CHOICE: log 29). -/
def runInstr (i : Fin 1024) (w : W64) (srcs : List (BitVec 6)) (f : Stall → Span → State → State) (s : State) : State :=
  let st := getStall s i
  match st.span with
  | none => s
  | some sp =>
    if runsNext sp w then
      match operandsWait s st sp srcs with
      | some cause => instrWaits i sp srcs cause s
      | none => f st sp s
    else s

/-- An instruction that writes a register (in part DESIGN CHOICE: log 29). -/
def aluInstr (i : Fin 1024) (w : W64) (d : BitVec 5) (srcs : List (BitVec 6)) (f : Nat → List W32 → LaneOut) (s : State) : State :=
  runInstr i w srcs (fun st sp s =>
    let outs := runLanes s st sp srcs f
    endInstr i sp srcs (writeDest sp.regs d outs) (outs.filter (·.inv)).length
      ((outs.filter (·.ovf)).length + decodeOverflows st sp srcs) 0 s) s

/-! ### Span start -/

/-- R138, R142: the sentences of a clause run: true unless a decision's successor lists name them and it has chosen the other
list; none while no decision that names them has run. -/
def clauseChosen (s : State) (clause : Nat) : Option Bool :=
  match s.load.prog with
  | none => some true
  | some p =>
    let mine := (p.sentences.zipIdx.filter (fun x => decide (clause ∈ x.1.clauses))).map (·.2)
    let names := p.decisions.zipIdx.filter (fun d => mine.any (fun t => decide (t ∈ d.1.thenList ++ d.1.elseList)))
    if names.isEmpty then some true
    else
      let chosen := s.job.decided.any (fun x => match p.decisions[x.1]? with
        | some d => mine.any (fun t => decide (t ∈ (if x.2 then d.thenList else d.elseList)))
        | none => false)
      if chosen then some true
      else if names.all (fun d => s.job.decided.any (fun x => decide (x.1 = d.2))) then some false
      else none

/-- R159, R279: the experts that a clause updates, each with whether its layer's UNVISITED is HOLD. -/
def updatedExperts (s : State) (clause : Nat) : List (ExpertRef × Bool) :=
  match s.load.prog with
  | none => []
  | some p => p.layers.flatMap (fun l => (l.updates.filter (fun u => u.2 = clause)).map (fun u =>
      ({ layer := rtLayer l.desc, expert := u.1 }, rtHold l.desc)))

/-- R163: an expert that the running step has visited, by the directory after the visit all-reduce. -/
def visited (s : State) (x : ExpertRef) : Bool :=
  s.ledger.dir.any (fun e => decide (e.layer = x.layer) && decide (e.expert = x.expert) && decide (e.lastVisit = runningEpoch s))

/-- R165: a clause that would update an unvisited expert of a HOLD layer. -/
def heldBack (s : State) (clause : Nat) : Bool := (updatedExperts s clause).any (fun x => x.2 && !visited s x.1)

/-- R254: the update of an expert waits for the visit all-reduce. -/
def countsAwaited (s : State) (clause : Nat) : Bool := decide (updatedExperts s clause ≠ []) && !s.ledger.counted

/-- R261, R280: an expert of which this module is a replica whose copy of the home's state is not complete. -/
def copyLacks (s : State) (x : ExpertRef) : Bool :=
  s.ledger.dir.any (fun e => decide (e.layer = x.layer) && decide (e.expert = x.expert) && decide (ownSeg s ∈ e.replicas)) &&
  !s.ledger.replicas.any (fun r => decide (r.1 = x) && decide (r.2.1 = ownSeg s))

/-- R261: the update of a replica waits for its copy of the home's state. -/
def copyAwaited (s : State) (clause : Nat) : Bool := (updatedExperts s clause).any (fun x => copyLacks s x.1)

/-- R137: the rows of a tensor that this module holds: the first, and how many. -/
def heldRows (s : State) (tid : W64) (row : Nat) : Nat × Nat :=
  match findTensor s tid with
  | none => (0, 0)
  | some t =>
    let first := match heldSections s t with
      | [] => 0
      | i :: _ => (sectionDesc t i 0).base
    (first / max 1 row, (heldElems s tid (dimsElems t.dims) + row - 1) / max 1 row)

/-- R137: the spans of a tensor of n 64-row spans that role j of r takes: the first, and one past the last. -/
def roleSpans (j n r : Nat) : Nat × Nat := (j * n / max 1 r, (j + 1) * n / max 1 r)

/-- R137: a span of a verb with a SUM slot belongs to the stall role that runs it. -/
def roleHolds (s : State) (i : Fin 1024) (st : Stall) (h : VerbHeader) (v : SpanInit) : Bool :=
  match s.load.plan.bind (fun p => p.clauses[st.ctx]?) with
  | none => true
  | some c =>
    if some SlotKind.sum ∈ h.slots ∧ 0 < (heldRows s (v.outTids.getD 0 0) v.rowLen).2 then
      let (r0, n) := heldRows s (v.outTids.getD 0 0) v.rowLen
      let (a, b) := roleSpans (stallRole s i st.ctx) ((n + 63) / 64) c.stalls
      decide (64 * a + r0 ≤ v.rowBase) && decide (v.rowBase < 64 * b + r0)
    else true

/-- R26, R44, R116, R137: the span is one that the stall's clause cuts: its verb, at most 64 rows by 32 columns, at a multiple
of 64 rows unless it is an accumulator's tile, and of the stall's own role. -/
def spanOk (s : State) (i : Fin 1024) (h : VerbHeader) (v : SpanInit) : Bool :=
  let st := getStall s i
  !underTest s i.val && decide (v.rows ≤ 64) && decide (v.cols ≤ 32) && (decide (v.accs ≠ []) || decide (v.rowBase % 64 = 0)) &&
  (match stallClause s st with
    | some c => decide (c.verb = some v.verb)
    | none => true) && roleHolds s i st h v

/-- R131: the run of a verb over a tensor that a span belongs to: the one in progress, or a new one with the streams' counters
of now when the stall has already started it or the span is of another use of the verb. -/
def verbRun (s : State) (i : Fin 1024) (h : VerbHeader) (v : SpanInit) : VerbRun :=
  let fresh : VerbRun :=
    { use := v.use, stalls := [i.val],
      bases := (List.range 4).map (fun k => match h.draws.getD k none with
        | some id => drawCounter s id
        | none => 0) }
  match sget none s.job.verbRuns v.verb with
  | none => fresh
  | some r =>
    if decide (r.use ≠ v.use) || (v.first && decide (i.val ∈ r.stalls)) then fresh
    else { r with stalls := (r.stalls ++ [i.val]).eraseDups }

/-- R117, R124: a span as it starts: registers clear and P0 to P7 latched. -/
def newSpan (s : State) (h : VerbHeader) (v : SpanInit) (bases : List W64) : Span :=
  { init := v, header := h, regs := List.replicate (v.rows * v.cols) (Vector.replicate 32 0),
    params := (List.range 8).map (fun k => sget none s.job.params (8 * v.verb + k)),
    decoded := [], drawBase := bases, pc := 0 }

/-- R119, R124, R131, R140: a span starts on a stall: the draw bases are those of the tensor's first span on whichever stall. A
stall whose span has not ended, a verb the program does not hold, or a span that the clause does not cut starts none; a
sentence that a decision has not chosen does not run, and waits while the decision has not run; an attention clause waits for
its next block (R58); the update verb does not run on an unvisited expert of a HOLD layer (R165). -/
def startSpan (i : Fin 1024) (v : SpanInit) (s : State) : State :=
  let st := getStall s i
  match st.span, s.load.prog.bind (fun p => p.verbs[v.verb]?) with
  | none, some h =>
    if !spanOk s i h v then s
    else
      match clauseChosen s st.ctx with
      | none => stallWaits i waitInput s
      | some false => s
      | some true =>
        let s := openRing st.ctx s
        if ringWaits s st.ctx then stallWaits i waitPeer s
        else if countsAwaited s st.ctx then stallWaits i waitCollective s
        else if copyAwaited s st.ctx then stallWaits i waitPeer s
        else if heldBack s st.ctx then s
        else
          let r := verbRun s i h v
          let s := s.withJob { s.job with verbRuns := sput none s.job.verbRuns v.verb (some r) }
          setStall s i { getStall s i with span := some (newSpan s h v r.bases), busy := true, wait := none }
  | _, _ => s

/-- SPAN_START (R124). -/
def execSpanStart (i : Fin 1024) (v : SpanInit) (s : State) : Result := .next (startSpan i v s)

/-! ### Arithmetic instructions (R126 to R128) -/

/-- FADD (R126). -/
def execFadd (i : Fin 1024) (d : BitVec 5) (a b : BitVec 6) (s : State) : Result :=
  .next (aluInstr i (instrWord 0x01 d [a, b]) d [a, b] (fun _ l => fpOut l (addRne (op1 l) (op2 l))) s)

/-- R126: a − b is a + (−b), exact but for one rounding. -/
def subRne (x y : W32) : W32 := toA32 (Val.add (ofA32 x) (Val.neg (ofA32 y)))

/-- FSUB (R126). -/
def execFsub (i : Fin 1024) (d : BitVec 5) (a b : BitVec 6) (s : State) : Result :=
  .next (aluInstr i (instrWord 0x02 d [a, b]) d [a, b] (fun _ l => fpOut l (subRne (op1 l) (op2 l))) s)

/-- FMUL (R126). -/
def execFmul (i : Fin 1024) (d : BitVec 5) (a b : BitVec 6) (s : State) : Result :=
  .next (aluInstr i (instrWord 0x03 d [a, b]) d [a, b] (fun _ l => fpOut l (mulRne (op1 l) (op2 l))) s)

/-- FMA (R126). -/
def execFma (i : Fin 1024) (d : BitVec 5) (a b c : BitVec 6) (s : State) : Result :=
  .next (aluInstr i (instrWord 0x04 d [a, b, c]) d [a, b, c] (fun _ l => fpOut l (fmaRne (op1 l) (op2 l) (op3 l))) s)

/-- FMAX (R128). -/
def execFmax (i : Fin 1024) (d : BitVec 5) (a b : BitVec 6) (s : State) : Result :=
  .next (aluInstr i (instrWord 0x05 d [a, b]) d [a, b] (fun _ l => fpOut l (fmax32 (op1 l) (op2 l))) s)

/-- FMIN (R128). -/
def execFmin (i : Fin 1024) (d : BitVec 5) (a b : BitVec 6) (s : State) : Result :=
  .next (aluInstr i (instrWord 0x06 d [a, b]) d [a, b] (fun _ l => fpOut l (fmin32 (op1 l) (op2 l))) s)

/-- R126, R127: the sign cleared; the canonical NaN for a NaN. -/
def abs32 (x : W32) : W32 := if isNan32 x then nan32 else x &&& 0x7FFFFFFF

/-- R126, R127: the sign inverted; the canonical NaN for a NaN. -/
def neg32 (x : W32) : W32 := if isNan32 x then nan32 else x ^^^ 0x80000000

/-- FABS (R126). -/
def execFabs (i : Fin 1024) (d : BitVec 5) (a : BitVec 6) (s : State) : Result :=
  .next (aluInstr i (instrWord 0x07 d [a]) d [a] (fun _ l => fpOut l (abs32 (op1 l))) s)

/-- FNEG (R126). -/
def execFneg (i : Fin 1024) (d : BitVec 5) (a : BitVec 6) (s : State) : Result :=
  .next (aluInstr i (instrWord 0x08 d [a]) d [a] (fun _ l => fpOut l (neg32 (op1 l))) s)

/-- All ones for true, zero for false. -/
def maskOf (b : Bool) : W32 := if b then 0xFFFFFFFF else 0

/-- FCMP (R126). -/
def execFcmp (i : Fin 1024) (d : BitVec 5) (c : Cond) (a b : BitVec 6) (s : State) : Result :=
  .next (aluInstr i (instrWord 0x09 d [a, b] (mod := condCode c)) d [a, b] (fun _ l => { word := maskOf (fcmpHolds c (op1 l) (op2 l)) }) s)

/-- SEL (R126). -/
def execSel (i : Fin 1024) (d : BitVec 5) (a b c : BitVec 6) (s : State) : Result :=
  .next (aluInstr i (instrWord 0x0A d [a, b, c]) d [a, b, c] (fun _ l => { word := if op1 l ≠ 0 then op2 l else op3 l }) s)

/-- MOV (R126). -/
def execMov (i : Fin 1024) (d : BitVec 5) (a : BitVec 6) (s : State) : Result :=
  .next (aluInstr i (instrWord 0x0B d [a]) d [a] (fun _ l => { word := op1 l }) s)

/-- R127: 1 / a, the quotient of 1 and a. -/
def rcp32 (x : W32) : W32 := toA32 (Val.div (.fin false 1 0) (ofA32 x))
def rsqrt32 (x : W32) : W32 := toA32 (Val.rsqrt (ofA32 x))
def sqrt32 (x : W32) : W32 := toA32 (Val.sqrt (ofA32 x))
def div32 (x y : W32) : W32 := toA32 (Val.div (ofA32 x) (ofA32 y))
def exp2w (x : W32) : W32 := toA32 (Val.exp2 (ofA32 x))
def log2w (x : W32) : W32 := toA32 (Val.log2 (ofA32 x))

/-- RCP (R127). -/
def execRcp (i : Fin 1024) (d : BitVec 5) (a : BitVec 6) (s : State) : Result :=
  .next (aluInstr i (instrWord 0x10 d [a]) d [a] (fun _ l => fpOut l (rcp32 (op1 l))) s)

/-- RSQRT (R127). -/
def execRsqrt (i : Fin 1024) (d : BitVec 5) (a : BitVec 6) (s : State) : Result :=
  .next (aluInstr i (instrWord 0x11 d [a]) d [a] (fun _ l => fpOut l (rsqrt32 (op1 l))) s)

/-- SQRT (R127). -/
def execSqrt (i : Fin 1024) (d : BitVec 5) (a : BitVec 6) (s : State) : Result :=
  .next (aluInstr i (instrWord 0x12 d [a]) d [a] (fun _ l => fpOut l (sqrt32 (op1 l))) s)

/-- DIV (R127). -/
def execDiv (i : Fin 1024) (d : BitVec 5) (a b : BitVec 6) (s : State) : Result :=
  .next (aluInstr i (instrWord 0x13 d [a, b]) d [a, b] (fun _ l => fpOut l (div32 (op1 l) (op2 l))) s)

/-- EXP2 (R127). -/
def execExp2 (i : Fin 1024) (d : BitVec 5) (a : BitVec 6) (s : State) : Result :=
  .next (aluInstr i (instrWord 0x14 d [a]) d [a] (fun _ l => fpOut l (exp2w (op1 l))) s)

/-- LOG2 (R127). -/
def execLog2 (i : Fin 1024) (d : BitVec 5) (a : BitVec 6) (s : State) : Result :=
  .next (aluInstr i (instrWord 0x15 d [a]) d [a] (fun _ l => fpOut l (log2w (op1 l))) s)

/-! ### Integer and logic instructions (R126) -/

/-- IADD (R126). -/
def execIadd (i : Fin 1024) (d : BitVec 5) (a b : BitVec 6) (s : State) : Result :=
  .next (aluInstr i (instrWord 0x20 d [a, b]) d [a, b] (fun _ l => { word := op1 l + op2 l }) s)

/-- ISUB (R126). -/
def execIsub (i : Fin 1024) (d : BitVec 5) (a b : BitVec 6) (s : State) : Result :=
  .next (aluInstr i (instrWord 0x21 d [a, b]) d [a, b] (fun _ l => { word := op1 l - op2 l }) s)

/-- IMUL (R126). -/
def execImul (i : Fin 1024) (d : BitVec 5) (a b : BitVec 6) (s : State) : Result :=
  .next (aluInstr i (instrWord 0x22 d [a, b]) d [a, b] (fun _ l => { word := op1 l * op2 l }) s)

/-- AND (R126). -/
def execAnd (i : Fin 1024) (d : BitVec 5) (a b : BitVec 6) (s : State) : Result :=
  .next (aluInstr i (instrWord 0x23 d [a, b]) d [a, b] (fun _ l => { word := op1 l &&& op2 l }) s)

/-- OR (R126). -/
def execOr (i : Fin 1024) (d : BitVec 5) (a b : BitVec 6) (s : State) : Result :=
  .next (aluInstr i (instrWord 0x24 d [a, b]) d [a, b] (fun _ l => { word := op1 l ||| op2 l }) s)

/-- XOR (R126). -/
def execXor (i : Fin 1024) (d : BitVec 5) (a b : BitVec 6) (s : State) : Result :=
  .next (aluInstr i (instrWord 0x25 d [a, b]) d [a, b] (fun _ l => { word := op1 l ^^^ op2 l }) s)

/-- SHL (R126). -/
def execShl (i : Fin 1024) (d : BitVec 5) (a b : BitVec 6) (s : State) : Result :=
  .next (aluInstr i (instrWord 0x26 d [a, b]) d [a, b] (fun _ l => { word := op1 l <<< ((op2 l).toNat % 32) }) s)

/-- SHR (R126). -/
def execShr (i : Fin 1024) (d : BitVec 5) (a b : BitVec 6) (s : State) : Result :=
  .next (aluInstr i (instrWord 0x27 d [a, b]) d [a, b] (fun _ l => { word := op1 l >>> ((op2 l).toNat % 32) }) s)

/-- SAR (R126). -/
def execSar (i : Fin 1024) (d : BitVec 5) (a b : BitVec 6) (s : State) : Result :=
  .next (aluInstr i (instrWord 0x28 d [a, b]) d [a, b] (fun _ l => { word := (op1 l).sshiftRight ((op2 l).toNat % 32) }) s)

/-- ICMP (R126). -/
def execIcmp (i : Fin 1024) (d : BitVec 5) (c : Cond) (a b : BitVec 6) (s : State) : Result :=
  .next (aluInstr i (instrWord 0x29 d [a, b] (mod := condCode c)) d [a, b] (fun _ l => { word := maskOf (icmpHolds c (op1 l) (op2 l)) }) s)

/-- ITOF (R126). -/
def execItof (i : Fin 1024) (d : BitVec 5) (a : BitVec 6) (s : State) : Result :=
  .next (aluInstr i (instrWord 0x30 d [a]) d [a] (fun _ l => { word := itof (op1 l) }) s)

/-- FTOI (R126). -/
def execFtoi (i : Fin 1024) (d : BitVec 5) (rm : RMode) (a : BitVec 6) (s : State) : Result :=
  .next (aluInstr i (instrWord 0x31 d [a] (rmq := rmCode rm)) d [a] (fun _ l => { word := (ftoi rm (op1 l)).1, ovf := (ftoi rm (op1 l)).2 }) s)

/-! ### QNT and DRAW (R130, R131) -/

/-- R130: a rounded to the value set of a format, decoded back to FP32; `b` is the draw word under SR. -/
def qntOut (f : Fmt) (rm : RMode) (x b : W32) : LaneOut :=
  let c := convert f rm false b.toNat (ofA32 x)
  { word := toA32 (decode f c.code), ovf := c.sat }

/-- R149: the span with the elements whose value has saturated in BF16 (DEDUCED: log 92). -/
def markSaturated (f : Fmt) (sat : List Bool) (sp : Span) : Span :=
  if f = .bf16 then
    { sp with saturated := (sp.saturated ++ (sat.zipIdx.filter (·.1)).map (·.2)).eraseDups }
  else sp

/-- R130, R149: QNT over a span. -/
def qntSpan (i : Fin 1024) (d : BitVec 5) (f : Fmt) (rm : RMode) (srcs : List (BitVec 6)) (st : Stall) (sp : Span) (s : State) : State :=
  let outs := runLanes s st sp srcs (fun _ l => qntOut f rm (op1 l) (op2 l))
  endInstr i (markSaturated f (outs.map (·.ovf)) sp) srcs (writeDest sp.regs d outs) (outs.filter (·.inv)).length
    ((outs.filter (·.ovf)).length + decodeOverflows st sp srcs) 0 s

/-- QNT (R130). -/
def execQnt (i : Fin 1024) (d : BitVec 5) (f : Fmt) (rm : RMode) (a b : BitVec 6) (s : State) : Result :=
  .next (runInstr i (instrWord 0x32 d [a, b] (fmt := fmtCode f) (rmq := rmCode rm)) [a, b] (qntSpan i d f rm [a, b]) s)

/-- R131: the draw word of element e from a draw slot. A slot that the header binds to no stream, for which R143 has no row, gives
0 (DESIGN CHOICE: log 89). -/
def drawLane (s : State) (i : Fin 1024) (slot : Fin 4) (e : Nat) : W32 :=
  match (getStall s i).span with
  | none => 0
  | some sp =>
    match sp.header.draws.getD slot.val none with
    | some id => drawWord s.job.seed id (sp.drawBase.getD slot.val 0 + BitVec.ofNat 64 (spanIdx sp e))
    | none => 0

/-- DRAW (R131). -/
def execDraw (i : Fin 1024) (d : BitVec 5) (slot : Fin 4) (s : State) : Result :=
  .next (aluInstr i (instrWord 0x38 d [] (mod := slot.val)) d [] (fun e _ => { word := drawLane s i slot e }) s)

/-! ### PUT (R129) -/

/-- A field of n bits written at a bit address of a memory. -/
def writeBits (m : List Host.Cell) (bit n v : Nat) : List Host.Cell :=
  if bit % 8 = 0 ∧ n % 8 = 0 then writeBytes m (bit / 8) (natLe (n / 8) v)
  else
    let a := bit / 8
    let k := bit % 8
    let old := leNat (readBytes m a 2)
    let cleared := old - (old / 2 ^ k % 2 ^ n) * 2 ^ k
    writeBytes m a (natLe 2 (cleared + v % 2 ^ n * 2 ^ k))

/-- The conversions of a span's words for an output: one by one, or by blocks along the rows for an MX output
(R87, R88). The second part lists the scales by row. -/
def putConvs (s : State) (w : W128) (tw : TensorWrite) (sp : Span) (words : List W32) : List Conv × List Byte :=
  let f := sdFmt w
  let draws := (List.range (spanSize sp)).map (fun e => writeDraw s tw (spanIdx sp e))
  if sdRaw w then (words.map (fun x => { code := x.toNat }), [])
  else if sdMx w then
    let rows := (List.range sp.init.rows).map (fun r =>
      mxBlock f (sdRm w) (sdSpec w) (((words.drop (r * sp.init.cols)).take sp.init.cols).map ofA32)
        ((draws.drop (r * sp.init.cols)).take sp.init.cols))
    (rows.flatMap (·.2), rows.map (·.1))
  else (List.zipWith (fun x r => convert f (sdRm w) false r (ofA32 x)) words draws, [])

/-- The write of an output's elements and scales (R79, R89). -/
def putWrite (w : W128) (i : Fin 1024) (sp : Span) (tw : TensorWrite) (convs : List Conv) (scales : List Byte) : TensorWrite :=
  let tw := (convs.zipIdx).foldl (fun t p => enterElem (sdFmt w) i.val t (spanIdx sp p.2) p.1) tw
  (scales.zipIdx).foldl (fun t p => enterScale t (blockOf sp.init.rowLen (spanIdx sp (p.2 * sp.init.cols))) p.1) tw

/-- R122: a region output's bytes in the stall store, with the scale array of an MX region. -/
def putRegion (w : W128) (sp : Span) (convs : List Conv) (scales : List Byte) (m : List Host.Cell) : List Host.Cell :=
  let bw := fmtBits (sdFmt w)
  let m := (convs.zipIdx).foldl (fun m p =>
    writeBits m (regionBit w sp p.2) bw p.1.code) m
  let row := (sdStrideRow w).toNat
  (scales.zipIdx).foldl (fun m p => writeByte m (scaleBase w sp + blockOf row (p.2 * row)) p.1) m

/-- R38, R123: a byte string in 64-byte flits; `n` bounds their number. -/
def flitsOf : Nat → Bytes → List Bytes
  | 0, _ => []
  | n + 1, b => if b.isEmpty then [] else b.take 64 :: flitsOf n (b.drop 64)

/-- R38, R41: whether the producer holds n credits from every consumer. -/
def hasCredits (o : OutStream) (n : Nat) : Bool := o.credits.all (fun c => decide (n ≤ c.2))

/-- R38: n credits of every consumer spent. -/
def spendCredits (o : OutStream) (n : Nat) : OutStream :=
  { o with credits := o.credits.map (fun c => (c.1, c.2 - n)) }

/-- R42, R199: the seal of a stream: that of its tensor's last section here, over the content and the block scales in the order
in which the stream carries them (in part DESIGN CHOICE: log 26). -/
def streamSeal (s : State) (tid : W64) (content scales : Bytes) (r : WriteRecord) : W64 :=
  match findTensor s tid with
  | some t => sealOf (sectionDesc t ((heldSections s t).getLastD 0) (writeEpoch s)) content scales r
  | none =>
    let d : SectionDesc :=
      { tid := tid, epoch := writeEpoch s, sec := 0, fmt := .a32, mx := false, rank := 1, base := 0, elems := 0, dims := [] }
    sealOf d content scales r

/-- R37, R42, R89: a producer's next flit: its number, and in the last one the seal over all that the stream has carried; then
the stream's next tensor begins. -/
def formFlit (s : State) (o : OutStream) (f : StreamFlit) : StreamFlit × OutStream :=
  let content := o.content ++ f.bytes
  let scales := o.scales ++ f.scales
  let g := { f with idx := o.sent, record := if f.last then f.record else {},
                    carried := if f.last then streamSeal s f.tid content scales f.record else 0 }
  (g, if f.last then { o with sent := 0, content := [], scales := [] }
      else { o with sent := o.sent + 1, content := content, scales := scales })

/-- R38, R41: flits that wait leave while a credit from every consumer is held; the first number bounds them. -/
def flushStream (i : Fin 1024) (id : Nat) : Nat → State → State
  | 0, s => s
  | n + 1, s =>
    let o := sget {} (getStall s i).outs id
    match o.backlog with
    | [] => s
    | f :: rest =>
      if hasCredits o 1 then
        let s := setStall s i { getStall s i with outs := sput {} (getStall s i).outs id { spendCredits o 1 with backlog := rest } }
        flushStream i id n (aisleSend i .vc0 (.stream id f) (o.credits.map (·.1)) s)
      else s

/-- R38, R39: flits of a stream leave in order, those without a credit when one returns
(in part DESIGN CHOICE: log 19). -/
def sendFlits (i : Fin 1024) (id : Nat) (fs : List StreamFlit) (s : State) : State :=
  let (out, o) := fs.foldl (fun (x : List StreamFlit × OutStream) f =>
    let (g, o) := formFlit s x.2 f
    (x.1 ++ [g], o)) ([], sget {} (getStall s i).outs id)
  let s := setStall s i { getStall s i with outs := sput {} (getStall s i).outs id { o with backlog := o.backlog ++ out } }
  flushStream i id (o.backlog.length + out.length) s

/-- R123: the flits of a span's output: its bytes 64 at a time, the block scales with the first of them, and the write record
with the tensor's last. -/
def outFlits (w : TensorWrite) (tid : W64) (done : Bool) (bytes scales : Bytes) : List StreamFlit :=
  let l := flitsOf (bytes.length / 64 + 1) bytes
  l.mapIdx (fun n b =>
    let last := done && decide (n + 1 = l.length)
    { bytes := b, scales := if n = 0 then scales else [], last := last,
      record := if last then w.records.foldl (fun r p => mergeRecord r p.2) {} else {}, carried := 0, tid := tid, sec := 0 })

/-- R22: a write of the shadow buffer waits while a snapshot drain of its contents runs. -/
def shadowWaits (s : State) (tid : W64) : Bool :=
  s.snap.draining.isSome && !inEval s && (findTensor s tid).any (fun t => isState t.role)

/-- R39: after an output, a stall whose flits still wait for credits waits. -/
def settleOutput (i : Fin 1024) (s : State) : State :=
  match outputWait (getStall s i) with
  | some cause => stallWaits i cause s
  | none => s

/-- R149: a remainder is 0 where its parameter has saturated (DEDUCED: log 92). -/
def remainderConvs (s : State) (tid : W64) (sp : Span) (convs : List Conv) : List Conv :=
  if (findTensor s tid).any (fun t => decide (t.role = .remainder)) then
    convs.mapIdx (fun e c => if e ∈ sp.saturated then { code := 0 } else c)
  else convs

/-- R129: PUT of a span's words to output k, once its operand is ready and a queue output holds a credit
(in part DESIGN CHOICE: log 17) (in part DESIGN CHOICE: log 29). -/
def putSpan (i : Fin 1024) (k : Fin 4) (a : BitVec 6) (st : Stall) (sp : Span) (s : State) : State :=
  let words := (runLanes s st sp [a] (fun _ l => { word := op1 l })).map (·.word)
  match sp.header.outs.getD k.val none with
  | none => endInstr i sp [a] sp.regs 0 (decodeOverflows st sp [a]) 0 s
  | some w =>
    let tid := sp.init.outTids.getD k.val 0
    let tw := openWrite s tid (if sdRm w = .sr then some (sdStream w) else none)
    let (convs, scales) := putConvs s w tw sp words
    let convs := remainderConvs s tid sp convs
    let sp := if (findTensor s tid).any (fun t => decide (t.role = .param)) then markSaturated (sdFmt w) (convs.map (·.sat)) sp else sp
    let tw' := putWrite w i sp tw convs scales
    let done := decide (heldElems s tid sp.init.elems ≤ tw'.codes.length)
    let nf := if sdRaw w then 0 else (words.filter isNonfinite32).length
    let id := outQueue sp k.val
    if sdQueue w && !hasCredits (sget {} st.outs id) 1 then stallWaits i waitOutput s
    else if shadowWaits s tid then stallWaits i waitPeer s
    else
      let s := if sdQueue w then s else setStall s i { st with store := putRegion w sp convs scales st.store }
      let s := endInstr i sp [a] sp.regs 0 (decodeOverflows st sp [a]) nf (keepWrite tid sp.init.elems tw' s)
      if sdQueue w then
        settleOutput i (sendFlits i id (outFlits tw' tid done (packCodes (sdFmt w) (convs.map (·.code))) scales) s)
      else s

/-- PUT (R129). -/
def execPut (i : Fin 1024) (k : Fin 4) (a : BitVec 6) (s : State) : Result :=
  .next (runInstr i (instrWord 0x3C 0 [a] (mod := k.val)) [a] (putSpan i k a) s)

/-! ### Summaries (R136, R137) -/

/-- R136: a value fed to MAX or MIN. -/
def feedExtreme (f : W32 → W32 → W32) (e : Option W32) (x : W32) : Option W32 :=
  match e with
  | none => some (if isNan32 x then nan32 else x)
  | some y => some (f y x)

/-- R137: values of the summary store, all spans of their rows done, enter the cascade in ascending linear index
(in part DESIGN CHOICE: log 18). -/
def feedStore (rows rowLen : Nat) (a : SlotAcc) : SlotAcc :=
  if rows * rowLen ≤ a.store.length then
    { a with cascade := a.store.foldl (fun c p => cascadePush (p.2.getD 0) 0 c) a.cascade, store := [] }
  else a

/-- R136: a span's values fed to a slot of its kind (in part DESIGN CHOICE: log 18). -/
def feedSlot (kind : SlotKind) (sp : Span) (words : List W32) (a : SlotAcc) : SlotAcc :=
  let a := { a with count := a.count + words.length }
  match kind with
  | .sum =>
    feedStore sp.init.rows sp.init.rowLen
      { a with store := (words.zipIdx).foldl (fun t p => sput none t (spanIdx sp p.2) (some p.1)) a.store }
  | .max => { a with extreme := words.foldl (feedExtreme fmax32) a.extreme }
  | .min => { a with extreme := words.foldl (feedExtreme fmin32) a.extreme }
  | .nfc => { a with nfc := a.nfc + BitVec.ofNat 64 (words.filter isNonfinite32).length }

/-- R136: SUMM over a span (in part DESIGN CHOICE: log 29). -/
def summSpan (i : Fin 1024) (k : Fin 4) (a : BitVec 6) (st : Stall) (sp : Span) (s : State) : State :=
  let words := (runLanes s st sp [a] (fun _ l => { word := op1 l })).map (·.word)
  let key := 4 * sp.init.verb + k.val
  let s := match sp.header.slots.getD k.val none with
    | some kind => setStall s i { st with slots := sput {} st.slots key (feedSlot kind sp words (sget {} st.slots key)) }
    | none => s
  endInstr i sp [a] sp.regs 0 (decodeOverflows st sp [a]) 0 s

/-- SUMM (R136). -/
def execSumm (i : Fin 1024) (k : Fin 4) (a : BitVec 6) (s : State) : Result :=
  .next (runInstr i (instrWord 0x3D 0 [a] (mod := k.val)) [a] (summSpan i k a) s)

/-! ### The Clerk: summaries and decisions (R138 to R142, R639) -/

/-- R138: the kind of a summary slot of a verb. -/
def slotKind (s : State) (verb slot : Nat) : Option SlotKind :=
  s.load.prog.bind (fun p => (p.verbs[verb]?).bind (fun h => h.slots.getD slot none))

/-- R105, R138: the Clerk's combination of a slot's partials, given in ascending role index
(in part DESIGN CHOICE: log 18). -/
def combinePartials (kind : SlotKind) (l : List W64) : W64 :=
  let ws := l.map (fun x => x.setWidth 32)
  match kind with
  | .sum => (pairwise ws).setWidth 64
  | .max => ((ws.tail).foldl fmax32 (ws.headD 0)).setWidth 64
  | .min => ((ws.tail).foldl fmin32 (ws.headD 0)).setWidth 64
  | .nfc => l.foldl (· + ·) 0

/-- R105, R137, R138: a stall role's partial of a slot reaches the Clerk; with the partials of all `roles` roles that hold a
span the summary of the step exists, combined in ascending role index. -/
def summaryPartial (verb slot role roles : Nat) (value : W64) (s : State) : State :=
  match slotKind s verb slot with
  | none => s
  | some kind =>
    let mine := fun (p : Nat × Nat × Nat × W64) => decide (p.1 = verb) && decide (p.2.1 = slot)
    let others := s.job.partials.filter (fun p => !(mine p && decide (p.2.2.1 = role)))
    let all := others ++ [(verb, slot, role, value)]
    let held := all.filter mine
    if roles ≤ held.length then
      let sorted := (sortBy (fun (a b : Nat × Nat × Nat × W64) => decide (a.2.2.1 ≤ b.2.2.1)) held).map (·.2.2.2)
      s.withJob { s.job with
        partials := all.filter (fun p => !mine p),
        summaries := s.job.summaries.filter (fun p => decide (p.1 ≠ (verb, slot))) ++
          [((verb, slot), combinePartials kind sorted)] }
    else s.withJob { s.job with partials := all }

/-- SUMMARY_PARTIAL (R138). -/
def execSummaryPartial (verb slot role roles : Nat) (value : W64) (s : State) : Result :=
  .next (summaryPartial verb slot role roles value s)

/-- R138: the value a decision reads: FP32 bits, and the exact count for an NFC slot. -/
def decisionValue (s : State) (d : Decision) : Option (W32 × Option Nat) :=
  match d.source with
  | .summary v k =>
    match s.job.summaries.find? (fun p => p.1 = (v, k)) with
    | none => none
    | some (_, x) =>
      if slotKind s v k = some .nfc then some (toA32 (.fin false x.toNat 0), some x.toNat)
      else some (x.setWidth 32, none)
  | .collective n => (s.job.collResults.find? (fun p => p.1 = n)).map (fun p => (p.2, none))
  | .normsq => s.job.norm.map (fun p => (p.1, none))
  | .nfflag => s.job.norm.map (fun p => (p.2, none))

/-- R138: the functions of a parameter write, each step rounded under RNE. -/
def decisionFn (f : DecFn) (x : W32) : W32 :=
  match f with
  | .copy => x
  | .rcp => rcp32 x
  | .rsqrt => rsqrt32 x
  | .clipf c => if isNan32 x then nan32 else fmin32 0x3F800000 (div32 c (sqrt32 x))

/-- R138, R139: the test of a decision; an NFC count is compared exactly. -/
def decisionTest (c : Cond) (threshold : W32) (x : W32) (count : Option Nat) : Bool :=
  match count with
  | none => fcmpHolds c x threshold
  | some n =>
    match ofA32 threshold with
    | .nan => decide (c = .ne)
    | t =>
      let v := Val.fin false n 0
      match c with
      | .eq => Val.eq v t
      | .ne => !Val.eq v t
      | .lt => Val.lt v t
      | .le => !Val.lt t v
      | .gt => Val.lt t v
      | .ge => !Val.lt v t
      | .ltu | .geu => false

/-- R138: the verbs that read a P_k bound to decision i, as keys of `Job.params`. -/
def boundParams (s : State) (i : Nat) (k : Nat) : List Nat :=
  match s.load.prog with
  | none => []
  | some p => (p.verbs.zipIdx).filterMap (fun h => if h.1.pDecision.getD k none = some i then some (8 * h.2 + k) else none)

/-- R157: a decision with source NFFLAG. -/
def isSkipDecision (d : Decision) : Bool := decide (d.source = .nfflag)

/-- R157: the guard of the update: source NFFLAG and test EQ 0.0. -/
def guardsUpdate (d : Decision) : Bool :=
  isSkipDecision d && (match d.test with | some (.eq, t) => fcmpHolds .eq t 0 | _ => false)

/-- R205: a section copied and sealed again at an epoch. -/
def resealed (epoch : W48) (x : Section) : Section :=
  let d := { x.desc with epoch := epoch }
  { x with desc := d, sealWord := sealOf d x.content x.scales x.record }

/-- R158: the sections of the shadow buffer of a skipped step: the committed ones, checked and sealed again at the
step's epoch (R205). -/
def copyCommitted (s : State) : List Section := (committed s).map (resealed (s.job.epoch + 1))

/-- R79, R131, R158: the streams that a clause uses, with the counts that it takes. -/
def clauseDraws (s : State) (p : Program) (cl : Clause) : List (W32 × Nat) :=
  let elems := (cl.outTensors.map (tensorElems s)).headD 0
  let drained := match cl.drain.bind (fun i => p.drains[i]?) with
    | some d => if dcRm d.control = .sr then [(dcStream d.control, elems)] else []
    | none => []
  drained ++ match cl.verb.bind (fun v => p.verbs[v]?) with
  | none => []
  | some h =>
    h.draws.filterMap (fun d => d.map (fun id => (id, elems))) ++
    (h.outs.zip cl.outTensors).filterMap (fun o =>
      match o.1 with
      | some w => if sdRm w = .sr then some (sdStream w, tensorElems s o.2) else none
      | none => none)

/-- R158: the streams that the update sentences use, with the counts they would have taken. -/
def updateStreams (s : State) : List (W32 × Nat) :=
  match s.load.prog with
  | none => []
  | some p =>
    let clauses := (p.sentences.filter (fun x => x.kind = .update)).flatMap (·.clauses)
    clauses.flatMap (fun c => ((p.clauses[c]?).map (clauseDraws s p)).getD [])

/-- R158: streams stand past the counts given. -/
def advanceStreams (l : List (W32 × Nat)) (s : State) : State :=
  l.foldl (fun s p => setDrawCounter s p.1 (drawCounter s p.1 + BitVec.ofNat 64 p.2)) s

/-- R158: the update is skipped: the shadow buffer receives the committed values and the streams advance. A committed section whose
old seal fails is not released (R205, R206). -/
def skipUpdate (s : State) : State :=
  let old := committed s
  let s := advanceStreams (updateStreams s) s
  let s := if old.any (unsound s) then unsoundFailure .none old s else setShadow s (copyCommitted s)
  s.withStep { s.step with skipped := true }

/-- R157: the guard of the update has chosen it. -/
def updateChosen (s : State) : Bool :=
  s.job.decided.any (fun x => x.2 && (s.load.prog.bind (fun p => p.decisions[x.1]?)).any guardsUpdate)

/-- R165: the update clauses of the unvisited experts of HOLD layers. -/
def heldClauses (s : State) (p : Program) : List Clause :=
  ((List.range p.clauses.length).filter (heldBack s)).filterMap (fun c => p.clauses[c]?)

/-- R165: once the visits of the step are counted and the update is chosen, the committed state of the unvisited experts of HOLD
layers is copied into the shadow buffers once its old seals hold (R205), and the streams of their update advance; a snapshot drain ends
first (R22). -/
def holdUnvisited (s : State) : State :=
  match s.load.prog with
  | none => s
  | some p =>
    if !s.ledger.counted || s.step.holding || s.step.skipped || !updateChosen s || s.snap.draining.isSome then s
    else
      let l := heldClauses s p
      let tids := l.flatMap (·.outTensors)
      let s := advanceStreams (l.flatMap (clauseDraws s p)) s
      let old := (committed s).filter (fun x => decide (x.desc.tid ∈ tids))
      let s := if old.any (unsound s) then unsoundFailure .none old s
        else setShadow s ((old.map (resealed (s.job.epoch + 1))).foldl putSection (shadow s))
      s.withStep { s.step with holding := true }

/-- R138 to R140, R157: decision i runs once its source exists: it writes its parameters and chooses a successor list;
the guard of the update skips it when its test fails, after a snapshot drain of the shadow buffer (R22). It runs at most once
in a step. -/
def runDecision (i : Nat) (s : State) : State :=
  match s.load.prog.bind (fun p => p.decisions[i]?) with
  | none => s
  | some d =>
    if s.job.decided.any (fun p => decide (p.1 = i)) then s
    else
      match decisionValue s d with
      | none => s
      | some (x, count) =>
        let params := d.writes.foldl (fun t w =>
          (boundParams s i w.p.val).foldl (fun t k => sput none t k (some (decisionFn w.fn x))) t) s.job.params
        let holds := match d.test with
          | none => true
          | some (c, t) => decisionTest c t x count
        let skips := guardsUpdate d && !holds
        if skips && s.snap.draining.isSome && !inEval s then s
        else
          let s := s.withJob { s.job with params := params, decided := s.job.decided ++ [(i, holds)] }
          if skips then skipUpdate s else holdUnvisited s

/-- DECISION_RUN (R140). -/
def execDecisionRun (i : Nat) (s : State) : Result := .next (runDecision i s)

end Sys2Proof.Machine
end

