-- ==== Sys2Proof/Machine/Engine.lean ====
section
/-! DEFINITION. The matrix engine, the accumulator bank, the drain path and the streams of a stall (R24 to R50, R70 to
R73, R76 to R101). -/

namespace Sys2Proof.Machine

/-! ### Products and column trees (R70, R71, R73, R95) -/

/-- R24: the K per cycle of a format's width class. -/
def classWidth : Fmt → Nat
  | .bf16 | .fp16 => 64
  | .e4m3 | .e5m2 | .e3m2 | .e2m3 | .int8 => 128
  | .e2m1 | .int4 => 256
  | .a32 => 64

/-- R69: the unbiased exponent of an operand's block scale at K position k; 0 for a plain operand, none for 0xFF. -/
def scaleAt (o : OperandFmt) (scales : List Byte) (k : Nat) : Option Int :=
  if o.mx then e8m0 (scales.getD (k / 32) 0x7F) else some 0

/-- R70, R71, R73: the product of two codes as an A32 value. The sign of an integer zero product, of which the spec gives none, is
the exclusive or of the operands' signs (DESIGN CHOICE: log 89). -/
def product (a b : OperandFmt) (x y : W16) (sx sy : Option Int) : W32 :=
  match sx, sy with
  | some i, some j => toA32 ((Val.mul (decode a.fmt x.toNat) (decode b.fmt y.toNat)).scale (i + j))
  | _, _ => nan32

/-- R95, R96: one column's result for one row: the pairwise sum of w products, the missing ones +0. -/
def columnSum (p : BlockPass) (row : List W16) (rs : List Byte) (col : List W16) (cs : List Byte) : W32 :=
  pairwise ((List.range (classWidth p.a.fmt)).map (fun k =>
    match row[k]?, col[k]? with
    | some x, some y => product p.a p.b x y (scaleAt p.a rs k) (scaleAt p.b cs k)
    | _, _ => 0))

/-- R26: the 32 column results of row m of a weight block. -/
def rowResult (p : BlockPass) (m : Nat) : List W32 :=
  (List.range 32).map (fun n =>
    columnSum p (p.rows.getD m []) (p.rScales.getD m []) (p.weights.getD n []) (p.wScales.getD n []))

/-- R26: the block's result for buffer j of the set: rows 64·j to 64·j + 63, row by row. -/
def blockTile (p : BlockPass) (j : Nat) : List W32 :=
  (List.range (min 64 (p.rows.length - 64 * j))).flatMap (fun r => rowResult p (64 * j + r))

/-! ### The cascade over tiles (R97, R98, R100) -/

/-- R97: a block's tile enters the cascade; the same steps for every element. -/
def tilePush (t : List W32) : Nat → List (Nat × List W32) → List (Nat × List W32)
  | lv, [] => [(lv, t)]
  | lv, (l, e) :: rest => if l = lv then tilePush (addTiles e t) (lv + 1) rest else (lv, t) :: (l, e) :: rest

/-- R97: the final merge, lowest level first. -/
def tileMerge : List (Nat × List W32) → List W32
  | [] => []
  | (_, e) :: rest => rest.foldl (fun s x => addTiles x.2 s) e

/-- R100: the element results of a complete tile: S, or add_rne(P, S) when the buffer was preloaded. -/
def tileResult (b : Buf) : List W32 :=
  if b.preloaded then addTiles b.vals (tileMerge b.cascade) else tileMerge b.cascade

/-! ### Block and drain checks (R467, R468) -/

/-- The value of an element with its block scale, as an A32 value. -/
def elemValue (o : OperandFmt) (scales : List Byte) (k : Nat) (x : W16) : W32 :=
  match scaleAt o scales k with
  | some e => toA32 ((decode o.fmt x.toNat).scale e)
  | none => nan32

/-- |x| of A32 bits. -/
def mag32 (x : W32) : W32 := x &&& 0x7FFFFFFF

/-- R467: the checker values of some rows of a block: t and μ of each row, then t′ and μ′ of each of the 32 columns. All sums are
in A32, each the pairwise sum of its terms, an order that the spec leaves open (DESIGN CHOICE: log 90). -/
def checkValues (p : BlockPass) (rows : List Nat) : List W32 × List W32 × List W32 × List W32 :=
  let depth := List.range (classWidth p.a.fmt)
  let a := rows.map (fun m => (p.rows.getD m []).mapIdx (fun k x => elemValue p.a (p.rScales.getD m []) k x))
  let b := (List.range 32).map (fun n => (p.weights.getD n []).mapIdx (fun k x => elemValue p.b (p.wScales.getD n []) k x))
  let bs := fun (f : W32 → W32) => depth.map (fun k => pairwise (b.map (fun col => f (col.getD k 0))))
  let as := fun (f : W32 → W32) => depth.map (fun k => pairwise (a.map (fun row => f (row.getD k 0))))
  let dot := fun (x y : List W32) => pairwise (depth.map (fun k => mulRne (x.getD k 0) (y.getD k 0)))
  let c := bs id
  let c' := bs mag32
  let r := as id
  let r' := as mag32
  (a.map (fun row => dot row c), a.map (fun row => dot (row.map mag32) c'),
   b.map (fun col => dot r col), b.map (fun col => dot r' (col.map mag32)))

/-- R467: τ = 2⁻¹⁶·μ + 2⁻¹¹⁰. -/
def tolerance (mu : W32) : Val := Val.add ((ofA32 mu).scale (-16)) (.fin false 1 (-110))

/-- R467: a checked sum fails when it differs from the checker's value by more than τ; a non-finite value, or a μ of 2¹²⁷ or more,
is not checked. -/
def sumFails (vals : List W32) (check mu : W32) : Bool :=
  if vals.any isNonfinite32 || isNonfinite32 check || isNonfinite32 mu || !Val.lt (ofA32 mu) (.fin false 1 127) then false
  else Val.lt (tolerance mu) (Val.abs (Val.add (ofA32 (pairwise vals)) (Val.neg (ofA32 check))))

/-- R467, R468: the first row, and then the first column, whose sum fails: its number, columns after the rows, the sum found and
the value expected. -/
def checkFails (rows cols : List (List W32)) (c : List W32 × List W32 × List W32 × List W32) : Option (Nat × W32 × W32) :=
  let at' := fun (l : List (List W32)) (t mu : List W32) (o : Nat) => (l.zipIdx.find? (fun x =>
    sumFails x.1 (t.getD x.2 0) (mu.getD x.2 0))).map (fun x => (o + x.2, pairwise x.1, t.getD x.2 0))
  match at' rows c.1 c.2.1 0 with
  | some f => some f
  | none => at' cols c.2.2.1 c.2.2.2 rows.length

/-- The rows and the columns of a list of values, row by row of 32 columns. -/
def tileLines (n : Nat) (vals : List W32) : List (List W32) × List (List W32) :=
  ((List.range n).map (fun r => (vals.drop (32 * r)).take 32),
   (List.range 32).map (fun c => (List.range n).map (fun r => vals.getD (32 * r + c) 0)))

/-- R468: the checker values of a tile's rows as one list for the checker cascade: t and μ of 64 rows, t′ and μ′ of 32 columns. -/
def checkTile (p : BlockPass) (j : Nat) : List W32 :=
  let n := min 64 (p.rows.length - 64 * j)
  let c := checkValues p ((List.range n).map (64 * j + ·))
  let pad := fun (l : List W32) => l ++ List.replicate (64 - l.length) 0
  pad c.1 ++ pad c.2.1 ++ c.2.2.1 ++ c.2.2.2

/-- R468: the drain check of a tile's cascade result S against the checker cascade's sums. -/
def drainCheck (vals checks : List W32) : Option (Nat × W32 × W32) :=
  let n := vals.length / 32
  let (rows, cols) := tileLines n vals
  checkFails rows cols (checks.take 64, (checks.drop 64).take 64, (checks.drop 128).take 32, checks.drop 160)

/-- R467: the results of a block with what a fault changed of them. -/
def passResults (p : BlockPass) (y : List W32) : List W32 :=
  p.upset.foldl (fun l u => l.set (32 * u.1 + u.2.1) u.2.2) y

/-- R467: the block check over all rows of a pass. -/
def blockCheck (p : BlockPass) (y : List W32) : Option (Nat × W32 × W32) :=
  let (rows, cols) := tileLines p.rows.length y
  checkFails rows cols (checkValues p (List.range p.rows.length))

/-- R466, R473: a failed check of a stall's engine is a detection on an active path. -/
def checkDetected (i : Fin 1024) (mechanism : Nat) (f : Option (Nat × W32 × W32)) (s : State) : State :=
  match f with
  | none => s
  | some (n, found, want) =>
    detect { mechanism := mechanism, unit := .stall i, active := true, location := BitVec.ofNat 32 n,
             observed := found.setWidth 64, expected := want.setWidth 64 } s

/-! ### Split-K chains (R48 to R50, R101) -/

/-- R48: the blocks that stall j of a chain of n holds of a tile of b blocks: the first, and one past the last. -/
def chainBlocks (j b n : Nat) : Nat × Nat := (j * b / max 1 n, (j + 1) * b / max 1 n)

/-- R50: the number of the stream that carries the running sums of a clause's chain from stall j to the next: above the program's
streams. -/
def chainStream (s : State) (clause j : Nat) : Nat := ((s.load.prog.map (·.streams)).getD 0) + 64 * clause + j

/-- R50: a running sum leaves as the flits of an ordinary stream on VC0. -/
def sendSum (i : Fin 1024) (j : Nat) (c : List W32) (s : State) : State :=
  let bytes := packCodes .a32 (c.map (·.toNat))
  let l := flitsOf (bytes.length / 64 + 1) bytes
  sendFlits i (chainStream s (getStall s i).ctx j) (l.mapIdx (fun n b =>
    { bytes := b, last := decide (n + 1 = l.length), carried := 0, tid := 0, sec := 0 })) s

/-- R48: a running sum c_j formed at stall j of a chain of n: the buffer it leaves, and the sum to send on; the last stall holds it
and drains. -/
def chainForward (j n : Nat) (c : List W32) (b : Buf) : Buf × Option (List W32) :=
  if j + 1 < n then ({}, some c)
  else ({ b with state := .drain, vals := c, cascade := [], checks := [], complete := true }, none)

/-- R48, R49: a stall of a chain whose partial tile is complete: stall 0 sends it, another adds the oldest running sum that waits in
its receive queue, or holds its tile. -/
def chainStep (i : Fin 1024) (n : Fin 4) (s : State) : State :=
  let st := getStall s i
  let b := st.bufs[n]
  match b.chain, b.complete, b.state with
  | some (j, m), true, .accumulate =>
    let go := fun (c : List W32) (rest : List (List W32)) =>
      let (b', out) := chainForward j m c b
      let s := setStall s i { st with
        bufs := st.bufs.set n b', sums := sput [] st.sums n.val rest, wait := none, busy := true }
      match out with
      | some c => settleOutput i (sendSum i j c s)
      | none => s
    if j = 0 then go b.vals (sget [] st.sums n.val)
    else
      match sget [] st.sums n.val with
      | c :: rest => go (addTiles c b.vals) rest
      | [] => stallWaits i waitPeer s
  | _, _, _ => s

/-! ### Expert weight gradients (R267, R277 to R279) -/

/-- The cascade of a tile: the entries and the next block. -/
def tileState (s : State) (k : ExpertRef × Nat) : List (Nat × List W32) × Nat :=
  ((s.ledger.tiles.find? (fun t => t.1 = k)).map (·.2)).getD ([], 0)

/-- R278: a node enters the cascade at its level when every earlier block has entered; the nodes that wait follow.
`n` bounds how many. -/
def enterNodes (k : ExpertRef × Nat) : Nat → State → State
  | 0, s => s
  | n + 1, s =>
    let (c, next) := tileState s k
    match s.ledger.tileQueue.find? (fun q => decide (q.1 = k) && decide (q.2.2.1 * 2 ^ q.2.1 = next)) with
    | none => s
    | some q =>
      let entry := (k, tilePush q.2.2.2 q.2.1 c, next + 2 ^ q.2.1)
      enterNodes k n (s.withLedger { s.ledger with
        tiles := s.ledger.tiles.filter (fun t => decide (t.1 ≠ k)) ++ [entry],
        tileQueue := s.ledger.tileQueue.erase q })

/-- R55: a segment that may follow another: later micro-batches, then half A before half B, then DEFER passes. -/
def segFollows (a b : SegKey) : Bool :=
  decide (a.micro < b.micro) || (decide (a.micro = b.micro) &&
    ((!a.half && b.half) || (decide (a.half = b.half) && decide (a.pass < b.pass))))

/-- R250: the home of an expert. -/
def homeOf (s : State) (x : ExpertRef) : Option Nat :=
  (s.ledger.dir.find? (fun e => decide (e.layer = x.layer) && decide (e.expert = x.expert))).map (·.home)

/-- R55, R267: the passes of an expert in the step so far, each with its segment. -/
def expertPasses (s : State) (x : ExpertRef) : List (SegKey × SplitEntry) :=
  (s.ledger.batches.filter (fun b => decide (b.key.layer = x.layer))).flatMap (fun b =>
    (b.split.filter (fun y => decide (y.expert = x.expert))).map (fun y => ({ micro := b.key.micro, half := b.key.half, pass := y.pass }, y)))

/-- R96: the blocks of w slots that passes hold. -/
def passBlocks (w : Nat) (l : List (SegKey × SplitEntry)) : Nat := (l.map (fun y => (y.2.filled + w - 1) / w)).foldl (· + ·) 0

/-- R55, R277: the first block of a segment, counted across the whole tile of the step. -/
def segBase (s : State) (w : Nat) (x : ExpertRef) (seg : SegKey) : Nat :=
  passBlocks w ((expertPasses s x).filter (fun y => segFollows y.1 seg))

/-- R267, R277: the blocks of the tile that this module serves. -/
def servedBlocks (s : State) (w : Nat) (x : ExpertRef) : List Nat :=
  (expertPasses s x).flatMap (fun y =>
    (y.2.serving.zipIdx.filter (fun z => decide (z.1 = ownSeg s))).map (fun z => segBase s w x y.1 + z.2))

/-- R223, R267: the batches of an expert's step have their grants, so that every block of its tile is known. -/
def tileKnown (s : State) (x : ExpertRef) : Bool :=
  (s.load.prog.bind (fun p => p.layers.find? (fun l => decide (rtLayer l.desc = x.layer)))).any (fun l =>
    let mine := s.ledger.batches.filter (fun b => decide (b.key.layer = x.layer))
    decide (mine.length = l.micros * (if rtHalve l.desc then 2 else 1)) && mine.all (·.granted))

/-- R277: the tile of an expert's weight gradient that buffer j of a pass sums, by tile rows of the clause's plan. -/
def tileOf (s : State) (st : Stall) (p : BlockPass) (j : Nat) : Option (ExpertRef × Nat) :=
  if gradientClause s st then
    let cols := ((s.load.plan.bind (fun x => x.clauses[st.ctx]?)).map (·.tileCols)).getD 1
    p.batch.map (fun b => ({ layer := b.1.layer, expert := b.2.1 }, (p.m0 / 64 + j) * max 1 cols + p.n0 / 32))
  else none

/-- R277: the number, across the tile, of the block that a pass brings to a buffer. -/
def blockNumber (s : State) (p : BlockPass) (x : ExpertRef) (b : Buf) : Nat :=
  let w := classWidth p.a.fmt
  match p.seg with
  | none => 0
  | some seg =>
    let first := ((expertPasses s x).find? (fun y => decide (y.1 = seg))).map (fun y => y.2.serving.findIdx (fun m => m = ownSeg s))
    segBase s w x seg + first.getD 0 + (if b.seg = some seg then b.segN / max 1 w else 0)

/-- R273, R277: a node joined with those before it that it completes. -/
def nodePush : Nat × Nat × List W32 → List (Nat × Nat × List W32) → List (Nat × Nat × List W32)
  | x, [] => [x]
  | x, y :: t =>
    if y.1 = x.1 ∧ x.2.1 = y.2.1 + 1 ∧ y.2.1 % 2 = 0 then nodePush (x.1 + 1, y.2.1 / 2, addTiles y.2.2 x.2.2) t else x :: y :: t

/-- R277: a node that may still grow: its enclosing node covers only blocks that this module serves. -/
def nodeGrows (served : List Nat) (x : Nat × Nat × List W32) : Bool :=
  (List.range (2 ^ (x.1 + 1))).all (fun i => decide (x.2.1 / 2 * 2 ^ (x.1 + 1) + i ∈ served))

/-- R277, R278: a buffer's block of an expert's tile: at the home it joins the tile's queue, elsewhere the nodes that the module
holds, of which those that are complete leave for the home. -/
def enterBlock (i : Fin 1024) (n : Fin 4) (w q : Nat) (k : ExpertRef × Nat) (tile : List W32) (s : State) : State :=
  match homeOf s k.1 with
  | none => s
  | some h =>
    if h = ownSeg s then
      let s := s.withLedger { s.ledger with tileQueue := s.ledger.tileQueue ++ [(k, 0, q, tile)] }
      enterNodes k s.ledger.tileQueue.length s
    else
      let st := getStall s i
      let b := st.bufs[n]
      let l := nodePush (0, q, tile) b.nodes
      let (stay, go) := l.partition (nodeGrows (servedBlocks s w k.1))
      emits (go.reverse.map (fun x => Out.cascadeNode h k.1 k.2 x.1 x.2.1 x.2.2))
        (setStall s i { st with bufs := st.bufs.set n { b with nodes := stay } })

/-- R277 to R279: a tile whose blocks this module has all added: elsewhere than at the home the buffer is FREE once its last node has
left; at the home it goes to DRAIN with the merged sum when every node has entered, and waits for its peers until then. The checker
values of blocks that another module serves are not at the home (DESIGN CHOICE: log 96). -/
def settleTile (i : Fin 1024) (n : Fin 4) (w : Nat) (s : State) : State :=
  let st := getStall s i
  let b := st.bufs[n]
  match b.tile with
  | none => s
  | some k =>
    if !b.complete || decide (b.state ≠ .accumulate) then s
    else if homeOf s k.1 ≠ some (ownSeg s) then
      if b.nodes = [] then setStall s i { st with bufs := st.bufs.set n {} } else s
    else
      let (c, next) := tileState s k
      if tileKnown s k.1 && decide (next = passBlocks w (expertPasses s k.1)) then
        (setStall s i { st with
          bufs := st.bufs.set n { b with state := .drain, vals := tileMerge c, cascade := [], checks := [], tile := none },
          wait := none, busy := true }).withLedger { s.ledger with tiles := s.ledger.tiles.filter (fun t => decide (t.1 ≠ k)) }
      else stallWaits i waitPeer s

/-- R277: the buffers of this module that sum a tile. -/
def tileHolders (s : State) (k : ExpertRef × Nat) : List (Fin 1024 × Fin 4) :=
  s.stalls.flatMap (fun p => if h : p.1 < 1024 then
    ((List.finRange 4).filter (fun n => decide ((p.2.bufs[n]).tile = some k))).map (fun n => (⟨p.1, h⟩, n)) else [])

/-- R278, R279: a node arrives at the home's cascade of a tile, and the tile may be whole. -/
def cascadeNode (x : ExpertRef) (tile level index : Nat) (values : List W32) (s : State) : State :=
  let k := (x, tile)
  let w := ((s.load.prog.bind (fun p => p.layers.find? (fun l => decide (rtLayer l.desc = x.layer)))).map (·.width)).getD 1
  let s := s.withLedger { s.ledger with tileQueue := s.ledger.tileQueue ++ [(k, level, index, values)] }
  (tileHolders s k).foldl (fun s h => settleTile h.1 h.2 w s) (enterNodes k s.ledger.tileQueue.length s)

/-- CASCADE_NODE (R278). -/
def execCascadeNode (x : ExpertRef) (tile level index : Nat) (values : List W32) (s : State) : Result :=
  .next (cascadeNode x tile level index values s)

/-- R277: a buffer after a block of an expert's tile: the sum lies in the tile's cascade. -/
def tileBuf (p : BlockPass) (k : ExpertRef × Nat) (b : Buf) : Buf :=
  { b with
    state := .accumulate, blocks := b.blocks + 1, complete := p.last, tile := some k,
    seg := p.seg, segN := (if p.seg = b.seg then b.segN else 0) + p.positions }

/-- R277 to R279: a block of an expert's weight-gradient tile in buffer n. -/
def tileBlock (i : Fin 1024) (p : BlockPass) (k : ExpertRef × Nat) (n : Fin 4) (tile : List W32) (s : State) : State :=
  let st := getStall s i
  let b := st.bufs[n]
  let w := classWidth p.a.fmt
  let q := blockNumber s p k.1 b
  settleTile i n w (enterBlock i n w q k tile (setStall s i { st with bufs := st.bufs.set n (tileBuf p k b) }))

/-! ### WEIGHT_BLOCK_PASS (R26 to R32) -/

/-- R29, R32: why a buffer cannot take products now. -/
def bufWait (b : Buf) : Option (Fin 14) :=
  match b.state with
  | .drain => some waitOutput
  | .preload => match b.src with
    | .cellar => some waitCellar
    | .stream _ => some waitInput
  | _ => none

/-- R27, R28, R97, R100, R101, R468: one block's tile enters a buffer with its checker values; the tile's last product completes
it (R31), a chain's preload counting at its stall 0 alone. -/
def bufBlock (p : BlockPass) (j : Nat) (tile : List W32) (b : Buf) : Buf :=
  let b := { b with
    state := .accumulate, chain := p.chain, blocks := b.blocks + 1, cascade := tilePush tile 0 b.cascade,
    checks := tilePush (checkTile p j) 0 b.checks,
    seg := p.seg, segN := (if p.seg = b.seg then b.segN else 0) + p.positions }
  if p.last then
    match p.chain with
    | some (c, _) =>
      { b with vals := tileResult { b with preloaded := b.preloaded && decide (c = 0) }, cascade := [], checks := [],
               preloaded := false, complete := true }
    | none => { b with state := .drain, vals := tileResult b, cascade := [], checks := [], complete := true }
  else b

/-- The buffers that a pass targets: one for each 64 rows. -/
def passBufs (p : BlockPass) : List (Fin 4 × Nat) := (p.bufs.take ((p.rows.length + 63) / 64)).zipIdx

/-- R55, R96: a block continues its buffer's segment, whose blocks so far are full, or begins one that follows it. -/
def segOk (p : BlockPass) (b : Buf) : Bool :=
  match p.seg, b.seg with
  | some x, some y => (decide (x = y) && decide (b.segN % classWidth p.a.fmt = 0)) || segFollows y x
  | _, _ => true

/-- R48, R96, R101, R106: what the numeric plan says of a block: the stall's place in the chain and whether it is the stall's last block
of the tile, which for an expert's weight gradient follows from the grants. -/
def planPlaces (s : State) (i : Fin 1024) (st : Stall) (p : BlockPass) (b : Buf) : Bool :=
  match s.load.plan.bind (fun x => x.clauses[st.ctx]?) with
  | none => true
  | some c =>
    let j := stallRole s i st.ctx % max 1 c.splitK
    let (lo, hi) := chainBlocks j c.blocks c.splitK
    decide (p.chain = if 1 < c.splitK then some (j, c.splitK) else none) &&
    (if gradientClause s st && p.batch.isSome then
      p.batch.all (fun x =>
        let e : ExpertRef := { layer := x.1.layer, expert := x.2.1 }
        decide (p.last = (tileKnown s e && decide (b.blocks + 1 = (servedBlocks s (classWidth p.a.fmt) e).length))))
    else decide (c.blocks = 0) || decide (p.last = decide (lo + b.blocks + 1 = hi)))

/-- R98: the entries of a stall's cascade store in use once each buffer of a pass has taken a block. -/
def cascadeUse (st : Stall) (p : BlockPass) : Nat :=
  ((List.finRange 4).map (fun n =>
    if (passBufs p).any (fun x => decide (x.1 = n)) then (tilePush [] 0 (st.bufs[n]).cascade).length
    else (st.bufs[n]).cascade.length + (st.bufs[n]).nodes.length)).foldl (· + ·) 0

/-- R26, R44, R55, R96, R98, R106: a pass that the stall's clause and the numeric plan give: at most 256 rows, a buffer of its own
for each 64 of them, a GEMM clause, the plan's blocks in their order, and room in the cascade store. -/
def passOk (s : State) (i : Fin 1024) (p : BlockPass) : Bool :=
  let st := getStall s i
  !underTest s i.val && decide (p.rows.length ≤ 256) && decide (p.rows.length ≤ 64 * p.bufs.length) && decide p.bufs.Nodup &&
  decide (p.positions ≤ classWidth p.a.fmt) && decide (cascadeUse st p ≤ 32) &&
  (match stallClause s st with
    | some c => c.gemm.isSome
    | none => true) &&
  (passBufs p).all (fun x => segOk p st.bufs[x.1] && planPlaces s i st p st.bufs[x.1])

/-- R62: the rows of an expert's pass are rows that one half's batch holds for that pass. -/
def halfRows (s : State) (p : BlockPass) : Bool :=
  match p.batch with
  | none => true
  | some (key, e, pass) =>
    let held := fun (v : Serve) => (v.rows.filter (fun r => decide (r.expert = e) && decide (r.pass = pass))).length
    (s.ledger.batches.find? (fun b => b.key = key)).any (fun b => decide (p.rows.length ≤ max (held b.fwd) (held b.bwd))) &&
    p.seg.all (fun x => decide (x.half = key.half))

/-- R232, R235: the rows of a pass belong to an expert's pass that has not started, for want of rows. -/
def rowsAwaited (s : State) (p : BlockPass) : Bool :=
  match p.batch with
  | none => false
  | some (key, e, pass) => (s.ledger.batches.find? (fun b => b.key = key)).any (fun b =>
      decide ((e, pass) ∉ (if b.backward then b.bwd.started else b.fwd.started)))

/-- R65: the rows of a pass belong to an expert whose fetch from the far tier is not complete. -/
def expertAway (s : State) (p : BlockPass) : Bool :=
  match p.batch with
  | none => false
  | some (key, e, _) => s.ledger.fetches.any (fun f => decide (f.1 = { layer := key.layer, expert := e }) && !f.2)

/-- R300: the layer of a clause: its first sentence (DESIGN CHOICE: log 93). -/
def layerOfClause (s : State) (clause : Nat) : Nat :=
  (s.load.prog.map (fun p => p.sentences.findIdx (fun x => decide (clause ∈ x.clauses)))).getD 0

/-- R299: a clause whose weights this member holds only in part, as one of several replicas, and must gather. -/
def gathers (s : State) (clause : Nat) : Bool :=
  decide (1 < cutD s) && (weightTensor s clause).any (fun t =>
    decide (t.role = .param) && decide ((heldSections s t).length < sectionCount t))

/-- R300: the layers of the step that gather, in execution order. -/
def gatherLayers (s : State) : List Nat :=
  ((s.load.prog.map (·.sentences)).getD []).zipIdx.filterMap (fun x =>
    if x.1.clauses.any (gathers s) then some x.2 else none)

/-- R300: a layer that starts asks for its own gather and for those up to PREFETCH places ahead, each once in a step. -/
def askGathers (clause : Nat) (s : State) : State :=
  if !gathers s clause then s
  else
    let t := layerOfClause s clause
    let due := ((List.range (((s.load.plan.map (·.prefetch)).getD 0) + 1)).map (t + ·)).filter (fun l =>
      decide (l ∉ s.ledger.asked) && decide (l ∈ gatherLayers s))
    emits (due.map .gatherStart) (s.withLedger { s.ledger with asked := s.ledger.asked ++ due })

/-- R300: a pass that is due before its layer's gather is complete. -/
def gatherAwaited (s : State) (clause : Nat) : Bool := gathers s clause && decide (layerOfClause s clause ∉ s.ledger.gathered)

/-- R39: the bits that the rows of a pass take from their stream. -/
def rowBits (p : BlockPass) : Nat := (p.rows.map (fun r => fmtBits p.a.fmt * r.length)).foldl (· + ·) 0

/-- R39: the rows of a pass as their stream brings them, row after row. -/
def streamRows (q : InStream) (a : OperandFmt) (rows : List (List W16)) : List (List W16) :=
  (rows.foldl (fun (x : List (List W16) × Nat) r =>
    (x.1 ++ [(List.range r.length).map (fun k => BitVec.ofNat 16 (bitsAt (queueBytes q) (x.2 + fmtBits a.fmt * k) (fmtBits a.fmt)))],
     x.2 + fmtBits a.fmt * r.length)) ([], q.pos)).1

/-- R53: the resident weight block of a stall's clause at a place of its tensor. -/
def thinBlock (s : State) (i : Fin 1024) (st : Stall) (p : BlockPass) : Option Region :=
  s.load.phys.bind (fun m => m.regions.find? (fun r =>
    decide (r.stall = i) && decide (r.clause = st.ctx) && decide (r.kind = .thin p.n0 p.k0)))

/-- R21, R52, R53: the weights of a pass: from the stall store in thin mode, else from the Cellars as the last commit left them; a
code that this module holds in neither, of an operand formed in the step or gathered from a peer, is the operand's. -/
def passWeights (s : State) (i : Fin 1024) (st : Stall) (p : BlockPass) : List (List W16) :=
  match weightTensor s st.ctx with
  | none => p.weights
  | some t =>
    let depth := (p.weights.headD []).length
    match thinBlock s i st p with
    | some r => (List.range 32).map (fun n => (List.range depth).map (fun j =>
        BitVec.ofNat 16 (memBits st.store (8 * r.base + fmtBits t.fmt * (n * depth + j)) (fmtBits t.fmt))))
    | none => (blockCodes s t.tid (rowLen t.dims) depth p.n0 p.k0 (fun n j => ((p.weights.getD n []).getD j 0).toNat)).map
        (fun l => l.map (BitVec.ofNat 16))

/-- R203: the committed sections that a pass reads its weights from. -/
def weightSections (s : State) (ctx : Nat) (p : BlockPass) : List Section :=
  match weightTensor s ctx with
  | none => []
  | some t =>
    let k := rowLen t.dims
    let depth := (p.weights.headD []).length
    let reads := (List.range 32).flatMap (fun n => [(p.n0 + n) * k + p.k0, (p.n0 + n) * k + p.k0 + depth - 1])
    (if isState t.role then committed s else s.tens.plain).filter (fun x => decide (x.desc.tid = t.tid) &&
      reads.any (fun e => decide (x.desc.base ≤ e) && decide (e < x.desc.base + x.desc.elems)))

/-- R21, R39: a pass with the rows and the weights that the module reads for it. -/
def passData (s : State) (i : Fin 1024) (p : BlockPass) : BlockPass :=
  let st := getStall s i
  { p with
    weights := passWeights s i st p,
    rows := match p.stream with
      | some id => streamRows (sget {} st.ins id) p.a p.rows
      | none => p.rows }

/-- R38, R39: a stream whose elements an engine pass or a preload lacks: those that have arrived leave their slots, and the stall
waits. -/
def streamShort (i : Fin 1024) (id : Nat) (s : State) : State :=
  let st := getStall s i
  let q := sget {} st.ins id
  let s := setStall s i { st with ins := sput {} st.ins id { q with taken := queueBytes q, queue := [] } }
  stallWaits i waitInput ((List.replicate q.queue.length (id, q.producer)).foldl (fun s c => returnCredit i c s) s)

/-- R38: n bits of a stream consumed by a stall; the credits of the slots freed return. -/
def consumeStream (i : Fin 1024) (id n : Nat) (s : State) : State :=
  let st := getStall s i
  let (q, freed) := consumeBits (sget {} st.ins id) n
  (List.replicate freed (id, q.producer)).foldl (fun s c => returnCredit i c s)
    (setStall s i { st with ins := sput {} st.ins id q })

/-- R39: whether a stream lacks bits that a pass or a preload takes. -/
def streamLacks (st : Stall) (id n : Nat) : Bool :=
  let q := sget {} st.ins id
  decide (8 * (queueBytes q).length < q.pos + n)

/-- R29, R32, R39, R58, R65, R140, R235, R300: why a pass cannot run now. -/
def passWait (s : State) (i : Fin 1024) (p : BlockPass) : Option (Fin 14) :=
  let st := getStall s i
  match (passBufs p).findSome? (fun x => bufWait st.bufs[x.1]) with
  | some cause => some cause
  | none =>
    if expertAway s p then some waitExpertFetch
    else if rowsAwaited s p then some waitInput
    else if ringWaits s st.ctx || gatherAwaited s st.ctx then some waitPeer
    else outputWait st

/-- R26 to R32, R467, R468: the rows of one weight block run into their buffers and are checked; a tile that is complete is checked
against its checker cascade. -/
def runPass (i : Fin 1024) (p : BlockPass) (s : State) : State :=
  let st := getStall s i
  let d := passData s i p
  let y := passResults d ((List.range d.rows.length).flatMap (rowResult d))
  if (tileOf s st d 0).isSome then
    let s := setStall s i { st with busy := true, wait := none }
    let s := match p.stream with
      | some id => consumeStream i id (rowBits p) s
      | none => s
    checkDetected i 3 (blockCheck d y) ((passBufs d).foldl (fun s x => match tileOf s st d x.2 with
      | some k => tileBlock i d k x.1 ((y.drop (2048 * x.2)).take 2048) s
      | none => s) s)
  else
  let bufs := (passBufs d).foldl (fun (y' : Vector Buf 4) x =>
    y'.set x.1 (bufBlock d x.2 ((y.drop (2048 * x.2)).take 2048) y'[x.1])) st.bufs
  let checks := (passBufs d).filterMap (fun x =>
    if d.last then
      drainCheck (tileMerge (tilePush ((y.drop (2048 * x.2)).take 2048) 0 (st.bufs[x.1]).cascade))
        (tileMerge (tilePush (checkTile d x.2) 0 (st.bufs[x.1]).checks))
    else none)
  let s := setStall s i { st with bufs := bufs, busy := true, wait := none }
  let s := match p.stream with
    | some id => consumeStream i id (rowBits p) s
    | none => s
  let s := (passBufs d).foldl (fun s x => chainStep i x.1 s) s
  checkDetected i 4 checks.head? (checkDetected i 3 (blockCheck d y) s)

/-- R26 to R32: a weight block's pass, or why the engine waits. A pass that the clause and the plan do not give, a preload-only
buffer (R28) and a tile that is complete take no product; a sentence that a decision has not chosen does not run; of weights whose
seal fails no result is released (R206). -/
def weightPass (i : Fin 1024) (p : BlockPass) (s : State) : State :=
  let st := getStall s i
  if !passOk s i p then s
  else
    match clauseChosen s st.ctx with
    | some false => s
    | none => stallWaits i waitInput s
    | some true =>
      let s := askGathers st.ctx (openRing st.ctx s)
      match passWait s i p with
      | some cause => stallWaits i cause s
      | none =>
        if !halfRows s p || (passBufs p).any (fun x => (st.bufs[x.1]).only || (st.bufs[x.1]).complete) then s
        else if (weightSections s st.ctx p).any (unsound s) then unsoundFailure (.stall i) (weightSections s st.ctx p) s
        else
          match p.stream with
          | some id => if streamLacks st id (rowBits p) then streamShort i id s else runPass i p s
          | none => runPass i p s

/-- WEIGHT_BLOCK_PASS (R26). -/
def execWeightBlockPass (i : Fin 1024) (p : BlockPass) (s : State) : Result := .next (weightPass i p s)

/-! ### Preloads (R28 to R30) -/

/-- R30: the formats that a preload reads. -/
def preloadFmtOk : Fmt → Bool
  | .a32 | .bf16 | .fp16 => true
  | _ => false

/-- R44, R101: a preload that the stall's clause issues: of a GEMM clause, and in a chain at its stall 0. -/
def preloadOk (s : State) (i : Fin 1024) : Bool :=
  let st := getStall s i
  !underTest s i.val &&
  (match stallClause s st with
    | some c => c.gemm.isSome
    | none => true) &&
  (match s.load.plan.bind (fun x => x.clauses[st.ctx]?) with
    | some c => decide (c.splitK ≤ 1) || decide (stallRole s i st.ctx % max 1 c.splitK = 0)
    | none => true)

/-- R28: a preload issued for a FREE buffer. -/
def preloadIssue (i : Fin 1024) (n : Fin 4) (src : PreloadSrc) (f : Fmt) (only : Bool) (s : State) : State :=
  let st := getStall s i
  if (st.bufs[n]).state = .free ∧ preloadFmtOk f = true ∧ preloadOk s i = true then
    setStall s i { st with bufs := st.bufs.set n { state := .preload, src := src, fmt := f, only := only } }
  else s

/-- PRELOAD_ISSUE (R28). -/
def execPreloadIssue (i : Fin 1024) (n : Fin 4) (src : PreloadSrc) (f : Fmt) (only : Bool) (s : State) : Result :=
  .next (preloadIssue i n src f only s)

/-- R30: the codes of a preload of n elements: a Cellar's as they come, a stream's from its queue. -/
def preloadCodes (st : Stall) (b : Buf) (codes : List W32) : List W32 :=
  match b.src with
  | .cellar => codes
  | .stream id =>
    let q := sget {} st.ins id
    (List.range codes.length).map (fun k =>
      BitVec.ofNat 32 (bitsAt (queueBytes q) (q.pos + fmtBits b.fmt * k) (fmtBits b.fmt)))

/-- R28, R30, R39, R100: the last preloaded element is written: ACCUMULATE, or DRAIN for a preload-only buffer. A preload from a
stream takes its elements from the queue, or waits for them. -/
def preloadComplete (i : Fin 1024) (n : Fin 4) (codes : List W32) (s : State) : State :=
  let st := getStall s i
  let b := st.bufs[n]
  if b.state = .preload then
    let vals := (preloadCodes st b codes).map (fun c => toA32 (decode b.fmt c.toNat))
    let b' := { b with vals := vals, preloaded := true, state := if b.only then .drain else .accumulate }
    let s' := setStall s i { st with bufs := st.bufs.set n b', wait := none }
    match b.src with
    | .cellar => s'
    | .stream id =>
      if streamLacks st id (fmtBits b.fmt * codes.length) then streamShort i id s
      else consumeStream i id (fmtBits b.fmt * codes.length) s'
  else s

/-- PRELOAD_COMPLETE (R28). -/
def execPreloadComplete (i : Fin 1024) (n : Fin 4) (codes : List W32) (s : State) : Result :=
  .next (preloadComplete i n codes s)

/-! ### RUNNING_SUM (R48, R49) -/

/-- R48, R49: the running sum c_{j−1} has arrived whole at a stall of a chain: it waits in the receive queue until the buffer's
partial tile is complete, and is then added. -/
def runningSum (i : Fin 1024) (n : Fin 4) (c : List W32) (s : State) : State :=
  let st := getStall s i
  chainStep i n (setStall s i { st with sums := sput [] st.sums n.val (sget [] st.sums n.val ++ [c]) })

/-- RUNNING_SUM (R48). -/
def execRunningSum (i : Fin 1024) (n : Fin 4) (c : List W32) (s : State) : Result := .next (runningSum i n c s)

/-! ### DRAIN_ELEMENT (R74 to R90) -/

/-- R79: the linear index of an element of the tile, from the index of the tile's first element. -/
def drainIdx (d : DrainElem) (row col : Nat) : Nat := d.rowBase + row * d.rowLen + col

/-- R638: the region of a stall's store that holds a column vector's 32 values for the columns of a tile. -/
def columnRegion (s : State) (i : Fin 1024) (d : DrainElem) (tid : W64) : Option Region :=
  s.load.phys.bind (fun m => m.regions.find? (fun r =>
    decide (r.stall = i) && decide (r.kind = .column tid (if d.rowLen = 0 then 0 else d.rowBase % d.rowLen))))

/-- R638: the value of a column vector for a column of the tile: from the stall's region, filled before the first drain; the
tensor's own where no placement stands. -/
def columnValue (s : State) (i : Fin 1024) (d : DrainElem) (tid : W64) (col : Nat) : W32 :=
  match columnRegion s i d tid with
  | some r => BitVec.ofNat 32 (leNat (readBytes (getStall s i).store (r.base + 4 * col) 4))
  | none => BitVec.ofNat 32 ((readCode s tid ((if d.rowLen = 0 then 0 else d.rowBase % d.rowLen) + col)).getD 0)

/-- R638: the placer fills a stall's region of a column vector before the drain of a tile begins. -/
def fillColumn (i : Fin 1024) (d : DrainElem) (tid : W64) (s : State) : State :=
  match columnRegion s i d tid with
  | none => s
  | some r =>
    let first := if d.rowLen = 0 then 0 else d.rowBase % d.rowLen
    let bytes := (List.range 32).flatMap (fun c => natLe 4 ((readCode s tid (first + c)).getD 0))
    setStall s i { getStall s i with store := writeBytes (getStall s i).store r.base bytes }

/-- R638: the column vectors of a drain descriptor are in place: filled when the tile's first element leaves. -/
def fillColumns (i : Fin 1024) (d : DrainElem) (b : Buf) (s : State) : State :=
  if b.readSet = [] then
    let s := if dcScaleSrc d.desc.control = 2 then fillColumn i d d.desc.scaleTid s else s
    if dcBiasSrc d.desc.control = 2 then fillColumn i d d.desc.biasTid s else s
  else s

/-- R76, R638: the per-column scale and bias of a column of the tile. -/
def drainScale (s : State) (i : Fin 1024) (d : DrainElem) (col : Nat) : W32 :=
  if dcScaleSrc d.desc.control = 2 then columnValue s i d d.desc.scaleTid col else 0
def drainBias (s : State) (i : Fin 1024) (d : DrainElem) (col : Nat) : W32 :=
  if dcBiasSrc d.desc.control = 2 then columnValue s i d d.desc.biasTid col else 0

/-- R76: v of an element of the tile's row, after clipping. -/
def drainVal (s : State) (i : Fin 1024) (d : DrainElem) (b : Buf) (row col : Nat) : Val :=
  drainClip d.desc (drainAffine d.desc (drainScale s i d col) (drainBias s i d col) (b.vals.getD (32 * row + col) 0))

/-- R76, R87, R88: the conversion of the element and, for a block-scaled output, its block's scale. -/
def drainConv (s : State) (i : Fin 1024) (w : TensorWrite) (d : DrainElem) (b : Buf) : Conv × Option Byte :=
  let dc := d.desc.control
  let x := b.vals.getD (32 * d.row + d.col) 0
  if dcMxOut dc then
    let cols := List.range d.tileCols
    let (sc, cs) := mxBlock (dcFmt dc) (dcRm dc) (dcSpec dc) (cols.map (drainVal s i d b d.row))
      (cols.map (fun c => writeDraw s w (drainIdx d d.row c)))
    (markNonfinite x (cs.getD d.col { code := 0 }), some sc)
  else
    (drainPlain d.desc (drainScale s i d d.col) (drainBias s i d d.col) (writeDraw s w (drainIdx d d.row d.col)) x, none)

/-- R31: the buffer after an element has been read: FREE once every element of the tile has been. -/
def bufRead (d : DrainElem) (b : Buf) : Buf :=
  let rs := b.readSet ++ [32 * d.row + d.col]
  if d.tileRows * d.tileCols ≤ rs.length then {} else { b with readSet := rs }

/-- R31, R121: an element that the drain path may take: of a buffer in DRAIN that no verb's span reads, and not yet read. -/
def drainOk (s : State) (i : Fin 1024) (n : Fin 4) (d : DrainElem) : Bool :=
  let st := getStall s i
  let b := st.bufs[n]
  !underTest s i.val && decide (b.state = .drain) && decide (d.row < d.tileRows) && decide (d.col < d.tileCols) && decide (d.tileCols ≤ 32) &&
  decide (32 * d.row + d.col ∉ b.readSet) && !(st.span.any (fun sp => decide (n ∈ sp.init.accs))) &&
  !(gradientClause s st && (sget none (openWrite s d.tid none).codes (drainIdx d d.row d.col)).isSome)

/-- R22, R31, R76: an element of a buffer in DRAIN leaves through the drain path, once; into the shadow buffer it waits for a
snapshot drain (in part DESIGN CHOICE: log 29). -/
def drainElement (i : Fin 1024) (n : Fin 4) (d : DrainElem) (s : State) : State :=
  if !drainOk s i n d then s
  else if shadowWaits s d.tid then stallWaits i waitPeer s
  else
    let b := (getStall s i).bufs[n]
    let s := fillColumns i d b s
    let st := getStall s i
    let dc := d.desc.control
    let w := openWrite s d.tid (if dcRm dc = .sr then some (dcStream dc) else none)
    let (c, sc) := drainConv s i w d b
    let idx := drainIdx d d.row d.col
    let w := enterElem (dcFmt dc) i.val w idx c
    let w := match sc with
      | some x => enterScale w (blockOf d.rowLen idx) x
      | none => w
    keepWrite d.tid d.elems w (setStall s i { st with bufs := st.bufs.set n (bufRead d b), busy := true, wait := none })

/-- DRAIN_ELEMENT (R76). -/
def execDrainElement (i : Fin 1024) (n : Fin 4) (d : DrainElem) (s : State) : Result := .next (drainElement i n d s)

/-! ### Streams (R38 to R42) -/

/-- R38, R39, R41, R42: a producer sends a flit when it holds a credit from every consumer, else it waits. The module numbers the
flit and seals the stream. -/
def streamSend (i : Fin 1024) (id : Nat) (f : StreamFlit) (s : State) : State :=
  let st := getStall s i
  let o := sget {} st.outs id
  if o.credits = [] then s
  else if hasCredits o 1 && decide (o.backlog = []) then sendFlits i id [f] (setStall s i { st with wait := none, busy := true })
  else stallWaits i waitOutput s

/-- STREAM_FLIT_SEND (R38). -/
def execStreamFlitSend (i : Fin 1024) (id : Nat) (f : StreamFlit) (s : State) : Result := .next (streamSend i id f s)

/-- R134, R135: the wait of a stall whose span runs: that of its next instruction; of a stall without a span, none. -/
def waitNow (s : State) (st : Stall) : Option (Fin 14) :=
  match st.span with
  | none => outputWait st
  | some sp => match sp.header.instrs[sp.pc]? with
    | some w => operandsWait s st sp (iwSources w)
    | none => outputWait st

/-- R39, R135: a flit or a credit has arrived: the stall waits on for what its instruction still lacks. -/
def settleWait (i : Fin 1024) (cause : Fin 14) (s : State) : State :=
  let st := getStall s i
  if st.wait = some cause then setStall s i { st with wait := waitNow s st } else s

/-- R38: a consumer's credit has arrived at the producer: at most Q are held, and flits that waited for it leave. -/
def creditReturn (i : Fin 1024) (id consumer : Nat) (s : State) : State :=
  let st := getStall s i
  match takeFlit (fun l => decide (l = .credit id consumer)) st.arrived with
  | none => s
  | some (_, rest) =>
    let o := sget {} st.outs id
    let o' := { o with credits := o.credits.map (fun c => if c.1 = consumer then (c.1, min o.q (c.2 + 1)) else c) }
    settleWait i waitOutput (flushStream i id o.backlog.length (setStall s i { st with
      outs := sput {} st.outs id o', arrived := rest }))

/-- CREDIT_RETURN (R38). -/
def execCreditReturn (i : Fin 1024) (id consumer : Nat) (s : State) : Result := .next (creditReturn i id consumer s)

/-- The number of a stream that an Aisle load belongs to. -/
def isStream (id : Nat) : AisleLoad → Bool
  | .stream n _ => decide (n = id)
  | _ => false

/-- R37, R42: a stream at its consumer after a flit: what it has received of the tensor, which ends with the last flit. -/
def queueFlit (q : InStream) (f : StreamFlit) : InStream :=
  { q with
    queue := q.queue ++ [f], scales := q.scales ++ f.scales, got := if f.last then 0 else q.got + 1,
    content := if f.last then [] else q.content ++ f.bytes, seen := if f.last then [] else q.seen ++ f.scales }

/-- R37, R38, R42: a flit of a stream has come to the stall's port: the consumer queues the stream's next flit, and at its last
flit compares the carried seal with the one it forms over what it has received. The bytes are those that arrive. -/
def streamReceive (i : Fin 1024) (id : Nat) (f : StreamFlit) (s : State) : State :=
  let st := getStall s i
  let q := sget {} st.ins id
  match takeFlit (isStream id) st.arrived with
  | none => s
  | some (_, rest) =>
    if f.idx ≠ q.got then s
    else
      let s := settleWait i waitInput (setStall s i { st with ins := sput {} st.ins id (queueFlit q f), arrived := rest })
      let own := streamSeal s f.tid (q.content ++ f.bytes) (q.seen ++ f.scales) f.record
      if f.last && decide (f.carried ≠ own) then
        sealFailure (.stall i) (stallUnit q.producer) f.tid f.sec f.carried own s
      else s

/-- STREAM_FLIT_RECEIVE (R42). -/
def execStreamFlitReceive (i : Fin 1024) (id : Nat) (f : StreamFlit) (s : State) : Result :=
  .next (streamReceive i id f s)

/-! ### Contexts (R45) -/

/-- The place of a clause's first sentence in the program. -/
def clauseOrder (s : State) (clause : Nat) : Nat :=
  ((s.load.prog.map (fun p => p.sentences.findIdx (fun x => decide (clause ∈ x.clauses)))).getD 0)

/-- R45: the contexts of a stall follow each other in sentence order, and after the last its first comes again. -/
def nextContext (s : State) (st : Stall) (ctx : Nat) : Bool :=
  let later := st.contexts.filter (fun c => decide (clauseOrder s st.ctx < clauseOrder s c))
  if later = [] then st.contexts.all (fun c => decide (clauseOrder s ctx ≤ clauseOrder s c))
  else decide (ctx ∈ later) && later.all (fun c => decide (clauseOrder s ctx ≤ clauseOrder s c))

/-- R45: at a tensor boundary a stall switches to the context that is next in sentence order; the time counts as WAIT_INPUT. -/
def contextSwitch (i : Fin 1024) (ctx : Nat) (s : State) : State :=
  let st := getStall s i
  if !underTest s i.val && atBoundary s st && decide (ctx ∈ st.contexts) && nextContext s st ctx then
    setStall s i { st with ctx := ctx, busy := false, wait := some waitInput }
  else s

/-- CONTEXT_SWITCH (R45). -/
def execContextSwitch (i : Fin 1024) (ctx : Nat) (s : State) : Result := .next (contextSwitch i ctx s)

end Sys2Proof.Machine
end

