-- ==== Sys2Proof/Machine/Footprint.lean ====
section
/-! DEFINITION. The contents of the two tiers and their footprints (R183, R188, R189): what a member of a candidate cut stores
of each row of the table of R183, with a header of 128 bytes for every stored section. -/

namespace Sys2Proof.Machine

/-- R144, R183: the bytes of one moment: 2 for BF16 moments, 1 for FP8 ones. A program whose moments differ takes the larger, and
one without a moment tensor BF16 (DESIGN CHOICE: log 93). -/
def momentBytes (p : Program) : Nat :=
  let m := p.tensors.filter (fun t => t.role = .moment)
  if m.isEmpty || m.any (fun t => t.fmt = .bf16) then 2 else 1

/-- R183: the bytes of both buffers of one parameter's state: 14 with BF16 moments, 10 with FP8 moments. -/
def paramBytes (p : Program) : Nat := 2 * (2 + 1 + 2 * momentBytes p)

/-- R153, R296: the sections of a tensor that a member holds where a plan cuts it as `holds` says. -/
def shareOf (holds : List (Nat × W64 × Nat × Nat)) (m : Nat) (t : TensorDecl) : List Nat :=
  match holds.find? (fun x => decide (x.1 = m) && decide (x.2.1 = t.tid)) with
  | some x => (List.range x.2.2.2).map (x.2.2.1 + ·)
  | none => List.range (sectionCount t)

/-- R188, R202: the bytes of a stored section with its header. -/
def storedBytes (t : TensorDecl) (i : Nat) : Nat :=
  let d := sectionDesc t i 0
  packedBytes t.fmt d.elems + (if t.mx then scaleCount (rowLen t.dims) d.base d.elems else 0) + 128

/-- R188: the bytes of a member's share of the tensors that a test selects. -/
def shareBytes (p : Program) (holds : List (Nat × W64 × Nat × Nat)) (m : Nat) (f : TensorDecl → Bool) : Nat :=
  ((p.tensors.filter f).map (fun t => ((shareOf holds m t).map (storedBytes t)).foldl (· + ·) 0)).foldl (· + ·) 0

/-- The elements of a member's share of the parameters. -/
def shareParams (p : Program) (holds : List (Nat × W64 × Nat × Nat)) (m : Nat) : Nat :=
  ((p.tensors.filter (fun t => t.role = .param)).map (fun t =>
    ((shareOf holds m t).map (fun i => (sectionDesc t i 0).elems)).foldl (· + ·) 0)).foldl (· + ·) 0

/-- R300: the parameters that a member gathers for the largest layer, a layer being a sentence of the training step
(DESIGN CHOICE: log 93). -/
def largestLayer (p : Program) : Nat :=
  ((p.sentences.filter (fun x => x.kind = .training)).map (fun x =>
    let tids := ((x.clauses.filterMap (fun c => p.clauses[c]?)).filterMap (fun c => c.gemm.bind (·.weights))).eraseDups
    ((p.tensors.filter (fun t => decide (t.tid ∈ tids) && decide (t.role = .param))).map (fun t =>
      ((List.range (sectionCount t)).map (storedBytes t)).foldl (· + ·) 0)).foldl (· + ·) 0)).foldl max 0

/-- R377: the carry region of an ADD_LATER entry: its largest contribution in WFMT. -/
def carryBytes (e : CollEntry) : Nat :=
  if e.flags.toNat / 4 % 4 = 1 then
    match fmtOfCode e.wfmt with
    | some f =>
      let t : TensorDecl := { tid := e.tensor, fmt := f, mx := false, dims := [e.count], role := .gradient, far := true }
      ((List.range (sectionCount t)).map (storedBytes t)).foldl (· + ·) 0
    | none => 0
  else 0

/-- The bytes of one row of a layer's input. -/
def rowBytes (l : ExpertLayer) : Nat := packedBytes l.inFmt.fmt l.inLen + (if l.inFmt.mx then (l.inLen + 31) / 32 else 0)

/-- R227: the bound on the passes of one expert of a layer. -/
def deferBound (l : ExpertLayer) (q : Nat) : Nat :=
  let t := q * tokensMax l
  if rtDefer l.desc then ceilDiv (t * rtK l.desc) (max 1 (capacity l.desc t)) else 1

/-- R227, R231, R234: the deferred staging of a layer at the DEFER bound: a record of every choice of one micro-batch's tokens, where
passes beyond the window of two are possible. -/
def stagingBytes (l : ExpertLayer) (q : Nat) : Nat :=
  if 2 < deferBound l q then l.bound * rtK l.desc * (64 + rowBytes l) else 0

/-- R222, R234, R248: the expert input regions of a layer at C_BOUND: both halves, and of each the running pass and the next
(DESIGN CHOICE: log 93). -/
def inputRegionBytes (l : ExpertLayer) (q served : Nat) : Nat :=
  (if rtHalve l.desc then 2 else 1) * min 2 (deferBound l q) * served * capacity l.desc (q * tokensMax l) * rowBytes l

/-- R183, R248: the content rows that a member stores in the near tier, as (row, bytes); the expert input regions count among the
activations, and the reserve of row 1 is not counted against the
capacity that is left after it. -/
def nearRows (p : Program) (holds : List (Nat × W64 × Nat × Nat)) (served : List (ExpertLayer × Nat)) (depth q d m : Nat) :
    List (Nat × Nat) :=
  [(2, 2 * shareBytes p holds m (fun t => isState t.role && !t.far)), (3, p.expertPool * paramBytes p),
   (4, if 1 < d then depth * largestLayer p else 0),
   (5, shareBytes p holds m (fun t => t.role = .activation) + (served.map (fun l => inputRegionBytes l.1 q l.2)).foldl (· + ·) 0),
   (6, (p.layers.map (fun l => stagingBytes l q)).foldl (· + ·) 0)]

/-- R183, R461: the content rows that a member stores in the far tier; the window and Ondarel's reserve are left out of the
capacity. Outer-loop state counts in site mode. -/
def farRows (p : Program) (holds : List (Nat × W64 × Nat × Nat)) (d m : Nat) (site : Bool) : List (Nat × Nat) :=
  let carries := (p.collectives.map carryBytes).foldl (· + ·) 0
  let snapshot := shareBytes p holds m (fun t => isState t.role)
  let ifPartner := fun (n : Nat) => if 1 < d then n else 0
  [(7, 2 * shareBytes p holds m (fun t => isState t.role && t.far)), (8, ifPartner (2 * snapshot)),
   (9, ifPartner (shareBytes p holds m (fun t => t.role = .param))), (10, carries), (11, ifPartner carries),
   (12, 2 * 0x40000000), (13, 8 * 0x40000000), (14, if site then 6 * shareParams p holds m else 0)]

/-- The bytes of content rows. -/
def rowTotal (l : List (Nat × Nat)) : Nat := (l.map (·.2)).foldl (· + ·) 0

/-- R189: the rows put before the first that is smaller. -/
def insertRow (x : Nat × Nat) : List (Nat × Nat) → List (Nat × Nat)
  | [] => [x]
  | y :: t => if y.2 < x.2 then x :: y :: t else y :: insertRow x t

/-- R189: the three largest contributors of a footprint. -/
def largestRows (l : List (Nat × Nat)) : List (Nat × Nat) :=
  ((l.filter (fun x => decide (0 < x.2))).foldr insertRow []).take 3

/-- R183: the near-tier bytes after the reserve of 8 MiB in each Cellar. -/
def nearCapacity : Nat := 1024 * (536870912 - 8388608)

/-- R183: the far-tier bytes after the window of 64 GiB and Ondarel's reserve of 16 GiB. -/
def farCapacity : Nat := 0x18000000000 - (64 + 16) * 0x40000000

end Sys2Proof.Machine
end

