-- ==== Sys2Proof/Machine/Residency.lean ====
section
/-! DEFINITION. The expert directory and its decisions at the step boundary (R250 to R263), copies of experts and gathers
of parameters (R299, R300). -/

namespace Sys2Proof.Machine

/-! ### The residency descriptor (R253) -/

def rdPromote (w : BitVec 192) : W32 := w.extractLsb' 160 32
def rdDemote (w : BitVec 192) : W32 := w.extractLsb' 128 32
def rdReplicate (w : BitVec 192) : W32 := w.extractLsb' 96 32
def rdUnreplicate (w : BitVec 192) : W32 := w.extractLsb' 64 32
def rdReserved (w : BitVec 192) : Bool := decide (w.extractLsb' 8 56 ≠ 0)
def rdMaxReplicas (w : BitVec 192) : Nat := (w.extractLsb' 4 4).toNat
def rdShift (w : BitVec 192) : Nat := (w.extractLsb' 0 4).toNat

/-- The loaded program's residency descriptor. -/
def residency (s : State) : BitVec 192 := (s.load.prog.map (·.residency)).getD 0

/-- An FP32 order: x below y. -/
def below32 (x y : W32) : Bool := Val.lt (ofA32 x) (ofA32 y)

/-- An FP32 order: x at or above y. -/
def atLeast32 (x y : W32) : Bool := fcmpHolds .ge x y

/-- R253: the refusals of a residency descriptor (in part DEDUCED: log 15). -/
def residencyBad (w : BitVec 192) : Bool :=
  let bad := fun x => isNonfinite32 x || below32 x 0
  bad (rdPromote w) || bad (rdDemote w) || bad (rdReplicate w) || bad (rdUnreplicate w) ||
  atLeast32 (rdDemote w) (rdPromote w) || atLeast32 (rdUnreplicate w) (rdReplicate w) ||
  fcmpHolds .eq (rdReplicate w) 0 || decide (8 < rdShift w) || decide (6 < rdMaxReplicas w) || rdReserved w

/-! ### The directory (R250, R251, R256) -/

/-- R216: the expert layer with an id. -/
def layerOf (s : State) (l : Nat) : Option ExpertLayer :=
  s.load.prog.bind (fun p => p.layers.find? (fun x => decide (rtLayer x.desc = l)))

/-- The place of a layer among the program's expert layers. -/
def layerPlace (s : State) (l : Nat) : Nat :=
  ((s.load.prog.map (·.layers)).getD []).findIdx (fun x => decide (rtLayer x.desc = l))

/-- A directory entry's name. -/
def dirRef (e : DirEntry) : ExpertRef := { layer := e.layer, expert := e.expert }

/-- R251: the code of a directory state. -/
def dirCode : DirState → Nat
  | .far => 0 | .fetching => 1 | .near => 2 | .replica => 3

/-- R250: the 32 bytes of a directory entry. -/
def dirBytes (e : DirEntry) : Bytes :=
  natLe 2 e.layer ++ natLe 2 e.expert ++ natLe 2 e.home ++
  natLe 1 (dirCode e.state + (if e.hot then 4 else 0) + (if e.loadedNear then 8 else 0)) ++ natLe 1 e.replicas.length ++
  natLe 4 e.ewma.toNat ++ natLe 6 e.lastVisit.toNat ++ natLe 2 0 ++
  (List.range 6).flatMap (fun i => natLe 2 (e.replicas.getD i 0xFFFF))

/-- The directory entry of an expert. -/
def dirFind (s : State) (x : ExpertRef) : Option DirEntry :=
  s.ledger.dir.find? (fun e => decide (e.layer = x.layer) && decide (e.expert = x.expert))

/-- The directory with one entry changed. -/
def dirUpd (x : ExpertRef) (f : DirEntry → DirEntry) (l : List DirEntry) : List DirEntry :=
  l.map (fun e => if e.layer = x.layer ∧ e.expert = x.expert then f e else e)

/-- The state with one directory entry changed. -/
def setDir (x : ExpertRef) (f : DirEntry → DirEntry) (s : State) : State :=
  s.withLedger { s.ledger with dir := dirUpd x f s.ledger.dir }

/-- R256: the weight 2^(−ALPHA_SHIFT) as FP32. -/
def alphaOf (shift : Nat) : W32 := toA32 (.fin false 1 (-(shift : Int)))

/-- R256: one step of the average: v + (requested / offered − v) · α, each operation rounded. -/
def ewmaStep (v alpha requested offered : W32) : W32 :=
  addRne v (mulRne (subRne (div32 requested offered) v) alpha)

/-- R254, R256: the totals of the visit all-reduce: placed per entry, requested per entry, offered per layer. -/
def applyVisits (totals : List W32) (s : State) : State :=
  let n := s.ledger.dir.length
  let a := alphaOf (rdShift (residency s))
  let dir := s.ledger.dir.mapIdx (fun i e =>
    let offered := totals.getD (2 * n + layerPlace s e.layer) 0
    let e := if fcmpHolds .eq offered 0 then e
      else { e with ewma := ewmaStep e.ewma a (totals.getD (n + i) 0) offered }
    if atLeast32 (totals.getD i 0) 0x3F800000 then { e with lastVisit := runningEpoch s } else e)
  holdUnvisited (s.withLedger { s.ledger with dir := dir, counted := true })

/-- R254: this home's contribution to the visit all-reduce, as A32 values. -/
def visitValues (s : State) : List W32 :=
  let num := fun (n : Nat) => toA32 (.fin false n 0)
  let key := fun (e : DirEntry) => 65536 * e.layer + e.expert
  s.ledger.dir.map (fun e => num (sget 0 s.ledger.visits (key e))) ++
  s.ledger.dir.map (fun e => num (sget 0 s.ledger.requests (key e))) ++
  ((s.load.prog.map (·.layers)).getD []).map (fun l => num (sget 0 s.ledger.offered (rtLayer l.desc)))

/-! ### Pools and replica targets (R258, R260, R262) -/

/-- R183, R260, R262: the near-tier bytes of one expert's state: both buffers of its parameters, remainders and moments
(log entry 21). -/
def expertBytes (s : State) (layer : Nat) : Nat :=
  ((s.load.prog.map paramBytes).getD 14) * ((layerOf s layer).map (·.expertParams)).getD 0

/-- R183, R262: the bytes of a member's pool, which the program sets in parameters, and of its NEAR expert region together (in part DEDUCED: log 21). -/
def poolCap (s : State) (m : Nat) : Nat :=
  ((s.load.prog.map (fun p => p.expertPool * paramBytes p)).getD 0) +
  ((s.ledger.dir.filter (fun e => e.loadedNear && decide (e.home = m))).map (fun e => expertBytes s e.layer)).foldl (· + ·) 0

/-- R251: whether an entry's state takes near-tier space at a member. -/
def takesSpace (m : Nat) (e : DirEntry) : Bool :=
  (decide (e.home = m) && decide (e.state ≠ .far)) || decide (m ∈ e.replicas)

/-- R262: the bytes in use at a member (in part DEDUCED: log 21). -/
def poolUse (s : State) (m : Nat) : Nat :=
  ((s.ledger.dir.filter (takesSpace m)).map (fun e => expertBytes s e.layer)).foldl (· + ·) 0

/-- R257, R260: a member's pool has room for an expert of a layer (in part DEDUCED: log 21). -/
def poolRoom (s : State) (m layer : Nat) : Bool := decide (poolUse s m + expertBytes s layer ≤ poolCap s m)

/-- R258: ⌊x / y⌋ of two positive finite FP32 values. -/
def floorDiv32 (x y : W32) : Nat :=
  match ofA32 x, ofA32 y with
  | .fin _ m e, .fin _ n f =>
    if n = 0 then 0 else if f ≤ e then m * 2 ^ (e - f).toNat / n else m / (n * 2 ^ (f - e).toNat)
  | .inf _, .fin _ _ _ => 6
  | _, _ => 0

/-- R258: an entry is HOT. -/
def isHot (w : BitVec 192) (e : DirEntry) : Bool := atLeast32 e.ewma (rdReplicate w)

/-- R258: the replica target of an entry. -/
def replicaTarget (w : BitVec 192) (e : DirEntry) : Nat :=
  if isHot w e then min (rdMaxReplicas w) (floorDiv32 e.ewma (rdReplicate w))
  else if below32 e.ewma (rdUnreplicate w) then 0
  else e.replicas.length

/-- R249, R260: the experts of a layer that a member serves. -/
def servedCount (s : State) (layer m : Nat) : Nat :=
  (s.ledger.dir.filter (fun e => decide (e.layer = layer) && (decide (e.home = m) || decide (m ∈ e.replicas)))).length

/-- R260: members of the routing group in the order in which the manager tries them. -/
def replicaOrder (s : State) (e : DirEntry) : List Nat :=
  let free := (List.range (cutQ s)).filter (fun m => decide (m ≠ e.home) && decide (m ∉ e.replicas))
  sortBy (fun a b => decide (servedCount s e.layer a < servedCount s e.layer b) ||
    (decide (servedCount s e.layer a = servedCount s e.layer b) && decide (a ≤ b))) free

/-- R249: a member may serve one more expert of a layer: at most 64, and its ACTIVE entries within what R245 allows at load
(in part DEDUCED: log 95). -/
def mayServe (s : State) (layer m : Nat) : Bool :=
  let n := servedCount s layer m + 1
  decide (n ≤ 64) && (layerOf s layer).all (fun l => decide (activeBound l (cutQ s) n ≤ 131072))

/-- R249, R260: the member that takes the next replica. -/
def replicaMember (s : State) (e : DirEntry) : Option Nat :=
  (replicaOrder s e).find? (fun m => poolRoom s m e.layer && mayServe s e.layer m)

/-! ### Counters (R282) -/

/-- R282: a layer's totals changed. -/
def residCount (layer : Nat) (f : ResidTotal → ResidTotal) (s : State) : State :=
  s.withLedger { s.ledger with resid := sput {} s.ledger.resid layer (f (sget {} s.ledger.resid layer)) }

/-! ### The six stages (R257) -/

/-- R262: a removed replica's or demoted expert's copy-out starts at the member that frees the space. -/
def startCopyOut (x : ExpertRef) (m : Nat) (s : State) : State :=
  if m = ownSeg s then
    s.withLedger { s.ledger with copyOuts := s.ledger.copyOuts ++ [(x, m, expertBytes s x.layer)] }
  else s

/-- R257 stages 1 and 2: the most recently added replicas of an entry are removed down to n. -/
def cutReplicas (x : ExpertRef) (n : Nat) (s : State) : State :=
  match dirFind s x with
  | none => s
  | some e =>
    let gone := e.replicas.drop n
    let s := gone.foldl (fun s m => startCopyOut x m (residCount x.layer
      (fun t => { t with replicasRemoved := add48 t.replicasRemoved 1 }) s)) s
    let s := s.withLedger { s.ledger with
      replicas := s.ledger.replicas.filter (fun r => !(decide (r.1 = x) && decide (r.2.1 ∈ gone))) }
    setDir x (fun e => { e with replicas := e.replicas.take n, state := if n = 0 then .near else .replica }) s

/-- R257 stage 3: an expert is demoted. -/
def demote (x : ExpertRef) (s : State) : State :=
  match dirFind s x with
  | none => s
  | some e =>
    let s := residCount x.layer (fun t => { t with demotions := add48 t.demotions 1 }) s
    let s := startCopyOut x e.home s
    let s := if e.home = ownSeg s then emit (.demoteCopy x) s else s
    setDir x (fun e => { e with state := .far }) s

/-- R257 stage 5: a FAR expert is promoted when its home pool has room. -/
def promote (x : ExpertRef) (s : State) : State :=
  match dirFind s x with
  | none => s
  | some e =>
    if poolRoom s e.home x.layer then
      let s := residCount x.layer (fun t => { t with promotions := add48 t.promotions 1 }) s
      let s := if e.home = ownSeg s then emit (.promoteCopy x) s else s
      setDir x (fun e => { e with state := .fetching }) s
    else residCount x.layer (fun t => { t with poolSkips := add48 t.poolSkips 1 }) s

/-- R257 stage 6, R260: replicas are added up to the target; `n` bounds how many. -/
def addReplicas (x : ExpertRef) : Nat → State → State
  | 0, s => s
  | n + 1, s =>
    match dirFind s x with
    | none => s
    | some e =>
      match replicaMember s e with
      | none => residCount x.layer (fun t => { t with poolSkips := add48 t.poolSkips 1 }) s
      | some m =>
        let s := residCount x.layer (fun t => { t with replicasAdded := add48 t.replicasAdded 1 }) s
        let s := if e.home = ownSeg s then emit (.replicaCopy x m) s else s
        addReplicas x n (setDir x (fun e => { e with replicas := e.replicas ++ [m], state := .replica }) s)

/-- The order of (LAYER, EXPERT). -/
def refLe (a b : DirEntry) : Bool :=
  decide (a.layer < b.layer) || (decide (a.layer = b.layer) && decide (a.expert ≤ b.expert))

/-- Ascending (LAYER, EXPERT). -/
def byRef (l : List DirEntry) : List DirEntry := sortBy refLe l

/-- Ascending VISIT_EWMA, then (LAYER, EXPERT). -/
def byEwmaUp (l : List DirEntry) : List DirEntry :=
  sortBy (fun a b => below32 a.ewma b.ewma || (!below32 b.ewma a.ewma && refLe a b)) l

/-- Descending VISIT_EWMA, then ascending (LAYER, EXPERT). -/
def byEwmaDown (l : List DirEntry) : List DirEntry :=
  sortBy (fun a b => below32 b.ewma a.ewma || (!below32 a.ewma b.ewma && refLe a b)) l

/-- The entries of the directory that a stage takes, in the stage's order. -/
def stageTakes (order : List DirEntry → List DirEntry) (p : DirEntry → Bool) (s : State) : List ExpertRef :=
  (order (s.ledger.dir.filter p)).map dirRef

/-- R257: the six stages at COMMIT(E), with the promotion copies that COMMIT(E) lists; then HOT follows R258 and each
replica whose copy is complete and has run one update serves (R261, R267) (in part DEDUCED: log 55). -/
def residencyDecisions (promoted : List ExpertRef) (s : State) : State :=
  let w := residency s
  let s := (stageTakes byRef (fun e => decide (e.state = .replica) && below32 e.ewma (rdUnreplicate w)) s).foldl
    (fun s x => cutReplicas x 0 s) s
  let s := (stageTakes byRef (fun e => decide (e.state = .replica) && decide (replicaTarget w e < e.replicas.length)) s).foldl
    (fun s x => cutReplicas x (((dirFind s x).map (replicaTarget w)).getD 0) s) s
  let s := (stageTakes byEwmaUp (fun e => decide (e.state = .near) && below32 e.ewma (rdDemote w)) s).foldl
    (fun s x => demote x s) s
  let s := (stageTakes byRef (fun e => decide (e.state = .fetching) && decide (dirRef e ∈ promoted)) s).foldl
    (fun s x => setDir x (fun e => { e with state := .near }) s) s
  let s := (stageTakes byEwmaDown (fun e => decide (e.state = .far) && atLeast32 e.ewma (rdPromote w)) s).foldl
    (fun s x => promote x s) s
  let s := (stageTakes byEwmaDown (fun e => (decide (e.state = .near) || decide (e.state = .replica)) &&
      decide (e.replicas.length < replicaTarget w e)) s).foldl
    (fun s x => addReplicas x (((dirFind s x).map (fun e => replicaTarget w e - e.replicas.length)).getD 0) s) s
  s.withLedger { s.ledger with
    dir := s.ledger.dir.map (fun e => { e with hot := isHot w e }),
    promoted := s.ledger.promoted.filter (fun x => decide (x ∉ promoted)),
    replicas := s.ledger.replicas.map (fun r => (r.1, r.2.1, true)) }

/-! ### Copies (R259, R261, R262) -/

/-- R262: the space of a promotion is free: what copies-out still hold does not keep it out of the pool. -/
def spaceFree (s : State) : Bool :=
  let m := ownSeg s
  let held : Nat := ((s.ledger.copyOuts.filter (fun c => decide (c.2.1 = m))).map (fun c => c.2.2)).foldl (· + ·) 0
  decide (held = 0) || decide (poolUse s m + held ≤ poolCap s m)

/-- R259, R262: a promotion copy completes at the home, once the space that it takes is free. -/
def promotionCopyDone (x : ExpertRef) (s : State) : State :=
  match dirFind s x with
  | some e =>
    if e.state = .fetching ∧ e.home = ownSeg s ∧ x ∉ s.ledger.promoted ∧ spaceFree s = true then
      s.withLedger { s.ledger with promoted := s.ledger.promoted ++ [x] }
    else s
  | none => s

/-- PROMOTION_COPY_DONE (R259). -/
def execPromotionCopyDone (x : ExpertRef) (s : State) : Result := .next (promotionCopyDone x s)

/-- R205, R261, R280: a replica's copy completes; it serves after one update. At the replica the copy's seals are checked, and its
sections are committed state. -/
def replicaCopyDone (x : ExpertRef) (c : ReplicaCopy) (s : State) : State :=
  match dirFind s x with
  | some e =>
    if decide (c.member ∈ e.replicas) && !(s.ledger.replicas.any (fun r => decide (r.1 = x) && decide (r.2.1 = c.member))) then
      if decide (c.member = ownSeg s) && c.secs.any (unsound s) then unsoundFailure .none c.secs s
      else
        let s := if c.member = ownSeg s then setCommitted s (c.secs.foldl putSection (committed s)) else s
        s.withLedger { s.ledger with replicas := s.ledger.replicas ++ [(x, c.member, false)] }
    else s
  | none => s

/-- REPLICA_COPY_DONE (R261). -/
def execReplicaCopyDone (x : ExpertRef) (c : ReplicaCopy) (s : State) : Result := .next (replicaCopyDone x c s)

/-- COPY_OUT_COMPLETE (R262): the copy-out of a demoted expert or removed replica ends and frees its space. -/
def execCopyOutComplete (x : ExpertRef) (m : Nat) (s : State) : Result :=
  .next (s.withLedger { s.ledger with
    copyOuts := s.ledger.copyOuts.filter (fun c => !(decide (c.1 = x) && decide (c.2.1 = m))) })

/-! ### Gathers (R299, R300) -/

/-- R299, R300, R205: a layer's gather ends: each section is a copy whose seal is checked, a failure of which is a detected error; the
running layer's copy and those of PREFETCH layers ahead are kept, the oldest one going (in part DEDUCED: log 55). -/
def gatherDone (layer : Nat) (secs : List Section) (s : State) : State :=
  if cutD s ≤ 1 then s
  else
    match secs.find? sealBroken with
    | none =>
      let depth := max 1 ((s.load.plan.map (·.prefetch)).getD 1) + 1
      let kept := s.tens.gathered.filter (fun g => decide (g.1 ≠ layer))
      let done := s.ledger.gathered.filter (fun g => decide (g ≠ layer))
      let s := s.withTens { s.tens with gathered := kept.drop (kept.length + 1 - depth) ++ [(layer, secs)] }
      s.withLedger { s.ledger with gathered := done.drop (done.length + 1 - depth) ++ [layer] }
    | some x =>
      let seq := nextSeq s
      markSuspect .none seq (countDetection 10 .none 0 (sealOf x.desc x.content x.scales x.record) x.sealWord s)

/-- GATHER_DONE (R300). -/
def execGatherDone (layer : Nat) (secs : List Section) (s : State) : Result := .next (gatherDone layer secs s)

end Sys2Proof.Machine
end

