-- ==== Sys2Proof/Machine/House.lean ====
section
/-! DEFINITION. Collectives in the Counting House (R356 to R389): headers and windows, rolls and carries, trees of
chunks, leases, release, endpoint reduction and the fused norm. -/

namespace Sys2Proof.Machine

/-! ### Headers (R360, R361, R363) -/

/-- R360: header bytes 32 to 127. -/
def headerTail (h : CHeader) : Bytes :=
  natLe 1 h.op ++ natLe 1 h.flags.toNat ++ natLe 1 h.wfmt ++ natLe 1 h.rfmt ++ natLe 2 h.root ++ natLe 2 h.members ++
  natLe 6 h.count ++ natLe 2 0 ++ natLe 6 h.d ++ natLe 2 0 ++
  natLe 6 (h.shape.getD 0 1) ++ natLe 6 (h.shape.getD 1 1) ++ natLe 6 (h.shape.getD 2 1) ++ natLe 6 (h.shape.getD 3 1) ++
  natLe 8 h.tensor.toNat ++ List.replicate 40 0

/-- R361: the descriptor digest. -/
def headerDigest (h : CHeader) : W64 := BitVec.ofNat 64 (leNat (Config.shake256 (headerTail h) 8))

/-- R360: this module's header of an instance. -/
def makeHeader (s : State) (e : CollEntry) (seq : W48) : CHeader :=
  let h : CHeader :=
    { seq := seq, member := localIndex s e.group, digest := 0, stepTag := runningEpoch s, carried := false,
      attempt := s.step.attempt, op := e.op, flags := e.flags, wfmt := e.wfmt, rfmt := e.rfmt, root := e.root,
      members := e.members, count := e.count, d := e.d, shape := e.shape, tensor := e.tensor }
  { h with digest := headerDigest h }

/-- R363: the first field that differs, as its FIELD code of R515. -/
def headerDiff (a b : CHeader) : Option Nat :=
  let l : List (Bool × Nat) :=
    [(decide (a.op ≠ b.op), 0x10), (decide (a.flags ≠ b.flags), 0x11), (decide (a.wfmt ≠ b.wfmt), 0x12),
     (decide (a.rfmt ≠ b.rfmt), 0x13), (decide (a.root ≠ b.root), 0x14), (decide (a.members ≠ b.members), 0x15),
     (decide (a.count ≠ b.count), 0x16), (decide (a.d ≠ b.d), 0x17), (decide (a.shape ≠ b.shape), 0x18),
     (decide (a.tensor ≠ b.tensor), 0x19)]
  (l.find? (·.1)).map (·.2)

/-! ### Open collectives -/

/-- The collective of a sequence number (in part DESIGN CHOICE: log 9). -/
def findColl (s : State) (seq : W48) : Option Coll := s.house.colls.find? (fun c => c.seq = seq)

/-- The state with a collective changed. -/
def updColl (seq : W48) (f : Coll → Coll) (s : State) : State :=
  s.withHouse { s.house with colls := s.house.colls.map (fun c => if c.seq = seq then f c else c) }

/-- A collective's entry. -/
def collEntry (s : State) (c : Coll) : CollEntry := instEntry s c.entry

/-- The number of members of a collective. -/
def collSize (s : State) (c : Coll) : Nat := groupSize s (collEntry s c).group

/-- This module's place in a collective. -/
def collSelf (s : State) (c : Coll) : Nat := localIndex s (collEntry s c).group

/-- R362: this module is the collective's caller, member 0. -/
def isCaller (s : State) (c : Coll) : Bool := decide (collSelf s c = 0)

/-- R374, R443: the LATE_POLICY in force: ALL while a member carries two roles, and ADD_LATER acts as DROP in an
evaluation. -/
def policyOf (s : State) (c : Coll) : Nat :=
  let p := entryPolicy (collEntry s c)
  if s.step.taken ≠ [] ∨ s.slice.remap ≠ [] then 0 else if p = 1 ∧ inEval s then 2 else p

/-- R389: an entry's totals changed. -/
def collCount (c : Coll) (f : CollTotal → CollTotal) (s : State) : State :=
  s.withHouse { s.house with totals := sput {} s.house.totals c.entry (f (sget {} s.house.totals c.entry)) }

/-- R359, R379: the operations that lease slots. -/
def leases (op : Nat) : Bool := decide (op ≤ 2)

/-- R379: WINDOW, 0 selecting 64. -/
def windowOf (e : CollEntry) : Nat := if e.window = 0 then 64 else e.window

/-- R382, R385: every collective runs under endpoint reduction: the function is off or all pipes are fenced. -/
def houseOff (s : State) : Bool := !fnOn s .countingHouse || decide (s.saf.pipesFenced = 0xFFFF)

/-! ### Shards, chunks and trees (R365 to R367) -/

/-- R365: the first element of shard j and its length. -/
def shardRange (e : CollEntry) (m j : Nat) : Nat × Nat :=
  if e.op = 0 ∨ e.op = 4 then (if j = e.root then (0, e.count) else (0, 0))
  else
    let b := (e.count + 63) / 64
    let lo := min e.count (64 * (j * b / m))
    let hi := min e.count (64 * ((j + 1) * b / m))
    (lo, hi - lo)

/-- R365: the chunks of a shard. -/
def chunkCount (e : CollEntry) (m j : Nat) : Nat := ((shardRange e m j).2 + 4095) / 4096

/-- R366: the leaves of a collective in order: members of the roll, then carries; a carry of member j stands as m + j
(in part DEDUCED: log 54). -/
def leafPlaces (s : State) (c : Coll) : List Nat :=
  let m := collSize s c
  match c.roll with
  | some r => sortNat r.mask ++ (sortNat (r.carried.map (·.1))).map (· + m)
  | none => List.range m

/-- R93: the number of levels above n leaves. -/
def treeLevels (n : Nat) : Nat := if n ≤ 1 then 0 else Nat.log2 (n - 1) + 1

/-- R367: the leaf position that steers the hosts of a shard of owner ρ. -/
def rhoPrime (places : List Nat) (m owner : Nat) : Nat :=
  match places.findIdx? (fun p => p = owner) with
  | some i => i
  | none =>
    match places.findIdx? (fun p => decide (owner < p) && decide (p < m)) with
    | some i => i
    | none => (places.filter (fun p => p < m)).length - 1

/-- R367: the member that hosts node (l, i). -/
def hostOf (places : List Nat) (m rho : Nat) : Nat → Nat → Nat
  | 0, i => places.getD i 0 % max 1 m
  | l + 1, i =>
    if rho.testBit l ∧ (2 * i + 1) * 2 ^ l < places.length then hostOf places m rho l (2 * i + 1)
    else hostOf places m rho l (2 * i)

/-- R365: the member that owns a shard. -/
def ownerOf (e : CollEntry) (j : Nat) : Nat := if e.op = 0 ∨ e.op = 4 then e.root else j

/-- The nodes (l, i) of a tree over n leaves, level by level from level 1. -/
def treeNodes (n : Nat) : List (Nat × Nat) :=
  (List.range (treeLevels n)).flatMap (fun l => (List.range ((n + 2 ^ (l + 1) - 1) / 2 ^ (l + 1))).map (fun i => (l + 1, i)))

/-- R370: the members that a member sends a released chunk of an owner's shard to: the hosts of the children it does not
host itself, in the tree over all m members. -/
def releaseDests (m owner self : Nat) : List Nat :=
  let places := List.range m
  ((treeNodes m).flatMap (fun n =>
    if hostOf places m owner n.1 n.2 = self then
      [2 * n.2, 2 * n.2 + 1].filterMap (fun i =>
        if i * 2 ^ (n.1 - 1) < m ∧ hostOf places m owner (n.1 - 1) i ≠ self then some (hostOf places m owner (n.1 - 1) i)
        else none)
    else [])).eraseDups

/-- The nodes of a chunk that this module hosts and whose parent it does not host. -/
def topNodes (places : List Nat) (m rho self : Nat) : List (Nat × Nat) :=
  ((List.range places.length).map (fun i => ((0, i) : Nat × Nat)) ++ treeNodes places.length).filter
    (fun (n : Nat × Nat) => decide (hostOf places m rho n.1 n.2 = self) &&
      (decide (n.1 = treeLevels places.length) || decide (hostOf places m rho (n.1 + 1) (n.2 / 2) ≠ self)))

/-! ### Opening the collectives of a step (R358, R373, R377) -/

/-- A node's values as they stand at a level: codes of WFMT at a leaf, A32 above (R368) (in part DEDUCED: log 54). -/
def leafValues (e : CollEntry) (level : Nat) (v : List W32) : List W32 :=
  if level = 0 then v.map (fun x => toA32 (decode ((fmtOfCode e.wfmt).getD .a32) x.toNat)) else v

/-- R358, R476: the collectives of the running step or evaluation that this module takes part in, opened. -/
def openColls (s : State) : State :=
  let mk := fun (x : Nat × Nat × W48) =>
    let e := instEntry s x.1
    ({ seq := x.2.2, entry := x.1, own := makeHeader s e x.2.2, endpoint := houseOff s } : Coll)
  s.withHouse { s.house with colls := (ownInstances s).map mk }

/-! ### Rolls (R375, R378, R490) -/

/-- R378, R490: the audit records of a roll that lacks a member or took a carry. -/
def auditRoll (m : Nat) (r : RollMsg) (s : State) : State :=
  if r.mask.length = m ∧ r.carried = [] then s
  else
    let n := r.mask.length + r.carried.length
    let absent := (List.range m).filter (fun i => i ∉ r.mask)
    let s := logEvent 0x301 0 .none (natLe 6 r.seq.toNat ++ natLe 2 m ++ natLe 2 n ++ absent.flatMap (natLe 2)) s
    if r.carried = [] then s
    else logEvent 0x302 0 .none (natLe 6 r.seq.toNat ++
      (sortBy (fun a b => decide (a.1 ≤ b.1)) r.carried).flatMap (fun c => natLe 2 c.1 ++ natLe 6 c.2.toNat)) s

/-- A chunk's state at this module. -/
def chunkAt (c : Coll) (shard chunk : Nat) : ChunkState :=
  (c.chunks.find? (fun x => decide (x.shard = shard) && decide (x.chunk = chunk))).getD { shard := shard, chunk := chunk }

/-- The collective with a chunk's state replaced. -/
def putChunk (c : Coll) (x : ChunkState) : Coll :=
  { c with chunks := c.chunks.filter (fun y => !(decide (y.shard = x.shard) && decide (y.chunk = x.chunk))) ++ [x] }

/-- R375: a node's value held by a chunk. -/
def nodeAt (x : ChunkState) (l i : Nat) : Option (List W32) :=
  (x.nodes.find? (fun n => decide (n.1 = l) && decide (n.2.1 = i))).map (·.2.2)

/-! ### Completion of a collective -/

/-- R379: a complete collective frees its lease. -/
def freeLease (seq : W48) (s : State) : State :=
  match findColl s seq with
  | none => s
  | some c =>
    let n := if c.lease = some true then windowOf (collEntry s c) else 0
    (updColl seq (fun c => { c with lease := none }) s).withHouse
      { (updColl seq (fun c => { c with lease := none }) s).house with leased := s.house.leased - n }

/-- R386: the sum of squares and the non-finite bit of the elements v of a chunk. -/
def normOf (v : List W32) : W32 × Bool := (pairwise (v.map (fun x => mulRne x x)), v.any isNonfinite32)

/-- R155, R387: NORMSQ and NFFLAG of the norm terms, in ascending q. -/
def formNorm (terms : List (Nat × W32 × Bool)) : W32 × W32 :=
  let l := sortBy (fun (a b : Nat × W32 × Bool) => decide (a.1 ≤ b.1)) terms
  let n := pairwise (l.map (·.2.1))
  (n, if l.any (·.2.2) || decide (n = 0x7F800000) then 0x3F800000 else 0)

/-- The results that a member needs for its collective to be complete, as (shard, chunk) pairs (R356). -/
def neededResults (s : State) (c : Coll) : List (Nat × Nat) :=
  let e := collEntry s c
  let m := collSize s c
  let self := collSelf s c
  let shards := if e.op = 0 then (if self = e.root then [e.root] else [])
    else if e.op = 2 then [self]
    else if e.op = 4 then [e.root]
    else if e.op = 1 ∨ e.op = 3 then List.range m
    else []
  shards.flatMap (fun j => (List.range (chunkCount e m j)).map (fun k => (j, k)))

/-- The elements of a complete collective in order, by shard and chunk. -/
def resultValues (s : State) (c : Coll) : List W32 :=
  (neededResults s c).flatMap (fun x =>
    ((c.results.find? (fun r => decide (r.1 = x.1) && decide (r.2.1 = x.2))).map (·.2.2)).getD [])

/-- A collective ends at this module: its lease is free, the caller notes it (R364), and its result goes to the
decisions (R138), to the directory (R256) or to the norm (R387). -/
def endColl (c : Coll) (s : State) : State :=
  let s := freeLease c.seq s
  let s := updColl c.seq (fun c => { c with complete := true }) s
  let s := if isCaller s c then s.withHouse { s.house with completed := s.house.completed ++ [c.seq] } else s
  let vals := resultValues s c
  if c.entry = normInst s then s
  else if c.entry = visitInst s then applyVisits vals s
  else
    match vals with
    | [] => s
    | v :: _ =>
      let v := toA32 (decode ((fmtOfCode (collEntry s c).rfmt).getD .a32) v.toNat)
      s.withJob { s.job with collResults := s.job.collResults.filter (fun p => p.1 ≠ c.entry) ++ [(c.entry, v)] }

/-- R387: three words per norm term: q, the sum of squares and the non-finite bit. -/
def termsOf : List W32 → List (Nat × W32 × Bool)
  | q :: x :: b :: t => (q.toNat, x, decide (b ≠ 0)) :: termsOf t
  | _ => []

/-- R387: norm terms are held; with all of them every module forms NORMSQ and NFFLAG. -/
def holdTerms (terms : List (Nat × W32 × Bool)) (s : State) : State :=
  let all := s.house.normTerms ++ terms.filter (fun t => !(s.house.normTerms.any (fun u => u.1 = t.1)))
  let s := s.withHouse { s.house with normTerms := all }
  if normTermCount s (runList s) ≤ all.length then
    let s := s.withJob { s.job with norm := some (formNorm all) }
    match s.house.colls.find? (fun c => c.entry = normInst s) with
    | some c => if c.complete then s else endColl c s
    | none => s
  else s

/-- R386, R387: the norm terms of the shards that this module has released whole. -/
def ownTerms (s : State) (c : Coll) (pos : Nat) : List (Nat × W32 × Bool) :=
  let e := collEntry s c
  let m := collSize s c
  (List.range m).filterMap (fun j =>
    let n := chunkCount e m j
    let sqs := (List.range n).filterMap (fun k => (chunkAt c j k).sq)
    if n = 0 ∨ sqs.length ≠ n then none else some (65536 * pos + j, pairwise (sqs.map (·.1)), sqs.any (·.2)))

/-- R369, R371: the seal of a shard of a result, over its codes in element order and its write record: that of a section of the
collective's tensor in RFMT, numbered by the shard (in part DEDUCED: log 97). -/
def shardSeal (s : State) (c : Coll) (shard : Nat) (values : List W32) (r : WriteRecord) : W64 :=
  let e := collEntry s c
  let f := (fmtOfCode e.rfmt).getD .a32
  let d : SectionDesc :=
    { tid := e.tensor, epoch := runningEpoch s, sec := BitVec.ofNat 16 shard, fmt := f, mx := false, rank := e.shape.length,
      base := (shardRange e (collSize s c) shard).1, elems := values.length, dims := e.shape }
  sealOf d (packCodes f (values.map BitVec.toNat)) [] r

/-- R370, R371: a shard's codes in element order, from its chunks' values in any order. -/
def shardCodes (l : List (Nat × List W32)) : List W32 :=
  (sortBy (fun (a b : Nat × List W32) => decide (a.1 ≤ b.1)) l).flatMap (·.2)

/-- R387: once every FUSE_NORM shard that this module releases is released, its terms leave in the norm gather. -/
def sendTerms (s : State) : State :=
  match s.house.colls.find? (fun c => c.entry = normInst s) with
  | none => s
  | some g =>
    let fused := (ownInstances s).filter (fun x => entryFuse (instEntry s x.1))
    let collsOf := fused.filterMap (fun x => (findColl s x.2.2).map (fun c => (c, x.2.1)))
    if collsOf.all (fun x => x.1.complete) && decide (g.own.member = collSelf s g) && !(s.house.normTerms.any (fun t => t.1 % 65536 = collSelf s g)) then
      let terms := collsOf.flatMap (fun x => ownTerms s x.1 x.2)
      let words := terms.flatMap (fun t => [BitVec.ofNat 32 t.1, t.2.1, if t.2.2 then 1 else 0])
      let msg : ReleasedMsg :=
        { seq := g.seq, attempt := s.step.attempt, shard := collSelf s g, chunk := 0, last := true,
          values := words, record := {}, carried := shardSeal s g (collSelf s g) words {} }
      let dests := releaseDests (collSize s g) (collSelf s g) (collSelf s g)
      let s := if dests = [] then s else emit (.released (dests.map (groupMember s .slice)) msg) s
      holdTerms terms s
    else s

/-- R104, R387: a collective has ended at this module; with the last FUSE_NORM one the module's norm terms leave. -/
def completeColl (c : Coll) (s : State) : State :=
  let s := endColl c s
  if entryFuse (collEntry s c) then sendTerms s else s

/-- The collective completes here once every result it needs is held and every chunk at this module has been dealt with. -/
def settleColl (seq : W48) (s : State) : State :=
  match findColl s seq with
  | none => s
  | some c =>
    let e := collEntry s c
    let held := (neededResults s c).all (fun x => c.results.any (fun r => decide (r.1 = x.1) && decide (r.2.1 = x.2)))
    let mine := (List.range (collSize s c)).flatMap (fun j => (List.range (chunkCount e (collSize s c) j)).map (fun k => (j, k)))
    let places := leafPlaces s c
    let idle := fun (j : Nat) => decide (topNodes places (collSize s c) (rhoPrime places (collSize s c) (ownerOf e j)) (collSelf s c) = [])
    let sent := !leases e.op || mine.all (fun (x : Nat × Nat) => (chunkAt c x.1 x.2).finished || idle x.1)
    let none_ := decide (c.roll.isNone) || decide (e.op = 6)
    if c.complete || none_ || !held || !sent then s else completeColl c s

/-! ### Mirroring a released gradient (R432) -/

/-- R426, R427, R485: this module has a partner; in an AUDIT_REPLAY no mirror, standby update or snapshot runs. -/
def hasPartner (s : State) : Bool := s.snap.partner.isSome && !auditing s

/-- R432: a collective's tensor is a gradient that the update reads. -/
def isGradient (s : State) (c : Coll) : Bool :=
  match findTensor s (collEntry s c).tensor with
  | some t => decide (t.role = .gradient)
  | none => false

/-- R432: how many gradient sections this module mirrors in a step: one for each gradient shard it owns
(in part DESIGN CHOICE: log 56). -/
def mirrorTotal (s : State) : Nat :=
  (s.house.colls.filter (fun c => isGradient s c && decide (0 < (shardRange (collEntry s c) (collSize s c) (collSelf s c)).2))).length

/-- R428: the mirror record. -/
def mirrorRecordOf (s : State) : MirrorRecord :=
  { cursors := s.job.cursors, draws := s.job.draws.map (fun p => (BitVec.ofNat 32 p.1, p.2)), epoch := runningEpoch s,
    collSeq := s.job.collSeq, dir := s.ledger.dir, carries := s.house.carries }

/-- R432: the shard of a gradient that this module owns has been released: its section leaves for the partner, with the
mirror record after the last (in part DESIGN CHOICE: log 56). -/
def mirrorShard (c : Coll) (s : State) : State :=
  if !hasPartner s || inEval s then s
  else
    let codes := (c.results.filter (fun r => r.1 = collSelf s c)).flatMap (·.2.2)
    let n := s.step.mirrored
    let s := emit (.mirrorSection (runningEpoch s) n codes) (s.withStep { s.step with mirrored := n + 1 })
    if n + 1 = mirrorTotal s then emit (.mirrorRecord (mirrorRecordOf s)) s else s

/-- R432: after a result has come: when it completes the shard of a gradient that this module owns, it is mirrored
(in part DESIGN CHOICE: log 56). -/
def mirrorIfWhole (seq : W48) (shard : Nat) (s : State) : State :=
  match findColl s seq with
  | none => s
  | some c =>
    if isGradient s c && decide (shard = collSelf s c) &&
        decide ((c.results.filter (fun r => r.1 = shard)).length = chunkCount (collEntry s c) (collSize s c) shard) then
      mirrorShard c s
    else s

/-! ### Results (R369, R370) -/

/-- A result chunk is held at this member, once. -/
def holdResult (m : ReleasedMsg) (s : State) : State :=
  updColl m.seq (fun c =>
    if c.results.any (fun r => decide (r.1 = m.shard) && decide (r.2.1 = m.chunk)) then c
    else { c with results := c.results ++ [(m.shard, m.chunk, m.values)] }) s

/-- R370: a result reaches this member: it is held, sent on down the tree and, for the norm gather, entered. -/
def takeResult (c : Coll) (m : ReleasedMsg) (s : State) : State :=
  let e := collEntry s c
  let s := if decide (e.op = 1) || decide (e.op = 3) || decide (e.op = 4) then
      let dests := releaseDests (collSize s c) (ownerOf e m.shard) (collSelf s c)
      if dests = [] then s else emit (.released (dests.map (groupMember s e.group)) m) s
    else s
  if c.entry = normInst s then holdTerms (termsOf m.values) s
  else settleColl m.seq (mirrorIfWhole m.seq m.shard (holdResult m s))

/-! ### Release (R369, R386) -/

/-- R369: an element's released value and its conversion. -/
def releaseElem (e : CollEntry) (n : Nat) (x : W32) : W32 × Conv :=
  let v := if entryAvg e then div32 x (toA32 (.fin false n 0)) else x
  (v, convert ((fmtOfCode e.rfmt).getD .a32) .rne false 0 (ofA32 v))

/-- The write record of a list of conversions. -/
def convsRecord (l : List Conv) : WriteRecord := l.foldl (fun r c => mergeRecord r (convRecord c)) {}

/-- R369: the root's host releases a chunk: it averages, converts, counts and sends it to the owner; the chunk that completes its
shard carries the shard's record and seal. -/
def releaseChunk (c : Coll) (x : ChunkState) (sum : List W32) (s : State) : State :=
  let e := collEntry s c
  let n := (leafPlaces s c).length
  let outs := sum.map (releaseElem e n)
  let codes := outs.map (fun o => BitVec.ofNat 32 o.2.code)
  let rec_ := convsRecord (outs.map (·.2))
  let owner := ownerOf e x.shard
  let rest := c.chunks.filter (fun y => decide (y.shard = x.shard) && decide (y.chunk ≠ x.chunk) && y.finished)
  let whole := decide (rest.length + 1 = chunkCount e (collSize s c) x.shard)
  let shardRec := rest.foldl (fun r y => mergeRecord r y.record) rec_
  let msg : ReleasedMsg :=
    { seq := c.seq, attempt := s.step.attempt, shard := x.shard, chunk := x.chunk, last := whole, values := codes,
      record := if whole then shardRec else {},
      carried := if whole then shardSeal s c x.shard (shardCodes ((x.chunk, codes) :: rest.map (fun y => (y.chunk, y.out)))) shardRec
        else 0 }
  let s := updColl c.seq (fun c => putChunk { c with record := mergeRecord c.record rec_ }
    { x with finished := true, slotted := false, nodes := [], out := codes, record := rec_,
             sq := if entryFuse e then some (normOf (outs.map (·.1))) else none }) s
  let s := collCount c (fun t => { t with lastN := sat48 n }) s
  if owner = collSelf s c then takeResult c msg s
  else settleColl c.seq (emit (.released [groupMember s e.group owner] msg) s)

/-! ### Adding (R366 to R369, R376, R379) -/

/-- R376: chunks of a collective may be added: under ALL as they arrive, else once the roll is here. -/
def mayAdd (s : State) (c : Coll) : Bool := decide (policyOf s c = 0) || c.roll.isSome

/-- R366, R367: the nodes that this module can form at a chunk, level by level: each brings in exactly one value. -/
def formNodes (places : List Nat) (m rho self : Nat) (x : ChunkState) : ChunkState :=
  (treeNodes places.length).foldl (fun x n =>
    if hostOf places m rho n.1 n.2 = self ∧ (nodeAt x n.1 n.2).isNone then
      match nodeAt x (n.1 - 1) (2 * n.2), nodeAt x (n.1 - 1) (2 * n.2 + 1) with
      | some a, some b => { x with nodes := x.nodes ++ [(n.1, n.2, addTiles a b)] }
      | some a, none =>
        if (2 * n.2 + 1) * 2 ^ (n.1 - 1) < places.length then x else { x with nodes := x.nodes ++ [(n.1, n.2, a)] }
      | _, _ => x
    else x) x

/-- R366, R368: the nodes of a chunk at leaf positions: leaves arrive under the place of their contribution and stand
in A32. -/
def placedNodes (e : CollEntry) (places : List Nat) (x : ChunkState) : ChunkState :=
  { x with nodes := x.nodes.filterMap (fun n =>
      if n.1 = 0 then (places.findIdx? (fun p => p = n.2.1)).map (fun i => (0, i, leafValues e 0 n.2.2)) else some n) }

/-- R367, R368: a topmost node leaves for its parent's host; a leaf leaves as it came, under its contribution's place. -/
def sendNode (c : Coll) (shard chunk : Nat) (places : List Nat) (rho : Nat) (t : Nat × Nat) (v : List W32) (s : State) : State :=
  let e := collEntry s c
  let m := collSize s c
  let self := collSelf s c
  let dest := hostOf places m rho (t.1 + 1) (t.2 / 2)
  let idx := if t.1 = 0 then places.getD t.2 0 else t.2
  let x := chunkAt ((findColl s c.seq).getD c) shard chunk
  let vals := if t.1 = 0 then (nodeAt x 0 idx).getD v else v
  let msg : ChunkMsg :=
    { seq := c.seq, attempt := s.step.attempt, shard := shard, chunk := chunk, level := t.1, index := idx, values := vals }
  let sent := x.sent ++ [t]
  let whole := (topNodes places m rho self).all (fun n => decide (n ∈ sent))
  let x := { x with sent := sent, finished := whole, slotted := x.slotted && !whole, nodes := if whole then [] else x.nodes }
  settleColl c.seq (emit (.chunk (groupMember s e.group dest) msg) (updColl c.seq (fun c => putChunk c x) s))

/-- R367, R369: what can be added at a chunk is added; each topmost node of this module is sent to its parent's host, or
released at the root once the roll has confirmed the headers (R376); a suspect attempt releases nothing more (R473). -/
def advanceChunk (seq : W48) (shard chunk : Nat) (s : State) : State :=
  match findColl s seq with
  | none => s
  | some c =>
    let e := collEntry s c
    let x := chunkAt c shard chunk
    if !mayAdd s c || x.finished || !(x.slotted || c.endpoint || houseOff s) then s
    else
      let m := collSize s c
      let self := collSelf s c
      let places := leafPlaces s c
      let rho := rhoPrime places m (ownerOf e shard)
      let y := formNodes places m rho self (placedNodes e places x)
      (topNodes places m rho self).foldl (fun s t =>
        match nodeAt y t.1 t.2, decide (t ∈ x.sent) with
        | some v, false =>
          if t.1 = treeLevels places.length then
            if c.roll.isSome && !s.step.suspect then releaseChunk c x v s else s
          else sendNode c shard chunk places rho t v s
        | _, _ => s) s

/-- R379, R382: the stalls that produce this module's contribution, ascending: those with a role of a clause that writes the tensor. -/
def producers (s : State) (tid : W64) : List Nat :=
  match s.load.prog, s.load.phys with
  | some p, some x =>
    (sortNat ((x.roles.filter (fun r => (p.clauses[r.clause]?).any (fun c => decide (tid ∈ c.outTensors)))).map (·.stall.val))).eraseDups
  | _, _ => []

/-- R382: under endpoint reduction each producing stall takes whole chunks in ascending stall index, in turn. -/
def assignStalls (l : List Nat) (c : Coll) : Coll :=
  let r := c.chunks.foldl (fun (y : List ChunkState × Nat) x =>
    if x.adder.isSome || x.finished then (y.1 ++ [x], y.2)
    else (y.1 ++ [{ x with adder := l[y.2 % l.length]? }], y.2 + 1)) ([], (c.chunks.filter (·.adder.isSome)).length)
  { c with chunks := r.1 }

/-- R379: an own contribution has a chunk that waits for a slot. -/
def waitsForSlot (s : State) (c : Coll) : Bool :=
  !c.endpoint && c.chunks.any (fun x => !x.slotted && !x.finished && (nodeAt x 0 (collSelf s c)).isSome)

/-- R379: the stalls that wait behind a chunk without a slot count WAIT_COLLECTIVE, and go on when none is left. -/
def slotWaits (seq : W48) (s : State) : State :=
  match findColl s seq with
  | none => s
  | some c =>
    let l := (producers s (collEntry s c).tensor).filterMap (fun n => if h : n < 1024 then some (⟨n, h⟩ : Fin 1024) else none)
    if waitsForSlot s c then l.foldl (fun s i => if (getStall s i).wait.isNone then stallWaits i waitCollective s else s) s
    else l.foldl (fun s i => endWait i waitCollective s) s

/-- R379: chunks of a collective take free slots of its lease in the order of their arrival. -/
def assignSlots (c : Coll) (window : Nat) : Coll :=
  let used := (c.chunks.filter (·.slotted)).length
  let r := c.chunks.foldl (fun (y : List ChunkState × Nat) x =>
    if !x.slotted && !x.finished && decide (y.2 < window) then (y.1 ++ [{ x with slotted := true }], y.2 + 1)
    else (y.1 ++ [x], y.2)) ([], used)
  { c with chunks := r.1 }

/-- Every chunk of a collective goes on as far as it can. -/
def advanceColl (seq : W48) (s : State) : State :=
  match findColl s seq with
  | none => s
  | some c0 =>
    let s := if c0.lease = some true then
        updColl seq (fun c => assignSlots c (windowOf (collEntry s c))) s
      else if c0.endpoint then updColl seq (assignStalls (producers s (collEntry s c0).tensor)) s
      else s
    match findColl s seq with
    | none => s
    | some c => c.chunks.foldl (fun s x => advanceChunk seq x.shard x.chunk s) s

/-! ### ALL_GATHER and BROADCAST (R370) -/

/-- R370, R376: this member's own chunks of an ALL_GATHER or BROADCAST leave down the tree once the roll is here. -/
def advanceGather (seq : W48) (s : State) : State :=
  match findColl s seq with
  | none => s
  | some c =>
    if c.roll.isNone then s
    else
      (c.chunks.filter (fun x => !x.finished)).foldl (fun s x =>
        match x.nodes.head? with
        | none => s
        | some n =>
          let rest := (((findColl s seq).getD c).chunks).filter
            (fun y => decide (y.shard = x.shard) && decide (y.chunk ≠ x.chunk) && y.finished)
          let whole := decide (rest.length + 1 = chunkCount (collEntry s c) (collSize s c) x.shard)
          let msg : ReleasedMsg :=
            { seq := seq, attempt := s.step.attempt, shard := x.shard, chunk := x.chunk, last := whole, values := n.2.2, record := {},
              carried := if whole then shardSeal s c x.shard (shardCodes ((x.chunk, n.2.2) :: rest.map (fun y => (y.chunk, y.out)))) {}
                else 0 }
          takeResult c msg (updColl seq (fun c => putChunk c { x with finished := true, nodes := [], out := n.2.2 }) s)) s

/-- What a collective can do now. -/
def advance (seq : W48) (s : State) : State :=
  match findColl s seq with
  | none => s
  | some c =>
    let op := (collEntry s c).op
    settleColl seq (if leases op then slotWaits seq (advanceColl seq s) else if op = 3 ∨ op = 4 then advanceGather seq s else s)

/-! ### The roll at a member (R376, R377) -/

/-- R377: this member's contribution as it stands, in WFMT codes by element. -/
def ownContribution (s : State) (c : Coll) : List W32 :=
  let e := collEntry s c
  let m := collSize s c
  let self := collSelf s c
  ((List.range m).flatMap (fun j => (List.range (chunkCount e m j)).map (fun k => (j, k)))).flatMap (fun x =>
    let vals := (nodeAt (chunkAt c x.1 x.2) 0 self).getD []
    vals ++ List.replicate (min 4096 ((shardRange e m x.1).2 - 4096 * x.2) - vals.length) 0)

/-- R377: a carry of an entry replaced. -/
def putCarry (entry : Nat) (tag : W48) (codes : List W32) (s : State) : State :=
  s.withHouse { s.house with carries := s.house.carries.filter (fun x => x.1 ≠ entry) ++ [(entry, tag, codes)] }

/-- This member stands in a roll. -/
def inRoll (s : State) (c : Coll) (r : RollMsg) : Bool := decide (collSelf s c ∈ r.mask)

/-- R374, R377: a member outside the roll carries its contribution, or drops it; its own leaves leave the chunks. -/
def lateContribution (c : Coll) (s : State) : State :=
  let self := collSelf s c
  let s := if policyOf s c = 1 then
      collCount c (fun t => { t with lateCarried := add48 t.lateCarried 1 })
        (putCarry c.entry (runningEpoch s) (ownContribution s c) s)
    else collCount c (fun t => { t with lateDropped := add48 t.lateDropped 1 }) s
  updColl c.seq (fun c => { c with chunks := c.chunks.map (fun x =>
    { x with nodes := x.nodes.filter (fun n => !(decide (n.1 = 0) && decide (n.2.1 = self))) }) }) s

/-- R376: the roll reaches a member: it starts adding, or carries or drops its own contribution. -/
def applyRoll (r : RollMsg) (s : State) : State :=
  match findColl s r.seq with
  | none => s
  | some c =>
    if decide (r.attempt ≠ s.step.attempt) || c.roll.isSome then s
    else
      let s := updColl r.seq (fun c => { c with roll := some r }) s
      let late := decide (policyOf s c ≠ 0) && !inRoll s c r && decide ((collEntry s c).op ≤ 2)
      let s := if late then lateContribution c s else s
      let s := if (collEntry s c).op = 5 then completeColl { c with roll := some r } s else s
      advance r.seq s

/-- ROLL (R376). -/
def execRoll (r : RollMsg) (s : State) : Result := .next (applyRoll r s)

/-- R372: a BARRIER is complete at this member. -/
def barrierDone (seq : W48) (s : State) : State :=
  match findColl s seq with
  | some c => if (collEntry s c).op = 6 && !c.complete then completeColl c s else s
  | none => s

/-- BARRIER_COMPLETION (R372). -/
def execBarrierCompletion (seq : W48) (s : State) : Result := .next (barrierDone seq s)

/-- R375, R378: the caller closes the roll with the members whose headers arrived in time and the carries it has taken
(in part DEDUCED: log 83). -/
def closeRoll (c : Coll) (s : State) : State :=
  let inTime := fun (t : Nat × Bool × W48 × W64) =>
    decide (policyOf s c = 0) || decide ((collEntry s c).d = 0) ||
    decide (t.2.2.2.toNat < (c.openAt.getD 0).toNat + (collEntry s c).d)
  let r : RollMsg :=
    { seq := c.seq, attempt := s.step.attempt,
      mask := sortNat ((c.taken.filter (fun t => !t.2.1 && inTime t)).map (·.1)),
      carried := (c.taken.filter (fun t => t.2.1)).map (fun t => (t.1, t.2.2.1)) }
  let s := auditRoll (collSize s c) r (emit (.roll r) s)
  if (collEntry s c).op = 6 then barrierDone c.seq (emit (.barrierDone c.seq) (updColl c.seq (fun c => { c with roll := some r }) s))
  else applyRoll r s

/-! ### Abort (R363) -/

/-- R363, R475: every open collective is discarded with its slots, rolls and partial sums. -/
def dropColls (s : State) : State :=
  s.withHouse { s.house with colls := [], completed := [], leased := 0, normTerms := [], carries := s.job.point.carries }

/-- R363: a collective is aborted: the command that runs ends with MISMATCH and the state is that of the last commit. -/
def abortColl (seq : W48) (member : Nat) (fld : Byte) (s : State) : State :=
  if s.step.run.isNone then s
  else
    let s := s.withHouse { s.house with mismatches := add48 s.house.mismatches 1 }
    let eval := inEval s
    let s := if eval then dropColls s else abandonAttempt s.step.attempt s
    let s := s.withHouse { s.house with reuse := [] }
    endRun rMismatch { member := member, field := fld.toNat, subject := some seq } s

/-- COLLECTIVE_ABORT (R363): the caller's abort reaches a member. -/
def execCollectiveAbort (seq : W48) (member : Nat) (fld : Byte) (s : State) : Result := .next (abortColl seq member fld s)

/-! ### Headers at the caller (R364, R373, R374) -/

/-- R373, R374, R443: a current header that arrives late. -/
def isLate (s : State) (c : Coll) : Bool :=
  match c.openAt with
  | none => false
  | some t => decide ((collEntry s c).d ≠ 0) && decide (t.toNat + (collEntry s c).d ≤ s.awn.tick.toNat)

/-- R374, R375: the caller closes the roll once all m current headers have arrived. -/
def closeIfFull (seq : W48) (s : State) : State :=
  match findColl s seq with
  | none => s
  | some c =>
    if c.roll.isNone && decide ((c.taken.filter (fun t => !t.2.1)).length = collSize s c) then closeRoll c s else s

/-- R364, R373: the caller takes a header: its arrival is stamped, and the first current one opens the window. -/
def recordHeader (c : Coll) (h : CHeader) (s : State) : State :=
  let late := !h.carried && isLate s c
  let s := if late && decide (policyOf s c = 0) then
      collCount c (fun t => { t with lateArrivals := add48 t.lateArrivals 1 }) s else s
  let tick := s.awn.tick
  let s := updColl c.seq (fun c => { c with
    taken := c.taken ++ [(h.member, h.carried, h.stepTag, tick)],
    openAt := if h.carried then c.openAt else some (c.openAt.getD tick) }) s
  closeIfFull c.seq s

/-- R362 to R364: a contribution header at the caller. -/
def takeHeader (h : CHeader) (s : State) : State :=
  match findColl s h.seq with
  | none => s
  | some c =>
    if !isCaller s c then s
    else if h.attempt ≠ s.step.attempt then collCount c (fun t => { t with staleContrib := add48 t.staleContrib 1 }) s
    else if c.taken.any (fun t => decide (t.1 = h.member) && decide (t.2.1 = h.carried)) || decide (h.seq ∈ s.house.completed) then
      collCount c (fun t => { t with dupContrib := add48 t.dupContrib 1 }) s
    else if h.digest ≠ c.own.digest then
      match headerDiff c.own h with
      | some f => abortColl h.seq (groupMember s (collEntry s c).group h.member) (BitVec.ofNat 8 f)
          (emit (.mismatch h.seq h.member (BitVec.ofNat 8 f)) s)
      | none =>
        let seq := nextSeq s
        markSuspect .none seq (countDetection 10 .none 0 h.digest c.own.digest s)
    else recordHeader c h s

/-- CONTRIBUTION_HEADER (R364). -/
def execContributionHeader (h : CHeader) (s : State) : Result := .next (takeHeader h s)

/-- R373: a header leaves for the caller, or is taken at once when this module is the caller. -/
def sendHeader (c : Coll) (h : CHeader) (s : State) : State :=
  if isCaller s c then takeHeader h s else emit (.header h) s

/-- R374, R375, R10: the window of a collective closes at open + D. -/
def deadlineClose (seq : W48) (s : State) : State :=
  match findColl s seq with
  | none => s
  | some c =>
    if isCaller s c && decide (policyOf s c ≠ 0) && c.roll.isNone && isLate s c then closeRoll c s else s

/-- DEADLINE_CLOSE (R374). -/
def execDeadlineClose (seq : W48) (s : State) : Result := .next (deadlineClose seq s)

/-! ### Chunks (R367, R379, R385) -/

/-- R385: residue failures of an addition, in the order of the pipes that tried it: each is recorded, a failed
recomputation fences the pipe that failed, and the passing recomputation counts one RESIDUE_RETRY. -/
def residueFailures : List (Fin 16) → State → State
  | [], s => s
  | p :: rest, s =>
    let seq := nextSeq s
    let s := pipeFailure p seq (countDetection 11 (.pipe p) 0 0 0 s)
    let s := if rest ≠ [] then fencePipe p seq s
      else s.withHouse { s.house with residueRetries := add48 s.house.residueRetries 1 }
    residueFailures rest s

/-- R379, R381: the first chunk of a collective at this module requests a lease. -/
def requestLease (c : Coll) (s : State) : State :=
  if leases (collEntry s c).op && c.lease.isNone && !c.endpoint then
    if houseOff s then updColl c.seq (fun c => { c with endpoint := true }) s
    else updColl c.seq (fun c => { c with lease := some false, requested := s.awn.tick }) s
  else s

/-- A chunk's node value held, once. -/
def holdNode (c : ChunkMsg) (s : State) : State :=
  updColl c.seq (fun x =>
    let y := chunkAt x c.shard c.chunk
    if y.finished || (nodeAt y c.level c.index).isSome then x
    else putChunk x { y with nodes := y.nodes ++ [(c.level, c.index, c.values)] }) s

/-- R376, R377: a further chunk of a member that is not in the roll joins its carry, or is dropped
(in part DEDUCED: log 54). -/
def lateChunk (c : Coll) (m : ChunkMsg) (s : State) : State :=
  if policyOf s c = 1 then
    match s.house.carries.find? (fun x => x.1 = c.entry) with
    | none => s
    | some (_, tag, codes) =>
      let off := (shardRange (collEntry s c) (collSize s c) m.shard).1 + 4096 * m.chunk
      putCarry c.entry tag (codes.take off ++ m.values ++ codes.drop (off + m.values.length)) s
  else s

/-- R254: this module's own chunk of the visit all-reduce holds its counts of the step. -/
def visitChunk (s : State) (c : Coll) (m : ChunkMsg) : ChunkMsg :=
  let r := shardRange (collEntry s c) (collSize s c) m.shard
  { m with values := ((visitValues s).drop (r.1 + 4096 * m.chunk)).take (min 4096 (r.2 - 4096 * m.chunk)) }

/-- R54, R145: the code of an element of a collective's tensor that this module has formed in the running step: of a write in
progress, or of a section of the step. -/
def formedCode (s : State) (tid : W64) (k : Nat) : Option W32 :=
  match sget none (openWrite s tid none).codes k with
  | some c => some c
  | none => (codeIn (s.tens.plain.filter (fun x => decide (x.desc.epoch = writeEpoch s))) tid k).map (BitVec.ofNat 32)

/-- R54: this module's own chunk of a collective in its tensor's format holds what the tensor's clauses have drained; an element that
this module has not formed is the command's. -/
def drainedChunk (s : State) (c : Coll) (m : ChunkMsg) : ChunkMsg :=
  let e := collEntry s c
  let off := (shardRange e (collSize s c) m.shard).1 + 4096 * m.chunk
  if (findTensor s e.tensor).any (fun t => decide (fmtOfCode e.wfmt = some t.fmt)) then
    { m with values := m.values.zipIdx.map (fun p => (formedCode s e.tensor (off + p.2)).getD p.1) }
  else m

/-- R371: this module's contribution has reached its last chunk, and a section of its tensor that the step has formed does not pass
its seal. -/
def ownSealFails (c : Coll) (s : State) : Option (List Section) :=
  let e := collEntry s c
  let all := (List.range (collSize s c)).flatMap (fun j => (List.range (chunkCount e (collSize s c) j)).map (fun k => (j, k)))
  let whole := all.all (fun x => (nodeAt (chunkAt c x.1 x.2) 0 (collSelf s c)).isSome || (chunkAt c x.1 x.2).finished)
  let l := s.tens.plain.filter (fun x => decide (x.desc.tid = e.tensor) && decide (x.desc.epoch = writeEpoch s))
  if whole && l.any (unsound s) then some l else none

/-- R367, R373, R379: a chunk reaches this module's Counting House (in part DEDUCED: log 54). -/
def chunkArrival (m : ChunkMsg) (fails : List (Fin 16)) (s : State) : State :=
  match findColl s m.seq with
  | none => s
  | some c =>
    if decide (m.attempt ≠ s.step.attempt) || c.complete then s
    else
      let own := decide (m.level = 0) && decide (m.index = collSelf s c)
      let m := if !own then m else if c.entry = visitInst s then visitChunk s c m else drainedChunk s c m
      let s := residueFailures fails s
      let late := match c.roll with
        | some r => decide (policyOf s c ≠ 0) && !inRoll s c r
        | none => false
      if own && late then lateChunk c m s
      else
        let first := own && !(c.chunks.any (fun x => x.nodes.any (fun n => decide (n.1 = 0) && decide (n.2.1 = collSelf s c)) || x.finished))
        let s := requestLease c s
        let s := holdNode m s
        let s := if first then sendHeader c c.own s else s
        match (findColl s m.seq).bind (fun c => if own then ownSealFails c s else none) with
        | some l => unsoundFailure .none l s
        | none => advance m.seq s

/-- CHUNK_ARRIVAL (R367). -/
def execChunkArrival (m : ChunkMsg) (fails : List (Fin 16)) (s : State) : Result := .next (chunkArrival m fails s)

/-- R381, R382, R385: a module leaves the slots of a collective for endpoint reduction; the caller counts the change. -/
def fallBack (c : Coll) (s : State) : State :=
  let s := collCount c (fun t => { t with
    slotWaitTicks := add48 t.slotWaitTicks (s.awn.tick - c.requested).toNat,
    fallbacks := if isCaller s c then add48 t.fallbacks 1 else t.fallbacks }) s
  let s := if isCaller s c then s else emit (.fallback c.seq) s
  advance c.seq (updColl c.seq (fun c => { c with lease := none, endpoint := true }) s)

/-- R381: the window of a lease request has closed: at request + SLOT_WAIT, a grant due at that tick included (R11). -/
def leaseExpired (s : State) (c : Coll) : Bool :=
  decide (c.lease = some false) && decide (c.requested.toNat + s.job.slotWait.toNat ≤ s.awn.tick.toNat)

/-- R380, R381: the waiting lease of the lowest sequence number is granted when its slots are free; a request whose window has closed,
or that meets a Counting House off or with every pipe fenced (R382, R385), is withdrawn. -/
def leaseGrant (s : State) : State :=
  match s.house.colls.find? (fun c => c.lease = some false) with
  | none => s
  | some c =>
    let n := windowOf (collEntry s c)
    if leaseExpired s c || houseOff s then fallBack c s
    else if s.house.leased + n ≤ 3072 then
      let wait := (s.awn.tick - c.requested).toNat
      let s := collCount c (fun t => { t with slotWaitTicks := add48 t.slotWaitTicks wait }) s
      let s := s.withHouse { s.house with leased := s.house.leased + n }
      advance c.seq (updColl c.seq (fun c => { c with lease := some true }) s)
    else s

/-- LEASE_GRANT (R380). -/
def execLeaseGrant (s : State) : Result := .next (leaseGrant s)

/-- R381, R382: a lease request's window closes: the request is withdrawn and the module falls back to endpoint
reduction (in part DESIGN CHOICE: log 85). -/
def slotWaitExpiry (seq : W48) (s : State) : State :=
  match findColl s seq with
  | none => s
  | some c => if leaseExpired s c then fallBack c s else s

/-- SLOT_WAIT_EXPIRY (R381). -/
def execSlotWaitExpiry (seq : W48) (s : State) : Result := .next (slotWaitExpiry seq s)

/-- R371: the seal of a shard as its receiver computes it at the chunk that carries the shard's seal. -/
def receivedSeal (s : State) (c : Coll) (m : ReleasedMsg) : W64 :=
  let held := (c.results.filter (fun r => decide (r.1 = m.shard) && decide (r.2.1 ≠ m.chunk))).map (·.2)
  shardSeal s c m.shard (shardCodes ((m.chunk, m.values) :: held)) m.record

/-- R370, R371: a released chunk reaches a member: its shard's seal is checked, and it is held and sent on. -/
def releasedChunk (m : ReleasedMsg) (s : State) : State :=
  match findColl s m.seq with
  | none => s
  | some c =>
    if decide (m.attempt ≠ s.step.attempt) || c.complete then s
    else if m.last && decide (receivedSeal s c m ≠ m.carried) then
      let seq := nextSeq s
      markSuspect .none seq (countDetection 10 .none 0 (receivedSeal s c m) m.carried s)
    else takeResult c m s

/-- RELEASED_CHUNK (R370). -/
def execReleasedChunk (m : ReleasedMsg) (s : State) : Result := .next (releasedChunk m s)

/-! ### The start of a step's collectives (R373, R377, R476) -/

/-- R377: a carried contribution is sent first, with CARRIED set and the step it came from. -/
def sendCarry (c : Coll) (s : State) : State :=
  match s.house.carries.find? (fun x => x.1 = c.entry) with
  | none => s
  | some (_, tag, codes) =>
    let e := collEntry s c
    let m := collSize s c
    let self := collSelf s c
    let s := s.withHouse { s.house with carries := s.house.carries.filter (fun x => x.1 ≠ c.entry) }
    let s := sendHeader c { c.own with carried := true, stepTag := tag } s
    let s := requestLease c s
    ((List.range m).flatMap (fun j => (List.range (chunkCount e m j)).map (fun k => (j, k)))).foldl (fun s x =>
      let off := (shardRange e m x.1).1 + 4096 * x.2
      let n := min 4096 ((shardRange e m x.1).2 - 4096 * x.2)
      holdNode { seq := c.seq, attempt := s.step.attempt, shard := x.1, chunk := x.2, level := 0, index := m + self,
                 values := (codes.drop off).take n } s) s

/-- R373: a member that sends a header only sends it when the step starts (log entry 20). -/
def headerOnly (s : State) (c : Coll) : Bool :=
  let e := collEntry s c
  decide (e.op = 6) || decide (e.op = 5) || (decide (e.op = 4) && decide (collSelf s c ≠ e.root)) ||
  decide (e.count = 0) || decide (c.entry = normInst s)

/-- R476: a roll that closed in the abandoned attempt is sent again under the new ATTEMPT. -/
def reuseRoll (c : Coll) (s : State) : State :=
  match s.house.reuse.find? (fun r => r.seq = c.seq) with
  | some r =>
    if isCaller s c then
      let r := { r with attempt := s.step.attempt }
      applyRoll r (auditRoll (collSize s c) r (emit (.roll r) s))
    else s
  | none => s

/-- R358, R373, R377, R476: the collectives of a step or evaluation start. -/
def startColls (s : State) : State :=
  let s := openColls s
  s.house.colls.foldl (fun s c =>
    let s := reuseRoll c s
    let s := if inEval s then s else sendCarry c s
    if headerOnly s c then sendHeader c c.own s else s) s

end Sys2Proof.Machine
end

