-- ==== Sys2Proof/Machine/Outer.lean ====
section
/-! DEFINITION. The outer loop of site mode (R395 to R407, R416): the Form phase, coding over GF(2^8), frames of a
contribution, the roll of sites and the outer update. -/

namespace Sys2Proof.Machine

/-! ### GF(2^8) and the Cauchy code (R416) -/

/-- R416: a product in the field with polynomial 0x11D; `n` counts the bits of the second factor. -/
def gfMulGo : Nat → Nat → Nat → Nat → Nat
  | 0, _, _, acc => acc
  | n + 1, a, b, acc =>
    gfMulGo n (if 128 ≤ a then (2 * a) ^^^ 0x11D else 2 * a) (b / 2) (if b % 2 = 1 then acc ^^^ a else acc)

/-- R416: a product in the field. -/
def gfMul (a b : Nat) : Nat := gfMulGo 8 a b 0

/-- R416: an inverse in the field, a^254. -/
def gfInv (a : Nat) : Nat :=
  let a2 := gfMul a a
  let a4 := gfMul a2 a2
  let a8 := gfMul a4 a4
  let a16 := gfMul a8 a8
  let a32 := gfMul a16 a16
  let a64 := gfMul a32 a32
  let a128 := gfMul a64 a64
  gfMul a128 (gfMul a64 (gfMul a32 (gfMul a16 (gfMul a8 (gfMul a4 a2)))))

/-- R416: the row of coefficients of packet i of a group of K data packets. -/
def codeRow (k i : Nat) : List Nat :=
  (List.range k).map (fun d => if i < k then (if i = d then 1 else 0) else gfInv ((32 + (i - k)) ^^^ d))

/-- A row of bytes scaled. -/
def gfScale (c : Nat) (l : List Nat) : List Nat := l.map (gfMul c)

/-- Two rows added; the longer one's tail stays. -/
def gfAdd : List Nat → List Nat → List Nat
  | [], ys => ys
  | xs, [] => xs
  | x :: xs, y :: ys => (x ^^^ y) :: gfAdd xs ys

/-- R416: parity packet p of a group. -/
def parityPacket (data : List Bytes) (p : Nat) : Bytes :=
  let k := data.length
  ((data.zip (codeRow k (k + p))).foldl (fun acc x => gfAdd acc (gfScale x.2 (x.1.map (·.toNat)))) []).map (BitVec.ofNat 8)

/-- One column of the elimination: the first row with a pivot is scaled, moved to the column's place and cleared from
the others. Rows hold coefficients and bytes. -/
def gfColumn (rows : List (List Nat × List Nat)) (c : Nat) : List (List Nat × List Nat) :=
  match (rows.drop c).findIdx? (fun r => r.1.getD c 0 ≠ 0) with
  | none => rows
  | some i =>
    let p := rows.getD (c + i) ([], [])
    let rows := (rows.set (c + i) (rows.getD c ([], [])))
    let inv := gfInv (p.1.getD c 0)
    let p := (gfScale inv p.1, gfScale inv p.2)
    (rows.set c p).mapIdx (fun j r =>
      if j = c then p else (gfAdd r.1 (gfScale (r.1.getD c 0) p.1), gfAdd r.2 (gfScale (r.1.getD c 0) p.2)))

/-- R416: a group recovered from K distinct packets, given as (packet index, payload). -/
def decodeGroup (k : Nat) (packets : List (Nat × Bytes)) : List Bytes :=
  let rows := (packets.take k).map (fun p => (codeRow k p.1, p.2.map (·.toNat)))
  (((List.range k).foldl gfColumn rows).map (fun r => r.2.map (BitVec.ofNat 8)))

/-! ### Frames (R406 to R417) -/

/-- R425: a peer site's totals changed. -/
def siteCount (i : Nat) (f : SiteTotal → SiteTotal) (s : State) : State :=
  s.withSite { s.site with totals := sput {} s.site.totals i (f (sget {} s.site.totals i)) }

/-- R391: this site's index. -/
def ownSite (s : State) : Nat := (s.site.desc.map (·.own)).getD 0

/-- R410, R424: the session with a peer site for a shard. -/
def findSess (s : State) (site shard : Nat) : Option Session :=
  s.site.sessions.find? (fun x => decide (x.site = site) && decide (x.shard = shard))

/-- The session of this module's own shard with a peer site. -/
def findSession (s : State) (site : Nat) : Option Session := findSess s site (memberIndex s)

/-- The state with a session changed. -/
def updSess (site shard : Nat) (f : Session → Session) (s : State) : State :=
  s.withSite { s.site with
    sessions := s.site.sessions.map (fun x => if x.site = site ∧ x.shard = shard then f x else x) }

/-- R412: the latest epoch whose keys are agreed. -/
def agreedEpoch (x : Session) : Nat := x.txKeys.foldl (fun n k => max n k.1) x.epoch

/-- R412: the next epoch is agreed. -/
def nextAgreed (x : Session) : Bool := decide (x.epoch < agreedEpoch x)

/-- R413: a forced switch of the key epoch is due: 10 minutes in use or 2^32 frames. -/
def switchDue (s : State) (x : Session) : Bool :=
  decide (600000000000 ≤ (s.awn.tick - x.since).toNat) || decide (2 ^ 32 ≤ x.txSeq.toNat)

/-- R413: a forced switch waits for its key, so that the session sends nothing (in part DEDUCED: log 62). -/
def mute (s : State) (x : Session) : Bool := switchDue s x && !nextAgreed x

/-- R417: the routes that are UP, ascending (in part DESIGN CHOICE: log 63). -/
def upRoutes (x : Session) : List Nat := (x.routes.zipIdx.filter (fun r => r.1.up)).map (·.2)

/-- R489: a SITE record. -/
def logSite (event site : Nat) (round : Nat) (more : Bytes) (s : State) : State :=
  logEvent 0x700 1 .barter (natLe 1 event ++ natLe 1 site ++ natLe 6 round ++ more) s

/-- R409: a frame to be sent on a session; `route` none is the first route that is UP. -/
structure ToSend where
  ftype : Nat
  round : Nat
  group : Nat := 0
  pkt : Nat := 0
  k : Nat := 0
  m : Nat := 0
  route : Option Nat := none
  resend : Bool := false
  state : Bool := false
  body : FrameBody
  deriving DecidableEq, Repr

/-- R417: the route of packet i of group g. With no route UP it is route 0. -/
def routeOf (x : Session) (g i : Nat) : Nat :=
  let u := upRoutes x
  u.getD (if u.length = 0 then 0 else (i + g) % u.length) 0

/-- Big-endian bytes of a number. -/
def natBe (n v : Nat) : Bytes := (natLe n v).reverse

/-- R408: the 48 octets of a Barter header. -/
def barterHeader (ftype : Nat) (h : FrameHeader) : Bytes :=
  [h.version, BitVec.ofNat 8 ftype, h.flags, BitVec.ofNat 8 h.route] ++ natBe 4 h.session.toNat ++ natBe 4 h.epoch.toNat ++
  natBe 8 h.seq.toNat ++ natBe 6 h.round.toNat ++ natBe 2 h.shard.toNat ++ natBe 4 h.group ++
  [BitVec.ofNat 8 h.pkt, BitVec.ofNat 8 h.k, BitVec.ofNat 8 h.m, BitVec.ofNat 8 h.site] ++ natBe 8 h.txNs.toNat ++
  natBe 2 h.len ++ [0, 0]

/-- R410: the nonce of a frame: EPOCH followed by SEQ. -/
def frameNonce (h : FrameHeader) : Bytes := natBe 4 h.epoch.toNat ++ natBe 8 h.seq.toNat

/-- R410: the tag of a frame under a key, with the header as additional data. -/
def frameTag (key : Bytes) (ftype : Nat) (h : FrameHeader) (body : FrameBody) : Bytes :=
  Config.gcmTag key (frameNonce h) (barterHeader ftype h) body

/-- R392: the interface identifier of the module at a member index. -/
def interfaceId (member : Nat) : Bytes := natBe 8 (member + 1)

/-- R392: the prefix of a site for a route: PREFIX_A of an even one, PREFIX_B of an odd one. -/
def prefixOf (d : SiteDesc) (site route : Nat) : Bytes :=
  match d.entries[site]? with
  | some e => if route % 2 = 0 then e.prefixA else e.prefixB
  | none => []

/-- R390, R392, R424: how a frame of a session leaves on a route: from this module's own address to the address of the peer's latest
authenticated frame, with the flow label of the peer site's entry (in part DEDUCED: log 106). -/
def wireOf (s : State) (x : Session) (route : Nat) : Wire :=
  match s.site.desc with
  | none => { port := .ethA, source := [], dest := [], flow := 0, udp := 0 }
  | some d =>
    { port := if route % 2 = 0 then .ethA else .ethB, source := prefixOf d d.own route ++ interfaceId (memberIndex s),
      dest := prefixOf d x.site route ++ x.peerIf, flow := ((d.entries[x.site]?).map (fun e => e.flow.getD route 0)).getD 0,
      udp := d.udpPort }

/-- R408 LEN: the payload's octets (in part DESIGN CHOICE: log 73). -/
def bodyOctets : FrameBody → Nat
  | .coded p => p.length
  | .setup _ => 7476
  | b => Config.payloadOctets b

/-- R408: the header of a frame of a session under an epoch and a sequence number (in part DESIGN CHOICE: log 63). -/
def headerOf (s : State) (x : Session) (epoch : Nat) (seq : W64) (f : ToSend) : FrameHeader :=
  let route := f.route.getD (routeOf x 0 0)
  { version := 1, flags := (if f.resend then 1 else 0) + (if f.state then 2 else 0),
    route := route, session := x.id, epoch := BitVec.ofNat 32 epoch, seq := seq,
    round := BitVec.ofNat 48 f.round, shard := BitVec.ofNat 16 x.shard, group := f.group, pkt := f.pkt, k := f.k, m := f.m,
    site := ownSite s, txNs := s.awn.tick, len := bodyOctets f.body, tag := [],
    source := (wireOf s x route).source, fragment := false }

/-- R410: the key under which a session sends in an epoch. -/
def sendKey (x : Session) (epoch : Nat) : Bytes := ((x.txKeys.find? (fun k => k.1 = epoch)).map (·.2)).getD []

/-- R408, R410, R425: a frame leaves under its epoch's key and is counted. -/
def putFrame (x : Session) (epoch : Nat) (seq : W64) (f : ToSend) (s : State) : State :=
  let s := siteCount x.site (fun t => { t with
    framesSent := add48 t.framesSent 1, resent := if f.resend then add48 t.resent 1 else t.resent }) s
  let h := headerOf s x epoch seq f
  emit (.frame x.site f.ftype (wireOf s x h.route) { h with tag := frameTag (sendKey x epoch) f.ftype h f.body } f.body) s

/-- R410, R411: a frame leaves under the current epoch with the next SEQ (in part DESIGN CHOICE: log 63). -/
def sendNow (site shard : Nat) (f : ToSend) (s : State) : State :=
  match findSess s site shard with
  | none => s
  | some x =>
    if x.opened then
      putFrame x x.epoch x.txSeq f (updSess site shard (fun x => { x with txSeq := x.txSeq + 1 }) s)
    else s

/-- R413: a frame leaves unless a forced switch waits for its key (in part DEDUCED: log 62). -/
def sendFrame (site shard : Nat) (f : ToSend) (s : State) : State :=
  match findSess s site shard with
  | none => s
  | some x => if mute s x then s else sendNow site shard f s

/-- R415: a resend leaves under the epoch of the first transmission while that key is kept, with a fresh SEQ. -/
def resendFrame (site shard first : Nat) (f : ToSend) (s : State) : State :=
  match findSess s site shard with
  | none => s
  | some x =>
    if x.opened && decide (first + 1 = x.epoch) && decide ((s.awn.tick - x.since).toNat < 2000000000) && x.txKeys.any (fun k => k.1 = first) then
      putFrame x first x.txPrev f (updSess site shard (fun x => { x with txPrev := x.txPrev + 1 }) s)
    else sendFrame site shard f s

/-- R412, R578: when an epoch comes into use, the end with the lower site index sends a fresh key in KEY_NEXT
(in part DEDUCED: log 77). -/
def startKeyNext (site shard : Nat) (s : State) : State :=
  if ownSite s < site then
    let keys := Config.kemKeys s.sec.kemUsed
    let s := s.withSec { s.sec with kemUsed := s.sec.kemUsed + 1 }
    sendNow site shard { ftype := 5, round := s.site.round, body := .kem keys.1 }
      (updSess site shard (fun x => { x with kemKey := keys.2 }) s)
  else s

/-- R412, R413, R414, R425: a sender switches its direction to the next key epoch, and records it
(in part DEDUCED: log 77). -/
def switchEpoch (site shard : Nat) (s : State) : State :=
  match findSess s site shard with
  | none => s
  | some x =>
    let s := updSess site shard (fun x => { x with
      epoch := x.epoch + 1, txPrev := x.txSeq, txSeq := 0, since := s.awn.tick, keyWaiting := false,
      txKeys := x.txKeys.filter (fun k => x.epoch ≤ k.1) }) s
    startKeyNext site shard (logSite 3 site s.site.round (natLe 4 (x.epoch + 1)) s)

/-- R413: the first ROUND_OPEN after the next epoch is agreed switches to it (in part DEDUCED: log 77). -/
def switchAtOpen (site shard : Nat) (s : State) : State :=
  match findSess s site shard with
  | some x => if nextAgreed x then switchEpoch site shard s else s
  | none => s

/-- R416: data packet d of a stream, padded with zeros. -/
def dataPacket (stream : Bytes) (d : Nat) : Bytes := (((stream.drop (8192 * d)).take 8192) ++ List.replicate 8192 0).take 8192

/-- R416: the data packets of a stream, its groups, and K of group g. -/
def packetCount (stream : Bytes) : Nat := (stream.length + 8191) / 8192
def groupTotal (k : Nat) (stream : Bytes) : Nat := (packetCount stream + k - 1) / max 1 k
def groupK (k : Nat) (stream : Bytes) (g : Nat) : Nat := min k (packetCount stream - k * g)

/-- R416: packet i of group g: a data packet or a parity packet. -/
def codedPacket (k : Nat) (stream : Bytes) (g i : Nat) : Bytes :=
  let n := groupK k stream g
  if i < n then dataPacket stream (k * g + i)
  else parityPacket ((List.range n).map (fun d => dataPacket stream (k * g + d))) (i - n)

/-- R408, R416, R417: the DATA frame of packet i of group g on a session. -/
def packetFrame (d : SiteDesc) (x : Session) (o : Outbound) (state resend : Bool) (g i : Nat) : ToSend :=
  { ftype := 1, round := o.round, group := g, pkt := i, k := groupK d.k o.stream g, m := d.m, route := some (routeOf x g i),
    resend := resend, state := state, body := .coded (codedPacket d.k o.stream g i) }

/-- R409: the ROUND_OPEN of a contribution. -/
def openFrame (d : SiteDesc) (o : Outbound) (state : Bool) : ToSend :=
  let n := groupTotal d.k o.stream
  { ftype := 2, round := o.round, state := state, body := .roundOpen n (groupK d.k o.stream (n - 1)) o.sealWord o.record }

/-- R413, R416: a contribution is sent to one peer: ROUND_OPEN and every group's packets over the UP routes. -/
def sendContribution (d : SiteDesc) (site : Nat) (o : Outbound) (state : Bool) (s : State) : State :=
  let me := memberIndex s
  match findSession (switchAtOpen site me s) site with
  | none => s
  | some x =>
    let s := sendFrame site me (openFrame d o state) (switchAtOpen site me s)
    (List.range (groupTotal d.k o.stream)).foldl (fun s g =>
      (List.range (groupK d.k o.stream g + d.m)).foldl (fun s i => sendFrame site me (packetFrame d x o state false g i) s) s) s

/-- R415, R406: a contribution that has begun to go to a peer, under the peer's epoch now. -/
def markSent (site : Nat) (s : State) (o : Outbound) : Outbound :=
  { o with acked := o.acked ++ [(site, [])], epochs := o.epochs ++ [(site, ((findSession s site).map (·.epoch)).getD 0)] }

/-- R423: after the contribution of its last round a leaving module sends LEAVE naming the round. -/
def sendLeave (site round : Nat) (s : State) : State :=
  match s.site.leaving with
  | some (_, w) => if w = round then sendFrame site (memberIndex s) { ftype := 8, round := w, body := .leave } s else s
  | none => s

/-- R406: contributions not yet sent to a peer that has granted an inbound slot leave, oldest first; `n` bounds them. -/
def sendWaiting (site : Nat) : Nat → State → State
  | 0, s => s
  | n + 1, s =>
    match s.site.desc, findSession s site with
    | some d, some x =>
      match s.site.outbound.find? (fun o => !(o.acked.any (fun a => a.1 = site))) with
      | none => s
      | some o =>
        if !x.opened || decide (x.grants = 0) || mute s x then s
        else
          let s := updSess site x.shard (fun x => { x with grants := x.grants - 1 }) s
          let s := sendContribution d site o false s
          let s := s.withSite { s.site with
            outbound := s.site.outbound.map (fun q => if q.round = o.round then markSent site s q else q) }
          sendWaiting site n (sendLeave site o.round s)
    | _, _ => s

/-- The peer sites of the site descriptor, ascending. -/
def peerSites (s : State) : List Nat :=
  match s.site.desc with
  | some d => (List.range d.sites).filter (fun i => decide (i ≠ d.own))
  | none => []

/-- R402, R423: the peer sites that are active. A site that has left counts no more once its last round has passed
(in part DEDUCED: log 80). -/
def activePeers (s : State) : List Nat :=
  (s.site.active.map (·.1)).filter (fun i =>
    decide (i ≠ ownSite s) && !(s.site.last.any (fun l => decide (l.1 = i) && decide (l.2 < s.site.round))))

/-- R395 Send: every active peer is sent what it can be. -/
def sendAll (s : State) : State := (activePeers s).foldl (fun s i => sendWaiting i s.site.outbound.length s) s

/-! ### Form (R396, R397) -/

/-- The role of a section's tensor. -/
def sectionRole (s : State) (x : Section) : Option TensorRole := (findTensor s x.desc.tid).map (·.role)

/-- The element codes of the sections of a role, in section order. -/
def roleCodes (s : State) (buf : List Section) (r : TensorRole) : List Nat :=
  (buf.filter (fun x => sectionRole s x = some r)).flatMap (fun x =>
    (List.range x.desc.elems).map (unpackCode x.desc.fmt x.content))

/-- R147: w = h + q · 2^(E′ − 142), by one FMA. -/
def weightOf (h q : Nat) : W32 :=
  let e := max 16 (h / 128 % 256)
  fmaRne (toA32 (decode .int8 q)) (toA32 (.fin false 1 ((e : Int) - 142))) (toA32 (decode .bf16 h))

/-- A BF16 value as FP32. -/
def bf32 (x : W16) : W32 := toA32 (decode .bf16 x.toNat)

/-- An FP32 value rounded to BF16 under RNE. -/
def toBf (x : W32) : Conv := convert .bf16 .rne false 0 (ofA32 x)

/-- A list cut into pieces of 32; `n` bounds the pieces. -/
def blocks32 : Nat → List W32 → List (List W32)
  | 0, _ => []
  | _ + 1, [] => []
  | n + 1, l => l.take 32 :: blocks32 n (l.drop 32)

/-- R396: one block of 32 parameters: its scale, its conversions and the decoded values ĉ. -/
def formBlock (spec : Bool) (xs : List W32) : Byte × List Conv × List W32 :=
  let (sc, cs) := mxBlock .e2m1 .rne spec (xs.map ofA32) []
  let back := cs.map (fun c => match e8m0 sc with
    | none => nan32
    | some e => toA32 ((decode .e2m1 c.code).scale e))
  (sc, cs, back)

/-- R397: the descriptor under which a contribution of P parameters is sealed, EPOCH the round
(in part DESIGN CHOICE: log 64). -/
def contributionDesc (s : State) (p round : Nat) : SectionDesc :=
  { tid := 0, epoch := BitVec.ofNat 48 round, sec := BitVec.ofNat 16 (memberIndex s), fmt := .e2m1, mx := true, rank := 1,
    base := 0, elems := p, dims := [p] }

/-- R396, R397: the contribution of the round that ends and the residual e′ of BF16 bits
(in part DESIGN CHOICE: log 64). -/
def formContribution (s : State) : Outbound × List W16 :=
  let hs := roleCodes s (committed s) .param
  let qs := roleCodes s (committed s) .remainder
  let xs := hs.mapIdx (fun i h =>
    addRne (subRne (weightOf h (qs.getD i 0)) (bf32 (s.site.anchor.getD i 0))) (bf32 (s.site.residual.getD i 0)))
  let bs := (blocks32 xs.length xs).map (formBlock ((s.site.desc.map (·.mxSpec)).getD false))
  let convs := bs.flatMap (·.2.1)
  let back := bs.flatMap (·.2.2)
  let content := packCodes .e2m1 (convs.map (·.code))
  let scales := bs.map (·.1)
  let r := convsRecord convs
  let d := contributionDesc s xs.length s.site.round
  ({ round := s.site.round, stream := content ++ scales, record := r, sealWord := sealOf d content scales r, acked := [],
     epochs := [] },
   (xs.zip back).map (fun p => BitVec.ofNat 16 (toBf (subRne p.1 p.2)).code))

/-! ### The roll of sites (R401 to R404) -/

/-- R402, R424: the shards that this module holds: its own, and those of roles it has taken over. -/
def ownShards (s : State) : List Nat :=
  memberIndex s :: (s.step.taken.filter (fun t => decide (t.2 = memberIndex s))).map (·.1)

/-- R402, R439: how many members report: those whose roles no partner carries. -/
def reporters (s : State) : Nat := memberCount s - s.step.taken.length

/-- R401, R402: the contributions that this module holds, for every shard it has, and that no outer step has applied. -/
def heldList (s : State) : List SiteRound :=
  let own := ownSite s
  let here := fun (x : Inbound) => (ownShards s).all (fun j => s.site.inbound.any (fun y =>
    y.held && decide (y.shard = j) && decide (y.site = x.site) && decide (y.round = x.round)))
  ((s.site.outbound.map (fun o => ({ site := own, round := o.round } : SiteRound))) ++
    ((s.site.inbound.filter (fun x => x.held && decide (x.shard = memberIndex s) && here x)).map (fun x => ({ site := x.site, round := x.round } : SiteRound)))).filter
    (fun x => x ∉ s.site.applied)

/-- R402: ascending (round, site). -/
def siteOrder (l : List SiteRound) : List SiteRound :=
  sortBy (fun a b => decide (a.round < b.round) || (decide (a.round = b.round) && decide (a.site ≤ b.site))) l

/-- R402: the pairs that every member of the slice reports. -/
def heldByAll (s : State) : List SiteRound :=
  let n := reporters s
  match s.site.reports with
  | [] => []
  | (_, l) :: _ =>
    if s.site.reports.length < n then []
    else l.filter (fun x => decide (x.round ≤ s.site.round) && decide (x ∉ s.site.applied) &&
      s.site.reports.all (fun r => decide (x ∈ r.2)))

/-- R403: the active site that holds up the roll: it has a round in reach that is neither accepted nor applied. -/
def laggingSite (s : State) (acc : List SiteRound) : Option Nat :=
  let sb := (s.site.desc.map (·.s)).getD 1
  (s.site.active.find? (fun a =>
    (List.range (s.site.round + 1 - sb)).any (fun v =>
      decide (a.2 ≤ v) && decide (({ site := a.1, round := v } : SiteRound) ∉ acc) &&
      decide (({ site := a.1, round := v } : SiteRound) ∉ s.site.applied) &&
      !(s.site.last.any (fun l => decide (l.1 = a.1) && decide (l.2 < v)))))).map (·.1)

/-! ### The outer update (R398, R399) -/

/-- R397: the element values of a contribution's stream. -/
def streamValues (p : Nat) (stream : Bytes) : List W32 :=
  let scales := stream.drop (packedBytes .e2m1 p)
  (List.range p).map (fun i => match e8m0 (scales.getD (i / 32) 0x7F) with
    | none => nan32
    | some e => toA32 ((decode .e2m1 (unpackCode .e2m1 ((stream.drop (i / 2)).take 1) (i % 2))).scale e))

/-- R416: the stream of an inbound contribution whose groups have all decoded. -/
def inboundStream (x : Inbound) (len : Nat) : Bytes :=
  ((List.range x.groups).flatMap (fun g =>
    (sortBy (fun (a b : Nat × Nat × Bytes) => decide (a.2.1 ≤ b.2.1)) (x.packets.filter (fun q => q.1 = g))).flatMap (·.2.2))).take len

/-- R397, R398: the leaf of a pair: its values and its seal; none when its record has NONFINITE. -/
def leafOf (s : State) (p : Nat) (x : SiteRound) : Option (List W32 × W64) :=
  if x.site = ownSite s then
    (s.site.outbound.find? (fun o => o.round = x.round)).bind (fun o =>
      if o.record.nonfinite then none else some (streamValues p o.stream, o.sealWord))
  else
    (s.site.inbound.find? (fun i => i.held && decide (i.shard = memberIndex s) && decide (i.site = x.site) &&
        decide (i.round = x.round))).bind (fun i =>
      if i.record.nonfinite then none
      else some (streamValues p (inboundStream i (packedBytes .e2m1 p + (p + 31) / 32)), i.sealWord))

/-- R398: one element of the outer update: the new momentum and the new anchor as BF16 conversions. -/
def outerElem (mu eta : W32) (leaves : List W32) (m : W16) (a : W16) : Conv × Conv :=
  let n := leaves.length
  let g := if n = 0 then 0 else div32 (pairwise leaves) (toA32 (.fin false n 0))
  let m1 := fmaRne mu (bf32 m) g
  let x := fmaRne mu m1 g
  (toBf m1, toBf (fmaRne eta x (bf32 a)))

/-- R398: the outer update of every element from the leaves' values. -/
def outerElems (s : State) (d : SiteDesc) (leaves : List (List W32)) : List (Conv × Conv) :=
  (List.range s.site.anchor.length).map (fun i =>
    outerElem d.mu d.eta (leaves.map (fun l => l.getD i 0)) (s.site.momentum.getD i 0) (s.site.anchor.getD i 0))

/-- R399, R146: the shadow of an outer step: new parameters with remainder 0, every other state tensor as committed, all
sealed again at the step's epoch. `hs` are the new parameters in section order. -/
def outerShadow (s : State) : List Section → List Conv → List Section
  | [], _ => []
  | x :: t, hs =>
    let d := { x.desc with epoch := s.job.epoch + 1 }
    match sectionRole s x with
    | some .param =>
      let cs := hs.take x.desc.elems
      let content := packCodes .bf16 (cs.map (·.code))
      let r := convsRecord cs
      { x with desc := d, content := content, record := r, sealWord := sealOf d content x.scales r } ::
        outerShadow s t (hs.drop x.desc.elems)
    | some .remainder =>
      let content := List.replicate x.content.length 0
      { x with desc := d, content := content, record := {}, sealWord := sealOf d content x.scales {} } :: outerShadow s t hs
    | _ => { x with desc := d, sealWord := sealOf d x.content x.scales x.record } :: outerShadow s t hs

/-- A run that Ondarel starts by itself in site mode. -/
def siteRun : RunCmd :=
  { cmd := none, eval := false, evalList := 0, drawBase := 0, cursor := 0, stepsLeft := 1, done := 0, worst := 0 }

/-- R400, R490: the AUDIT_LEAF records of an outer step. -/
def auditLeaves (leaves : List (SiteRound × W64)) (s : State) : State :=
  leaves.foldl (fun s x => logEvent 0x303 0 .none
    (natLe 1 x.1.site ++ natLe 6 x.1.round ++ natLe 1 0 ++ natLe 2 leaves.length ++ natLe 8 x.2.toNat) s) s

/-- R397: accepted contributions whose record has NONFINITE are counted. -/
def countNonfinite (set : List SiteRound) (p : Nat) (s : State) : State :=
  (set.filter (fun x => (leafOf s p x).isNone)).foldl (fun s x =>
    siteCount x.site (fun t => { t with nonfiniteContrib := add48 t.nonfiniteContrib 1 }) s) s

/-- R399, R430: an outer step begins with its new anchor, which goes to the shadow buffer and, in place of a gradient, to
the mirror. -/
def beginOuter (run : RunCmd) (anchor : List Conv) (momentum : List W16) (set : List SiteRound) (s : State) : State :=
  let s := s.withStep { run := some run, outer := true, missed := s.step.missed,
                        failedMembers := s.step.failedMembers, taken := s.step.taken }
  let s := setShadow s (outerShadow s (committed s) anchor)
  let s := s.withSite { s.site with boundary := 2, accepted := set, nextMomentum := momentum }
  if hasPartner s then
    emit (.mirrorRecord (mirrorRecordOf s)) (emit (.mirrorSection (runningEpoch s) 0
      (anchor.map (fun c => BitVec.ofNat 32 c.code))) (s.withStep { s.step with mirrored := 1 }))
  else s

/-- R398, R399: a member runs the outer update with the accepted set. -/
def outerUpdate (set : List SiteRound) (s : State) : State :=
  match s.site.desc with
  | none => s
  | some d =>
    if s.site.boundary ≠ 1 ∨ s.step.run.isSome then s
    else
      let p := s.site.anchor.length
      let set := siteOrder set
      let leaves := set.filterMap (fun x => (leafOf s p x).map (fun v => (x, v)))
      let elems := outerElems s d (leaves.map (·.2.1))
      let s := countNonfinite set p s
      let s := beginOuter siteRun (elems.map (·.2)) (elems.map (fun e => BitVec.ofNat 16 e.1.code)) set s
      auditLeaves (leaves.map (fun l => (l.1, l.2.2))) s

/-- R398: ACCEPTED_SET at a member. -/
def execAcceptedSet (set : List SiteRound) (s : State) : Result := .next (outerUpdate set s)

/-- R402, R403: the lead sends the accepted set unless an active site holds it up. -/
def evaluateRoll (s : State) : State :=
  if !isLead s || s.site.excluded || decide (s.site.boundary ≠ 1) || s.step.run.isSome || decide (s.site.reports.length < reporters s) then s
  else
    let acc := siteOrder (heldByAll s)
    match laggingSite s acc with
    | some i => s.withSite { s.site with
        waitingFor := some i, waitSince := if s.site.waitingFor = some i then s.site.waitSince else s.awn.tick }
    | none => outerUpdate acc (emit (.accepted acc) (s.withSite { s.site with waitingFor := none }))

/-- R402: a member's report of the contributions it holds, at the lead. -/
def contributionReport (member : Nat) (held : List SiteRound) (s : State) : State :=
  if !isLead s then s
  else evaluateRoll (s.withSite { s.site with
    reports := s.site.reports.filter (fun r => r.1 ≠ member) ++ [(member, held)] })

/-- CONTRIBUTION_REPORT (R402). -/
def execContributionReport (member : Nat) (held : List SiteRound) (s : State) : Result :=
  .next (contributionReport member held s)

/-- R402: this module reports what it holds, while the boundary waits for the roll. -/
def reportHeld (s : State) : State :=
  if s.site.boundary ≠ 1 then s
  else if isLead s then contributionReport (memberIndex s) (heldList s) s
  else emit (.memberReport (heldList s)) s

/-- R395, R396, R406: the Form phase: the contribution is compressed, sealed and queued when an outbound slot is free. -/
def formPhase (s : State) : State :=
  match s.site.desc with
  | none => s
  | some d =>
    if s.site.excluded then s
    else if d.s + 2 ≤ s.site.outbound.length then s.withSite { s.site with boundary := 3 }
    else
      let (o, e) := formContribution s
      let s := s.withSite { s.site with outbound := s.site.outbound ++ [o], nextResidual := e, boundary := 1 }
      reportHeld (sendAll s)

/-! ### Slots, departure and the end of SITE_JOIN (R406, R423) -/

/-- R401, R406: freed inbound slots of a peer are granted anew in an ACK (in part DESIGN CHOICE: log 74). -/
def grantSlots (site shard n : Nat) (s : State) : State :=
  let a : AckPayload := { round := BitVec.ofNat 48 s.site.round, groups := [], echoes := [], grants := n }
  if n = 0 then s else sendFrame site shard { ftype := 3, round := s.site.round, body := .ack a } s

/-- R397: a peer has acknowledged every group of a contribution. -/
def ackedBy (k : Nat) (o : Outbound) (site : Nat) : Bool :=
  o.acked.any (fun a => decide (a.1 = site) && decide (groupTotal k o.stream ≤ a.2.length))

/-- R397, R401: own contributions that are applied and that every active peer has acknowledged free their slots. -/
def freeOutbound (s : State) : State :=
  let k := (s.site.desc.map (·.k)).getD 1
  let own := ownSite s
  let peers := activePeers s
  s.withSite { s.site with outbound := s.site.outbound.filter (fun o =>
    !(decide (({ site := own, round := o.round } : SiteRound) ∈ s.site.applied) && peers.all (ackedBy k o))) }

/-- R423, R579: the module leaves site mode: session keys and site state go, the totals of R425 stay
(in part DEDUCED: log 80). -/
def endSite (k : CmdRef) (result : Nat) (s : State) : State :=
  let s := logSite 2 (ownSite s) s.site.round [] s
  let s := s.withSite { totals := s.site.totals }
  finish k result (s.withMbx { s.mbx with job := .loaded })

/-- R423: SITE_LEAVE completes when every active peer has acknowledged every group of the last round, which has ended. -/
def tryLeave (s : State) : State :=
  match s.site.leaving with
  | none => s
  | some (k, w) =>
    let g := (s.site.desc.map (·.k)).getD 1
    let peers := activePeers s
    if w < s.site.round && s.site.outbound.all (fun o => decide (o.round ≠ w) || peers.all (ackedBy g o)) then endSite k rOK s
    else s

/-- R394, R522, R565: SITE_JOIN completes: the first round starts (in part DEDUCED: log 79). -/
def finishJoin (s : State) : State :=
  match s.site.joining, s.site.desc with
  | some k, some d =>
    let s := extend 7 d.digest (s.withSite { s.site with joining := none })
    finish k rOK (s.withMbx { s.mbx with job := .site })
  | _, _ => s

end Sys2Proof.Machine
end

