-- ==== Sys2Proof/Machine/Commit.lean ====
section
/-! DEFINITION. The two-phase update (R426 to R449): steps and their commit, mirrors, PREPARED, DECISION and COMMIT,
failed members and the takeover of a role, and the replay of a step. -/

namespace Sys2Proof.Machine

/-! ### The start of a step -/

/-- R475: the values that a replay returns to are those of the last commit. -/
def savePoint (s : State) : State :=
  s.withJob { s.job with point :=
    { draws := s.job.draws, collSeq := s.job.collSeq, dir := s.ledger.dir, carries := s.house.carries } }

/-- R639: what a step or evaluation starts without: parameters, summaries and their slots, decisions, spans, routing batches and
collectives of the one before. -/
def clearWork (s : State) : State :=
  let s := s.withJob { s.job with
    params := [], summaries := [], partials := [], collResults := [], norm := none, decided := [], verbRuns := [] }
  let s := s.withStalls (clearStalls s.stalls)
  let s := s.withLedger { s.ledger with
    entries := [], batches := [], streams := [], visits := [], requests := [], offered := [], fetches := [], tiles := [], tileQueue := [],
    asked := [], gathered := [], counted := false, convBases := [] }
  let s := s.withTens { s.tens with writes := [], gathered := [] }
  s.withHouse { s.house with colls := [], completed := [], reuse := [], leased := 0, normTerms := [] }

/-- The step's protocol state begins anew; failed members and taken roles stay. -/
def freshStep (s : State) : State :=
  s.withStep { run := s.step.run, missed := s.step.missed, failedMembers := s.step.failedMembers, taken := s.step.taken }

/-- The input streams of the loaded program, of training or of evaluation. -/
def inputStreams (s : State) (eval : Bool) : List InputStream :=
  (s.load.prog.map (fun p => if eval then p.evalInputs else p.inputs)).getD []

/-- R529: the tensor of one input stream from its bytes: packed elements, then the scale array. -/
def inputSections (s : State) (x : InputStream) (data : Bytes) (epoch : W48) : List Section :=
  match findTensor s x.tensor with
  | none => []
  | some t =>
    let scaleOff := packedBytes t.fmt (dimsElems t.dims)
    (List.range (sectionCount t)).map (fun i =>
      let d := sectionDesc t i epoch
      let content := (data.drop (packedBytes t.fmt d.base)).take (packedBytes t.fmt d.elems)
      let b0 := blockOf (rowLen t.dims) d.base
      let scales := if t.mx then (data.drop (scaleOff + b0)).take (scaleCount (rowLen t.dims) d.base d.elems) else []
      { desc := d, content := content, scales := scales, record := {}, sealWord := sealOf d content scales {} })

/-- R168, R171: where an input stream of the running command is read: an evaluation's own cursor, or the stream's training cursor as
the last commit left it. -/
def inputCursor (s : State) (r : RunCmd) (i : Nat) : W64 := if r.eval then r.cursor else s.job.cursors.getD i 0

/-- R168, R171, R529: the loader brings the inputs of the step or evaluation that starts, where its command brings none
(in part DESIGN CHOICE: log 104). -/
def readInputs (s : State) : State :=
  match s.step.run with
  | none => s
  | some r =>
    if !r.loader || s.step.outer then s
    else
      (inputStreams s r.eval).zipIdx.foldl (fun s x =>
        let data := Config.samples r.eval x.2 (s.job.shuffles.getD x.2 0) (inputCursor s r x.2) x.1.samples
        let secs := inputSections s x.1 data (writeEpoch s)
        s.withTens { s.tens with plain := secs.foldl putSection s.tens.plain }) s

/-- R168, R358, R377: a training step begins. -/
def beginStep (s : State) : State := startColls (readInputs (savePoint (freshStep (clearWork s))))

/-! ### REPLAY (R475, R476) -/

/-- R173, R475: REPLAY(E, a) at a member: the attempt is abandoned, roles leave fenced stalls and the step runs again with the
rolls that had closed (R476); an evaluation runs again from its start. When the plan no longer fits the remaining stalls, the command ends with FENCED (R108)
(in part DEDUCED: log 28). -/
def replayStep (epoch : W48) (attempt : Byte) (s : State) : State :=
  if s.step.run.isNone then s
  else if epoch ≠ runningEpoch s ∨ attempt.toNat ≤ s.step.attempt.toNat then s
  else if inEval s then
    let (s, ok) := moveRoles (restartEval attempt s)
    if ok then startColls (readInputs s) else endRun rFenced {} s
  else
    let cause := if s.step.suspect then s.saf.lastSeq else 0
    let who := if s.step.suspect then memberIndex s else 0xFFFF
    let s := abandonAttempt attempt s
    let s := s.withStep { s.step with replays := s.step.replays + 1 }
    let s := logEvent 0x201 1 .none (natLe 1 attempt.toNat ++ natLe 7 0 ++ natLe 8 cause.toNat ++ natLe 2 who) s
    let (s, ok) := moveRoles s
    if ok then startColls (readInputs s) else endRun rFenced {} s

/-- REPLAY (R475). -/
def execReplay (epoch : W48) (attempt : Byte) (s : State) : Result := .next (replayStep epoch attempt s)

/-! ### Partner slots (R185, R428) -/

/-- R185: the COMPLETE slot. -/
def completeSlot (s : State) : PSlot := if s.snap.slotA.state = .complete then s.snap.slotA else s.snap.slotB

/-- R185: the COMPLETE slot replaced. -/
def setComplete (x : PSlot) (s : State) : State :=
  if s.snap.slotA.state = .complete then s.withSnap { s.snap with slotA := x } else s.withSnap { s.snap with slotB := x }

/-- R185: the FILLING slot. -/
def fillingSlot (s : State) : PSlot := if s.snap.slotA.state = .complete then s.snap.slotB else s.snap.slotA

/-- R185: the FILLING slot replaced. -/
def setFilling (x : PSlot) (s : State) : State :=
  if s.snap.slotA.state = .complete then s.withSnap { s.snap with slotB := x } else s.withSnap { s.snap with slotA := x }

/-- R185: the slots swap. -/
def swapSlots (s : State) : State :=
  let flip := fun (x : PSlot) => { x with state := if x.state = .complete then .filling else .complete }
  s.withSnap { s.snap with slotA := flip s.snap.slotA, slotB := flip s.snap.slotB }

/-- R426: the partner of a member. -/
def partnerOf (s : State) (i : Nat) : Nat :=
  memberAt s (segPos s i) (stageOf s i) ((replicaOf s i + s.snap.shift) % cutD s)

/-! ### Mirrors (R428 to R432) -/

/-- R432, R430: a mirrored section reaches the partner: it is accepted once the standby update of the commit before has
ended, its seal is checked and it is acknowledged (in part DESIGN CHOICE: log 56). -/
def mirrorSection (epoch : W48) (index : Nat) (sec : Section) (last : Option MirrorRecord) (s : State) : State :=
  if s.snap.covers.isNone || s.snap.updating.isSome || decide (epoch ≠ runningEpoch s) then s
  else if sealOf sec.desc sec.content sec.scales sec.record ≠ sec.sealWord then
    let seq := nextSeq s
    markSuspect .none seq (countDetection 10 .none 0 (sealOf sec.desc sec.content sec.scales sec.record) sec.sealWord s)
  else
    let keep := if s.snap.mirrorEpoch = epoch then s.snap.mirror else []
    emit (.mirrorAck epoch index) (s.withSnap { s.snap with
      mirror := keep ++ [sec], mirrorEpoch := epoch,
      mirrorRec := match last with | some r => some r | none => s.snap.mirrorRec,
      mirrorDone := last.isSome })

/-- MIRROR_SECTION (R432). -/
def execMirrorSection (epoch : W48) (index : Nat) (sec : Section) (last : Option MirrorRecord) (s : State) : Result :=
  .next (mirrorSection epoch index sec last s)

/-- R432, R399: how many sections this module mirrors in the running step. -/
def mirrorExpected (s : State) : Nat := if s.step.outer then 1 else mirrorTotal s

/-- R432: the partner has acknowledged a mirrored section; the last one ends the mirror. -/
def mirrorAck (epoch : W48) (index : Nat) (s : State) : State :=
  if s.step.run.isSome ∧ epoch = runningEpoch s ∧ s.step.mirrored = mirrorExpected s ∧ mirrorExpected s ≤ index + 1 then
    s.withStep { s.step with mirrorAcked := true }
  else s

/-- MIRROR_ACK (R432). -/
def execMirrorAck (epoch : W48) (index : Nat) (s : State) : Result := .next (mirrorAck epoch index s)

/-! ### The commit of a step at one member (R434, R257, R168, R358) -/

/-- R374, R388: a collective of the step has dropped a contribution. -/
def lateDropped (s : State) : Bool :=
  s.house.colls.any (fun c => decide (policyOf s c = 2) &&
    (match c.roll with
      | some r => decide (r.mask.length < collSize s c)
      | none => false))

/-- R388: the result of a step that commits. -/
def stepResult (s : State) (skipped : Bool) : Nat :=
  if skipped then rSkipped else if lateDropped s then rLateDropped else rOK

/-- R640: how many records a DETAIL content of n bytes takes. -/
def pieceCount (n : Nat) : Nat := max 1 ((n + 27) / 28)

/-- R489, R490: how many audit records this module has written for the step. -/
def auditCount (s : State) : Nat :=
  if s.step.outer then s.site.accepted.length
  else (s.house.colls.map (fun c =>
    match c.roll with
    | some r =>
      if !isCaller s c || (decide (r.mask.length = collSize s c) && decide (r.carried = [])) then 0
      else pieceCount (10 + 2 * (collSize s c - r.mask.length)) +
        (if r.carried = [] then 0 else pieceCount (6 + 8 * r.carried.length))
    | none => 0)).foldl (· + ·) 0

/-- R533: bit flags of a step: skipped, outer, SNAP. -/
def stepFlags (d : DecisionMsg) : Nat :=
  (if d.skipped then 1 else 0) + (if d.outer then 2 else 0) + (if d.snap then 4 else 0)

/-- R533: the STEP record. -/
def stepRecord (s : State) (d : DecisionMsg) (result : Nat) (digest : W64) : Bytes :=
  rec64 (natLe 2 1 ++ natLe 2 result ++ natLe 1 d.attempt.toNat ++ natLe 1 (stepFlags d) ++ natLe 2 0 ++
    natLe 6 d.epoch.toNat ++ natLe 2 0 ++ natLe 8 digest.toNat ++
    natLe 8 (if isLead s then d.sliceDigest.toNat else 0) ++ natLe 8 s.awn.tick.toNat)

/-- R489: the STEP_COMMIT record. -/
def logCommit (d : DecisionMsg) (result : Nat) (digest : W64) (s : State) : State :=
  logEvent 0x300 0 .none (natLe 2 (memberIndex s) ++ natLe 2 result ++ natLe 8 digest.toNat ++
    natLe 8 (if isLead s then d.sliceDigest.toNat else 0) ++ natLe 4 (auditCount s) ++ natLe 1 (stepFlags d)) s

/-- R168: each cursor advances by its stream's samples per step. -/
def advanceCursors (s : State) : List W64 :=
  s.job.cursors.mapIdx (fun i c =>
    c + BitVec.ofNat 64 (((s.load.prog.bind (fun p => p.inputs[i]?)).map (·.samples)).getD 0))

/-- R434, R184, R168, R358, R399: the buffer select inverts and the epoch, the cursors and the collective counter stand
past the step; an outer step leaves cursors and counter. -/
def flipBuffers (d : DecisionMsg) (s : State) : State :=
  s.withJob { s.job with
    bufSel := !s.job.bufSel, epoch := d.epoch,
    cursors := if d.outer then s.job.cursors else advanceCursors s,
    collSeq := if d.outer then s.job.collSeq
      else BitVec.ofNat 48 ((s.job.collSeq.toNat + instanceCount s none) % 2 ^ 47) }

/-- R439, R442: this module carries the role of the member that it covers. -/
def carriesRole (s : State) : Bool := s.snap.covers.any (fun f => decide ((f, memberIndex s) ∈ s.step.taken))

/-- R429, R430, R440, R452, R453, R457: what the commit starts between partners: the standby update, and with SNAP the drain of the
buffer that the step replaced. `old` is that buffer. A skipped step changes the mirror record alone, so that the standby stands at its
epoch at once; a partner that carries the role, with its shadow in the FILLING slot, flips its slots. -/
def commitSnap (d : DecisionMsg) (old : List Section) (s : State) : State :=
  let s := if carriesRole s && decide ((fillingSlot s).epoch = d.epoch) then swapSlots s
    else if s.snap.covers.isSome then
      let s := if d.skipped then setComplete { completeSlot s with epoch := d.epoch } s else s
      s.withSnap { s.snap with
        updating := if d.skipped then none else some d.epoch, before := (completeSlot s).sections,
        filling := if d.snap || s.snap.reseed then some d.epoch else s.snap.filling,
        catchUp := if d.snap || s.snap.reseed then false else s.snap.catchUp,
        reseed := false, flashMark := if d.snap then d.flash else s.snap.flashMark }
    else s
  if d.snap && hasPartner s then
    s.withSnap { s.snap with draining := some d.epoch, drainOut := old }
  else s

/-- R401, R406: inbound contributions that an outer step has applied free their slots, which are granted anew. -/
def freeInbound (s : State) : State :=
  let done := fun (i : Inbound) => i.state || decide (({ site := i.site, round := i.round } : SiteRound) ∈ s.site.applied)
  let freed := s.site.inbound.filter done
  let s := s.withSite { s.site with inbound := s.site.inbound.filter (fun i => !done i) }
  freed.foldl (fun s i => if i.state then s else grantSlots i.site i.shard 1 s) s

/-- R421: after the outer COMMIT the anchor and the momentum leave for the late joiners (in part DEDUCED: log 79). -/
def sendState (round : Nat) (s : State) : State :=
  match s.site.desc with
  | none => s
  | some d =>
    let words := (s.site.anchor ++ s.site.momentum).flatMap (fun w => natLe 2 w.toNat)
    let o : Outbound := { round := round, stream := words, record := {}, sealWord := crc64 words, acked := [], epochs := [] }
    let s := s.site.joiners.foldl (fun s i =>
      let s := sendContribution d i o true s
      s.withSite { s.site with stateOut := s.site.stateOut ++ [(i, markSent i s o)] }) s
    s.withSite { s.site with joiners := [] }

/-- R399, R401, R402, R421, R456: the outer step has committed: anchor, momentum and residual are written in place and go
to the partner, the accepted contributions are applied and free their slots, and the next round begins. -/
def outerCommitted (s : State) : State :=
  let x := s.site
  let s := s.withSite { x with
    anchor := (roleCodes s (committed s) .param).map (BitVec.ofNat 16),
    momentum := x.nextMomentum, residual := x.nextResidual, applied := x.applied ++ x.accepted, accepted := [],
    reports := [], round := x.round + 1, inner := 0, boundary := 0 }
  let s := if hasPartner s then emit (.outerState s.job.epoch s.site.anchor s.site.momentum s.site.residual) s else s
  tryLeave (finishJoin (sendState x.round (freeInbound (freeOutbound s))))

/-- R395: what follows a commit in site mode: the next round after an outer step, or the Form phase after inner
step H. -/
def siteCommitted (d : DecisionMsg) (s : State) : State :=
  let s := s.withStep { missed := s.step.missed, failedMembers := s.step.failedMembers, taken := s.step.taken }
  if d.outer then outerCommitted s
  else
    let s := s.withSite { s.site with inner := s.site.inner + 1 }
    match s.site.desc with
    | some x => if x.h ≤ s.site.inner then formPhase s else s
    | none => s

/-- R529: after a commit the command goes on with its next step, or ends with the first result of its steps in the order
of R388 (in part DEDUCED: log 55). -/
def afterCommit (d : DecisionMsg) (result : Nat) (r : RunCmd) (s : State) : State :=
  let r' := { r with stepsLeft := r.stepsLeft - 1, done := r.done + 1,
                     worst := BitVec.ofNat 16 (worseResult result r.worst.toNat) }
  let s := s.withStep { s.step with run := some r' }
  match r.cmd with
  | none => siteCommitted d s
  | some k =>
    let s := setProgress k r'.done s
    if r'.stepsLeft = 0 then endRun result {} s
    else if s.snap.paused then s
    else beginStep s

/-- R447: at a store snapshot of a slice that carries a taken role the lead pauses the slice until every role's state at the last
commit is on the store. -/
def pauseSlice (s : State) : State :=
  emit (.storeCopy s.job.epoch) (s.withSnap { s.snap with
    storing := some (s.job.epoch, List.range (memberCount s)), degraded := true, pauseDue := false, paused := true,
    storeAt := s.awn.tick })

/-- R447: the slice goes on after the pause. -/
def resumeSlice (s : State) : State :=
  let s := s.withSnap { s.snap with paused := false }
  match s.step.run with
  | some r => if r.cmd.isSome && !r.eval && r.audit.isNone && decide (0 < r.stepsLeft) then beginStep s else s
  | none => s

/-! ### AUDIT_REPLAY (R400, R485, R486) -/

/-- R280: each replica of a restored directory copies the home's state again. -/
def recopyReplicas (s : State) : State :=
  s.ledger.dir.foldl (fun s e =>
    if e.home = ownSeg s then e.replicas.foldl (fun s m => emit (.replicaCopy (dirRef e) m) s) s else s) s

/-- R460: the standby of every role is set again by a full drain. -/
def seedStandby (s : State) : State :=
  if hasPartner s then
    s.withSnap { s.snap with
      draining := some s.job.epoch, drainOut := committed s, mirror := [], mirrorRec := none, updating := none, coveredDigest := none, catchUp := false,
      filling := if s.snap.covers.isSome then some s.job.epoch else none, before := [] }
  else s

/-- R533: the AUDIT record of a role and step. -/
def auditRecord (epoch : W48) (r : Nat × W64 × W64) : Bytes :=
  rec64 (natLe 2 1 ++ natLe 2 0 ++ natLe 2 r.1 ++ natLe 1 (if r.2.1 = r.2.2 then 1 else 0) ++ natLe 1 0 ++
    natLe 6 epoch.toNat ++ natLe 2 0 ++ natLe 8 r.2.1.toNat ++ natLe 8 r.2.2.toNat)

/-- R110, R485, R490: the rolls of a step under audit: the recorded ones, and a full roll for every other collective that could lack
a contribution, so that no window opens. -/
def auditRolls (s : State) (x : AuditStep) : List RollMsg :=
  (ownInstances s).filterMap (fun y =>
    let e := instEntry s y.1
    match x.rolls.find? (fun r => r.seq = y.2.2) with
    | some r => some r
    | none =>
      if entryPolicy e = 0 then none
      else some { seq := y.2.2, attempt := 0, mask := List.range (groupSize s e.group), carried := [] })

/-- R400: a leaf of an outer step under audit: from its slot here, or from the host's stream; with its seal as computed. -/
def auditLeaf (s : State) (l : SiteRound × W64 × Bytes × WriteRecord) : Option (List W32 × W64) :=
  let p := s.site.anchor.length
  match leafOf s p l.1 with
  | some v => some v
  | none =>
    if l.2.2.2.nonfinite then none
    else
      let n := packedBytes .e2m1 p
      some (streamValues p l.2.2.1, sealOf (contributionDesc s p l.1.round) (l.2.2.1.take n) (l.2.2.1.drop n) l.2.2.2)

/-- R486: an AUDIT_REPLAY ends: the committed state is that of the last epoch that matched, as if restored there. -/
def endAudit (result : Nat) (s : State) : State := seedStandby (recopyReplicas (endRun result {} s))

/-- R400, R485: an outer step under audit runs with its recorded accepted set, once every leaf has its recorded seal. -/
def auditOuter (r : RunCmd) (x : AuditStep) (s : State) : State :=
  match s.site.desc with
  | none => endAudit rBadDescriptor s
  | some d =>
    let leaves := x.leaves.filterMap (fun l => (auditLeaf s l).map (fun v => (l.2.1, v)))
    if leaves.any (fun l => decide (l.1 ≠ l.2.2)) then endAudit rIntegrityFail s
    else
      let elems := outerElems s d (leaves.map (·.2.1))
      beginOuter r (elems.map (·.2)) (elems.map (fun e => BitVec.ofNat 16 e.1.code)) (x.leaves.map (·.1)) s

/-- R485: the next step of an AUDIT_REPLAY begins from the committed state, with its recorded rolls or accepted set and the inputs at
the recorded cursors. -/
def beginAudit (s : State) : State :=
  match s.step.run with
  | some r =>
    match r.audit with
    | some (x :: _) =>
      let s := savePoint (freshStep (clearWork s))
      if x.outer then auditOuter r x s
      else
        let s := readInputs s
        startColls (s.withHouse { s.house with reuse := auditRolls s x })
    | _ => s
  | none => s

/-- R486: a replayed step of an AUDIT_REPLAY is compared, role by role at the lead and each role for itself, and reported; where it
matches, the replayed state is committed and the next step begins. -/
def commitAudit (d : DecisionMsg) (r : RunCmd) (l : List AuditStep) (s : State) : State :=
  match l with
  | [] => endAudit rOK s
  | x :: rest =>
    let own := digestOf (shadow s)
    let replayed := fun (i : Nat) =>
      if i = memberIndex s then own else ((s.step.held.find? (fun m => m.role = i)).map (·.digest)).getD 0
    let seen := x.roles.filter (fun p => isLead s || decide (p.1 = memberIndex s))
    let same := decide (d.sliceDigest = x.sliceDigest) && seen.all (fun p => decide (p.2 = replayed p.1))
    let s := match r.cmd with
      | some k => setProgress k (r.done + 1)
          (seen.foldl (fun s p => addRecord k (auditRecord x.epoch (p.1, p.2, replayed p.1)) s) s)
      | none => s
    if !same then endAudit rIntegrityFail (abandonAttempt s.step.attempt s)
    else
      let s := residencyDecisions d.promoted (fillThin (flipBuffers d s))
      let s := if x.outer then
          s.withSite { s.site with
            anchor := (roleCodes s (committed s) .param).map (BitVec.ofNat 16), momentum := s.site.nextMomentum, accepted := [], boundary := 0 }
        else s
      let s := s.withStep { s.step with run := some { r with audit := some rest, done := r.done + 1, stepsLeft := r.stepsLeft - 1 } }
      if rest = [] then endAudit rOK s else beginAudit s

/-- R434: COMMIT(E) at a member: its first arrival for the running step inverts the buffer select, reads the resident weight blocks in
again (R53) and applies the step-boundary actions; a repeat is ignored (in part DEDUCED: log 83). -/
def commitStep (d : DecisionMsg) (s : State) : State :=
  match s.step.run with
  | none => s
  | some r =>
    if r.eval ∨ d.epoch ≠ runningEpoch s then s
    else if let some l := r.audit then commitAudit d r l s
    else
      let digest := digestOf (shadow s)
      let old := committed s
      let result := stepResult s d.skipped
      let s := if s.step.logged then s else logCommit d result digest s
      let s := match r.cmd with
        | some k => addRecord k (stepRecord s d result digest) s
        | none => s
      let s := commitSnap d old (residencyDecisions d.promoted (fillThin (flipBuffers d s)))
      let s := match (gatherLayers s).head? with
        | some l => emit (.gatherStart l) (s.withLedger { s.ledger with asked := [l] })
        | none => s
      afterCommit d result r (if s.snap.pauseDue then pauseSlice s else s)

/-- COMMIT (R434). -/
def execCommit (d : DecisionMsg) (s : State) : Result := .next (commitStep d s)

/-! ### PREPARED and the decision (R431 to R433, R469) -/

/-- R432: the shadow buffer holds every section of this member's share of every state tensor at the running epoch. -/
def shadowComplete (s : State) : Bool :=
  match s.load.prog with
  | none => false
  | some p => (p.tensors.filter (fun t => isState t.role)).all (fun t =>
      (heldSections s t).all (fun i =>
        match findSection (shadow s) t.tid i with
        | some x => decide (x.desc.epoch = runningEpoch s)
        | none => false))

/-- R261, R432, R453, R469, R492: this member may send PREPARED. -/
def prepareReady (s : State) : Bool :=
  s.step.run.isSome && !inEval s && !s.step.suspect && decide (s.step.checksPending = 0) &&
  (!hasPartner s || s.step.mirrorAcked || decide (mirrorExpected s = 0)) && shadowComplete s &&
  s.snap.filling.isNone && decide (s.log.waiting = []) && !s.ledger.dir.any (fun e => copyLacks s (dirRef e))

/-- R431: the PREPARED of this member's own role. -/
def preparedMsg (s : State) : PreparedMsg :=
  { epoch := runningEpoch s, attempt := s.step.attempt, role := memberIndex s, skipped := s.step.skipped,
    digest := digestOf (shadow s), promoted := s.ledger.promoted }

/-- R451: the lead sets SNAP in the next COMMIT: a trigger, an outer step or a CKPT_TAKE waits, no earlier snapshot
lacks a SNAP_DONE and no flash write runs. -/
def snapDue (s : State) : Bool :=
  hasPartner s && (s.snap.trigger || s.step.outer) && s.snap.awaiting.isNone && s.snap.flashWriting.isNone

/-- R451: comparator 0 fires one partner interval after a trigger. -/
def armComparator (s : State) : State :=
  let c := s.awn.cmps[(0 : Fin 16)]
  let target := s.awn.tick + BitVec.ofNat 64 s.snap.interval
  s.withAwn { s.awn with cmps := s.awn.cmps.set 0 { c with target := target, enable := true, quiet := false } }

/-- R451: a COMMIT with SNAP waits for the SNAP_DONE of every member, and the next trigger is set. -/
def takeTrigger (epoch : W48) (s : State) : State :=
  armComparator (s.withSnap { s.snap with
    trigger := false, awaiting := some (epoch, s.awn.tick, List.range (memberCount s)) })

/-- R433: the decision's contents. -/
def decisionOf (s : State) : DecisionMsg :=
  let roles := List.range (memberCount s)
  let digests := roles.filterMap (fun i => (s.step.held.find? (fun m => m.role = i)).map (·.digest))
  let promoted := sortBy (fun (a b : ExpertRef) => decide (a.layer < b.layer) ||
    (decide (a.layer = b.layer) && decide (a.expert ≤ b.expert))) (s.step.held.flatMap (·.promoted)).eraseDups
  { epoch := runningEpoch s, attempt := s.step.attempt, snap := snapDue s, flash := snapDue s && s.snap.flashMark,
    outer := s.step.outer, skipped := s.step.held.any (·.skipped), taken := s.step.taken.map (·.1), promoted := promoted,
    sliceDigest := Config.sliceDigest digests }

/-- R433, R489: the lead writes its decision to its Logbook, as its STEP_COMMIT record; a step under audit leaves none (R485)
(in part DESIGN CHOICE: log 53). -/
def logDecision (d : DecisionMsg) (s : State) : State :=
  let s := s.withStep { s.step with decision := some d }
  if auditing s then s
  else logCommit d (stepResult s d.skipped) (digestOf (shadow s)) (s.withStep { s.step with logged := true })

/-- R433: the lead decides COMMIT(E) once it holds PREPARED for every role; it tells its partner first, or commits at
once when it has none (in part DESIGN CHOICE: log 53). -/
def decideCommit (s : State) : State :=
  if s.step.decision.isSome || !((List.range (memberCount s)).all (fun i => s.step.held.any (fun m => m.role = i))) then s
  else
    let d := decisionOf s
    let s := logDecision d s
    let s := if d.snap then takeTrigger d.epoch s else s
    if hasPartner s then emit (.decision d) s else commitStep d (emit (.commit d) s)

/-- R433: PREPARED at the lead, of the current attempt. -/
def holdPrepared (m : PreparedMsg) (s : State) : State :=
  if !isLead s || s.step.run.isNone || inEval s || decide (m.epoch ≠ runningEpoch s) || decide (m.attempt ≠ s.step.attempt) then s
  else decideCommit (s.withStep { s.step with held := s.step.held.filter (fun x => x.role ≠ m.role) ++ [m] })

/-- R431, R433: PREPARED arrives: the lead holds it, and the sender's partner keeps its shadow digest (R429). -/
def preparedArrives (m : PreparedMsg) (s : State) : State :=
  let s := if s.snap.covers = some m.role then s.withSnap { s.snap with coveredDigest := some m.digest } else s
  holdPrepared m s

/-- PREPARED (R433). -/
def execPrepared (m : PreparedMsg) (s : State) : Result := .next (preparedArrives m s)

/-- R432: a PREPARED leaves for the lead and the partner. -/
def sendPrepared (m : PreparedMsg) (s : State) : State := holdPrepared m (emit (.prepared m) s)

/-- R432, R469: this member sends PREPARED(E). -/
def preparedSend (s : State) : State :=
  if prepareReady s && !s.step.prepared then sendPrepared (preparedMsg s) (s.withStep { s.step with prepared := true, preparedAt := s.awn.tick })
  else s

/-- PREPARED_SEND (R432). -/
def execPreparedSend (s : State) : Result := .next (preparedSend s)

/-- R432: PREPARED(E) is sent again every 1 ms until COMMIT or FAILED arrives. -/
def preparedResend (s : State) : State :=
  if s.step.prepared && s.step.run.isSome && decide (1000000 ≤ (s.awn.tick - s.step.preparedAt).toNat) then
    sendPrepared (preparedMsg s) (s.withStep { s.step with preparedAt := s.awn.tick })
  else s

/-- PREPARED_RESEND (R432). -/
def execPreparedResend (s : State) : Result := .next (preparedResend s)

/-- R433, R438: DECISION at the lead's partner is kept and acknowledged. -/
def decisionArrives (m : DecisionMsg) (s : State) : State :=
  if s.snap.covers = some (leadIndex s) ∧ s.step.run.isSome ∧ m.epoch = runningEpoch s then
    emit (.decisionAck m.epoch) (s.withStep { s.step with decision := some m })
  else s

/-- DECISION (R433). -/
def execDecision (m : DecisionMsg) (s : State) : Result := .next (decisionArrives m s)

/-- R433: the acknowledgement of DECISION at the lead: COMMIT(E) leaves for every member and the lead commits. -/
def decisionAck (epoch : W48) (attempt : Byte) (s : State) : State :=
  match s.step.decision with
  | some d =>
    if isLead s && decide (d.epoch = epoch) && decide (d.attempt = attempt) then commitStep d (emit (.commit d) s) else s
  | none => s

/-- DECISION_ACK (R433). -/
def execDecisionAck (epoch : W48) (attempt : Byte) (s : State) : Result := .next (decisionAck epoch attempt s)

/-! ### Failed members (R436 to R446) -/

/-- R436: a HEARTBEAT leaves for the lead and the partner while a job is loaded. -/
def heartbeat (s : State) : State :=
  if s.load.prog.isSome then emit (.heartbeat (runningEpoch s)) s else s

/-- HEARTBEAT (R436). -/
def execHeartbeat (s : State) : Result := .next (heartbeat s)

/-- R427, R445: a member's role has no standby: the job has no partners, the member carries a taken role or had its own
taken, or its partner has failed. -/
def unprotected (s : State) (m : Nat) : Bool :=
  decide (cutD s ≤ 1) || decide (partnerOf s m = m) ||
  s.step.taken.any (fun t => decide (t.1 = m) || decide (t.2 = m) || decide (t.1 = partnerOf s m))

/-- R533: the TAKEOVER record (in part DEDUCED: log 52). -/
def takeoverRecord (m : FailedMsg) : Bytes :=
  rec64 (natLe 2 2 ++ natLe 2 m.member ++ natLe 2 m.partner ++ natLe 1 m.row ++ natLe 1 0 ++ natLe 6 m.epoch.toNat)

/-- R439, R440, R446: a role is taken over: the slice maps the failed member's index to the partner, and the Logbook and
the lead's command record it. -/
def recordTakeover (m : FailedMsg) (s : State) : State :=
  let s := s.withStep { s.step with
    taken := s.step.taken ++ [(m.member, m.partner)],
    failedMembers := if m.member ∈ s.step.failedMembers then s.step.failedMembers else s.step.failedMembers ++ [m.member] }
  let s := s.withSlice { s.slice with remap := s.slice.remap.filter (fun p => p.1 ≠ m.member) ++ [(m.member, m.partner)] }
  let s := logEvent 0x203 1 .none (natLe 2 m.member ++ natLe 2 m.partner ++ natLe 1 m.row) s
  match s.step.run with
  | some r =>
    match r.cmd with
    | some k => if isLead s then addRecord k (takeoverRecord m) s else s
    | none => s
  | none => s

/-- R444, R424: in site mode the partner opens sessions for the failed member's shard
(in part DESIGN CHOICE: log 72). -/
def takeSessions (m : FailedMsg) (s : State) : State :=
  if s.mbx.job = .site ∧ m.partner = memberIndex s then
    s.withSec { s.sec with signQueue := s.sec.signQueue ++ (activePeers s).map (fun i => SignReq.sessionInit i m.member) }
  else s

/-- R438: the new lead completes a decided commit, or collects PREPARED anew. -/
def leadTakeover (s : State) : State :=
  if !isLead s then s
  else
    match s.step.decision with
    | some d => commitStep d (emit (.commit d) s)
    | none => s.withStep { s.step with held := [] }

/-- R437, R439: FAILED at a member: work of the old attempt stops and the partner takes the role at the row that the
failure's timing gives. A role without a standby ends the command with FENCED (R427, R445)
(in part DEDUCED: log 52). -/
def memberFailed (m : FailedMsg) (s : State) : State :=
  if m.member = memberIndex s ∨ s.step.taken.any (fun t => decide (t.1 = m.member)) = true then s
  else if unprotected s m.member then endRun rFenced { member := m.member } s
  else
    let s := takeSessions m (recordTakeover m s)
    let s :=
      if s.step.run.isNone || inEval s || decide (m.epoch ≠ runningEpoch s) || decide (m.row ≤ 1) then s
      else if m.row = 2 then s.withStep { s.step with attempt := m.attempt, held := [] }
      else startColls (abandonAttempt m.attempt s)
    if m.member = 0 then leadTakeover s else s

/-- FAILED (R437). -/
def execFailed (m : FailedMsg) (s : State) : Result := .next (memberFailed m s)

/-- R436, R437, R438: the lead, or the lead's partner for the lead itself, treats a member as failed: it records
MODULE_FAILED and sends FAILED. Another partner that misses its covered member's HEARTBEATs reports it to the lead. `mirrored` says that the partner has acknowledged the member's last mirror section
(in part DEDUCED: log 52). -/
def heartbeatMissed (member reason : Nat) (mirrored : Bool) (s : State) : State :=
  let judge := isLead s || (decide (member = leadIndex s) && decide (s.snap.covers = some member))
  if !judge && decide (s.snap.covers = some member) && decide (reason = 0) then emit (.beatsMissed member) s
  else if !judge || decide (member = memberIndex s) || decide (memberCount s ≤ member) || decide (member ∈ s.step.failedMembers) then s
  else
    let s := logEvent 0x205 4 .none ([BitVec.ofNat 8 reason, 0] ++ natLe 2 member) s
    let s := s.withSnap { s.snap with failures := s.snap.failures ++ [s.awn.tick] }
    let s := s.withStep { s.step with failedMembers := s.step.failedMembers ++ [member] }
    let row := if s.step.decision.isSome ∨ s.step.run.isNone then 1 else if mirrored then 2 else 3
    let m : FailedMsg :=
      { member := member, epoch := runningEpoch s, attempt := s.step.attempt + 1, partner := partnerOf s member, row := row }
    memberFailed m (emit (.failed m) s)

/-- HEARTBEAT_MISSED (R436). -/
def execHeartbeatMissed (member reason : Nat) (mirrored : Bool) (s : State) : Result :=
  .next (heartbeatMissed member reason mirrored s)

end Sys2Proof.Machine
end

