-- ==== Sys2Proof/Machine/Snapshots.lean ====
section
/-! DEFINITION. Standby updates, snapshots, the flash and store layers, CKPT_TAKE and CKPT_RESTORE (R429, R450 to R460,
R532). -/

namespace Sys2Proof.Machine

/-! ### CKPT_TAKE's end (R532, R533) -/

/-- R533: the IMAGE record. -/
def imageRecord (layer : Nat) (degraded : Bool) (epoch : W48) (roles : Nat) : Bytes :=
  rec64 (natLe 2 1 ++ natLe 1 layer ++ natLe 1 (if degraded then 1 else 0) ++ natLe 4 0 ++ natLe 6 epoch.toNat ++
    natLe 2 0 ++ natLe 2 roles)

/-- R532: a CKPT_TAKE of a layer ends when the layer's copy is complete. -/
def endTake (layer : Nat) (epoch : W48) (s : State) : State :=
  match s.snap.take with
  | some (k, l) =>
    if l = layer then
      let dg := decide (layer = 2) && s.snap.degraded
      let n := memberCount s
      let s := s.withSnap { s.snap with take := none }
      finish k (if dg then rDegraded else rOK) (addRecord k (imageRecord layer dg epoch n) (setProgress k n s))
    else s
  | none => s

/-! ### The standby (R429, R430) -/

/-- R429, R442: the standby update of a commit ends at the partner: the COMPLETE slot holds the covered member's state at
that epoch. Its combined seal, that of its sections, is compared with the shadow digest of PREPARED; a difference is a detected error, and the standby
is seeded again at the next commit. While this module carries the covered member's role, the update of the running
step goes to the FILLING slot as that role's shadow, and its PREPARED leaves (R439) (in part DEDUCED: log 57). -/
def standbyUpdateDone (epoch : W48) (digest : W64) (secs : List Section) (s : State) : State :=
  match s.snap.covers with
  | none => s
  | some f =>
    if digest ≠ digestOf secs then s
    else if s.snap.updating = some epoch then
      let s := setComplete { completeSlot s with epoch := epoch, sections := secs } (s.withSnap { s.snap with updating := none })
      match s.snap.coveredDigest with
      | some d =>
        if d = digest then s
        else
          let s := countDetection 10 .none 0 digest d s
          s.withSnap { s.snap with reseed := true }
      | none => s
    else if s.step.taken.any (fun t => decide (t.1 = f) && decide (t.2 = memberIndex s)) && s.step.run.isSome &&
        decide (epoch = runningEpoch s) then
      let s := setFilling { fillingSlot s with epoch := epoch, sections := secs } s
      sendPrepared { preparedMsg s with role := f, digest := digest, promoted := [] } s
    else s

/-- STANDBY_UPDATE_DONE (R429). -/
def execStandbyUpdateDone (epoch : W48) (digest : W64) (secs : List Section) (s : State) : Result :=
  .next (standbyUpdateDone epoch digest secs s)

/-! ### Images and their manifests (R455, R459) -/

/-- R202: the 128-byte header of a stored section. -/
def sectionHeader (x : Section) : Bytes :=
  descBytes x.desc ++ natLe 8 x.sealWord.toNat ++ recordBytes x.record ++ List.replicate 48 0

/-- R459: a manifest block sealed over its first 4,088 bytes. -/
def sealBlock (b : Bytes) : Bytes :=
  let b := (b ++ List.replicate 4088 0).take 4088
  b ++ natLe 8 (crc64 b).toNat

/-- R459: further manifest blocks for headers that the first does not hold, each sealed in the same way; the rule gives them no other
field (DESIGN CHOICE: log 107). The first number bounds them. -/
def moreBlocks : Nat → Bytes → List Bytes
  | 0, _ => []
  | n + 1, b => if b = [] then [] else sealBlock (b.take 4088) :: moreBlocks n (b.drop 4088)

/-- R459: the manifest of a role's image. -/
def manifestOf (r : RoleImage) : List Bytes :=
  let headers := r.sections.flatMap sectionHeader
  let front := natLe 4 0x53544B53 ++ natLe 2 1 ++ natLe 2 r.member ++ natLe 4 r.sliceId.toNat ++ natLe 6 r.epoch.toNat ++
    (r.digest ++ List.replicate 32 0).take 32 ++ natLe 2 r.planVersion.toNat ++ r.extent.flatMap (natLe 2) ++
    natLe 8 r.seedDigest.toNat ++ natLe 4 r.sections.length ++ natLe 1 r.flags
  let room := 4088 - front.length
  sealBlock (front ++ headers.take room) :: moreBlocks r.sections.length (headers.drop room)

/-- R459: the image of a role at an epoch, as this module writes it. -/
def roleImage (s : State) (member : Nat) (epoch : W48) (secs : List Section) : RoleImage :=
  let flags := (if s.step.taken ≠ [] then 1 else 0) + (if s.mbx.job = .site then 2 else 0)
  let r : RoleImage :=
    { member := member, digest := s.load.digest, planVersion := (s.load.plan.map (·.version)).getD 0, extent := extentList s,
      seedDigest := seedDigest s, epoch := epoch, sliceId := s.slice.sliceId.getD 0, flags := flags, manifest := [], sections := secs,
      record := mirrorRecordOf s, directory := s.ledger.dir, carries := s.house.carries }
  { r with manifest := manifestOf r }

/-- R460: an image of which a seal fails: a section's, or a manifest block's. -/
def imageBroken (img : RestoreImage) : Bool :=
  img.roles.any (fun r => decide (r.manifest ≠ manifestOf r) || r.sections.any sealBroken)

/-- R202, R455, R459: the bytes of an image on the drive. -/
def imageBytes (secs : List Section) : Nat :=
  let n := (secs.map (fun x => 128 + x.content.length + x.scales.length)).foldl (· + ·) 0
  n + 4096 * (1 + 128 * secs.length / 4088)

/-- R455, R456: the drive holds two image areas and, in site mode, the outer-state area. -/
def driveHolds (s : State) (secs : List Section) : Bool :=
  decide (2 * imageBytes secs + (if s.mbx.job = .site then 6 * s.site.anchor.length else 0) ≤ Config.driveBytes)

/-- R457: an image between flash images is written when the drive's write ends before the next trigger (in part DEDUCED: log 107). -/
def betweenFits (s : State) (secs : List Section) : Bool :=
  decide (imageBytes secs * 1000000000 ≤ s.snap.interval * Config.driveRate)

/-- R455, R457: an image is written to the NVMe, or skipped and counted. -/
def writeImage (member : Nat) (epoch : W48) (secs : List Section) (s : State) : State :=
  if driveHolds s secs && (s.snap.flashMark || betweenFits s secs) then
    let r := roleImage s member epoch secs
    emit (.flashWrite epoch member r.manifest secs) (s.withSnap { s.snap with flashWriting := some epoch, flashMark := false })
  else s.withSnap { s.snap with flashSkipped := s.snap.flashSkipped + 1 }

/-! ### Snapshots (R450 to R454) -/

/-- R452: the seals of drained sections that differ from those of the standby (in part DEDUCED: log 57). -/
def sealDiffs : List Section → List Section → List (W64 × W64)
  | x :: xs, y :: ys => (if x.sealWord = y.sealWord then [] else [(x.sealWord, y.sealWord)]) ++ sealDiffs xs ys
  | _, _ => []

/-- R452: a section of the drained buffer leaves for the partner at each tick of an idle module; with the last one the drain is over
and what waited for it goes on (R22) (in part DESIGN CHOICE: log 95). -/
def drainTick (s : State) : State :=
  match s.snap.draining, s.snap.drainOut with
  | none, _ => s
  | some _, x :: y :: rest => emit (.drainSection x) (s.withSnap { s.snap with drainOut := y :: rest })
  | some _, l => freeShadowWaits (emits (l.map .drainSection) (s.withSnap { s.snap with draining := none, drainOut := [] }))

/-- R185, R452, R453: the last drained section has arrived: each section's content is checked against its seal, and each seal against
the standby's; the drained sections stand in the FILLING slot and catch-up starts (in part DESIGN CHOICE: log 59). -/
def drainDone (epoch : W48) (secs : List Section) (s : State) : State :=
  if s.snap.filling = some epoch ∧ s.snap.catchUp = false then
    let s := (secs.filter sealBroken).foldl (fun s x =>
      countDetection 10 .none 0 (sealOf x.desc x.content x.scales x.record) x.sealWord s) s
    let s := (sealDiffs secs s.snap.before).foldl (fun s p => countDetection 10 .none 0 p.1 p.2 s) s
    let s := setFilling { fillingSlot s with epoch := epoch - 1, sections := secs } s
    s.withSnap { s.snap with catchUp := true }
  else s

/-- DRAIN_DONE (R453). -/
def execDrainDone (epoch : W48) (secs : List Section) (s : State) : Result := .next (drainDone epoch secs s)

/-- R450: the partner interval from the snapshot times and the failures, both in ns
(in part DESIGN CHOICE: log 24). -/
def newInterval (s : State) : Nat :=
  let c := if s.snap.times = [] then 1000000000 else s.snap.times.foldl (· + ·) 0 / s.snap.times.length
  partnerInterval c (Config.meanTimeToFailure s.job.mtbf.toNat s.snap.failures s.awn.tick / max 1 (memberCount s))

/-- R450, R454: SNAP_DONE at the lead; with all of them the image is complete and the interval is set anew. -/
def snapDone (member : Nat) (epoch : W48) (s : State) : State :=
  match s.snap.awaiting with
  | none => s
  | some (e, t, l) =>
    if !isLead s || decide (e ≠ epoch) then s
    else
      let l := l.filter (fun m => m ≠ member)
      if l ≠ [] then s.withSnap { s.snap with awaiting := some (e, t, l) }
      else
        let times := (s.snap.times ++ [(s.awn.tick - t).toNat]).drop (s.snap.times.length - 7)
        let s := s.withSnap { s.snap with awaiting := none, image := some epoch, times := times }
        endTake 0 epoch (s.withSnap { s.snap with interval := newInterval s })

/-- SNAP_DONE (R454). -/
def execSnapDone (member : Nat) (epoch : W48) (s : State) : Result := .next (snapDone member epoch s)

/-- R429, R453, R455, R457: catch-up ends: the drained slot, to which the mirrored gradient of E has been applied, holds E and becomes
COMPLETE; its seal is compared as a standby update's is; the other slot keeps the image of E, SNAP_DONE leaves, and the image is
written to the NVMe where R457 has it. -/
def catchUpDone (epoch : W48) (secs : List Section) (s : State) : State :=
  if s.snap.filling = some epoch ∧ s.snap.catchUp = true ∧ s.snap.updating = none then
    let s := swapSlots (setFilling { fillingSlot s with epoch := epoch, sections := secs } s)
    let s := match s.snap.coveredDigest with
      | some d =>
        if d = digestOf secs then s
        else
          let s := countDetection 10 .none 0 (digestOf secs) d s
          s.withSnap { s.snap with reseed := true }
      | none => s
    let covered := s.snap.covers.getD 0
    let s := s.withSnap { s.snap with filling := none, catchUp := false, image := some epoch }
    let s := writeImage covered epoch (fillingSlot s).sections s
    snapDone covered epoch (emit (.snapDone epoch) s)
  else s

/-- CATCH_UP_DONE (R453). -/
def execCatchUpDone (done : CaughtUp) (s : State) : Result := .next (catchUpDone done.epoch done.secs s)

/-! ### Flash and store (R455 to R458) -/

/-- R458: the copy of an image to the shared store starts; the snapshot is DEGRADED while a role is carried by a partner (R447). -/
def startStore (e : W48) (s : State) : State :=
  let roles := if isLead s then List.range (memberCount s) else [s.snap.covers.getD (memberIndex s)]
  emit (.storeCopy e) (s.withSnap { s.snap with
    storing := some (e, roles), degraded := decide (s.step.taken ≠ []), storeAt := s.awn.tick })

/-- R455, R532: an image and its manifest are on the NVMe after a Flush; the drive holds two image areas. A CKPT_TAKE of the store
layer goes on with the copy to the store (in part DEDUCED: log 58). -/
def flashWriteDone (epoch : W48) (s : State) : State :=
  if s.snap.flashWriting = some epoch then
    let s := s.withSnap { s.snap with flashWriting := none, flash := (epoch :: s.snap.flash).take 2 }
    let s := if hasPartner s then s else endTake 0 epoch s
    let s := endTake 1 epoch s
    if s.snap.take.any (fun t => t.2 = 2) && s.snap.storing.isNone then startStore epoch s else s
  else s

/-- FLASH_WRITE_DONE (R455). -/
def execFlashWriteDone (epoch : W48) (s : State) : Result := .next (flashWriteDone epoch s)

/-- R457: every 600 s the lead marks the next image as a flash image. -/
def flashInterval (s : State) : State :=
  if isLead s ∧ s.load.prog.isSome ∧ 600000000000 ≤ (s.awn.tick - s.snap.flashAt).toNat then
    s.withSnap { s.snap with flashMark := true, flashAt := s.awn.tick }
  else s

/-- FLASH_INTERVAL (R457). -/
def execFlashInterval (s : State) : Result := .next (flashInterval s)

/-- R447, R458: every STORE_INTERVAL the latest valid flash image is copied to the shared store. While a role is carried by a partner
the lead pauses the slice for it, after the commit of the step that runs. -/
def storeInterval (s : State) : State :=
  let early := decide ((s.awn.tick - s.snap.storeAt).toNat < 1000000000 * s.job.storeInterval.toNat)
  if s.job.store.isNone || s.snap.storing.isSome || early then s
  else if s.step.taken ≠ [] ∧ isLead s = true then
    if s.step.run.isSome then s.withSnap { s.snap with pauseDue := true } else pauseSlice s
  else
    match s.snap.flash with
    | e :: _ => startStore e s
    | [] => s

/-- STORE_INTERVAL (R458). -/
def execStoreInterval (s : State) : Result := .next (storeInterval s)

/-- R458: a role's image is on the store; the store snapshot is complete with every role's
(in part DEDUCED: log 58). -/
def storeCopyDone (role : Nat) (epoch : W48) (s : State) : State :=
  match s.snap.storing with
  | none => s
  | some (e, roles) =>
    if e ≠ epoch then s
    else
      let roles := roles.filter (fun r => r ≠ role)
      if roles ≠ [] then s.withSnap { s.snap with storing := some (e, roles) }
      else
        let s := endTake 2 epoch (s.withSnap { s.snap with storing := none, stored := some epoch })
        let s := s.withSnap { s.snap with degraded := false }
        if s.snap.paused then resumeSlice s else s

/-- STORE_COPY_DONE (R458). -/
def execStoreCopyDone (role : Nat) (epoch : W48) (s : State) : Result := .next (storeCopyDone role epoch s)

/-! ### CKPT_TAKE (R532) -/

/-- R532: with no step running, this member drains its committed buffer and the committed epoch becomes the image
epoch; without partners it writes its own NVMe (in part DEDUCED: log 58) (in part DESIGN CHOICE: log 59). -/
def takeNow (s : State) : State :=
  let e := s.job.epoch
  if hasPartner s then
    s.withSnap { s.snap with
      draining := some e, drainOut := committed s, awaiting := some (e, s.awn.tick, List.range (memberCount s)), trigger := false,
      filling := if s.snap.covers.isSome then some e else s.snap.filling, before := (completeSlot s).sections }
  else writeImage (memberIndex s) e (committed s) (s.withSnap { s.snap with flashMark := true })

/-- R532, R524: CKPT_TAKE, at the lead only. While steps run, SNAP is set at the next COMMIT
(in part DEDUCED: log 58). -/
def ckptTake (k : CmdRef) (s : State) : State :=
  match ready s k 0x50 with
  | none => s
  | some c =>
    let layer := field c.bytes 80 1
    if 2 < layer ∨ isLead s = false ∨ (layer = 2 ∧ s.job.store.isNone) then finish k rBadDescriptor s
    else if s.snap.take.isSome then s
    else
      let s := setRunning k (s.withSnap { s.snap with take := some (k, layer), flashMark := s.snap.flashMark || decide (0 < layer) })
      if s.step.run.isSome then
        if hasPartner s then s.withSnap { s.snap with trigger := true }
        else takeNow s
      else if s.snap.awaiting.isSome || s.snap.flashWriting.isSome then s.withSnap { s.snap with trigger := true }
      else takeNow s

/-- CKPT_TAKE (R532). -/
def execCkptTake (k : CmdRef) (s : State) : Result := .next (ckptTake k s)

/-! ### CKPT_RESTORE (R460) -/

/-- R460: the first field of a role's manifest that differs from the loaded job, as its FIELD code of R515. -/
def manifestDiff (s : State) (epoch : W48) (r : RoleImage) : Option Nat :=
  if r.digest ≠ s.load.digest then some 0x01
  else if r.planVersion ≠ ((s.load.plan.map (·.version)).getD 0) then some 0x1A
  else if r.extent ≠ extentList s then some 0x1B
  else if r.seedDigest ≠ seedDigest s then some 0x1C
  else if r.epoch ≠ epoch then some 0x07
  else none

/-- R460: the lowest role whose manifest differs, and the field. -/
def imageMismatch (s : State) (img : RestoreImage) : Option (Nat × Nat) :=
  let epoch := ((img.roles.head?).map (·.epoch)).getD 0
  (sortBy (fun (a b : RoleImage) => decide (a.member ≤ b.member)) img.roles).findSome? (fun r =>
    (manifestDiff s epoch r).map (fun f => (r.member, f)))

/-- R460, R486: a role's state becomes the committed state: sections, cursors, counters, directory and carries. -/
def installRole (r : RoleImage) (s : State) : State :=
  let s := setShadow (setCommitted s r.sections) []
  let s := s.withJob { s.job with
    epoch := r.epoch, cursors := r.record.cursors, collSeq := r.record.collSeq,
    draws := r.record.draws.foldl (fun t p => sput 0 t p.1.toNat p.2) [] }
  let s := s.withLedger { s.ledger with dir := r.directory, replicas := [], promoted := [] }
  s.withHouse { s.house with carries := r.carries }

/-- R460, R515: CKPT_RESTORE (in part DEDUCED: log 58). -/
def ckptRestore (k : CmdRef) (img : RestoreImage) (s : State) : State :=
  match ready s k 0x51 with
  | none => s
  | some c =>
    if agreedHere s c = false then s
    else
      let epoch := field c.bytes 81 6
      let have_ := ((img.roles.head?).map (·.epoch)).getD 0
      if 2 < field c.bytes 80 1 ∨ img.valid = false ∨ (epoch ≠ 0 ∧ have_.toNat ≠ epoch) then finish k rBadDescriptor s
      else
        match imageMismatch s img with
        | some (m, f) => finishWith k rMismatch { member := m, field := f } s
        | none =>
          if imageBroken img then finish k rIntegrityFail s
          else
            match img.roles.find? (fun r => r.member = memberIndex s) with
            | none => finish k rBadDescriptor s
            | some r => finish k rOK (setProgress k r.sections.length (seedStandby (recopyReplicas (fillThin (installRole r s)))))

/-- CKPT_RESTORE (R460). -/
def execCkptRestore (k : CmdRef) (img : RestoreImage) (s : State) : Result := .next (ckptRestore k img s)

end Sys2Proof.Machine
end

