-- ==== Sys2Proof/Machine/Clock.lean ====
section
/-! DEFINITION. What an empty queue does: one tick of fabric time (DESIGN CHOICE, log entry 8). -/

namespace Sys2Proof.Machine

/-- R403, R425: a tick in which the lead waits for a site is counted for it. -/
def siteTick (s : State) : State :=
  match s.site.waitingFor with
  | some i => siteCount i (fun t => { t with waitSiteTicks := add48 t.waitSiteTicks 1 }) s
  | none => s

/-- R343, R603, R425: with the Awning on, one tick of 1 ns: fabric time, the real-time clock, three nominal cycles of the
Tally counters of every stall, and the wait for a site; a round of the Aisle (R36), a section of a snapshot drain (R452) and the
unvisited experts' copies that waited for it (R165), the packets that wait for a torus output (R341) the probe pins (R554) and the ticks without work (R585). A
telemetry window that the new tick reaches closes with it, so that the tick's cycles count in the next one (R10, R11). With the Awning
off nothing happens (in part DESIGN CHOICE: log 8). -/
def idleTick (s : State) : State :=
  if s.awn.on then
    let s := allPorts.foldl (fun s p => servePort p s) (holdUnvisited (drainTick (aisleRound (siteTick (restTick (tallyTick (windowClose s)))))))
    drivePins (windowClose (s.withAwn (tickTime s.awn)))
  else s

end Sys2Proof.Machine
end

