-- ==== Sys2Proof/Machine/Ledger.lean ====
section
/-! DEFINITION. The routed exchange of an expert layer: selection, counts, grants, dispatch, passes, returns and combine
(R214 to R247), the split among replicas (R264 to R268) and the backward exchange (R269 to R276). -/

namespace Sys2Proof.Machine

/-- The batch of a key, or a batch that has not begun. -/
def batchOf (s : State) (k : BatchKey) : Batch := (s.ledger.batches.find? (fun b => b.key = k)).getD { key := k }

/-- A batch put in place of the one with its key. -/
def putBatch (b : Batch) (s : State) : State :=
  if s.ledger.batches.any (fun x => x.key = b.key) then
    s.withLedger { s.ledger with batches := s.ledger.batches.map (fun x => if x.key = b.key then b else x) }
  else s.withLedger { s.ledger with batches := s.ledger.batches ++ [b] }

/-- R246: the routing record of a batch changed, and with it its layer's job totals. -/
def routeCount (k : BatchKey) (f : RouteTotal → RouteTotal) (s : State) : State :=
  let b := batchOf s k
  let s := putBatch { b with route := f b.route } s
  s.withLedger { s.ledger with routes := sput {} s.ledger.routes k.layer (f (sget {} s.ledger.routes k.layer)) }

/-! ### Selection (R217 to R219) -/

/-- R217: an expert and its score rank before another: higher score first, NaN below −∞, equals by expert index. -/
def ranksBefore (a b : Nat × W32) : Bool :=
  match isNan32 a.2, isNan32 b.2 with
  | false, true => true
  | true, false => false
  | true, true => decide (a.1 ≤ b.1)
  | false, false => below32 b.2 a.2 || (!below32 a.2 b.2 && decide (a.1 ≤ b.1))

/-- R217: the k experts of a token with their scores, best first. -/
def chosen (k : Nat) (scores : List W32) : List (Nat × W32) :=
  (sortBy ranksBefore (scores.zipIdx.map (fun x => (x.2, x.1)))).take k

/-- R219: the gate weights of the selected scores. -/
def gateWeights (fn : Nat) (sel : List W32) : List W32 :=
  match fn with
  | 0 => sel
  | 1 =>
    let e := sel.map (fun x => exp2w (mulRne (subRne x (sel.headD 0)) 0x3FB8AA3B))
    e.map (fun x => div32 x (pairwise e))
  | _ => sel.map (fun x => rcp32 (addRne (exp2w (mulRne x 0xBFB8AA3B)) 0x3F800000))

/-- R216: a gate score as FP32: in A32 as it comes, in BF16 converted exactly. -/
def gateScore (d : W128) (x : W32) : W32 := if rtBf16 d then toA32 (decode .bf16 (x.toNat % 65536)) else x

/-- R216, R217, R219: a token's choices with their weights. -/
def tokenChoices (d : W128) (scores : List W32) : List (Nat × W32) :=
  let c := chosen (rtK d) (scores.map (gateScore d))
  (c.map (·.1)).zip (gateWeights (rtGate d) (c.map (·.2)))

/-! ### Counts (R223) -/

/-- The home modules of a layer's experts. -/
def layerHomes (s : State) (l : Nat) : List Nat :=
  sortNat ((s.ledger.dir.filter (fun e => e.layer = l)).map (·.home)).eraseDups

/-- The experts of a layer that a module is home to, ascending. -/
def homeExperts (s : State) (l m : Nat) : List Nat :=
  sortNat ((s.ledger.dir.filter (fun e => decide (e.layer = l) && decide (e.home = m))).map (·.expert))

/-- R223: n(e, j, m) of this module. -/
def ownCount (b : Batch) (e j : Nat) : Nat :=
  (b.tokens.filter (fun t => decide ((t.choices[j]?).map (·.1) = some e))).length

/-- R223: the count records of this module leave, one for each home module. -/
def sendCounts (d : W128) (b : Batch) (s : State) : State :=
  emits ((layerHomes s b.key.layer).map (fun h => Out.countRecord h b.key b.tokens.length
    ((homeExperts s b.key.layer h).flatMap (fun e =>
      (List.range (rtK d)).map (fun j => { expert := e, rank := j, n := ownCount b e j }))))) s

/-- R61, R63: the places of the tokens that a half may hold: half A's begin at 0, half B's at ⌈T/2⌉, after those of a half A that
has been counted; a layer without HALVE has no half B (in part DEDUCED: log 65). -/
def tokenFits (s : State) (l : ExpertLayer) (key : BatchKey) (token : Nat) : Bool :=
  let a := batchOf s { key with half := false }
  if key.half then rtHalve l.desc && a.counted && decide (a.tokens.length ≤ token) && decide (token < 2 * a.tokens.length)
  else decide (token < (if rtHalve l.desc then (l.bound + 1) / 2 else l.bound))

/-- R61, R63: the tokens of a half that is complete: half A holds the first ⌈T/2⌉ of the micro-batch and half B the rest
(in part DEDUCED: log 98) (in part DEDUCED: log 65). -/
def halfWhole (s : State) (l : ExpertLayer) (key : BatchKey) (tokens : List Nat) : Bool :=
  let a := (batchOf s { key with half := false }).tokens.length
  if key.half then
    rtHalve l.desc && decide (tokens = (List.range tokens.length).map (a + ·)) && decide (a ≤ tokens.length + 1)
  else decide (tokens = List.range tokens.length)

/-- R217, R218, R223: the scores of one token arrive; with the module's last token of the batch its counts leave. A
module without a token in the batch sends its counts on a last selection without scores (in part DEDUCED: log 65). -/
def select (key : BatchKey) (token : Nat) (scores vec : List W32) (last : Bool) (s : State) : State :=
  match layerOf s key.layer with
  | none => s
  | some l =>
    let b := batchOf s key
    if b.counted || (decide (scores ≠ []) && (decide (scores.length ≠ rtE l.desc) || !tokenFits s l key token)) then s
    else
      let nan := scores.any (fun x => isNan32 (gateScore l.desc x))
      let s := if nan && !b.nonfinite then routeCount key (fun t => { t with nonfinite := add48 t.nonfinite 1 }) s else s
      let t : TokenChoice := { token := token, vec := vec, choices := tokenChoices l.desc scores }
      let b := { batchOf s key with
        nonfinite := b.nonfinite || nan,
        tokens := if scores = [] ∨ b.tokens.any (fun x => x.token = token) then b.tokens
          else sortBy (fun a b => decide (a.token ≤ b.token)) (b.tokens ++ [t]) }
      if last && halfWhole s l key (b.tokens.map (·.token)) then sendCounts l.desc b (putBatch { b with counted := true } s)
      else putBatch b s

/-- SELECT (R217). -/
def execSelect (key : BatchKey) (token : Nat) (scores vec : List W32) (last : Bool) (s : State) : Result :=
  .next (select key token scores vec last s)

/-! ### Grants (R221, R224, R229, R267) -/

/-- R223: n(e, j, m) at the home. -/
def countOf (b : Batch) (e j m : Nat) : Nat :=
  match b.counts.find? (fun c => c.1 = m) with
  | some c => ((c.2.2.find? (fun x => decide (x.expert = e) && decide (x.rank = j))).map (·.n)).getD 0
  | none => 0

/-- R224: the grants of one expert, (rank, member, start, granted) in order, and the position after the last choice. -/
def grantExpert (defer : Bool) (cap k q : Nat) (n : Nat → Nat → Nat) : List (Nat × Nat × Nat × Nat) × Nat :=
  ((List.range k).flatMap (fun j => (List.range q).map (fun m => (j, m)))).foldl
    (fun x jm => (x.1 ++ [(jm.1, jm.2, x.2, if defer then n jm.1 jm.2 else min (n jm.1 jm.2) (cap - x.2))],
      x.2 + n jm.1 jm.2)) ([], 0)

/-- R267: the serving modules of an expert, the home first. -/
def servingModules (s : State) (x : ExpertRef) : List Nat :=
  match dirFind s x with
  | none => []
  | some e => e.home :: e.replicas.filter (fun m =>
      s.ledger.replicas.any (fun r => decide (r.1 = x) && decide (r.2.1 = m) && r.2.2))

/-- R267: the module that serves block q of b blocks among n modules. -/
def blockServer (modules : List Nat) (b q : Nat) : Nat :=
  let n := modules.length
  ((List.range n).find? (fun i => decide (i * b / n ≤ q) && decide (q < (i + 1) * b / n))).map (fun i => modules.getD i 0)
    |>.getD 0

/-- R267: the split of one pass with f filled slots in blocks of w. -/
def splitPass (e p f w : Nat) (modules sources : List Nat) : SplitEntry :=
  let b := ceilDiv f (max 1 w)
  { expert := e, pass := p, filled := f, modules := modules, serving := (List.range b).map (blockServer modules b),
    sources := sources }

/-- R234: the members that hold choices in pass p. -/
def passSources (cap p : Nat) (g : List (Nat × Nat × Nat × Nat)) : List Nat :=
  sortNat ((g.filter (fun x => decide (0 < x.2.2.2) && decide (x.2.2.1 < (p + 1) * cap) &&
    decide (p * cap < x.2.2.1 + x.2.2.2))).map (fun x => x.2.1)).eraseDups

/-- R227, R267: the splits of an expert's passes; an expert without a placed choice has one empty pass
(in part DEDUCED: log 65). -/
def expertSplit (s : State) (l : ExpertLayer) (x : ExpertRef) (cap placed : Nat) (g : List (Nat × Nat × Nat × Nat)) :
    List SplitEntry :=
  (List.range (max 1 (ceilDiv placed (max 1 cap)))).map (fun p =>
    splitPass x.expert p (min cap (placed - p * cap)) l.width (servingModules s x) (passSources cap p g))

/-- R264: the bytes of the parameters that fetches hold (in part DEDUCED: log 68). -/
def fetchedBytes (s : State) : Nat :=
  (s.ledger.fetches.map (fun f => 2 * ((layerOf s f.1.layer).map (·.expertParams)).getD 0)).foldl (· + ·) 0

/-- R251: the expert's committed parameters lie in the far tier, and no complete promotion copy stands in. -/
def inFarTier (s : State) (x : ExpertRef) : Bool :=
  match dirFind s x with
  | some e => (decide (e.state = .far) || decide (e.state = .fetching)) && decide (x ∉ s.ledger.promoted)
  | none => false

/-- R264, R265: a far expert that is granted a choice is fetched once, when the pool has room. -/
def startFetch (x : ExpertRef) (s : State) : State :=
  let n := 2 * ((layerOf s x.layer).map (·.expertParams)).getD 0
  let m := ownSeg s
  if inFarTier s x && !s.ledger.fetches.any (fun f => f.1 = x) && decide (poolUse s m + fetchedBytes s + n ≤ poolCap s m) then
    let s := residCount x.layer (fun t => { t with fetches := add48 t.fetches 1, fetchBytes := add48 t.fetchBytes n }) s
    emit (.fetch x) (s.withLedger { s.ledger with fetches := s.ledger.fetches ++ [(x, false)] })
  else s

/-- R229, R254: the visits and requests of an expert in the step (in part DEDUCED: log 69). -/
def addVisits (x : ExpertRef) (placed requested : Nat) (s : State) : State :=
  let k := 65536 * x.layer + x.expert
  s.withLedger { s.ledger with
    visits := sput 0 s.ledger.visits k (sget 0 s.ledger.visits k + placed),
    requests := sput 0 s.ledger.requests k (sget 0 s.ledger.requests k + requested) }

/-- R224: one home expert of a batch: its grants and split, with its counts, visits and fetch. -/
def grantOne (l : ExpertLayer) (b : Batch) (cap : Nat) (e : Nat) (s : State) :
    (Nat × List (Nat × Nat × Nat × Nat) × Nat × Nat × List SplitEntry) × State :=
  let x : ExpertRef := { layer := b.key.layer, expert := e }
  let (g, total) := grantExpert (rtDefer l.desc) cap (rtK l.desc) (cutQ s) (countOf b e)
  let placed := if rtDefer l.desc then total else min total cap
  let s := if inEval s then s else addVisits x placed total s
  let sp := expertSplit s l x cap placed g
  ((e, g, total, placed, sp), if 0 < placed then startFetch x s else s)

/-- R224: the grants that one member receives. -/
def memberGrants (gs : List (Nat × List (Nat × Nat × Nat × Nat) × Nat × Nat × List SplitEntry)) (m : Nat) : List GrantEntry :=
  gs.flatMap (fun x => (x.2.1.filter (fun g => g.2.1 = m)).map
    (fun g => { expert := x.1, rank := g.1, start := g.2.2.1, granted := g.2.2.2 }))

/-- R221, R224, R229, R246, R254: a home module that holds every count record computes its grants and returns them. Each home module
of a layer adds the batch's C to the layer's offered capacity, so that the all-reduce gives the sum over homes: R254 does not say
whether a batch with several homes counts once (DESIGN CHOICE: log 99). -/
def grantAll (l : ExpertLayer) (b : Batch) (s : State) : State :=
  let t := (b.counts.map (fun c => c.2.1)).foldl (· + ·) 0
  let cap := capacity l.desc t
  let (gs, s) := (homeExperts s b.key.layer (ownSeg s)).foldl
    (fun x e => let (g, s) := grantOne l b cap e x.2; (x.1 ++ [g], s)) ([], s)
  let sum := fun (f : Nat × List (Nat × Nat × Nat × Nat) × Nat × Nat × List SplitEntry → Nat) => (gs.map f).foldl (· + ·) 0
  let s := putBatch { b with cap := cap, placedN := gs.map (fun x => (x.1, x.2.2.2.1)) } s
  let s := routeCount b.key (fun r => { r with
    skippedChoices := add48 r.skippedChoices (sum (fun x => x.2.2.1 - x.2.2.2.1)),
    extraPasses := add48 r.extraPasses
      (if rtDefer l.desc then sum (fun x => ceilDiv x.2.2.2.1 (max 1 cap) - 1) else 0),
    maxLoad := add48 r.maxLoad ((gs.map (fun x => x.2.2.1)).foldl max 0) }) s
  let s := if inEval s then s else s.withLedger { s.ledger with
    offered := sput 0 s.ledger.offered b.key.layer (sget 0 s.ledger.offered b.key.layer + cap) }
  emits ((List.range (cutQ s)).map (fun m => Out.grant m b.key cap (memberGrants gs m) (gs.flatMap (fun x => x.2.2.2.2)))) s

/-- R223, R224: a count record arrives at a home module. -/
def countRecord (key : BatchKey) (m tm : Nat) (counts : List CountEntry) (s : State) : State :=
  match layerOf s key.layer with
  | none => s
  | some l =>
    let b := batchOf s key
    if cutQ s ≤ m ∨ b.counts.any (fun c => c.1 = m) then s
    else
      let b := { b with counts := b.counts ++ [(m, tm, counts)] }
      if b.counts.length < cutQ s then putBatch b s else grantAll l b s

/-- COUNT_RECORD (R224). -/
def execCountRecord (key : BatchKey) (m tm : Nat) (counts : List CountEntry) (s : State) : Result :=
  .next (countRecord key m tm counts s)

/-! ### Records and passes (R230 to R236) -/

/-- R267: the module that serves a slot of a pass; none for a slot that is not filled. -/
def slotServer (b : Batch) (w e p slot : Nat) : Option Nat :=
  (b.split.find? (fun x => decide (x.expert = e) && decide (x.pass = p))).bind
    (fun x => if slot < x.filled then x.serving[slot / max 1 w]? else none)

/-- R230: the experts that a module serves for the layer in the step, ascending. -/
def servedBy (b : Batch) (m : Nat) : List Nat :=
  sortNat ((b.split.filter (fun x => decide (x.pass = 0) && decide (m ∈ x.modules))).map (·.expert))

/-- R230: the bit of an expert on its serving module (in part DEDUCED: log 65). -/
def maskBit (b : Batch) (m e : Nat) : Nat := (servedBy b m).findIdx (fun x => x = e)

/-- R230: the bits of a MASK, ascending (in part DEDUCED: log 65). -/
def maskBits (w : W64) : List Nat := (List.range 64).filter (fun i => w.getLsbD i)

/-- The placed choices of a token in ascending rank. -/
def placedOf (b : Batch) (token : Nat) : List Placed :=
  sortBy (fun a b => decide (a.rank ≤ b.rank)) (b.placed.filter (fun p => p.token = token))

/-- R230: the placed choices of a token at a serving module, by ascending bit. -/
def placedAt (b : Batch) (token m : Nat) : List Placed :=
  sortBy (fun x y => decide (x.expert ≤ y.expert)) ((placedOf b token).filter (fun p => p.server = m))

/-- R231: the header of a record of one token to or from one serving module. -/
def recHeader (s : State) (l : ExpertLayer) (b : Batch) (back : Bool) (token m : Nat) : RecHeader :=
  let ps := placedAt b token m
  { key := b.key, dir := false, pfmt := if back then l.bwdFmt else l.inFmt, src := ownSeg s, token := token,
    mask := ps.foldl (fun w p => w ||| (1 : W64) <<< maskBit b m p.expert) 0, epoch := runningEpoch s,
    pos := ps.map (·.pos), ranks := ps.map (·.rank), weights := ps.map (·.weight),
    placed := (placedOf b token).map (·.rank) }

/-- R234: a source may send the choice: its pass is 0 or 1, or a credit has admitted it. -/
def passAdmitted (b : Batch) (back : Bool) (p : Placed) : Bool :=
  decide (p.pos / max 1 b.cap < 2) || decide ((p.expert, p.pos / max 1 b.cap) ∈ (if back then b.backAdmitted else b.admitted))

/-- R238: the combine weight of a placed choice. -/
def combineWeight (l : ExpertLayer) (b : Batch) (p : Placed) : W32 :=
  if rtRenorm l.desc then div32 p.weight (pairwise ((placedOf b p.token).map (·.weight))) else p.weight

/-- R230, R234, R270: the (token, serving module) pairs whose record may leave now, in index order. A record whose choices lie in
several passes leaves once all of them are admitted: the rules do not say when it does (DESIGN CHOICE: log 99). -/
def sendable (b : Batch) (back : Bool) : List (Nat × Nat) :=
  b.tokens.flatMap (fun t =>
    ((sortNat ((placedOf b t.token).map (·.server)).eraseDups).filter (fun m =>
      decide ((t.token, m) ∉ (if back then b.backSent else b.sent)) &&
      (placedAt b t.token m).all (passAdmitted b back))).map (fun m => (t.token, m)))

/-! ### Record streams (R42, R231, R275) -/

/-- R67, R231: values in a payload format, packed, with their block scales after them: a conversion that changes nothing, since they
were converted once at their source. -/
def valueBytes (o : OperandFmt) (vals : List W32) : Bytes :=
  if o.mx then
    let blocks := (List.range (ceilDiv vals.length 32)).map (fun i =>
      mxBlock o.fmt .rne false (((vals.drop (32 * i)).take 32).map ofA32) [])
    packCodes o.fmt (blocks.flatMap (fun b => b.2.map (·.code))) ++ blocks.map (·.1)
  else packCodes o.fmt (vals.map (fun x => (convert o.fmt .rne true 0 (ofA32 x)).code))

/-- R231: the 64 bytes of a record's header. -/
def recHeaderBytes (h : RecHeader) : Bytes :=
  natLe 2 h.key.layer ++ natLe 2 h.key.micro ++ natLe 1 ((if h.key.half then 1 else 0) + (if h.dir then 2 else 0)) ++
  natLe 1 (fmtCode h.pfmt.fmt + (if h.pfmt.mx then 16 else 0)) ++ natLe 2 h.src ++ natLe 4 h.token ++ natLe 8 h.mask.toNat ++
  natLe 6 h.epoch.toNat ++ natLe 2 0 ++ natLe 4 h.len ++ (List.range 8).flatMap (fun i => natLe 4 (h.pos.getD i 0))

/-- R230, R270: the payload of a dispatch or backward record: in backward the combine weights come first. -/
def payloadBytes (h : RecHeader) (weights vec : List W32) : Bytes :=
  weights.flatMap (fun w => natLe 4 w.toNat) ++ valueBytes h.pfmt vec

/-- R274: the bytes of the nodes of a backward return. -/
def nodeBytes (nodes : List TreeNode) : Bytes := nodes.flatMap (fun n => n.values.flatMap (fun v => natLe 4 v.toNat))

/-- R237: the bytes of the outputs of a forward return, in ascending bit order. -/
def outputBytes (o : OperandFmt) (outs : List (Nat × List W32)) : Bytes := outs.flatMap (fun x => valueBytes o x.2)

/-- R42: the bytes that a record stream has carried so far. -/
def streamSoFar (s : State) (k : BatchKey × Nat × Bool × Bool) : Bytes :=
  ((s.ledger.streams.find? (fun x => x.1 = k)).map (·.2)).getD []

/-- R42: the bytes of a record stream replaced. -/
def putStream (k : BatchKey × Nat × Bool × Bool) (bs : Bytes) (s : State) : State :=
  s.withLedger { s.ledger with streams := s.ledger.streams.filter (fun x => decide (x.1 ≠ k)) ++ [(k, bs)] }

/-- R42: a record that has come agrees with the seal that it carries over its stream. -/
def recordSealOk (s : State) (back : Bool) (h : RecHeader) (weights vec : List W32) : Bool :=
  match h.carried with
  | none => true
  | some c => decide (c = crc64 (streamSoFar s (h.key, h.src, back, true) ++ recHeaderBytes h ++
      payloadBytes h weights vec))

/-- R275: a return record agrees with the seal that it carries, its own. -/
def returnSealOk (h : RecHeader) (body : Bytes) : Bool :=
  match h.carried with
  | none => true
  | some c => decide (c = crc64 (recHeaderBytes h ++ body))

/-- R275: a return record's header with its length and its seal (in part DEDUCED: log 95). -/
def sealReturn (h : RecHeader) (body : Bytes) : RecHeader :=
  let h := { h with dir := true, len := body.length }
  { h with carried := some (crc64 (recHeaderBytes h ++ body)) }

/-- R206: a record stream whose seal fails (in part DEDUCED: log 95). -/
def recordFailure (h : RecHeader) (computed : W64) (s : State) : State :=
  sealFailure .ledger .none 0 0 (h.carried.getD 0) computed s

/-- The seal that a record's stream should carry at its end. -/
def recordSeal (s : State) (back : Bool) (h : RecHeader) (weights vec : List W32) : W64 :=
  crc64 (streamSoFar s (h.key, h.src, back, true) ++ recHeaderBytes h ++ payloadBytes h weights vec)

/-- R230, R270: what a record of a token to a serving module carries after its header: combine weights and the vector. -/
def recordBody (l : ExpertLayer) (b : Batch) (back : Bool) (x : Nat × Nat) : List W32 × List W32 :=
  if back then ((placedAt b x.1 x.2).map (combineWeight l b), ((b.upGrads.find? (fun g => g.1 = x.1)).map (·.2)).getD [])
  else ([], ((b.tokens.find? (fun t => t.token = x.1)).map (·.vec)).getD [])

/-- R230: the records of a batch to a serving module that have not left. -/
def recordsLeft (b : Batch) (back : Bool) (sent : List (Nat × Nat)) (m : Nat) : Bool :=
  b.tokens.any (fun t => decide (placedAt b t.token m ≠ []) &&
    decide ((t.token, m) ∉ (if back then b.backSent else b.sent)) && decide ((t.token, m) ∉ sent))

/-- R42, R230, R231, R270: the records of the pairs given, one after another: each with its length, the last of a stream with the
stream's seal. -/
def formRecords (l : ExpertLayer) (back : Bool) (key : BatchKey) (s : State) (pairs : List (Nat × Nat)) : List Out × State :=
  let b := batchOf s key
  (pairs.foldl (fun (x : List Out × State × List (Nat × Nat)) y =>
    let (out, s, sent) := x
    let (ws, vec) := recordBody l b back y
    let h := recHeader s l b back y.1 y.2
    let h := { h with len := (payloadBytes h ws vec).length }
    let k := (key, y.2, back, false)
    let content := streamSoFar s k ++ recHeaderBytes h ++ payloadBytes h ws vec
    let done := !recordsLeft b back (sent ++ [y]) y.2
    let h := if done then { h with carried := some (crc64 content) } else h
    (out ++ [if back then Out.backward y.2 h ws vec else Out.dispatch y.2 h vec],
     putStream k (if done then [] else content) s, sent ++ [y])) ([], s, [])) |> fun x => (x.1, x.2.1)

/-- R230, R270: the records that may leave now leave (in part DESIGN CHOICE: log 67). -/
def sendRecords (l : ExpertLayer) (back : Bool) (key : BatchKey) (s : State) : State :=
  let pairs := sendable (batchOf s key) back
  let (out, s) := formRecords l back key s pairs
  let b := batchOf s key
  emits out (putBatch (if back then { b with backSent := b.backSent ++ pairs } else { b with sent := b.sent ++ pairs }) s)

/-- The exchange of a batch in one direction. -/
def serveOf (b : Batch) (back : Bool) : Serve := if back then b.bwd else b.fwd

/-- The exchange of a batch in one direction replaced. -/
def setServe (b : Batch) (back : Bool) (x : Serve) : Batch := if back then { b with bwd := x } else { b with fwd := x }

/-- R232: how many slots of a pass a module serves. -/
def slotsServed (w m : Nat) (x : SplitEntry) : Nat :=
  ((List.range x.filled).filter (fun i => decide (x.serving[i / max 1 w]? = some m))).length

/-- R236, R264: the expert's parameters are at hand, or are streamed (R265). -/
def expertReady (s : State) (x : ExpertRef) : Bool := !s.ledger.fetches.any (fun f => decide (f.1 = x) && !f.2)

/-- R232, R227, R236: a pass may start: every row of it has arrived, the pass before it is complete and its expert is at
hand. -/
def passStarts (s : State) (w : Nat) (b : Batch) (sv : Serve) (x : SplitEntry) : Bool :=
  let m := ownSeg s
  let n := slotsServed w m x
  decide (0 < n) && decide ((x.expert, x.pass) ∉ sv.started) &&
  decide ((sv.rows.filter (fun r => decide (r.expert = x.expert) && decide (r.pass = x.pass))).length = n) &&
  b.split.all (fun y => decide (y.expert ≠ x.expert) || decide (x.pass ≤ y.pass) || decide (slotsServed w m y = 0) ||
    decide ((y.expert, y.pass) ∈ sv.done)) &&
  expertReady s { layer := b.key.layer, expert := x.expert }

/-- R232: the passes that may start now start. -/
def startPasses (w : Nat) (back : Bool) (key : BatchKey) (s : State) : State :=
  let b := batchOf s key
  let sv := serveOf b back
  let new := (b.split.filter (passStarts s w b sv)).map (fun x => (x.expert, x.pass))
  putBatch (setServe b back { sv with started := sv.started ++ new }) s

/-- The choices of a record at its serving module: expert, pass, slot and rank; none when a bit names no served expert or a
position lies outside the grants (R233). -/
def recordChoices (s : State) (w : Nat) (b : Batch) (h : RecHeader) : Option (List (Nat × Nat × Nat × Nat)) :=
  let bits := maskBits h.mask
  let served := servedBy b (ownSeg s)
  let cs := (bits.zip (h.pos.zip h.ranks)).filterMap (fun x => (served[x.1]?).map (fun e =>
    (e, x.2.1 / max 1 b.cap, x.2.1 % max 1 b.cap, x.2.2)))
  if cs.length = bits.length ∧ h.pos.length = bits.length ∧
      cs.all (fun c => decide (slotServer b w c.1 c.2.1 c.2.2.1 = some (ownSeg s))) = true then some cs
  else none

/-- R242, R243: the slot entry of a choice. -/
def slotEntry (h : RecHeader) (weight : W32) (replica : Bool) (c : Nat × Nat × Nat × Nat) : LedgerEntry :=
  { token := h.token, key := h.key, rank := c.2.2.2, slotKind := true, replica := replica, pass := c.2.1, expert := c.1,
    peer := h.src, slot := c.2.2.1, weight := weight, epoch := h.epoch, parked := false }

/-- R233, R473: a record that names a position outside the grants is a detected error (in part DEDUCED: log 65). -/
def badPosition (h : RecHeader) (s : State) : State :=
  detect { mechanism := 12, unit := .ledger, active := true, location := BitVec.ofNat 32 (h.pos.headD 0),
           observed := h.mask, expected := 0 } s

/-- R232, R233, R271, R272: a record is taken: a repeat is discarded and counted; else each choice's row is written, in
backward weighted, and its slot entry exists from then on (R243). -/
def takeRecord (l : ExpertLayer) (back : Bool) (h : RecHeader) (weights vec : List W32) (s : State) : State :=
  let b := batchOf s h.key
  let sv := serveOf b back
  if sv.records.any (fun r => decide (r.src = h.src) && decide (r.token = h.token)) then
    routeCount h.key (fun t => { t with dupRecords := add48 t.dupRecords 1 }) s
  else match recordChoices s l.width b h with
  | none => badPosition h s
  | some cs =>
    let row := fun (x : (Nat × Nat × Nat × Nat) × Nat) => if back then vec.map (mulRne (weights.getD x.2 0)) else vec
    let rows : List SlotVec := cs.zipIdx.map (fun x =>
      { expert := x.1.1, pass := x.1.2.1, slot := x.1.2.2.1, vec := row x })
    let s := putBatch (setServe b back { sv with records := sv.records ++ [h], rows := sv.rows ++ rows }) s
    let far := fun (e : Nat) => decide ((dirFind s { layer := h.key.layer, expert := e }).map (·.home) ≠ some (ownSeg s))
    let new := cs.zipIdx.map (fun x => slotEntry h (h.weights.getD x.2 0) (far x.1.1) x.1)
    let s := if back then s else s.withLedger { s.ledger with entries := s.ledger.entries ++ new }
    startPasses l.width back h.key s

/-- R232, R269: whether a record can be taken now: the grants of every home are here and, in backward, the batch's entries
are ACTIVE (in part DESIGN CHOICE: log 66). -/
def takesRecords (b : Batch) (back : Bool) : Bool := b.granted && (!back || b.backward)

/-- R42, R206: a record arrives: one whose stream's seal fails is not taken; one that cannot be taken yet waits in the receive queue
(in part DESIGN CHOICE: log 66). -/
def recordArrives (back : Bool) (h : RecHeader) (weights vec : List W32) (s : State) : State :=
  match layerOf s h.key.layer with
  | none => s
  | some l =>
    let b := batchOf s h.key
    let sv := serveOf b back
    let held := (sv.records ++ sv.early.map (·.1)).any (fun r => decide (r.src = h.src) && decide (r.token = h.token))
    if h.epoch ≠ runningEpoch s then s
    else if !held && !recordSealOk s back h weights vec then recordFailure h (recordSeal s back h weights vec) s
    else
      let k := (h.key, h.src, back, true)
      let s := if held then s
        else putStream k (if h.carried.isSome then []
          else streamSoFar s k ++ recHeaderBytes h ++ payloadBytes h weights vec) s
      if takesRecords b back then takeRecord l back h weights vec s
      else putBatch (setServe b back { sv with early := sv.early ++ [(h, weights, vec)] }) s

/-- The records of the receive queue are taken in order of arrival (in part DESIGN CHOICE: log 66). -/
def takeEarly (l : ExpertLayer) (back : Bool) (key : BatchKey) (s : State) : State :=
  let b := batchOf s key
  let sv := serveOf b back
  sv.early.foldl (fun s x => takeRecord l back x.1 x.2.1 x.2.2 s) (putBatch (setServe b back { sv with early := [] }) s)

/-- DISPATCH_RECORD (R232). -/
def execDispatchRecord (h : RecHeader) (payload : List W32) (s : State) : Result := .next (recordArrives false h [] payload s)

/-! ### Conversion of layer outputs (R239, R274) -/

/-- A row of values under a conversion of R74 to R88: the codes, and the block scales of an MX target. `c0` is the counter of the
row's first draw (R79) (in part DESIGN CHOICE: log 67) (in part DEDUCED: log 69). -/
def convertRow (s : State) (d : DrainDesc) (c0 : W64) (vals : List W32) : List W32 × List Byte :=
  let draws := vals.mapIdx (fun i _ => if dcRm d.control = .sr then
    (drawWord s.job.seed (dcStream d.control) (c0 + BitVec.ofNat 64 i)).toNat else 0)
  let code := fun (c : Conv) => BitVec.ofNat 32 c.code
  if dcMxOut d.control then
    let pre := vals.map (fun x => drainClip d (drainAffine d 0 0 x))
    let blocks := (List.range (ceilDiv vals.length 32)).map (fun i =>
      mxBlock (dcFmt d.control) (dcRm d.control) (dcSpec d.control) ((pre.drop (32 * i)).take 32) ((draws.drop (32 * i)).take 32))
    (blocks.flatMap (fun b => b.2.map code), blocks.map (·.1))
  else ((vals.zip draws).map (fun x => code (drainPlain d 0 0 x.2 x.1)), [])

/-- R154, R222: the rows of a layer's output in one micro-batch under the load-time bound: B_m for each member of the routing
group. -/
def boundRows (s : State) (l : ExpertLayer) : Nat := cutQ s * l.bound

/-- A layer's conversion of outputs, or of input gradients, and the length of its rows. -/
def layerConv (l : ExpertLayer) (back : Bool) : DrainDesc × Nat := if back then (l.bwdConv, l.inLen) else (l.outConv, l.outLen)

/-- R79, R154, R170: a layer's conversion under SR takes the counter range of all its micro-batches in the step when the first of
them reaches it, by the load-time bound whatever the routing; a training stream stands still in an evaluation
(in part DEDUCED: log 69). -/
def openConv (l : ExpertLayer) (layer : Nat) (back : Bool) (s : State) : State :=
  let (d, len) := layerConv l back
  let st := dcStream d.control
  if dcRm d.control ≠ .sr ∨ s.ledger.convBases.any (fun x => decide (x.1 = layer) && decide (x.2.1 = back)) then s
  else
    let c0 := nextRange s st
    let s := s.withLedger { s.ledger with convBases := s.ledger.convBases ++ [(layer, back, c0)] }
    if inEval s && !isEvalStream st then s
    else passRange s st (c0 + BitVec.ofNat 64 (l.micros * boundRows s l * len))

/-- R64, R79, R154: the counter of the first draw of a token's row: its place by micro-batch, member and token, whichever half or
token is combined first (in part DEDUCED: log 69). -/
def rowCounter (s : State) (l : ExpertLayer) (back : Bool) (key : BatchKey) (token : Nat) : W64 :=
  let c0 := ((s.ledger.convBases.find? (fun x => decide (x.1 = key.layer) && decide (x.2.1 = back))).map (·.2.2)).getD 0
  c0 + BitVec.ofNat 64 ((key.micro * boundRows s l + ownSeg s * l.bound + token) * (layerConv l back).2)

/-! ### Grants at the source (R225, R226, R230) -/

/-- R225: the choices that one grant places. -/
def assignGrant (b : Batch) (w : Nat) (g : GrantEntry) : List Placed :=
  (b.tokens.filter (fun t => decide ((t.choices[g.rank]?).map (·.1) = some g.expert))).zipIdx.filterMap (fun x =>
    if x.2 < g.granted then
      let p := g.start + x.2
      some { token := x.1.token, rank := g.rank, expert := g.expert, pos := p,
             weight := ((x.1.choices[g.rank]?).map (·.2)).getD 0,
             server := (slotServer b w g.expert (p / max 1 b.cap) (p % max 1 b.cap)).getD 0 }
    else none)

/-- R242, R243: the source entry of a placed choice. -/
def sourceEntry (s : State) (b : Batch) (p : Placed) : LedgerEntry :=
  { token := p.token, key := b.key, rank := p.rank, slotKind := false,
    replica := decide ((dirFind s { layer := b.key.layer, expert := p.expert }).map (·.home) ≠ some p.server),
    pass := p.pos / max 1 b.cap, expert := p.expert, peer := p.server, slot := p.pos % max 1 b.cap, weight := p.weight,
    epoch := runningEpoch s, parked := false }

/-- R226, R240, R246: the tokens without a placed choice are dropped, counted, and have +0 in every element. -/
def dropTokens (l : ExpertLayer) (key : BatchKey) (s : State) : State :=
  let b := batchOf s key
  let gone := b.tokens.filter (fun t => decide (placedOf b t.token = []))
  let zero := convertRow s l.outConv 0 (List.replicate l.outLen 0)
  let zeros := (List.replicate l.outLen (0 : W32), List.replicate zero.2.length (0 : Byte))
  routeCount key (fun t => { t with droppedTokens := add48 t.droppedTokens gone.length })
    (putBatch { b with combined := b.combined ++ gone.map (fun t => (t.token, zeros)) } s)

/-- R225, R230: the grants of one home arrive; with the last home's the dispatch starts. -/
def grantArrives (key : BatchKey) (home cap : Nat) (grants : List GrantEntry) (split : List SplitEntry) (s : State) : State :=
  match layerOf s key.layer with
  | none => s
  | some l =>
    let b := batchOf s key
    if b.counted = false ∨ home ∈ b.homes ∨ home ∉ layerHomes s key.layer then s
    else
      let b := { b with cap := cap, homes := b.homes ++ [home], split := b.split ++ split }
      let new := grants.flatMap (assignGrant b l.width)
      let all := (layerHomes s key.layer).all (fun h => decide (h ∈ b.homes))
      let s := putBatch { b with placed := b.placed ++ new, granted := all } s
      let s := s.withLedger { s.ledger with entries := s.ledger.entries ++ new.map (sourceEntry s b) }
      if all then takeEarly l false key (sendRecords l false key (dropTokens l key (openConv l key.layer false s))) else s

/-- GRANT (R225). -/
def execGrant (key : BatchKey) (home cap : Nat) (grants : List GrantEntry) (split : List SplitEntry) (s : State) : Result :=
  .next (grantArrives key home cap grants split s)

/-- R234: a pass credit arrives at a source, which sends the records that it held back for the pass
(in part DEDUCED: log 68). -/
def passCredit (key : BatchKey) (e p : Nat) (back : Bool) (s : State) : State :=
  match layerOf s key.layer with
  | none => s
  | some l =>
    let b := batchOf s key
    if b.granted = false then s
    else
      let b := if back then { b with backAdmitted := b.backAdmitted ++ [(e, p)] }
        else { b with admitted := b.admitted ++ [(e, p)] }
      if back && !b.backward then putBatch b s else sendRecords l back key (putBatch b s)

/-- PASS_CREDIT (R234). -/
def execPassCredit (key : BatchKey) (e p : Nat) (back : Bool) (s : State) : Result := .next (passCredit key e p back s)

/-- R236, R264: a fetch completes, and the passes that waited for it start. -/
def expertFetchDone (x : ExpertRef) (s : State) : State :=
  if s.ledger.fetches.any (fun f => f.1 = x) then
    let s := s.withLedger { s.ledger with fetches := s.ledger.fetches.map (fun f => if f.1 = x then (x, true) else f) }
    match layerOf s x.layer with
    | none => s
    | some l => ((s.ledger.batches.filter (fun b => b.key.layer = x.layer)).map (·.key)).foldl
        (fun s k => startPasses l.width true k (startPasses l.width false k s)) s
  else s

/-- EXPERT_FETCH_DONE (R236). -/
def execExpertFetchDone (x : ExpertRef) (s : State) : Result := .next (expertFetchDone x s)

/-! ### The pairwise tree over modules (R273, R274) -/

/-- R273: one level of the tree at a serving module that lacks some values: the nodes that can go no further, and the next
level. -/
def treeLevel (level index : Nat) : List (Option TreeNode) → List TreeNode × List (Option TreeNode)
  | [] => ([], [])
  | [x] => ([], [x])
  | x :: y :: t =>
    let (sent, next) := treeLevel level (index + 1) t
    match x, y with
    | some a, some b => (sent, some { level := level, index := index, values := addTiles a.values b.values } :: next)
    | some a, none => (a :: sent, none :: next)
    | none, some b => (b :: sent, none :: next)
    | none, none => (sent, none :: next)

/-- R273: the nodes that a serving module sends, level by level; `n` bounds the levels. -/
def rankNodes : Nat → Nat → List (Option TreeNode) → List TreeNode
  | 0, _, l => l.filterMap id
  | n + 1, level, l =>
    if l.length ≤ 1 then l.filterMap id
    else
      let (sent, next) := treeLevel (level + 1) 0 l
      sent ++ rankNodes n (level + 1) next

/-- R274: the nodes in ascending order of their first leaf. -/
def nodesInOrder (l : List TreeNode) : List TreeNode :=
  sortBy (fun a b => decide (a.index * 2 ^ a.level ≤ b.index * 2 ^ b.level)) l

/-- A node among those received. -/
def rankNodeAt (nodes : List TreeNode) (level index : Nat) : Option (List W32) :=
  (nodes.find? (fun n => decide (n.level = level) && decide (n.index = index))).map (·.values)

/-- R274: one level of the tree at the token's module, a received node in place of its leaves. -/
def mergeLevel (nodes : List TreeNode) (level index : Nat) : List (Option (List W32)) → List (Option (List W32))
  | [] => []
  | [x] => [x]
  | x :: y :: t =>
    let v := match rankNodeAt nodes level index with
      | some v => some v
      | none => match x, y with
        | some a, some b => some (addTiles a b)
        | _, _ => none
    v :: mergeLevel nodes level (index + 1) t

/-- R274: the root of the tree, once every leaf is covered; `n` bounds the levels. -/
def mergeTree (nodes : List TreeNode) : Nat → Nat → List (Option (List W32)) → Option (List W32)
  | 0, _, l => (l.headD none)
  | n + 1, level, l => if l.length ≤ 1 then l.headD none else mergeTree nodes n (level + 1) (mergeLevel nodes (level + 1) 0 l)

/-- R274: the input gradient of a token with p placed choices from the nodes received. -/
def treeRoot (nodes : List TreeNode) (p : Nat) : Option (List W32) :=
  mergeTree nodes p 0 ((List.range p).map (rankNodeAt nodes 0))

/-! ### Passes complete (R234, R237, R272) -/

/-- The vector of a choice that its pass has produced. -/
def passOut (sv : Serve) (c : Nat × Nat × Nat × Nat) : Option (List W32) :=
  (sv.outs.find? (fun x => decide (x.expert = c.1) && decide (x.pass = c.2.1) && decide (x.slot = c.2.2.1))).map (·.vec)

/-- The Ledger without the slot entries of a token of a member (R243, R275) (in part DEDUCED: log 68). -/
def freeSlots (key : BatchKey) (src token : Nat) (s : State) : State :=
  s.withLedger { s.ledger with entries := s.ledger.entries.filter (fun e =>
    !(e.slotKind && decide (e.key = key) && decide (e.peer = src) && decide (e.token = token))) }

/-- R237, R272 to R274: the return record of one record whose outputs are all there. -/
def sendReturn (l : ExpertLayer) (back : Bool) (key : BatchKey) (s : State) (h : RecHeader) : State :=
  let b := batchOf s key
  let sv := serveOf b back
  match recordChoices s l.width b h with
  | none => s
  | some cs =>
    let vs := cs.map (passOut sv)
    if decide ((h.src, h.token) ∈ sv.returned) || vs.any (·.isNone) then s
    else
      let s := putBatch (setServe b back { sv with returned := sv.returned ++ [(h.src, h.token)] }) s
      if back then
        let leaf := fun (r : Nat) => (cs.zip vs).findSome? (fun x => if x.1.2.2.2 = r then x.2 else none)
        let leaves := h.placed.zipIdx.map (fun x => (leaf x.1).map (fun v => ({ level := 0, index := x.2, values := v } : TreeNode)))
        let nodes := nodesInOrder (rankNodes leaves.length 0 leaves)
        freeSlots key h.src h.token (emit (.backwardRet (sealReturn h (nodeBytes nodes)) nodes) s)
      else
        let outs := (cs.zip vs).map (fun x => (x.1.1, x.2.getD []))
        let s := emit (.returnRec (sealReturn { h with pfmt := l.outFmt } (outputBytes l.outFmt outs)) outs) s
        if inEval s then freeSlots key h.src h.token s else s

/-- R237: every return record that is ready leaves. -/
def sendReturns (l : ExpertLayer) (back : Bool) (key : BatchKey) (s : State) : State :=
  (serveOf (batchOf s key) back).records.foldl (sendReturn l back key) s

/-- R264: the last pass of an expert in the step, or in the evaluation, is done at its home: every batch of its layer has its grants,
and every pass that this module serves is complete. -/
def lastPassDone (s : State) (l : ExpertLayer) (x : ExpertRef) : Bool :=
  tileKnown s x && (s.ledger.batches.filter (fun b => decide (b.key.layer = x.layer))).all (fun b =>
    b.split.all (fun y => decide (y.expert ≠ x.expert) || decide (slotsServed l.width (ownSeg s) y = 0) ||
      decide ((y.expert, y.pass) ∈ (serveOf b (!inEval s)).done)))

/-- R234, R264, R265, R282: a pass completes: its vectors are ready for return, the pass after the next is credited, and a pass of
a far expert without a fetch counts as streamed (in part DEDUCED: log 68). -/
def passComplete (key : BatchKey) (e p : Nat) (back : Bool) (outs : List (Nat × List W32)) (s : State) : State :=
  match layerOf s key.layer with
  | none => s
  | some l =>
    let b := batchOf s key
    let sv := serveOf b back
    if (e, p) ∉ sv.started ∨ (e, p) ∈ sv.done then s
    else
      let x : ExpertRef := { layer := key.layer, expert := e }
      let streamed := inFarTier s x && decide ((dirFind s x).map (·.home) = some (ownSeg s)) &&
        !s.ledger.fetches.any (fun f => f.1 = x)
      let s := if streamed then residCount key.layer (fun t => { t with streamedPasses := add48 t.streamedPasses 1 }) s else s
      let new := outs.map (fun o => ({ expert := e, pass := p, slot := o.1, vec := o.2 } : SlotVec))
      let s := putBatch (setServe b back { sv with done := sv.done ++ [(e, p)], outs := sv.outs ++ new }) s
      let s := match b.split.find? (fun y => decide (y.expert = e) && decide (y.pass = p + 2)) with
        | some y => emit (.passCredit key e (p + 2) back y.sources) s
        | none => s
      let s := if back != inEval s && lastPassDone s l x then
        s.withLedger { s.ledger with fetches := s.ledger.fetches.filter (fun f => decide (f.1 ≠ x)) } else s
      sendReturns l back key (startPasses l.width back key s)

/-- PASS_COMPLETE (R234). -/
def execPassComplete (key : BatchKey) (e p : Nat) (back : Bool) (outs : List (Nat × List W32)) (s : State) : Result :=
  .next (passComplete key e p back outs s)

/-! ### Combine (R238 to R241) -/

/-- The outputs of a token's placed choices in ascending rank, once all are there. -/
def outputsOf (b : Batch) (token : Nat) : Option (List (Placed × List W32)) :=
  (placedOf b token).mapM (fun p =>
    (b.returned.find? (fun r => decide (r.1 = token) && decide (r.2.1 = p.rank))).map (fun r => (p, r.2.2)))

/-- R239: the sum of a token's weighted outputs, element by element. -/
def combineRow (l : ExpertLayer) (b : Batch) (os : List (Placed × List W32)) : List W32 :=
  (List.range l.outLen).map (fun i => pairwise (os.map (fun o => mulRne (combineWeight l b o.1) (o.2.getD i 0))))

/-- R243, R275: a token's source entries are freed, those of one serving module or all. -/
def freeSources (key : BatchKey) (token : Nat) (m : Option Nat) (s : State) : State :=
  s.withLedger { s.ledger with entries := s.ledger.entries.filter (fun e =>
    !(!e.slotKind && decide (e.key = key) && decide (e.token = token) && (m.isNone || decide (some e.peer = m)))) }

/-- R239, R241: a token whose return records have all arrived is combined. -/
def combineToken (l : ExpertLayer) (key : BatchKey) (token : Nat) (s : State) : State :=
  let b := batchOf s key
  match outputsOf b token with
  | none => s
  | some os =>
    if os = [] ∨ b.combined.any (fun c => c.1 = token) then s
    else
      let row := convertRow s l.outConv (rowCounter s l false key token) (combineRow l b os)
      let s := putBatch { b with combined := b.combined ++ [(token, row)] } s
      if inEval s then freeSources key token none s else s

/-- R237, R241, R275: a return record whose seal passes arrives at the token's module (in part DESIGN CHOICE: log 67). -/
def returnRecord (h : RecHeader) (server : Nat) (outs : List (Nat × List W32)) (s : State) : State :=
  match layerOf s h.key.layer with
  | none => s
  | some l =>
    if !returnSealOk h (outputBytes h.pfmt outs) then recordFailure h (crc64 (recHeaderBytes h ++ outputBytes h.pfmt outs)) s
    else
    let b := batchOf s h.key
    let new := (placedAt b h.token server).filterMap (fun p =>
      if b.returned.any (fun r => decide (r.1 = h.token) && decide (r.2.1 = p.rank)) then none
      else (outs.find? (fun o => o.1 = p.expert)).map (fun o => (h.token, p.rank, o.2)))
    combineToken l h.key h.token (putBatch { b with returned := b.returned ++ new } s)

/-- RETURN_RECORD (R241). -/
def execReturnRecord (h : RecHeader) (server : Nat) (outs : List (Nat × List W32)) (s : State) : Result :=
  .next (returnRecord h server outs s)

/-! ### Parking (R244) and the backward exchange (R269 to R276) -/

/-- R242: the 32 bytes of a Ledger entry. -/
def entryBytes (e : LedgerEntry) : Bytes :=
  natLe 4 e.token ++ natLe 2 e.key.layer ++
  natLe 1 (e.rank + (if e.key.half then 8 else 0) + (if e.slotKind then 16 else 0) + (if e.replica then 32 else 0)) ++
  natLe 1 e.pass ++ natLe 2 e.expert ++ natLe 2 e.peer ++ natLe 4 e.slot ++ natLe 4 e.weight.toNat ++ natLe 2 e.key.micro ++
  natLe 6 e.epoch.toNat ++ natLe 4 0

/-- R205, R244: an entry in the Ledger spill whose copy does not agree with its seal. -/
def entryBroken (key : BatchKey) (e : LedgerEntry) : Bool :=
  decide (e.key = key) && e.parked && decide (e.sealWord ≠ crc64 (entryBytes e))

/-- R205, R244: the entries of a batch parked, each copy under a seal, or unparked. -/
def setParked (key : BatchKey) (v : Bool) (s : State) : State :=
  s.withLedger { s.ledger with entries := s.ledger.entries.map (fun e => if e.key = key then
    { e with parked := v, sealWord := if v then crc64 (entryBytes e) else 0 } else e) }

/-- R239, R244: every token of the batch has its layer output. -/
def combineDone (b : Batch) : Bool := b.granted && decide (b.combined.length = b.tokens.length)

/-- R244: the entries of a batch whose combine is complete are parked. -/
def park (key : BatchKey) (s : State) : State :=
  let b := batchOf s key
  if combineDone b && !b.backward && !inEval s then setParked key true s else s

/-- PARK (R244). -/
def execPark (key : BatchKey) (s : State) : Result := .next (park key s)

/-- R276: the gradients of a token's combine weights, for its k ranks in ascending order. -/
def gateGrads (d : W128) (b : Batch) (token : Nat) (g : List W32) : List W32 :=
  (List.range (rtK d)).map (fun j =>
    match b.returned.find? (fun r => decide (r.1 = token) && decide (r.2.1 = j)) with
    | some r => pairwise ((r.2.2.zip g).map (fun x => mulRne x.1 x.2))
    | none => 0)

/-- R274: the dropped tokens' input gradients, +0 in every element. -/
def droppedGrads (s : State) (l : ExpertLayer) (b : Batch) : List (Nat × List W32 × List Byte) :=
  (b.tokens.filter (fun t => decide (placedOf b t.token = []))).map (fun t =>
    (t.token, convertRow s l.bwdConv 0 (List.replicate t.vec.length 0)))

/-- R205, R269, R270, R276: a batch's backward exchange starts: its entries are ACTIVE again once their seals agree, the gradients of its combine weights
go to the gate backward clause, its backward records leave and the records that waited are taken
(in part DESIGN CHOICE: log 66). -/
def unpark (key : BatchKey) (grads : List (Nat × List W32)) (s : State) : State :=
  match layerOf s key.layer with
  | none => s
  | some l =>
    let b := batchOf s key
    if !combineDone b || b.backward || inEval s then s
    else if s.ledger.entries.any (entryBroken key) then sealFailure .ledger .ledger 0 0 0 0 s
    else
      let s := openConv l key.layer true (setParked key false s)
      let b := { b with backward := true, upGrads := grads, grads := droppedGrads s l b }
      let gs := b.tokens.map (fun t =>
        Out.gateGrad t.token (gateGrads l.desc b t.token (((grads.find? (fun g => g.1 = t.token)).map (·.2)).getD [])))
      takeEarly l true key (sendRecords l true key (emits gs (putBatch b s)))

/-- UNPARK (R269). -/
def execUnpark (key : BatchKey) (grads : List (Nat × List W32)) (s : State) : Result := .next (unpark key grads s)

/-- BACKWARD_RECORD (R272). -/
def execBackwardRecord (h : RecHeader) (weights : List W32) (grad : List W32) (s : State) : Result :=
  .next (recordArrives true h weights grad s)

/-- R274, R275: a backward return whose seal passes arrives: its nodes join the token's tree, the source entries of that serving module are
freed, and the completed gradient converts once. -/
def backwardReturn (h : RecHeader) (server : Nat) (nodes : List TreeNode) (s : State) : State :=
  match layerOf s h.key.layer with
  | none => s
  | some l =>
    let b := batchOf s h.key
    if !b.backward || decide ((h.token, server) ∉ b.backSent) then s
    else if !returnSealOk h (nodeBytes nodes) then recordFailure h (crc64 (recHeaderBytes h ++ nodeBytes nodes)) s
    else
      let s := freeSources h.key h.token (some server) s
      let old := ((b.nodes.find? (fun n => n.1 = h.token)).map (·.2)).getD []
      let all := old ++ nodes.filter (fun n => (rankNodeAt old n.level n.index).isNone)
      let b := { b with nodes := b.nodes.filter (fun n => decide (n.1 ≠ h.token)) ++ [(h.token, all)] }
      match treeRoot all (placedOf b h.token).length with
      | none => putBatch b s
      | some v =>
        if b.grads.any (fun g => g.1 = h.token) then putBatch b s
        else
          putBatch { b with grads := b.grads ++ [(h.token, convertRow s l.bwdConv (rowCounter s l true h.key h.token) v)] } s

/-- BACKWARD_RETURN (R274). -/
def execBackwardReturn (h : RecHeader) (server : Nat) (nodes : List TreeNode) (s : State) : Result :=
  .next (backwardReturn h server nodes s)

end Sys2Proof.Machine
end

