-- ==== Sys2Proof/Machine/LoadCheck.lean ====
section
/-! DEFINITION. The check phase of PROGRAM_LOAD: the image header (R283, R284), the refusals of every descriptor, and the
limits that the image alone shows (R308). -/

namespace Sys2Proof.Machine

/-! ### The image header (R283, R284) -/

/-- R283: the header's fixed fields. -/
structure ImageHeader where
  magic : Nat
  format : Nat
  planVersion : W16
  bytes : Nat
  digest : Bytes
  counts : List Nat
  limits : List Nat
  reserved : Nat
  offsets : List Nat
  deriving DecidableEq, Repr

/-- R283: the header of an image. `counts` holds SENTENCES to COLLECTIVES, `limits` Q_MIN, Q_MAX, P_MIN, P_MAX, D_MIN and
PREFETCH (in part DESIGN CHOICE: log 31). -/
def imageHeader (b : Bytes) : ImageHeader :=
  { magic := field b 0 4, format := field b 4 2, planVersion := BitVec.ofNat 16 (field b 6 2), bytes := field b 8 8,
    digest := (b.drop 16).take 32,
    counts := [field b 48 4, field b 52 4, field b 56 4, field b 60 4, field b 64 2, field b 66 2, field b 68 4],
    limits := [field b 72 2, field b 74 2, field b 76 2, field b 78 2, field b 80 2, field b 82 1],
    reserved := field b 83 5,
    offsets := (List.range 21).map (fun i => field b (88 + 8 * i) 8) }

/-- R284: the digest of an image, its DIGEST field set to zero. -/
def imageDigest (b : Bytes) : Bytes := Config.shake256 (b.take 16 ++ List.replicate 32 0 ++ b.drop 48) 32

/-- The entries of a program's sections, in the order of the header counts. -/
def sectionCounts (p : Program) : List Nat :=
  [p.sentences.length, p.clauses.length, p.tensors.length, p.verbs.length, p.layers.length, p.decisions.length,
   p.collectives.length]

/-- R284: the refusals of the header (in part DEDUCED: log 15). -/
def headerBad (bufBytes : Nat) (b : Bytes) (p : Program) : Bool :=
  let h := imageHeader b
  let l := fun i => h.limits.getD i 0
  decide (bufBytes < 256) || decide (h.bytes < 256) || decide (bufBytes < h.bytes) || decide (h.magic ≠ 0x4C4B4E42) ||
  decide (h.format ≠ 1) || decide (h.digest ≠ imageDigest (b.take h.bytes)) ||
  (h.offsets.any (fun o => decide (o ≠ 0) && (decide (o < 256) || decide (h.bytes ≤ o)))) ||
  (p.sectionExtents.any (fun x => decide (h.bytes < h.offsets.getD x.1 0 + x.2))) ||
  decide (h.reserved ≠ 0) || (h.offsets.drop 14).any (fun o => decide (o ≠ 0)) ||
  decide (l 1 < l 0) || decide (l 3 < l 2) || decide (l 0 = 0) || decide (l 2 = 0) ||
  decide (4 < l 5) || decide (h.counts ≠ sectionCounts p) ||
  (decide (h.planVersion ≠ 0) &&
    (decide (h.planVersion.toNat < Config.planOldest.toNat) || decide (Config.planNewest.toNat < h.planVersion.toNat)))

/-- R283, R285: the plan version used; 0 selects the newest one carried. -/
def planUsed (b : Bytes) : W16 :=
  let v := (imageHeader b).planVersion
  if v = 0 then Config.planNewest else v

/-! ### Clauses and sentences (R25, R28, R30, R46, R69) -/

/-- R69: the MX flag that a format admits. -/
def mxFlagBad (o : OperandFmt) : Bool :=
  match o.fmt with
  | .e3m2 | .e2m3 | .e2m1 => !o.mx
  | .e4m3 | .e5m2 => false
  | _ => o.mx

/-- R25, R28, R30, R69: the refusals of a GEMM clause. A32 is in no width class of R24. -/
def gemmBad (g : ClauseGemm) : Bool :=
  decide (g.a.fmt = .a32) || decide (g.b.fmt = .a32) ||
  mxFlagBad g.a || mxFlagBad g.b || decide (classWidth g.a.fmt ≠ classWidth g.b.fmt) ||
  (fmtIsInt g.a.fmt != fmtIsInt g.b.fmt) || (g.preloadOnly && g.hasProduct) ||
  (match g.preload with | some f => !preloadFmtOk f | none => false)

/-- R46: a round that takes away the clauses whose streams no clause left produces. -/
def acyclicGo : Nat → List Clause → Bool
  | 0, l => l.isEmpty
  | n + 1, l =>
    let left := l.filter (fun c => c.inStreams.any (fun i => l.any (fun d => decide (i ∈ d.outStreams))))
    if left.length = l.length then l.isEmpty else acyclicGo n left

/-- The clauses of a sentence. -/
def sentenceClauses (p : Program) (x : Sentence) : List Clause := x.clauses.filterMap (fun c => p.clauses[c]?)

/-- R46: a sentence with a stream cycle. -/
def cyclic (p : Program) (x : Sentence) : Bool := !acyclicGo (sentenceClauses p x).length (sentenceClauses p x)

/-! ### Drain descriptors (R75) -/

/-- R75: the tensor that a column vector names is FP32 of rank 1. -/
def vectorBad (p : Program) (tid : W64) : Bool :=
  !p.tensors.any (fun t => decide (t.tid = tid) && decide (t.fmt = .a32) && !t.mx && decide (t.dims.length = 1))

/-- R75: the refusals of a drain descriptor. -/
def drainBad (p : Program) (d : DrainDesc) : Bool :=
  let w := d.control
  let fmt := fmtOfCode (bits64 w 12 4)
  fmt.isNone || decide (dcScaleSrc w = 3) || decide (dcBiasSrc w = 3) || dcReserved w ||
  (dcMxOut w && !(fmt.any fmtMxOk)) || (!dcMxOut w && decide (fmt ∈ [some Fmt.e3m2, some .e2m3, some .e2m1])) ||
  (dcClip w && (isNan32 d.clipLo || isNan32 d.clipHi || below32 d.clipHi d.clipLo)) ||
  (decide (dcScaleSrc w = 1) && isNonfinite32 d.scale) || (decide (dcBiasSrc w = 1) && isNonfinite32 d.bias) ||
  (decide (dcScaleSrc w ≠ 2) && decide (d.scaleTid ≠ 0)) || (decide (dcBiasSrc w ≠ 2) && decide (d.biasTid ≠ 0)) ||
  (decide (dcScaleSrc w = 2) && vectorBad p d.scaleTid) || (decide (dcBiasSrc w = 2) && vectorBad p d.biasTid)

/-- R75: a column vector has one element per output column of the clause that drains under the descriptor. -/
def columnsBad (p : Program) (c : Clause) : Bool :=
  match c.drain.bind (fun i => p.drains[i]?) with
  | none => false
  | some d =>
    let cols := (c.outTensors.filterMap (fun t => (p.tensors.find? (fun x => x.tid = t)).map (fun x => rowLen x.dims)))
    let bad := fun (tid : W64) => (p.tensors.filter (fun x => x.tid = tid)).any (fun x => cols.any (fun n => dimsElems x.dims ≠ n))
    (decide (dcScaleSrc d.control = 2) && bad d.scaleTid) || (decide (dcBiasSrc d.control = 2) && bad d.biasTid)

/-! ### Verbs (R143) -/

/-- R125: the bits of an instruction word that its opcode does not use are 0. -/
def wordReservedBad (w : W64) : Bool :=
  let op := iwOp w
  let n := (opSources op).getD 0
  (opSources op).isNone ||
  (iwSources w).any (fun s => decide (44 < s.toNat) && decide (s.toNat < 48)) ||
  decide (bits64 w 0 24 ≠ 0) ||
  (decide (n < 1) && decide (iwA w ≠ 0)) || (decide (n < 2) && decide (iwB w ≠ 0)) || (decide (n < 3) && decide (iwC w ≠ 0)) ||
  (decide (op ∈ [0x3C, 0x3D]) && decide (iwD w ≠ 0)) ||
  (decide (op ≠ 0x32) && decide (iwFmt w ≠ 0)) || (decide (op ∉ [0x31, 0x32]) && decide (iwRmq w ≠ 0)) ||
  (decide (op ∉ [0x09, 0x29, 0x38, 0x3C, 0x3D]) && decide (iwMod w ≠ 0)) ||
  (decide (op ∈ [0x38, 0x3C, 0x3D]) && decide (3 < iwMod w)) ||
  (decide (op = 0x32) && (fmtOfCode (iwFmt w)).isNone)

/-- R143: FCMP with condition 6 or 7, and FTOI with a mode that is neither 0 nor 3. -/
def wordModeBad (w : W64) : Bool :=
  (decide (iwOp w = 0x09) && decide (5 < iwMod w)) || (decide (iwOp w = 0x31) && decide (iwRmq w ∉ [0, 3]))

/-- How many words of a verb have an opcode and a MOD. -/
def opModCount (h : VerbHeader) (op m : Nat) : Nat :=
  (h.instrs.filter (fun w => decide (iwOp w = op) && decide (iwMod w = m))).length

/-- R143: an output without exactly one PUT, a slot without exactly one SUMM. -/
def putsBad (h : VerbHeader) : Bool :=
  (List.range 4).any (fun i =>
    (((h.outs.getD i none).isSome) && decide (opModCount h 0x3C i ≠ 1)) ||
    (((h.slots.getD i none).isSome) && decide (opModCount h 0x3D i ≠ 1)))

/-- R67: the packing group of a format. -/
def packGroup : Fmt → Nat
  | .e3m2 => 4 | .e2m3 => 4 | .e2m1 => 2 | .int4 => 2 | _ => 1

/-- R122, R123: the strides of a region; those of a queue operand are 0. -/
def stridesBad (w : W128) : Bool :=
  if sdQueue w then decide (sdStrideCol w ≠ 0) || decide (sdStrideRow w ≠ 0)
  else
  ((decide (packGroup (sdFmt w) ≠ 1) &&
      (decide (sdStrideCol w ∉ ([0, 1] : List Int)) || decide (sdStrideRow w % packGroup (sdFmt w) ≠ 0))) ||
   (sdMx w && decide (sdStrideCol w ≠ 1)))

/-- The least and greatest element offset of a region of one span of 64 rows and 32 columns
(in part DEDUCED: log 70). -/
def regionSpan (w : W128) : Int × Int :=
  let r := 63 * sdStrideRow w
  let c := 31 * sdStrideCol w
  (min 0 r + min 0 c, max 0 r + max 0 c)

/-- R122: the byte addresses that a region touches, first and one past the last; an MX region's scale array follows its 64 rows at
the next 64-byte boundary. -/
def regionBytes (w : W128) : Int × Int :=
  let b : Int := fmtBits (sdFmt w)
  let (lo, hi) := regionSpan w
  let rows := packedBytes (sdFmt w) (64 * (sdStrideRow w).toNat)
  let last := if sdMx w then
      (((sdBase w + rows + 63) / 64 * 64 + 64 * (((sdStrideRow w).toNat + 31) / 32) : Nat) : Int)
    else (sdBase w : Int) + ((hi + 1) * b + 7) / 8
  ((sdBase w : Int) + lo * b / 8, last)

/-- R33, R143: a region outside the 960 KiB that the placer may allocate. -/
def regionBad (w : W128) : Bool :=
  !sdQueue w && (decide ((regionBytes w).1 < 0x10000) || decide (0x100000 < (regionBytes w).2))

/-- R119: a reserved format or reserved bits. -/
def streamReserved (w : W128) : Bool := decide (0xA < sdFmtCode w) || decide (bits128 w 20 3 ≠ 0)

/-- R143: MX against the target of an output. -/
def outputMxBad (w : W128) : Bool :=
  if sdMx w then sdRaw w || !fmtMxOk (sdFmt w) else decide (sdFmt w ∈ [Fmt.e3m2, .e2m3, .e2m1])

/-- R143: the place of the first PUT of an output, and of the last word that names an input. -/
def putPlace (h : VerbHeader) (o : Nat) : Nat := h.instrs.findIdx (fun w => decide (iwOp w = 0x3C) && decide (iwMod w = o))
def inputPlace (h : VerbHeader) (i : Nat) : Nat :=
  ((h.instrs.zipIdx.filter (fun x => (iwSources x.1).any (fun s => s.toNat = 32 + i))).map (·.2)).getLastD 0

/-- R143: an output region that overlaps an input region and does not stand in for it. -/
def overlapBad (h : VerbHeader) : Bool :=
  (h.outs.zipIdx.any (fun o => h.ins.zipIdx.any (fun i =>
    match o.1, i.1 with
    | some x, some y =>
      let (a, b) := regionBytes x
      let (c, d) := regionBytes y
      let same := decide (sdBase x = sdBase y) && decide (sdFmtCode x = sdFmtCode y) &&
        decide (sdStrideRow x = sdStrideRow y) && decide (sdStrideCol x = sdStrideCol y)
      !sdQueue x && !sdQueue y && decide (a < d) && decide (c < b) &&
        !(same && decide (inputPlace h i.2 < putPlace h o.2))
    | _, _ => false)))

/-- R143: a parameter that the verb reads with no decision bound to write it. -/
def paramReads (h : VerbHeader) : List Nat :=
  (List.range 8).filter (fun k => h.instrs.any (fun w => (iwSources w).any (fun s => s.toNat = 48 + k)))

/-- R143: the refusals of a verb that its header alone shows. -/
def verbBad (p : Program) (h : VerbHeader) : Bool :=
  decide (h.instrs.length = 0) || decide (64 < h.instrs.length) || h.instrs.any wordReservedBad || h.instrs.any wordModeBad ||
  putsBad h || overlapBad h ||
  (h.ins ++ h.outs).any (fun o => o.any (fun w => streamReserved w || stridesBad w || regionBad w)) ||
  h.outs.any (fun o => o.any outputMxBad) ||
  (paramReads h).any (fun k => match h.pDecision.getD k none with
    | none => true
    | some d => match p.decisions[d]? with
      | none => true
      | some x => !x.writes.any (fun w => decide (w.p.val = k)))

/-- R143: ACC0 or ACC1 without a buffer that the clause assigns. -/
def clauseAccBad (p : Program) (c : Clause) : Bool :=
  match c.verb.bind (fun v => p.verbs[v]?) with
  | none => false
  | some h => (List.range 2).any (fun k => decide (c.accAssigned ≤ k) &&
      h.instrs.any (fun w => (iwSources w).any (fun s => s.toNat = 40 + k)))

/-- R122: an MX region's row stride is its tensor's row length, of an input as of an output. -/
def clauseMxBad (p : Program) (c : Clause) : Bool :=
  match c.verb.bind (fun v => p.verbs[v]?) with
  | none => false
  | some h => (h.outs.zip c.outTensors ++ h.ins.zip c.inTensors).any (fun o => match o.1, p.tensors.find? (fun t => t.tid = o.2) with
      | some w, some t => sdMx w && !sdQueue w && decide (sdStrideRow w ≠ rowLen t.dims)
      | _, _ => false)

/-- R79, R131: the draw streams that the conversions and draw slots of a clause use. -/
def clauseStreams (p : Program) (c : Clause) : List W32 :=
  ((c.verb.bind (fun v => p.verbs[v]?)).map (fun h =>
    h.draws.filterMap id ++ (h.outs.filterMap id).filterMap (fun w => if sdRm w = .sr then some (sdStream w) else none))).getD [] ++
  ((c.drain.bind (fun i => p.drains[i]?)).map (fun d =>
    if dcRm d.control = .sr then [dcStream d.control] else [])).getD []

/-- R79, R143: a sentence that uses one stream twice. -/
def streamsBad (p : Program) (x : Sentence) : Bool :=
  let l := (sentenceClauses p x).flatMap (clauseStreams p)
  decide (l.eraseDups.length ≠ l.length)

/-- R152: the conversions of an expert layer name training streams (in part DEDUCED: log 94). -/
def layerStreamsBad (l : ExpertLayer) : Bool :=
  [l.outConv, l.bwdConv].any (fun d => decide (dcRm d.control = .sr) && isEvalStream (dcStream d.control))

/-- R152: the kind of stream that a sentence may name. -/
def streamKindBad (p : Program) (x : Sentence) : Bool :=
  let l := (sentenceClauses p x).flatMap (clauseStreams p)
  match x.kind with
  | .evaluation _ => l.any (fun i => !isEvalStream i)
  | _ => l.any isEvalStream

/-! ### Decisions (R124, R141, R143, R157, R639) -/

/-- R138, R141: a decision with more than two parameter writes, or with a test on a module-local source. -/
def decisionBad (d : Decision) : Bool :=
  decide (2 < d.writes.length) ||
  match d.source with
  | .summary _ _ => d.test.isSome
  | _ => false

/-- The sentences, by index, that may stand unchosen: those of some successor list. -/
def conditional (p : Program) : List Nat := p.decisions.flatMap (fun d => d.thenList ++ d.elseList)

/-- The sentences that run a verb. -/
def verbSentences (p : Program) (v : Nat) : List Nat :=
  (p.sentences.zipIdx.filter (fun x => (sentenceClauses p x.1).any (fun c => decide (c.verb = some v)))).map (·.2)

/-- The list of evaluation that a sentence belongs to; none for training. -/
def sentenceList (p : Program) (i : Nat) : Option Nat :=
  match p.sentences[i]? with
  | some x => (match x.kind with | .evaluation l => some l | _ => none)
  | none => none

/-- R124, R639: sentence x runs, before sentence t, whenever t runs. -/
def runsBefore (p : Program) (x t : Nat) : Bool :=
  decide (x < t) && decide (sentenceList p x = sentenceList p t) &&
  (decide (x ∉ conditional p) ||
    p.decisions.any (fun q => (decide (x ∈ q.thenList) && decide (t ∈ q.thenList)) ||
      (decide (x ∈ q.elseList) && decide (t ∈ q.elseList))))

/-- The sentences that produce the tensor of a collective entry, by a clause's outputs or by the tiles that it drains (R54). -/
def collSentences (p : Program) (e : Nat) : List Nat :=
  let tid := ((p.collectives[e]?).map (·.tensor)).getD 0
  (p.sentences.zipIdx.filter (fun x => (sentenceClauses p x.1).any (fun c =>
    c.gemm.any (fun g => decide (g.gradient = some e)) || decide (tid ∈ c.outTensors)))).map (·.2)

/-- R124, R639: a collective's value exists before sentence t whenever t runs: its entry belongs to the same list, and the sentences
that produce its tensor, if any do, run before t. -/
def collBefore (p : Program) (e t : Nat) : Bool :=
  let l := collSentences p e
  decide (e < p.collectives.length) && decide (((p.collectives[e]?).bind (·.eval)) = sentenceList p t) &&
  (l.isEmpty || l.any (fun x => runsBefore p x t))

/-- R124, R639: the decision's source is produced before sentence t whenever t runs; the summary of another verb may be produced in t
itself, whose verb `own` then waits for it (R140). -/
def sourceBefore (p : Program) (d : Decision) (t : Nat) (own : Option Nat) : Bool :=
  match d.source with
  | .summary v _ => (verbSentences p v).any (fun x => runsBefore p x t || (decide (x = t) && own.any (fun w => decide (w ≠ v))))
  | .collective e => collBefore p e t
  | .normsq | .nfflag => decide (sentenceList p t = none) &&
      (List.range p.collectives.length).all (fun e =>
        !(p.collectives[e]?).any (fun c => entryFuse c && c.eval.isNone) || collBefore p e t)

/-- R143: a verb that reads P_k, or a sentence of a successor list, that can run without its decision having run. -/
def orderBad (p : Program) : Bool :=
  p.sentences.zipIdx.any (fun x => (sentenceClauses p x.1).any (fun c =>
    match c.verb.bind (fun v => p.verbs[v]?) with
    | none => false
    | some h => (paramReads h).any (fun k =>
        match (h.pDecision.getD k none).bind (fun d => p.decisions[d]?) with
        | none => false
        | some d => !sourceBefore p d x.2 c.verb))) ||
  p.decisions.any (fun d => (d.thenList ++ d.elseList).any (fun t => !sourceBefore p d t none))

/-- R157: update sentences that the guard does not choose, or a skip list elsewhere. -/
def updateUnguarded (p : Program) : Bool :=
  p.sentences.zipIdx.any (fun x =>
    match x.1.kind with
    | .update => !p.decisions.any (fun d => guardsUpdate d && decide (x.2 ∈ d.thenList))
    | .skip => !p.decisions.any (fun d => guardsUpdate d && decide (x.2 ∈ d.elseList))
    | _ => false)

/-- R161: the tensors that a clause writes: each output tensor with an output of the clause's verb or its drain behind it. -/
def writtenTensors (p : Program) (c : Clause) : List W64 :=
  match c.verb.bind (fun v => p.verbs[v]?) with
  | some h => ((h.outs.zip c.outTensors).filter (fun o => o.1.isSome)).map (·.2)
  | none => if c.drain.isSome then c.outTensors else []

/-- R161: a state tensor that the update sentences do not write, or write twice (in part DEDUCED: log 70). -/
def updateIncomplete (p : Program) : Bool :=
  let written := (p.sentences.filter (fun x => x.kind = .update)).flatMap (fun x =>
    (sentenceClauses p x).flatMap (writtenTensors p))
  p.sentences.any (fun x => decide (x.kind = .update)) &&
    p.tensors.any (fun t => isState t.role && decide ((written.filter (fun x => x = t.tid)).length ≠ 1))

/-! ### What the module keeps (R144, R145) -/

/-- R144: the formats of moments and of activations kept for backward. -/
def keptFmtOk (t : TensorDecl) : Bool :=
  match t.fmt with
  | .bf16 => !t.mx
  | .e4m3 | .e5m2 => true
  | _ => false

/-- R144: a tensor that the module keeps from step to step in a format that the table does not give it (DEDUCED: log 94). -/
def tensorBad (t : TensorDecl) : Bool :=
  match t.role with
  | .param => decide (t.fmt ≠ .bf16) || t.mx
  | .remainder => decide (t.fmt ≠ .int8) || t.mx
  | .moment | .activation => !keptFmtOk t
  | _ => false

/-- R144: the remainders do not hold one element for each parameter. -/
def remaindersBad (p : Program) : Bool :=
  let count := fun (r : TensorRole) => ((p.tensors.filter (fun t => t.role = r)).map (fun t => dimsElems t.dims)).foldl (· + ·) 0
  decide (count .remainder ≠ count .param) && p.sentences.any (fun x => decide (x.kind = .update))

/-- R144, R160: an output to a moment that is not stored under SR. -/
def momentsBad (p : Program) (c : Clause) : Bool :=
  match c.verb.bind (fun v => p.verbs[v]?) with
  | none => false
  | some h => (h.outs.zip c.outTensors).any (fun o => match o.1 with
      | some w => p.tensors.any (fun t => decide (t.tid = o.2) && decide (t.role = .moment)) && decide (sdRm w ≠ .sr)
      | none => false)

/-- R145: a reduction of a gradient of the training step that does not release BF16 (DEDUCED: log 94). -/
def gradientBad (p : Program) (e : CollEntry) : Bool :=
  e.eval.isNone && p.tensors.any (fun t => decide (t.tid = e.tensor) && decide (t.role = .gradient)) &&
  decide (e.op ≤ 2) && decide (fmtOfCode e.rfmt ≠ some .bf16)

/-- R169: what an evaluation sentence may not write: state, tensors kept from step to step (R144), and what a training
clause writes. -/
def evalWritesBad (p : Program) : Bool :=
  let isEval := fun (x : Sentence) => match x.kind with | .evaluation _ => true | _ => false
  let training := (p.sentences.filter (fun x => !isEval x)).flatMap (fun x => (sentenceClauses p x).flatMap (·.outTensors))
  (p.sentences.filter isEval).any (fun x => (sentenceClauses p x).any (fun c => c.outTensors.any (fun o =>
    decide (o ∈ training) || p.tensors.any (fun t => decide (t.tid = o) &&
      (isState t.role || decide (t.role = .activation) || decide (t.role = .gradient))))))

/-! ### Routing, residency and collectives (R216, R248, R253, R362) -/

/-- R216, R248: the refusals of a routing descriptor. -/
def routingBad (w : W128) : Bool :=
  decide (rtK w = 0) || decide (8 < rtK w) || decide (rtE w < rtK w) || decide (rtE w < 2) || decide (4096 < rtE w) ||
  isNonfinite32 (rtCf w) || !below32 0 (rtCf w) || decide (rtGate w = 3) || rtReserved w

/-- R362: the refusals of a collective entry. -/
def collEntryBad (e : CollEntry) : Bool :=
  let fuse := entryAvg e || entryFuse e
  decide (6 < e.op) || decide (2 < e.wfmt) || decide (4 < e.rfmt) || decide (2 < entryPolicy e) || !e.reservedOk ||
  decide (e.flags.toNat / 16 ≠ 0) || decide (e.members ≤ e.root) ||
  (decide (entryPolicy e ≠ 0) && decide (e.d = 0)) || (fuse && decide (2 < e.op)) ||
  (decide (entryPolicy e ≠ 0) && decide (2 < e.op)) ||
  (decide (e.op ∈ [3, 4]) && decide (e.rfmt ≠ e.wfmt)) || (decide (e.op = 6) && decide (e.count ≠ 0))

/-- Every refusal with BAD_DESCRIPTOR that the parsed image shows. -/
def programBad (p : Program) : Bool :=
  p.clauses.any (fun c => (c.gemm.any gemmBad) || columnsBad p c || clauseAccBad p c || clauseMxBad p c || momentsBad p c) ||
  p.tensors.any tensorBad || remaindersBad p || p.collectives.any (gradientBad p) || p.layers.any layerStreamsBad ||
  p.sentences.any (fun x => cyclic p x || streamsBad p x || streamKindBad p x) ||
  p.drains.any (drainBad p) || p.verbs.any (verbBad p) || p.decisions.any decisionBad || orderBad p ||
  updateUnguarded p || updateIncomplete p || evalWritesBad p ||
  p.layers.any (fun l => routingBad l.desc) || (decide (p.layers ≠ []) && residencyBad p.residency) ||
  p.collectives.any collEntryBad

/-! ### Limits that the image shows (R137, R151, R308, R379) -/

/-- An exhausted resource of R308 without a Hall, clause or contributor. -/
def plainNeed (code required available : Nat) : Need :=
  { code := code, hall := 0xFFFF, clause := 0xFFFFFFFF, required := required, available := available, contributors := [] }

/-- R308: the table limits that the image exceeds, in ascending code order (in part DEDUCED: log 70). -/
def tableNeeds (imageBytes : Nat) (p : Program) : List Need :=
  let train := ((programStreams p).filter (fun i => !isEvalStream i)).length
  let eval := ((programStreams p).filter isEvalStream).length
  let dir := (p.layers.map (fun l => rtE l.desc)).foldl (· + ·) 0
  let win := (p.collectives.map windowOf).foldl max 0
  [plainNeed 0x10 imageBytes 0x10000000, plainNeed 0x11 p.sentences.length 65536, plainNeed 0x12 p.clauses.length 262144,
   plainNeed 0x13 p.tensors.length 1048576, plainNeed 0x14 p.verbs.length 16384, plainNeed 0x15 p.decisions.length 4096,
   (if 4096 < train then plainNeed 0x16 train 4096 else plainNeed 0x16 eval 256),
   plainNeed 0x17 dir 16384, plainNeed 0x1C win 3072, plainNeed 0x1D p.collectives.length 65536].filter
    (fun n => decide (n.available < n.required))

/-- R137: a SUM slot on a tensor whose rows are more than 1,024 columns wide; its values do not fit the summary store. The tensor is that
of the verb's outputs or, where it has none, the one that the clause names. -/
def sumRows (p : Program) : List Need :=
  p.clauses.zipIdx.filterMap (fun c =>
    match c.1.verb.bind (fun v => p.verbs[v]?) with
    | none => none
    | some h =>
      let w := ((c.1.outTensors.filterMap (fun o => (p.tensors.find? (fun t => t.tid = o)).map (fun t => rowLen t.dims))).foldl max c.1.sumWidth)
      if decide (some SlotKind.sum ∈ h.slots) && decide (1024 < w) then
        some { plainNeed 0x04 (256 * w) 262144 with clause := c.2 }
      else none)

/-! ### The placement report (R309, R641) -/

/-- R309: a report record. -/
def reportRecord (kind code member hall clause required available : Nat) (detail : Bytes) : Bytes :=
  rec64 (natLe 2 kind ++ natLe 2 code ++ natLe 2 member ++ natLe 2 hall ++ natLe 4 clause ++ natLe 8 required ++
    natLe 8 available ++ detail)

/-- R641: the SUMMARY record; `plan` is none for NO_CUT. -/
def summaryOf (member : Nat) (version : W16) (prefetch : Nat) (plan : Option Plan) : Bytes :=
  let f := fun (g : Plan → Nat) => (plan.map g).getD 0
  reportRecord 0 0 member 0xFFFF 0xFFFFFFFF 0 0
    (natLe 2 version.toNat ++ natLe 2 (f (·.q)) ++ natLe 2 (f (·.p)) ++ natLe 2 (f (·.d)) ++ natLe 1 prefetch ++ natLe 3 0 ++
      natLe 8 (f (·.estimate.toNat)))

/-- R309, R641: the EXHAUSTED record of a resource, with its contributors (in part DEDUCED: log 82). -/
def needRecords (member : Nat) (n : Need) : List Bytes :=
  reportRecord 1 n.code member n.hall n.clause n.required n.available [] ::
  (n.contributors.take 3).zipIdx.map (fun c =>
    reportRecord 2 n.code member n.hall n.clause c.1.2 0 (natLe 1 (c.2 + 1) ++ natLe 1 c.1.1))

/-- R309, R641: a clause note. -/
def noteRecord (member : Nat) (n : ClauseNote) : Bytes :=
  reportRecord 3 n.code member n.hall n.clause 0 0 (natLe 2 n.stalls ++ natLe 10 0 ++ natLe 8 n.value)

end Sys2Proof.Machine
end

