-- ==== Sys2Proof/Machine/Placement.lean ====
section
/-! DEFINITION. What the numeric plan fixes of a program and a physical map must keep: stages and the tensor split (R96, R99, R296),
footprints (R188), thin mode and tile passes (R52, R56), the limits of clauses, streams and stall stores (R33, R40 to R45, R308) and
the clause notes of the placement report (R309, R641). -/

namespace Sys2Proof.Machine

/-! ### The tensor split (R48, R96, R99, R296) -/

/-- R96: the blocks of a tile whose K segments have these lengths, w products to a block. -/
def blockCount (w : Nat) (segments : List Nat) : Nat := (segments.map (fun n => (n + w - 1) / w)).foldl (· + ·) 0

/-- R99: the cascade entries of a tile of b blocks. -/
def cascadeEntries (b : Nat) : Nat := if b = 0 then 0 else Nat.log2 b + 1

/-- R43: the most stalls of a clause: 256 in its home Hall and 256 in one ring neighbour, and no more than the program names. -/
def clauseLimit (c : Clause) : Nat := min (256 * (if c.halls = 1 then 1 else 2)) (if c.stalls = 0 then 512 else c.stalls)

/-- R48, R99, R296: the numeric plan of clause i: what the plan version chooses, within the bounds of the rules. -/
def clausePlan (v : W16) (p : Program) (extent : List Nat) (q pd d i : Nat) (c : Clause) : ClausePlan :=
  let (k, rows, cols, live, roles) := Config.placerClause v p extent q pd d i
  let b := match c.gemm with
    | some g => blockCount (classWidth g.a.fmt) g.segments
    | none => 0
  let most := match c.gemm with
    | some g => min g.splitK (min b 64)
    | none => 1
  { splitK := max 1 (min k most), blocks := b, tileRows := rows, tileCols := cols,
    live := max 1 (min (min live 4) (32 / max 1 (cascadeEntries b))),
    stalls := max 1 (min roles (clauseLimit c)) }

/-- R296: the first sentences of the stages: P of them, ascending from 0, within the program; the plan version's choice where it is
one, else stages of equal length. -/
def stageStarts (v : W16) (p : Program) (extent : List Nat) (q pd d : Nat) : List Nat :=
  let l := Config.placerStages v p extent q pd d
  if l.length = pd ∧ l.head? = some 0 ∧ (l.zip l.tail).all (fun x => decide (x.1 ≤ x.2)) ∧
      l.all (fun x => decide (x ≤ p.sentences.length)) then l
  else (List.range pd).map (fun j => j * p.sentences.length / max 1 pd)

/-! ### Footprints (R188, R189, R297, R298) -/

/-- R295: a spread that a layer may have: it divides Q, is at most E, and gives a home at most 64 experts. -/
def spreadOk (q e g : Nat) : Bool := decide (0 < g) && decide (q % g = 0) && decide (g ≤ e) && decide (ceilDiv e g ≤ 64)

/-- R295, R297: the spread of a layer: the plan version's choice where it is one, else the greatest that there is, or 1. -/
def spreadOf (v : W16) (p : Program) (extent : List Nat) (q pd d : Nat) (l : ExpertLayer) (i : Nat) : Nat :=
  let g := Config.placerSpread v p extent q pd d i
  if spreadOk q (rtE l.desc) g then g else (((List.range (q + 1)).reverse).find? (spreadOk q (rtE l.desc))).getD 1

/-- R295: the most experts of a layer that a module is home to. -/
def servedMost (v : W16) (p : Program) (extent : List Nat) (q pd d : Nat) (l : ExpertLayer) (i : Nat) : Nat :=
  ceilDiv (rtE l.desc) (spreadOf v p extent q pd d l i)

/-- R188, R189: the tier footprints of member m of a candidate against two capacities. -/
def footprintNeeds (v : W16) (p : Program) (extent : List Nat) (q pd d depth m near far : Nat) (site : Bool) : List Need :=
  let holds := Config.placerHolds v p extent q pd d
  let served := p.layers.zipIdx.map (fun l => (l.1, servedMost v p extent q pd d l.1 l.2))
  let a := nearRows p holds served depth q d m
  let b := farRows p holds d m site
  [{ plainNeed 0x06 (rowTotal a) near with contributors := largestRows a },
   { plainNeed 0x07 (rowTotal b) far with contributors := largestRows b }]

/-! ### Thin mode and tile passes (R52, R56) -/

/-- R52: the placer selects thin mode for a GEMM clause of fewer than 128 rows per weight block whose blocks all fit the 640 KiB of
its stalls, 160 blocks of 4 KiB to a stall. -/
def thinMode (c : Clause) (x : ClausePlan) : Bool :=
  match c.gemm with
  | some g => decide (0 < c.thinBlocks) && decide (0 < g.rows) && decide (g.rows < 128) && decide (c.thinBlocks ≤ 160 * x.stalls)
  | none => false

/-- R56: how often a clause runs over its inputs: its tiles in groups of those that its stalls hold live. -/
def tilePasses (x : ClausePlan) : Nat :=
  let groups := max 1 (x.stalls / max 1 x.splitK)
  (x.tileRows * x.tileCols + groups * x.live - 1) / max 1 (groups * x.live)

/-! ### A physical map (R33, R35, R38 to R45) -/

/-- The roles of a clause in a map. -/
def clauseRoles (m : PhysMap) (c : Nat) : List RolePlace := m.roles.filter (fun r => r.clause = c)

/-- R296: the stage that a clause belongs to, by its first sentence. -/
def clauseStage (p : Program) (starts : List Nat) (c : Nat) : Nat :=
  let t := p.sentences.findIdx (fun x => decide (c ∈ x.clauses))
  (starts.filter (fun x => decide (x ≤ t))).length - 1

/-- R296, R106: a clause of the member's stage has the stall roles of the plan, one stall each; a clause of another has none. -/
def rolesOk (p : Program) (plan : Plan) (stage : Nat) (m : PhysMap) : Bool :=
  plan.clauses.zipIdx.all (fun x =>
    let l := clauseRoles m x.2
    let n := if clauseStage p plan.stages x.2 = stage then x.1.stalls else 0
    decide (l.length = n) && decide ((l.map (·.role)).Nodup) && l.all (fun r => decide (r.role < n)))

/-- R44: a stall belongs to one clause of a sentence. -/
def stallsOk (p : Program) (m : PhysMap) : Bool :=
  p.sentences.all (fun x => decide (((m.roles.filter (fun r => decide (r.clause ∈ x.clauses))).map (·.stall)).Nodup))

/-- R43: the stalls of a clause lie in its home Hall and in at most one ring neighbour of it. -/
def hallsOk (m : PhysMap) : Bool :=
  m.roles.all (fun r =>
    match m.homes.find? (fun h => h.1 = r.clause) with
    | none => false
    | some (_, home) =>
      let halls := ((clauseRoles m r.clause).map (fun x => hallOf x.stall)).eraseDups.filter (fun h => h ≠ home)
      decide (halls.length ≤ 1) && halls.all (fun h => decide (h ≠ home + 2)))

/-- R40, R41: a stream's queue is as long as its round trip asks and at most 1,024 flits, and a multicast stream's consumers, at most
16, lie in one row or one column of a Hall. -/
def streamOk (x : StreamPlace) : Bool :=
  let h := streamHops x.producer x.consumers
  decide (x.hops = h) && decide (16 ≤ x.q) && decide (4 * h + 16 ≤ x.q) && decide (x.q ≤ 1024) &&
  decide (0 < x.consumers.length) && decide (x.consumers.length ≤ 16) && decide (x.consumers.Nodup) && oneLine x.consumers

/-- R38, R46: the streams of the map are those of the program, between stalls of the clauses that produce and consume them. -/
def endsOk (p : Program) (m : PhysMap) (x : StreamPlace) : Bool :=
  let runs := fun (i : Fin 1024) (f : Clause → Bool) =>
    m.roles.any (fun r => decide (r.stall = i) && (p.clauses[r.clause]?).any f)
  decide (p.streams ≤ x.id) ||
    (runs x.producer (fun c => decide (x.id ∈ c.outStreams)) && x.consumers.all (fun i => runs i (fun c => decide (x.id ∈ c.inStreams))))

/-- Whether a region is a resident weight block, or a verb's operand region. -/
def isThin : RegionKind → Bool
  | .thin _ _ => true
  | _ => false
def isVerb : RegionKind → Bool
  | .verb | .activation => true
  | _ => false

/-- R33: the regions of a stall. -/
def stallRegions (m : PhysMap) (i : Nat) : List Region := m.regions.filter (fun r => r.stall.val = i)

/-- R33: two regions that share no byte. -/
def apart (a b : Region) : Bool := decide (a.base + a.bytes ≤ b.base) || decide (b.base + b.bytes ≤ a.base)

/-- No two regions of a list share a byte. -/
def allApart : List Region → Bool
  | [] => true
  | r :: t => t.all (apart r) && allApart t

/-- R33: every region lies within 0x1_0000 to 0xF_FFFF, those of a stall share no byte, and at most 640 KiB of a stall hold resident
weight blocks. -/
def regionsOk (m : PhysMap) : Bool :=
  m.regions.all (fun r => decide (0x10000 ≤ r.base) && decide (r.base + r.bytes ≤ 0x100000)) &&
  ((m.regions.map (fun r => r.stall.val)).eraseDups.all (fun i =>
    allApart (stallRegions m i) &&
    decide (((stallRegions m i).filter (fun r => isThin r.kind)).length ≤ 160)))

/-- R33, R38, R40: each consumer of a stream has a queue region of its Q flits of 64 bytes. -/
def queuesOk (m : PhysMap) : Bool :=
  m.streams.all (fun x => x.consumers.all (fun i => m.regions.any (fun r =>
    decide (r.stall = i) && decide (r.kind = .queue x.id) && decide (64 * x.q ≤ r.bytes))))

/-- R52, R53: a clause in thin mode has each weight block resident once, and another clause has none. -/
def thinOk (p : Program) (plan : Plan) (stage : Nat) (m : PhysMap) : Bool :=
  p.clauses.zipIdx.all (fun c => match plan.clauses[c.2]? with
    | none => true
    | some x =>
      let l := m.regions.filter (fun r => decide (r.clause = c.2) && isThin r.kind)
      let n := if thinMode c.1 x && decide (clauseStage p plan.stages c.2 = stage) then c.1.thinBlocks else 0
      decide (l.length = n) && decide ((l.map (·.kind)).Nodup) && l.all (fun r => decide (r.bytes ≤ 4096)))

/-- R33, R35, R38 to R44, R52, R296: a physical map that the rules give this member under a numeric plan. -/
def mapOk (p : Program) (plan : Plan) (stage : Nat) (m : PhysMap) : Bool :=
  rolesOk p plan stage m && stallsOk p m && hallsOk m && m.streams.all (fun x => streamOk x && endsOk p m x) &&
  regionsOk m && queuesOk m && thinOk p plan stage m

/-! ### The resources of stalls (R308) -/

/-- R43, R308: a clause needs more stalls than its home Hall and one ring neighbour have in service, whichever Hall is its home. -/
def stallNeeds (free : Nat → Nat) (p : Program) (plan : Plan) (stage : Nat) : List Need :=
  let best := ((List.range 4).map (fun h => free h + max (free ((h + 1) % 4)) (free ((h + 3) % 4)))).foldl max 0
  plan.clauses.zipIdx.filterMap (fun x =>
    if clauseStage p plan.stages x.2 = stage ∧ best < x.1.stalls then
      some { plainNeed 0x01 x.1.stalls best with clause := x.2 }
    else none)

/-- R308: what one stall is asked for: contexts, input and output streams, region bytes and cascade entries. -/
def stallUse (p : Program) (plan : Plan) (m : PhysMap) (i : Nat) : List (Nat × Nat × Nat) :=
  let contexts := ((m.roles.filter (fun r => r.stall.val = i)).map (·.clause)).eraseDups
  let entries := contexts.map (fun c => ((plan.clauses[c]?).map (fun x => x.live * cascadeEntries x.blocks)).getD 0)
  let kept := contexts.map (fun c => if ((p.clauses[c]?).bind (·.gemm)).any (fun g => g.gradient.isSome) then
    ((plan.clauses[c]?).map (fun x => x.live * cascadeEntries x.blocks)).getD 0 else 0)
  [(0x02, contexts.length, 8),
   (0x03, max (m.streams.filter (fun x => x.consumers.any (fun q => q.val = i))).length
     (m.streams.filter (fun x => x.producer.val = i)).length, 16),
   (0x04, ((stallRegions m i).map (·.bytes)).foldl (· + ·) 0, 983040),
   (0x05, max (entries.foldl max 0) (kept.foldl (· + ·) 0), 32)]

/-- R308: the resources that the stalls of a map exceed, each code once, with the stall that needs most. -/
def mapNeeds (p : Program) (plan : Plan) (m : PhysMap) : List Need :=
  let stalls := (m.roles.map (fun r => r.stall.val)).eraseDups
  (List.range 4).filterMap (fun k =>
    let uses := stalls.filterMap (fun i => (stallUse p plan m i)[k]?.map (fun u => (i, u)))
    match (sortBy (fun (a b : Nat × Nat × Nat × Nat) => decide (b.2.2.1 ≤ a.2.2.1)) uses).head? with
    | some (i, code, n, limit) =>
      if limit < n then some { plainNeed code n limit with hall := i / 256 } else none
    | none => none)

/-- R189: the clauses of whose weight tensor one section is larger than what the Cellars of their stalls have free. -/
def cellarNeeds (free : Nat → Nat) (p : Program) (m : PhysMap) : List Need :=
  p.clauses.zipIdx.filterMap (fun c =>
    match c.1.gemm.bind (·.weights) with
    | none => none
    | some tid =>
      let room := (((clauseRoles m c.2).map (fun r => r.stall.val)).eraseDups.map free).foldl (· + ·) 0
      let most := (((p.tensors.filter (fun t => t.tid = tid)).flatMap (fun t =>
        (List.range (sectionCount t)).map (storedBytes t))).foldl max 0)
      if clauseRoles m c.2 ≠ [] ∧ room < most then some { plainNeed 0x08 most room with clause := c.2 } else none)

/-! ### Clause notes (R309, R641) -/

/-- R126: the cycles that one group of an opcode occupies the lanes. -/
def issueCycles (op : Nat) : Nat :=
  if op = 0x13 then 4 else if op ∈ [0x10, 0x11, 0x12, 0x14, 0x15] then 2 else 1

/-- R134, R309: the cycles by which a full span of a clause's verb exceeds the engine's cycles of a tile. -/
def verbExcess (p : Program) (c : Clause) (x : ClausePlan) : Nat :=
  match c.verb.bind (fun v => p.verbs[v]?), c.gemm with
  | some h, some _ => (h.instrs.map (fun w => 16 * issueCycles (iwOp w))).foldl (· + ·) 0 - 64 * x.blocks
  | _, _ => 0

/-- R187, R281: the far-tier time of a layer's update in µs, at 2.05 TB/s: the state of the layer's FAR experts is read and written. -/
def farDecayMicros (p : Program) (l : ExpertLayer) : Nat :=
  (l.experts.filter (fun e => !e.1)).length * l.expertParams * paramBytes p / 2050000

/-- R309: the clause notes of a clause of this member. -/
def notesOf (p : Program) (m : PhysMap) (c : Clause) (i : Nat) (x : ClausePlan) : List ClauseNote :=
  let roles := clauseRoles m i
  let hall := ((m.homes.find? (fun h => h.1 = i)).map (fun h => h.2.val)).getD 0xFFFF
  let note := fun (code value : Nat) => ({ code := code, hall := hall, clause := i, stalls := roles.length, value := value } : ClauseNote)
  let thin := (m.regions.filter (fun r => decide (r.clause = i) && isThin r.kind))
  let most := (((roles.map (·.stall)).map (fun s => ((thin.filter (fun r => r.stall = s)).map (·.bytes)).foldl (· + ·) 0)).foldl max 0)
  if roles.isEmpty then []
  else
    (if 0 < verbExcess p c x then [note 1 (verbExcess p c x)] else []) ++
    (if thin ≠ [] then [note 2 most] else []) ++
    (if c.gemm.isSome then [note 3 (tilePasses x), note 4 (x.live * cascadeEntries x.blocks)] else [])

/-- R281, R309: the far-tier time of each expert layer that has update clauses. -/
def farNotes (p : Program) : List ClauseNote :=
  p.layers.filterMap (fun l =>
    if 0 < farDecayMicros p l then
      some { code := 5, hall := 0xFFFF, clause := ((l.updates.head?).map (·.2)).getD 0xFFFFFFFF, stalls := 0, value := farDecayMicros p l }
    else none)

/-- R309: every clause note of a load. -/
def loadNotes (p : Program) (plan : Plan) (m : PhysMap) : List ClauseNote :=
  p.clauses.zipIdx.flatMap (fun c => ((plan.clauses[c.2]?).map (notesOf p m c.1 c.2)).getD []) ++ farNotes p

end Sys2Proof.Machine
end

