-- ==== Sys2Proof/Machine/Load.lean ====
section
/-! DEFINITION. PROGRAM_LOAD and its phases (R283 to R313, R602): check, agreement, the choice of cuts, distribution, local
placement and result, and what a successful load leaves (R252, R305, R426). -/

namespace Sys2Proof.Machine

/-! ### The load in progress (R302) -/

/-- The load in progress, while its command lives. -/
def loadingNow (s : State) : Option Loading :=
  match s.load.loading with
  | some l => if (findCmd s l.cmd).isSome then some l else none
  | none => none

/-- The load in progress replaced. -/
def setLoading (l : Loading) (s : State) : State := s.withLoad { s.load with loading := some l }

/-- R305: a load ends without success; the program loaded before stays. -/
def endLoad (k : CmdRef) (result : Nat) (x : Cause) (s : State) : State :=
  finishWith k result x (s.withLoad { s.load with loading := none })

/-- Records added to a command. -/
def addRecords (k : CmdRef) (bs : List Bytes) (s : State) : State := bs.foldl (fun s b => addRecord k b s) s

/-! ### Check (R284, R308, R602) and the start of agreement -/

/-- R602: a Hall that is not ON. -/
def hallOff (s : State) : Bool := !((List.finRange 4).all (fun h => fnOn s (.hall h)))

/-- R284, R308, R602, R137: the result and the exhausted resources of the check phase; none when it passes. -/
def checkRefusal (s : State) (c : Cmd) (b : Bytes) (p : Program) : Option (Nat × List Need) :=
  if headerBad (bufA c).bytes b p || programBad p then some (rBadDescriptor, [])
  else
    let t := tableNeeds (imageHeader b).bytes p
    if t ≠ [] then some (rRefusedTable, t)
    else
      let off := ((List.finRange 4).filter (fun h => !fnOn s (.hall h))).map (fun h =>
        { plainNeed 0x01 256 0 with hall := h.val })
      let n := off ++ sumRows p
      if n ≠ [] then some (rRefusedFit, n) else none

/-- R302: what this member reports to the lead. -/
def ownReport (s : State) (digest : Bytes) : Nat × Bytes × W32 × W64 :=
  (memberIndex s, digest, (s.slice.sliceId).getD 0, s.slice.board)

/-- R302, R303: the phase that follows once every member has reported. -/
def agreementOver (s : State) (l : Loading) : Bool := decide (memberCount s ≤ l.reports.length)

/-- R302: the check has passed: the lead holds its own report, a member sends its report to the lead. -/
def startLoad (k : CmdRef) (p : Program) (b : Bytes) (s : State) : State :=
  let d := (imageHeader b).digest
  let l : Loading :=
    { cmd := k, prog := p, digest := d, planVersion := planUsed b, limits := (imageHeader b).limits, since := s.awn.tick,
      phase := .agreement, reports := if isLead s then [ownReport s d] else [], plan := none, phys := none, result := none,
      restarted := false }
  let s := setProgress k 2 s
  if isLead s then
    if agreementOver s l then setProgress k 3 (setLoading { l with phase := .placement } s) else setLoading l s
  else emit (.loadReport d ((s.slice.sliceId).getD 0)) (setLoading l s)

/-- R283 to R284, R302, R306: the check phase of a PROGRAM_LOAD that runs (in part DESIGN CHOICE: log 31). -/
def programLoad (k : CmdRef) (p : Program) (s : State) : State :=
  match ready s k 0x20 with
  | none => s
  | some c =>
    if (loadingNow s).isSome then s
    else
      let b := readBuf s (bufA c) 0 (min (bufA c).bytes (leNat (readBuf s (bufA c) 8 8)))
      let s := setProgress k 1 s
      match checkRefusal s c b p with
      | some (r, needs) => endLoad k r { member := memberIndex s } (addRecords k (needs.flatMap (needRecords (memberIndex s))) s)
      | none => startLoad k p b s

/-- PROGRAM_LOAD (R302). -/
def execProgramLoad (k : CmdRef) (p : Program) (s : State) : Result := .next (programLoad k p s)

/-! ### Agreement (R303) -/

/-- R303: the lowest member that differs from the lead, and the field: DIGEST 0x01 or SLICE_ID 0x02. -/
def loadMismatch (lead : Nat × Bytes × W32 × W64) (l : List (Nat × Bytes × W32 × W64)) : Option (Nat × Nat) :=
  let bad := l.filterMap (fun r => if r.2.1 ≠ lead.2.1 then some (r.1, 0x01) else if r.2.2.1 ≠ lead.2.2.1 then some (r.1, 0x02) else none)
  (sortBy (fun a b => decide (a.1 ≤ b.1)) bad).head?

/-- R303: the lead receives a member's digest and slice id. -/
def loadAgreement (m : Nat) (digest : Bytes) (slice : W32) (board : W64) (s : State) : State :=
  match loadingNow s with
  | none => s
  | some l =>
    if !isLead s || decide (l.phase ≠ .agreement) || decide (memberCount s ≤ m) || l.reports.any (fun r => r.1 = m) then s
    else
      let l := { l with reports := l.reports ++ [(m, digest, slice, board)] }
      if agreementOver s l then
        match loadMismatch (ownReport s l.digest) l.reports with
        | some (m, f) =>
          endLoad l.cmd rMismatch { member := m, field := f } (emit (.cmdVerdict l.cmd m (BitVec.ofNat 8 f)) s)
        | none => setProgress l.cmd 3 (setLoading { l with phase := .placement } s)
      else setLoading l s

/-- LOAD_AGREEMENT (R303). -/
def execLoadAgreement (m : Nat) (digest : Bytes) (slice : W32) (board : W64) (s : State) : Result :=
  .next (loadAgreement m digest slice board s)

/-- R302: LOAD_WAIT, 120 s from the lead's own check, in ticks. -/
def loadWaitTicks : Nat := 120000000000

/-- R303: a member has not reported, and every lower one has. -/
def lowestAbsent (l : Loading) (absent : Nat) : Bool :=
  !l.reports.any (fun r => r.1 = absent) && (List.range absent).all (fun m => l.reports.any (fun r => r.1 = m))

/-- R302, R303: at the lead LOAD_WAIT has passed since its own check and a member has not reported: MISMATCH at every member that has,
naming the lowest absent one and IMAGE_ABSENT (0x03) (in part DESIGN CHOICE: log 85). -/
def loadWait (absent : Nat) (s : State) : State :=
  match loadingNow s with
  | none => s
  | some l =>
    if isLead s && decide (l.phase = .agreement) && decide (absent < memberCount s) && lowestAbsent l absent &&
        decide (loadWaitTicks ≤ (s.awn.tick - l.since).toNat) then
      endLoad l.cmd rMismatch { member := absent, field := 0x03 } (emit (.cmdVerdict l.cmd absent 0x03) s)
    else s

/-- LOAD_WAIT (R303). -/
def execLoadWait (absent : Nat) (s : State) : Result := .next (loadWait absent s)

/-! ### The cuts (R293 to R298) -/

/-- R293: the (Q, P, D) that the extent and the image's bounds allow. -/
def cutCandidates (extent : List Nat) (limits : List Nat) : List (Nat × Nat × Nat) :=
  let ax := extent.getD 0 1
  let n := ax * extent.getD 1 1 * extent.getD 2 1
  let l := fun i => limits.getD i 0
  (List.range (ax + 1)).flatMap (fun q =>
    if 0 < q ∧ ax % q = 0 ∧ l 0 ≤ q ∧ q ≤ l 1 then
      (List.range (n / q + 1)).filterMap (fun p =>
        if 0 < p ∧ n / q % p = 0 ∧ l 2 ≤ p ∧ p ≤ l 3 ∧ l 4 ≤ n / (q * p) then some (q, p, n / (q * p)) else none)
    else [])

/-- R228: P_BOUND of a DEFER layer. -/
def passBound (l : ExpertLayer) (tmax : Nat) : Nat :=
  if rtDefer l.desc then
    ((List.range tmax).map (fun t => ceilDiv (t + 1) (max 1 (capacity l.desc (t + 1))))).foldl max 0
  else 1

/-- R308: the limits of R245, R248, R228 and R255 on one layer that a candidate needs for one layer (in part DEDUCED: log 70). -/
def layerNeeds (v : W16) (p : Program) (extent : List Nat) (q pd d : Nat) (l : ExpertLayer) (i : Nat) : List Need :=
  let served := servedMost v p extent q pd d l i
  let tmax := q * tokensMax l
  [plainNeed 0x18 served 64, plainNeed 0x19 (activeBound l q served) 131072,
   plainNeed 0x1B (l.micros * q * l.bound * d) 16777215, plainNeed 0x1E (passBound l tmax) 256]

/-- R245: the PARKED entries of a layer for every micro-batch whose backward is pending. -/
def parkedEntries (v : W16) (p : Program) (extent : List Nat) (q pd d : Nat) (l : ExpertLayer) (i : Nat) : Nat :=
  let tmax := q * tokensMax l
  let c := capacity l.desc tmax
  let slots := if rtDefer l.desc then c * ceilDiv (tmax * rtK l.desc) (max 1 c) else c
  l.pending * (2 * tokensMax l * rtK l.desc + servedMost v p extent q pd d l i * slots)

/-- The needs that exceed what is available. -/
def exceeded (l : List Need) : List Need := l.filter (fun n => decide (n.available < n.required))

/-- R297: the nominal capacities that a candidate exceeds on any member. -/
def nominalNeeds (v : W16) (p : Program) (extent : List Nat) (depth : Nat) (x : Nat × Nat × Nat) : List Need :=
  exceeded ((List.range (dimsElems extent)).flatMap (fun m =>
      footprintNeeds v p extent x.1 x.2.1 x.2.2 depth m nearCapacity farCapacity false) ++
    p.layers.zipIdx.flatMap (fun l => layerNeeds v p extent x.1 x.2.1 x.2.2 l.1 l.2) ++
    [plainNeed 0x1A ((p.layers.zipIdx.map (fun l => parkedEntries v p extent x.1 x.2.1 x.2.2 l.1 l.2)).foldl (· + ·) 0) 67108864])

/-- R297: the order of candidates: the least estimate, then the larger D, the larger Q, the smaller P. -/
def candidateLe (a b : (Nat × Nat × Nat) × Nat) : Bool :=
  decide (a.2 < b.2) || (decide (a.2 = b.2) && (decide (b.1.2.2 < a.1.2.2) || (decide (a.1.2.2 = b.1.2.2) &&
    (decide (b.1.1 < a.1.1) || (decide (a.1.1 = b.1.1) && decide (a.1.2.1 ≤ b.1.2.1))))))

/-- R283: PREFETCH; 0 selects 2. -/
def prefetchOf (limits : List Nat) : Nat := let n := limits.getD 5 0; if n = 0 then 2 else n

/-- R297: the candidate that the placer chooses (in part DEDUCED: log 70). -/
def chooseCut (v : W16) (p : Program) (extent limits : List Nat) : Option ((Nat × Nat × Nat) × Nat) :=
  (sortBy candidateLe (((cutCandidates extent limits).filter (fun x =>
      decide (nominalNeeds v p extent (prefetchOf limits) x = []))).map
    (fun x => (x, (Config.placerEstimate v p extent x.1 x.2.1 x.2.2).toNat)))).head?

/-- R297, R308: the exhausted resources of a load without a candidate: NO_CUT and the limits that caused it, each code once, in
ascending code order (in part DEDUCED: log 70). -/
def noCutNeeds (v : W16) (p : Program) (extent limits : List Nat) : List Need :=
  let all := (cutCandidates extent limits).flatMap (nominalNeeds v p extent (prefetchOf limits))
  let codes := sortNat (0x09 :: all.map (·.code)).eraseDups
  codes.map (fun c => if c = 0x09 then plainNeed 0x09 0 0
    else (sortBy (fun (a b : Need) => decide (a.required ≤ b.required)) (all.filter (fun n => n.code = c))).headD (plainNeed c 0 0))

/-- R48, R96, R106, R296: the numeric plan of a chosen candidate: its cuts, the sentences of each stage, the tensor split of every
clause and the members' shares. -/
def planOf (l : Loading) (extent : List Nat) (x : (Nat × Nat × Nat) × Nat) : Plan :=
  { version := l.planVersion, q := x.1.1, p := x.1.2.1, d := x.1.2.2, prefetch := prefetchOf l.limits,
    stages := stageStarts l.planVersion l.prog extent x.1.1 x.1.2.1 x.1.2.2,
    clauses := l.prog.clauses.mapIdx (fun i c => clausePlan l.planVersion l.prog extent x.1.1 x.1.2.1 x.1.2.2 i c),
    holds := Config.placerHolds l.planVersion l.prog extent x.1.1 x.1.2.1 x.1.2.2,
    estimate := BitVec.ofNat 64 x.2,
    digest := Config.planDigest l.planVersion l.prog extent x.1.1 x.1.2.1 x.1.2.2 }

/-- R297, R302: the lead chooses the cuts and distributes the numeric plan, or refuses with NO_CUT. -/
def slicePlacement (s : State) : State :=
  match loadingNow s with
  | none => s
  | some l =>
    if !isLead s || decide (l.phase ≠ .placement) then s
    else
      let e := extentList s
      let m := memberIndex s
      match chooseCut l.planVersion l.prog e l.limits with
      | none =>
        let recs := summaryOf m l.planVersion (prefetchOf l.limits) none ::
          (noCutNeeds l.planVersion l.prog e l.limits).flatMap (needRecords m)
        let s := emit (.loadResult [(m, BitVec.ofNat 16 rRefusedFit)] 0 0 recs) s
        endLoad l.cmd rRefusedFit { member := m } (addRecords l.cmd recs s)
      | some x =>
        let plan := planOf l e x
        let s := addRecord l.cmd (summaryOf m plan.version plan.prefetch (some plan)) (emit (.plan plan) s)
        setProgress l.cmd 5 (setLoading { l with phase := .localPlacement, plan := some plan } s)

/-- SLICE_PLACEMENT (R297). -/
def execSlicePlacement (s : State) : Result := .next (slicePlacement s)

/-- R302: a member receives the numeric plan and verifies it and its digest against the plan that it derives itself under R106
(in part DEDUCED: log 71). -/
def planDistribution (plan : Plan) (digest : W64) (s : State) : State :=
  match loadingNow s with
  | none => s
  | some l =>
    let own := planOf { l with planVersion := plan.version } (extentList s) ((plan.q, plan.p, plan.d), plan.estimate.toNat)
    if isLead s || decide (l.phase ≠ .agreement) || decide (digest ≠ own.digest) || decide (plan ≠ own) then s
    else
      let s := addRecord l.cmd (summaryOf (memberIndex s) plan.version plan.prefetch (some plan)) s
      setProgress l.cmd 5 (setLoading { l with phase := .localPlacement, plan := some plan } s)

/-- PLAN_DISTRIBUTION (R302). -/
def execPlanDistribution (plan : Plan) (digest : W64) (s : State) : Result := .next (planDistribution plan digest s)

/-! ### Local placement (R189, R190, R298, R302, R307) -/

/-- R313: a stall that placement may use: in service, or restorable and joining now (in part DEDUCED: log 70). -/
def stallPlaceable (s : State) (i : Nat) : Bool :=
  let f := (sget {} s.saf.stalls i).state
  decide (f = .inService) || decide (f = .restorable)

/-- R194: pages and units due to retire at this placement are retired. -/
def retireDue (s : State) : State :=
  let f := fun (h : PageHist) => if h.atNext then { h with retired := true, atNext := false } else h
  s.withMem { s.mem with nearPages := s.mem.nearPages.map (fun p => (p.1, f p.2)), farPages := s.mem.farPages.map (fun p => (p.1, f p.2)) }

/-- R190: the bytes of retired 4 KiB pages or units. -/
def retiredBytes (t : Sparse PageHist) : Nat := 4096 * (t.filter (fun p => p.2.retired)).length

/-- R480: the near-tier bytes of Cellars out of service. -/
def fencedCellarBytes (s : State) : Nat :=
  (536870912 - 8388608) * (s.saf.cellars.filter (fun p => decide (p.2.state = .fenced) || decide (p.2.state = .retired))).length

/-- R294: the stage of this member under a plan. -/
def planStage (s : State) (plan : Plan) : Nat :=
  let ax := max 1 s.slice.extent.1
  let i := memberIndex s
  (i % ax / max 1 plan.q + ax / max 1 plan.q * (i / ax)) % max 1 plan.p

/-- R313: the stalls of a Hall that placement may use. -/
def freeStalls (s : State) (h : Nat) : Nat := ((List.range 256).filter (fun j => stallPlaceable s (256 * h + j))).length

/-- R189, R190: the bytes of a Cellar that its placement may use. -/
def cellarRoom (s : State) (c : Nat) : Nat :=
  if decide ((sget {} s.saf.cellars c).state = .inService) || decide ((sget {} s.saf.cellars c).state = .restorable) then
    536870912 - 8388608 - 4096 * (s.mem.nearPages.filter (fun p => decide (p.1 / 131072 = c) && p.2.retired)).length
  else 0

/-- R308: the resources that this member's share exceeds: its stalls, their contexts, streams, stores and cascades, the tier footprints
against what is left after retirements, and its Cellars; in ascending code order. -/
def fitNeeds (s : State) (l : Loading) (plan : Plan) (m : PhysMap) : List Need :=
  let near := nearCapacity - retiredBytes s.mem.nearPages - fencedCellarBytes s
  let far := farCapacity - retiredBytes s.mem.farPages
  sortBy (fun a b => decide (a.code ≤ b.code))
    (stallNeeds (freeStalls s) l.prog plan (planStage s plan) ++ mapNeeds l.prog plan m ++
     exceeded (footprintNeeds plan.version l.prog (extentList s) plan.q plan.p plan.d plan.prefetch (memberIndex s) near far false) ++
     cellarNeeds (cellarRoom s) l.prog m)

/-- R143: a region of a verb that lies in no region that the map gives the clause on one of its stalls. -/
def verbRegionsBad (p : Program) (m : PhysMap) : Bool :=
  m.roles.any (fun r => match (p.clauses[r.clause]?).bind (fun c => c.verb.bind (fun v => p.verbs[v]?)) with
    | none => false
    | some h => (h.ins ++ h.outs).any (fun o => match o with
        | none => false
        | some w => !sdQueue w && !m.regions.any (fun g => decide (g.stall = r.stall) && decide (g.clause = r.clause) && isVerb g.kind &&
            decide ((g.base : Int) ≤ (regionBytes w).1) && decide ((regionBytes w).2 ≤ (g.base + g.bytes : Nat)))))

/-- R302: a member has its physical map and reports its fit. A map that the rules do not give, or that uses a stall out of service,
is not one of this module; where the stalls themselves do not suffice no map is asked for (in part DEDUCED: log 71). -/
def localPlacement (m : PhysMap) (s : State) : State :=
  match loadingNow s with
  | none => s
  | some l =>
    match l.plan with
    | none => s
    | some plan =>
      let short := decide (stallNeeds (freeStalls s) l.prog plan (planStage s plan) ≠ []) || decide (mapNeeds l.prog plan m ≠ [])
      if decide (l.phase ≠ .localPlacement) || m.roles.any (fun r => !stallPlaceable s r.stall.val) ||
          !(short || mapOk l.prog plan (planStage s plan) m) then s
      else
        let s := retireDue s
        let needs := fitNeeds s l plan m
        let m := { m with digest := Config.mapDigest plan.version { m with digest := 0 } }
        let r := if needs ≠ [] then rRefusedFit else if verbRegionsBad l.prog m then rBadDescriptor else rOK
        let recs := needs.flatMap (needRecords (memberIndex s))
        let s := addRecords l.cmd recs s
        setProgress l.cmd 6 (setLoading { l with phase := .result, phys := some m, result := some (BitVec.ofNat 16 r) }
          (emit (.fitReport (BitVec.ofNat 16 r) recs) s))

/-- LOCAL_PLACEMENT (R302). -/
def execLocalPlacement (m : PhysMap) (s : State) : Result := .next (localPlacement m s)

/-! ### Partners (R426) -/

/-- R426: the boards that the lead has been told, by member. -/
def boardOf (l : Loading) (m : Nat) : W64 := ((l.reports.find? (fun r => r.1 = m)).map (·.2.2.2)).getD 0

/-- R426: the member that covers member i under a shift. -/
def coveredBy (s : State) (shift i : Nat) : Nat :=
  memberAt s (segPos s i) (stageOf s i) ((replicaOf s i + shift) % cutD s)

/-- R426: the order in which shifts are tried. -/
def shiftOrder (d : Nat) : List Nat :=
  let h := (d + 1) / 2
  (List.range d).filter (fun i => decide (h ≤ i)) ++ (List.range d).filter (fun i => decide (0 < i) && decide (i < h))

/-- R426: the shift that puts every member and its partner on different boards; the second part says that none does. -/
def chooseShift (s : State) (l : Loading) : Nat × Bool :=
  match (shiftOrder (cutD s)).find? (fun x => (List.range (memberCount s)).all (fun i =>
      decide (boardOf l i ≠ boardOf l (coveredBy s x i)))) with
  | some x => (x, false)
  | none => ((cutD s + 1) / 2, true)

/-- R426, R427: partner, covered member and shift; none when D is 1 (in part DEDUCED: log 71). -/
def setPartners (shift : Nat) (s : State) : State :=
  let i := memberIndex s
  let secs := committed s
  if cutD s ≤ 1 then
    s.withSnap { s.snap with partner := none, covers := none, shift := 0, slotA := { state := .complete },
                             slotB := { state := .filling }, mirror := [], mirrorRec := none, updating := none, filling := none }
  else
    s.withSnap { s.snap with
      partner := some (coveredBy s shift i), covers := some (coveredBy s (cutD s - shift % cutD s) i), shift := shift,
      slotA := { state := .complete, epoch := s.job.epoch, sections := secs }, slotB := { state := .filling },
      mirror := [], mirrorRec := none, updating := none, filling := none }

/-! ### A successful load (R252, R305, R313) -/

/-- R305: a tensor's sections, all zero (in part DEDUCED: log 71). -/
def zeroSections (epoch : W48) (t : TensorDecl) : List Section :=
  (List.range (sectionCount t)).map (fun i =>
    let d := sectionDesc t i epoch
    let content := List.replicate (packedBytes t.fmt d.elems) 0
    let scales := if t.mx then List.replicate (scaleCount (rowLen t.dims) d.base d.elems) 0 else []
    { desc := d, content := content, scales := scales, record := {}, sealWord := sealOf d content scales {} })

/-- R305: the new program's tensors hold zero. -/
def freshTensors (p : Program) (s : State) : State :=
  let put := fun (f : TensorDecl → Bool) =>
    ((p.tensors.filter f).flatMap (zeroSections s.job.epoch)).foldl putSection []
  s.withTens { s.tens with bufA := put (fun t => isState t.role), bufB := put (fun t => isState t.role),
                           plain := put (fun t => !isState t.role), writes := [], reading := [] }

/-- R252, R295: the directory at load. -/
def freshDirectory (p : Program) (plan : Plan) (extent : List Nat) : List DirEntry :=
  p.layers.zipIdx.flatMap (fun l =>
    let e := rtE l.1.desc
    let g := spreadOf plan.version p extent plan.q plan.p plan.d l.1 l.2
    (List.range e).map (fun x =>
      let near := ((l.1.experts[x]?).map (·.1)).getD false
      { layer := rtLayer l.1.desc, expert := x, home := x * g / max 1 e * (plan.q / g), state := if near then .near else .far,
        hot := false, loadedNear := near, ewma := ((l.1.experts[x]?).map (·.2)).getD 0, lastVisit := 0, replicas := [] }))

/-- R313, R482: restorable stalls and Cellars join placement. -/
def rejoin (s : State) : State :=
  let f := fun (t : Sparse Fence) => t.map (fun p => if p.2.state = .restorable then (p.1, { p.2 with state := .inService }) else p)
  let keep := fun (t : Sparse Fence) => (f t).filter (fun p => decide (p.2 ≠ {}))
  s.withSaf { s.saf with stalls := keep s.saf.stalls, cellars := keep s.saf.cellars }

/-- R252, R302, R305, R426, R565: the load succeeds (in part DEDUCED: log 71). -/
def finishLoad (l : Loading) (plan : Plan) (m : PhysMap) (shift : Nat) (s : State) : State :=
  let s := s.withLoad { prog := some l.prog, digest := l.digest, plan := some plan, phys := some m, loading := none }
  let s := freshTensors l.prog (placeStalls m (rejoin s))
  let s := s.withLedger { dir := freshDirectory l.prog plan (extentList s) }
  let s := s.withHouse { totals := s.house.totals, residueRetries := s.house.residueRetries,
                         addersFenced := s.house.addersFenced, mismatches := s.house.mismatches }
  let (shift, same) := if isLead s then chooseShift s l else (shift, false)
  let s := setPartners shift s
  let s := if isLead s then armComparator s else s
  let s := s.withJob { s.job with
    shuffles := s.job.shuffles, params := [], summaries := [], partials := [], collResults := [], norm := none, decided := [], verbRuns := [] }
  let s := s.withStep { s.step with rings := [] }
  let s := extend 6 l.digest s
  let s := logEvent 0x800 0 .none (natLe 2 plan.version.toNat ++ natLe 8 plan.digest.toNat ++ natLe 8 m.digest.toNat ++
    natLe 1 (if same && decide (1 < plan.d) then 1 else 0)) s
  let s := s.withMbx { s.mbx with job := .loaded }
  finish l.cmd rOK (addRecords l.cmd ((loadNotes l.prog plan m).map (noteRecord (memberIndex s))) (fillThin s))

/-- R303, R304: the lowest refusing member and its result (in part DEDUCED: log 36). -/
def lowestRefusal (results : List (Nat × W16)) : Option (Nat × Nat) :=
  ((sortBy (fun a b => decide (a.1 ≤ b.1)) (results.filter (fun r => decide (r.2 ≠ 0)))).head?).map (fun r => (r.1, r.2.toNat))

/-- R304: every member has reported: the load completes with OK, or with the result and the records of the lowest refusing
member. -/
def loadResult (results : List (Nat × W16)) (f shift : Nat) (records : List Bytes) (s : State) : State :=
  match loadingNow s with
  | none => s
  | some l =>
    match lowestRefusal results with
    | some (m, r) =>
      let s := if m = memberIndex s then s else addRecords l.cmd records s
      endLoad l.cmd r { member := m, field := f } s
    | none =>
      match l.phase, l.plan, l.phys with
      | .result, some plan, some map =>
        if l.result = some 0 ∧ results.length = memberCount s then finishLoad l plan map shift s else s
      | _, _, _ => s

/-- LOAD_RESULT (R304). -/
def execLoadResult (results : List (Nat × W16)) (f shift : Nat) (records : List Bytes) (s : State) : Result :=
  .next (loadResult results f shift records s)

end Sys2Proof.Machine
end

