-- ==== Sys2Proof/Machine/Barter.lean ====
section
/-! DEFINITION. The Barter unit (R390 to R425, R576 to R581): SITE_JOIN and SITE_LEAVE, session set-up and key epochs,
the frames it receives, late joiners and excluded sites. -/

namespace Sys2Proof.Machine

/-! ### Set-up frames (R408, R576) -/

/-- R576: octets 0 to 4,655 of a set-up payload. -/
def setupBytes (p : SessionPayload) : Bytes :=
  p.nonce ++ p.digest ++ natBe 2 p.planVersion.toNat ++ p.extent.flatMap (natBe 2) ++ p.identityPk ++ p.certificate ++ p.kem

/-- R578: a whole set-up frame. -/
def setupFrame (ftype : Nat) (h : FrameHeader) (p : SessionPayload) : Bytes :=
  barterHeader ftype h ++ setupBytes p ++ p.signature

/-- R576: the message that a set-up frame signs; `init` is the SESSION_INIT frame that an accept answers. -/
def setupMessage (ftype : Nat) (h : FrameHeader) (p : SessionPayload) (init : Bytes) : Bytes :=
  barterHeader ftype h ++ setupBytes p ++ (if ftype = 13 then hash32 init else [])

/-- R391: ID_HASH of a site. -/
def idHashOf (s : State) (site : Nat) : Bytes :=
  match s.site.desc with
  | some d => (d.entries.map (·.idHash)).getD site []
  | none => []

/-- R576, R577: the module's own certificate of membership in its site's identity root
(in part DESIGN CHOICE: log 72). -/
def ownCertificate (s : State) : Option Bytes :=
  s.sec.memberships.find? (fun b => decide (hash32 (certIssuer b) = idHashOf s (ownSite s)))

/-- R568, R577: session set-up that fails ends SITE_JOIN (in part DEDUCED: log 82). -/
def failJoin (result : Nat) (x : Cause) (s : State) : State :=
  match s.site.joining with
  | none => s
  | some k => finishWith k result x (s.withSite { totals := s.site.totals })

/-- R410, R418: a session before its set-up (in part DESIGN CHOICE: log 23) (in part DESIGN CHOICE: log 72). -/
def newSession (d : SiteDesc) (site shard : Nat) (id : W32) : Session :=
  { site := site, shard := shard, id := id, opened := false, replaces := false, initFrame := [], setup := none, kemKey := [],
    cipher := [], secret := [], km := [], epoch := 0, txKeys := [], rxKeys := [], txSeq := 0, txPrev := 0, since := 0,
    keyWaiting := false, rx := [], rxEpoch := 0, rxSince := 0, grants := 0, peerIf := interfaceId shard, sentAt := 0,
    routes := List.replicate ((d.entries.map (·.routes)).getD site 1) {} }

/-- R580: a session takes the place of an earlier one for the same site and shard, whose keys are erased. -/
def putSession (x : Session) (s : State) : State :=
  let old := s.site.sessions.any (fun y => decide (y.site = x.site) && decide (y.shard = x.shard) && y.opened)
  let rest := s.site.sessions.filter (fun y => !(decide (y.site = x.site) && decide (y.shard = x.shard)))
  s.withSite { s.site with sessions := rest ++ [{ x with replaces := old }] }

/-- R576: the payload of a set-up frame before its signature; the nonce is a free value. -/
def setupPayload (cert kem : Bytes) (s : State) : SessionPayload × State :=
  let (nonce, s) := takeFree 256 s
  ({ nonce := natLe 32 nonce.toNat, digest := s.load.digest, planVersion := (s.load.plan.map (·.version)).getD 0,
     extent := extentList s, identityPk := Config.idkPublic, certificate := cert, kem := kem, signature := [] }, s)

/-- R408: a set-up frame's header: EPOCH 0 and SEQ 0, on route 0 (in part DESIGN CHOICE: log 72). -/
def setupHeader (s : State) (x : Session) (ftype : Nat) (p : SessionPayload) : FrameHeader :=
  headerOf s x 0 0 { ftype := ftype, round := s.site.round, route := some 0, body := .setup p }

/-- R577: the own set-up frame of a session leaves (in part DESIGN CHOICE: log 72). -/
def emitSetup (x : Session) (s : State) : State :=
  match x.setup with
  | none => s
  | some (ftype, h, p) =>
    emit (.frame x.site ftype (wireOf s x h.route) h (.setup p)) (siteCount x.site (fun t => { t with framesSent := add48 t.framesSent 1 }) s)

/-! ### Keys (R578) -/

/-- R578: the key of a direction: from the lower site index or from the higher. -/
def directionKey (km : Bytes) (lower : Bool) : Bytes := Config.shake256 (km ++ [if lower then 1 else 2]) 32

/-- R412, R578, R579: the next epoch is agreed: km[n + 1] replaces km[n], and its two keys are held. -/
def deriveNext (own : Nat) (ss : Bytes) (x : Session) : Session :=
  let n := agreedEpoch x + 1
  let km := Config.shake256 (x.km ++ ss ++ natBe 4 n) 32
  let lower := decide (own < x.site)
  { x with km := km, kemKey := [], txKeys := x.txKeys ++ [(n, directionKey km lower)],
           rxKeys := x.rxKeys ++ [(n, directionKey km (!lower))] }

/-- R390: the sites active at the job's first round. -/
def activeAtStart (d : SiteDesc) : List Nat := (d.entries.zipIdx.filter (fun e => e.1.active)).map (·.2)

/-- R393, R396, R421: this site joins late. -/
def lateJoiner (d : SiteDesc) : Bool := decide (d.own ∉ activeAtStart d)

/-- R524: the peer sessions of this module's shard that are open. -/
def sessionsOpen (s : State) : Nat :=
  (s.site.sessions.filter (fun x => x.opened && decide (x.shard = memberIndex s))).length

/-- R394, R421, R524: a session has opened: SITE_JOIN completes once every active peer has one; a late joiner's lead then
asks the donor (in part DEDUCED: log 79). -/
def joinCheck (s : State) : State :=
  match s.site.joining, s.site.desc with
  | some k, some d =>
    let s := setProgress k (sessionsOpen s) s
    let peers := (activeAtStart d).filter (fun i => decide (i ≠ d.own))
    if !(peers.all (fun i => ((findSession s i).map (·.opened)).getD false)) then s
    else if !lateJoiner d then finishJoin s
    else
      match (d.entries.zipIdx.find? (fun e => e.1.donor)).map (·.2) with
      | some donor =>
        if isLead s then sendFrame donor (memberIndex s) { ftype := 7, round := s.site.round, body := .joinReq } s else s
      | none => s
  | _, _ => s

/-- R578, R412, R406, R581: set-up is complete: the keys of epoch 1 come into use, the free inbound slots are granted and
the session is recorded (in part DESIGN CHOICE: log 23) (in part DEDUCED: log 82). -/
def openSession (x : Session) (ss th : Bytes) (s : State) : State :=
  let km := Config.shake256 (ss ++ th) 32
  let lower := decide (ownSite s < x.site)
  let now := s.awn.tick
  let peerIf := x.peerIf
  let s := updSess x.site x.shard (fun x => { x with
    opened := true, peerIf := peerIf, km := km, epoch := 1, txKeys := [(1, directionKey km lower)], rxKeys := [(1, directionKey km (!lower))],
    since := now, rxEpoch := 1, rxSince := now, kemKey := [], cipher := [], secret := [],
    routes := x.routes.map (fun r => { r with echoAt := now }) }) s
  let s := logSecurity 10 (natLe 1 x.site ++ natLe 2 x.shard ++ natLe 4 x.id.toNat ++ [if x.replaces then 0 else 1]) s
  let s := startKeyNext x.site x.shard s
  let used := (s.site.inbound.filter (fun i => decide (i.site = x.site) && decide (i.shard = x.shard) && !i.state)).length
  let s := grantSlots x.site x.shard ((s.site.desc.map (·.inbound)).getD 0 - used) s
  let s := if x.site ∈ activePeers s then joinCheck s else s
  sendWaiting x.site s.site.outbound.length s

/-! ### Signatures of set-up frames (R566, R577) -/

/-- R566, R577: SESSION_INIT is signed with a fresh leaf and leaves. The spec does not say who chooses the session id: it
is the initiator's free value (in part DESIGN CHOICE: log 72). -/
def signInit (site shard : Nat) (s : State) : State :=
  match s.site.desc, ownCertificate s with
  | some d, some cert =>
    let (leaf, s) := useLeaf s
    let (id, s) := takeFree 32 s
    let keys := Config.kemKeys s.sec.kemUsed
    let s := s.withSec { s.sec with kemUsed := s.sec.kemUsed + 1 }
    let (p, s) := setupPayload cert keys.1 s
    let x := { newSession d site shard id with kemKey := keys.2 }
    let h := setupHeader s x 12 p
    let p := { p with signature := Config.sign leaf (setupMessage 12 h p []) }
    let x := { x with setup := some (12, h, p), initFrame := setupFrame 12 h p, sentAt := s.awn.tick }
    emitSetup x (putSession x s)
  | _, _ => s

/-- R566, R576, R578: SESSION_ACCEPT is signed and leaves, and the session opens at this end. -/
def signAccept (site shard : Nat) (s : State) : State :=
  match findSess s site shard, ownCertificate s with
  | some x, some cert =>
    if x.opened || decide (x.cipher = []) then s
    else
      let (leaf, s) := useLeaf s
      let (p, s) := setupPayload cert x.cipher s
      let h := setupHeader s x 13 p
      let p := { p with signature := Config.sign leaf (setupMessage 13 h p x.initFrame) }
      let s := updSess site shard (fun x => { x with setup := some (13, h, p) }) s
      openSession x x.secret (Config.shake256 (x.initFrame ++ setupFrame 13 h p) 32)
        (emitSetup { x with setup := some (13, h, p) } s)
  | _, _ => s

/-- R566, R568: Clerk pair 1 signs the next message; a Clerk with both pairs fenced does not run. -/
def signature (s : State) : State :=
  match s.sec.signQueue with
  | [] => s
  | r :: t =>
    if s.sec.cacheOk = false ∨ s.saf.clerkFenced = 3 then s
    else
      let s := s.withSec { s.sec with signQueue := t }
      match r with
      | .attest k => finishAttest k s
      | .sessionInit site shard =>
        if leafCount ≤ s.sec.nextLeaf then failJoin rAuthFail {} s else signInit site shard s
      | .sessionAccept site shard =>
        if leafCount ≤ s.sec.nextLeaf then failJoin rAuthFail {} s else signAccept site shard s

/-- SIGNATURE (R566). -/
def execSignature (s : State) : Result := .next (signature s)

/-! ### SITE_JOIN (R390 to R394) -/

/-- A field with its default. -/
def orElse (v dflt : Nat) : Nat := if v = 0 then dflt else v

/-- R391: entry i of a descriptor's bytes. -/
def siteEntry (b : Bytes) (i : Nat) : SiteEntry :=
  let e := b.drop (64 + 128 * i)
  { prefixA := e.take 8, prefixB := (e.drop 8).take 8, routes := field e 16 1, active := decide (field e 17 1 % 2 = 1),
    donor := decide (field e 17 1 / 2 % 2 = 1), flow := (List.range 4).map (fun j => field e (20 + 4 * j) 4 % 2 ^ 20),
    idHash := (e.drop 36).take 32 }

/-- R390: a descriptor's bytes with the defaults applied. -/
def siteDesc (b : Bytes) : SiteDesc :=
  { sites := field b 0 2, own := field b 2 1, s := orElse (field b 3 1) 2, h := field b 4 2, k := orElse (field b 6 1) 32,
    m := orElse (field b 7 1) 16, inbound := orElse (field b 8 1) 1, mxSpec := decide (field b 9 1 = 1),
    mu := BitVec.ofNat 32 (field b 12 4), eta := BitVec.ofNat 32 (field b 16 4), skewMargin := orElse (field b 20 4) 2000,
    skewMax := orElse (field b 24 4) 50000, siteWait := orElse (field b 28 4) 3600, rate := field b 32 4,
    udpPort := field b 36 2, entries := (List.range (field b 0 2)).map (siteEntry b), digest := hash32 b }

/-- R393: an entry's fields or reserved bits are refused. -/
def entryBad (b : Bytes) (i : Nat) : Bool :=
  let e := b.drop (64 + 128 * i)
  let x := siteEntry b i
  decide (x.routes < 1) || decide (4 < x.routes) || decide (4 ≤ field e 17 1) || !zeroRange e 18 2 ||
  (List.range 4).any (fun j => decide (2 ^ 20 ≤ field e (20 + 4 * j) 4)) || !zeroRange e 68 60 ||
  decide ((x.flow.take x.routes).eraseDups ≠ x.flow.take x.routes)

/-- R390, R393: a descriptor that SITE_JOIN refuses (in part DEDUCED: log 15). -/
def siteDescBad (b : Bytes) : Bool :=
  let d := siteDesc b
  decide (b.length < 64) || decide (d.sites < 2) || decide (16 < d.sites) || decide (b.length < 64 + 128 * d.sites) ||
  decide (d.sites ≤ d.own) || decide (8 < d.s) || decide (d.h = 0) || decide (32 < d.k) || decide (16 < d.m) ||
  decide (d.s + 1 < d.inbound) || decide (1 < field b 9 1) || !zeroRange b 10 2 || !zeroRange b 38 26 ||
  !(decide (d.mu.toNat < 0x3F800000) || decide (d.mu = 0x80000000)) ||
  !(decide (0 < d.eta.toNat) && decide (d.eta.toNat < 0x7F800000)) || decide (d.udpPort = 0) ||
  (List.range d.sites).any (entryBad b) || decide (1 < (d.entries.filter (·.donor)).length) ||
  ((d.entries.map (·.donor)).getD d.own false)

/-- R397: the bytes of a contribution of p parameters. -/
def contributionBytes (p : Nat) : Nat := packedBytes .e2m1 p + (p + 31) / 32

/-- R183, R393: the far-tier bytes that site mode needs against what the program leaves. -/
def siteFit (d : SiteDesc) (s : State) : Need :=
  let p := (roleCodes s (committed s) .param).length
  let used := match s.load.prog, s.load.plan with
    | some g, some n => rowTotal (farRows g n.holds n.d (memberIndex s) true)
    | _, _ => 0
  plainNeed 0x07 ((d.s + 2 + d.inbound * (d.sites - 1)) * contributionBytes p)
    (farCapacity - retiredBytes s.mem.farPages - used)

/-- R393, R394, R398: SITE_JOIN: the descriptor is checked, the outer-loop state begins and session set-up starts towards
the peers of a higher index (in part DEDUCED: log 82). -/
def siteJoin (k : CmdRef) (s : State) : State :=
  match ready s k 0x90 with
  | none => s
  | some c =>
    if agreedHere s c = false ∨ s.site.joining.isSome then s
    else
      let b := readBuf s (bufA c) 0 (bufA c).bytes
      let d := siteDesc b
      if siteDescBad b then finish k rBadDescriptor s
      else if s.load.prog.isNone then finish k rNotLoaded s
      else
        let n := siteFit d s
        if n.available < n.required then
          finish k rRefusedFit (addRecords k (needRecords (memberIndex s) n) s)
        else
          let anchor := (roleCodes s (committed s) .param).map (BitVec.ofNat 16)
          let zeros := List.replicate anchor.length (0 : W16)
          let s := s.withSite { totals := s.site.totals, desc := some d, joining := some k, joinAt := s.awn.tick, anchor := anchor,
                                momentum := zeros, residual := zeros, active := (activeAtStart d).map (fun i => (i, 0)) }
          let up := (peerSites s).filter (fun i => decide (d.own < i))
          joinCheck (s.withSec { s.sec with
            signQueue := s.sec.signQueue ++ up.map (fun i => SignReq.sessionInit i (memberIndex s)) })

/-- SITE_JOIN (R393). -/
def execSiteJoin (k : CmdRef) (s : State) : Result := .next (siteJoin k s)

/-! ### Session set-up (R577) -/

/-- R408, R424: a frame of a peer site for this module's shard or for one it has taken over, at a Barter unit that runs
(in part DEDUCED: log 76). -/
def siteFrame (h : FrameHeader) (s : State) : Bool :=
  match s.site.desc with
  | none => false
  | some d =>
    fnOn s .barter && decide (h.version = 1) && !h.fragment && decide (h.site < d.sites) && decide (h.site ≠ d.own) &&
    (decide (h.shard.toNat = memberIndex s) ||
      s.step.taken.any (fun t => decide (t.1 = h.shard.toNat) && decide (t.2 = memberIndex s)))

/-- R577: the first check that a set-up frame fails, numbered from 0. -/
def setupCheck (s : State) (ftype : Nat) (h : FrameHeader) (p : SessionPayload) (init : Bytes) : Option Nat :=
  if !certValid s.awn.rtc p.certificate then some 0
  else if hash32 (certIssuer p.certificate) ≠ idHashOf s h.site then some 1
  else if certSubject p.certificate ≠ hash32 p.identityPk then some 2
  else if !Config.verify p.identityPk (setupMessage ftype h p init) p.signature then some 3
  else none

/-- R394, R515: the first field in which a peer differs. -/
def setupDiff (s : State) (p : SessionPayload) : Option Nat :=
  if p.digest ≠ s.load.digest then some 0x01
  else if some p.planVersion ≠ s.load.plan.map (·.version) then some 0x1A
  else if p.extent ≠ extentList s then some 0x1B
  else none

/-- R577, R581: a set-up frame that fails a check is discarded, counted and recorded. -/
def rejectSetup (site check : Nat) (s : State) : State :=
  logSecurity 11 (natLe 1 site ++ natLe 1 check) (siteCount site (fun t => { t with authFails := add48 t.authFails 1 }) s)

/-- R577, R394: a set-up frame judged; `good` goes on when it passes. -/
def judgeSetup (ftype : Nat) (h : FrameHeader) (p : SessionPayload) (init : Bytes) (good : State → State) (s : State) : State :=
  match setupCheck s ftype h p init with
  | some c => rejectSetup h.site c s
  | none =>
    match setupDiff s p with
    | some f => failJoin rMismatch { member := memberIndex s, field := f } s
    | none => good s

/-- R577, R580: SESSION_INIT is authenticated: its session replaces an earlier one and its answer waits for a signature.
A repeat of the frame is answered with the same SESSION_ACCEPT. -/
def sessionInit (h : FrameHeader) (p : SessionPayload) (s : State) : State :=
  match s.site.desc with
  | none => s
  | some d =>
    let shard := h.shard.toNat
    let frame := setupFrame 12 h p
    if !siteFrame h s || decide (ownSite s < h.site) then s
    else
      match (findSess s h.site shard).filter (fun x => x.initFrame = frame) with
      | some x => emitSetup x s
      | none =>
        judgeSetup 12 h p [] (fun s =>
          let enc := Config.kemEncap p.kem s.sec.kemUsed
          let x := { newSession d h.site shard h.session with initFrame := frame, cipher := enc.1, secret := enc.2,
                                                                peerIf := h.source.drop 8 }
          let s := putSession x s
          s.withSec { s.sec with
            kemUsed := s.sec.kemUsed + 1, signQueue := s.sec.signQueue ++ [.sessionAccept h.site shard] }) s

/-- SESSION_INIT (R577). -/
def execSessionInit (h : FrameHeader) (p : SessionPayload) (s : State) : Result := .next (sessionInit h p s)

/-- R577 to R579: SESSION_ACCEPT is authenticated and the session opens. -/
def sessionAccept (h : FrameHeader) (p : SessionPayload) (s : State) : State :=
  match findSess s h.site h.shard.toNat with
  | none => s
  | some x =>
    if !siteFrame h s || x.opened || decide (x.kemKey = []) || decide (x.id ≠ h.session) then s
    else
      judgeSetup 13 h p x.initFrame (fun s =>
        openSession { x with peerIf := h.source.drop 8 } (Config.kemDecap x.kemKey p.kem) (Config.shake256 (x.initFrame ++ setupFrame 13 h p) 32) s) s

/-- SESSION_ACCEPT (R578). -/
def execSessionAccept (h : FrameHeader) (p : SessionPayload) (s : State) : Result := .next (sessionAccept h p s)

/-- R577: the frames of SESSION_INITs to a site that stay unanswered for 1 s leave again. -/
def resendInit (site : Nat) (s : State) : State :=
  (s.site.sessions.filter (fun x => decide (x.site = site) && !x.opened && decide (x.kemKey ≠ []) &&
      decide (1000000000 ≤ (s.awn.tick - x.sentAt).toNat))).foldl
    (fun s x => emitSetup x (updSess x.site x.shard (fun x => { x with sentAt := s.awn.tick }) s)) s

/-- SESSION_INIT_RESEND (R577). -/
def execSessionInitResend (site : Nat) (s : State) : Result := .next (resendInit site s)

/-- R577: no session with an active peer site within 60 s: SITE_JOIN ends with AUTH_FAIL. -/
def setupTimeout (site : Nat) (s : State) : State :=
  if 60000000000 ≤ (s.awn.tick - s.site.joinAt).toNat ∧ site ∈ activePeers s ∧ ((findSession s site).map (·.opened)).getD false = false then failJoin rAuthFail {} s else s

/-- SESSION_SETUP_TIMEOUT (R577). -/
def execSessionSetupTimeout (site : Nat) (s : State) : Result := .next (setupTimeout site s)

/-! ### Authenticated frames (R407, R410, R411, R414) -/

/-- R411: a SEQ has been seen or lies below the map of the last 4,096. -/
def replayed (x : Session) (epoch seq : Nat) : Bool :=
  match x.rx.find? (fun r => r.1 = epoch) with
  | none => false
  | some (_, top, seen) => decide (seq + 4096 ≤ top) || decide (seq ∈ seen)

/-- R411: a SEQ is noted. -/
def noteSeq (epoch seq : Nat) (x : Session) : Session :=
  let old := ((x.rx.find? (fun r => r.1 = epoch)).map (·.2)).getD (0, [])
  let top := max old.1 seq
  { x with rx := x.rx.filter (fun r => r.1 ≠ epoch) ++ [(epoch, top, (seq :: old.2).filter (fun q => decide (top < q + 4096)))] }

/-- R414: the first frame under a newer epoch starts the window in which the earlier key is kept. -/
def noteEpoch (epoch : Nat) (now : W64) (x : Session) : Session :=
  if x.rxEpoch < epoch then { x with rxEpoch := epoch, rxSince := now } else x

/-- R10, R414: a receiver holds an epoch's key: the newest, or an earlier one within the 2 s grace period. -/
def holdsKey (now : W64) (e : Nat) (x : Session) : Bool :=
  x.rxKeys.any (fun k => k.1 = e) && (decide (x.rxEpoch ≤ e) || decide ((now - x.rxSince).toNat < 2000000000))

/-- R410: the tag of a frame passes under the key of its epoch. -/
def tagPasses (s : State) (ftype : Nat) (h : FrameHeader) (body : FrameBody) : Bool :=
  match findSess s h.site h.shard.toNat with
  | some x => x.rxKeys.any (fun k => decide (k.1 = h.epoch.toNat) && decide (h.tag = frameTag k.2 ftype h body))
  | none => false

/-- R407, R410, R411, R414: a frame is authenticated, or discarded and counted; `ok` says that its tag passes (in part DEDUCED: log 76). -/
def authAs (ok : Bool) (h : FrameHeader) (s : State) : Option Session × State :=
  match findSess s h.site h.shard.toNat with
  | none => (none, s)
  | some x =>
    let e := h.epoch.toNat
    if !siteFrame h s || !x.opened || decide (x.id ≠ h.session) then (none, s)
    else if !holdsKey s.awn.tick e x then
      (none, siteCount h.site (fun t => { t with epochDiscards := add48 t.epochDiscards 1 }) s)
    else if !ok then (none, siteCount h.site (fun t => { t with authFails := add48 t.authFails 1 }) s)
    else if replayed x e h.seq.toNat then
      (none, siteCount h.site (fun t => { t with replayedFrames := add48 t.replayedFrames 1 }) s)
    else
      let f := fun x => { noteEpoch e s.awn.tick (noteSeq e h.seq.toNat x) with peerIf := h.source.drop 8 }
      (some (f x), updSess h.site h.shard.toNat f s)

/-- R407, R410, R411, R414: a frame of a type with its payload is authenticated, or discarded and counted
(in part DEDUCED: log 76). -/
def authFrame (ftype : Nat) (h : FrameHeader) (body : FrameBody) (s : State) : Option Session × State :=
  authAs (tagPasses s ftype h body) h s

/-- An authenticated frame's effect. -/
def onFrame (ftype : Nat) (h : FrameHeader) (body : FrameBody) (f : Session → State → State) (s : State) : State :=
  match authFrame ftype h body s with
  | (some x, s) => f x s
  | (none, s) => s

/-- R408 FLAGS STATE. -/
def stateFlag (h : FrameHeader) : Bool := h.flags.getLsbD 1

/-! ### Inbound contributions (R401, R405, R415 to R419) -/

/-- The inbound contribution of a site, shard, round and kind. -/
def isInbound (site shard round : Nat) (st : Bool) (i : Inbound) : Bool :=
  decide (i.site = site) && decide (i.shard = shard) && decide (i.round = round) && decide (i.state = st)

/-- The inbound contribution that a frame belongs to. -/
def findInbound (h : FrameHeader) (s : State) : Option Inbound :=
  s.site.inbound.find? (isInbound h.site h.shard.toNat h.round.toNat (stateFlag h))

/-- An inbound contribution replaced. -/
def setInbound (x : Inbound) (s : State) : State :=
  s.withSite { s.site with
    inbound := s.site.inbound.map (fun i => if isInbound x.site x.shard x.round x.state i then x else i) }

/-- R401, R405, R421: a frame's contribution has its slot, or takes a free one. One that is applied or dropped takes none,
and a state transfer is taken by a late joiner alone (in part DEDUCED: log 80). -/
def openInbound (h : FrameHeader) (s : State) : State :=
  let pair : SiteRound := { site := h.site, round := h.round.toNat }
  let mine := s.site.inbound.filter (fun i => decide (i.site = h.site) && decide (i.shard = h.shard.toNat) && !i.state)
  let takes := match s.site.desc with
    | none => false
    | some d =>
      if stateFlag h then lateJoiner d && s.site.joining.isSome
      else decide (mine.length < d.inbound) && decide (pair ∉ s.site.applied) && decide (pair ∉ s.site.dropped)
  if (findInbound h s).isSome || !takes then s
  else
    let x : Inbound := { site := h.site, shard := h.shard.toNat, round := h.round.toNat, state := stateFlag h }
    s.withSite { s.site with inbound := s.site.inbound ++ [x] }

/-- R409: ascending groups as ranges (in part DESIGN CHOICE: log 74). -/
def rangesOf : List Nat → List (Nat × Nat)
  | [] => []
  | g :: t =>
    match rangesOf t with
    | (a, b) :: r => if a = g + 1 then (g, b) :: r else (g, g) :: (a, b) :: r
    | [] => [(g, g)]

/-- R409, R420: an ACK of the decoded groups of a contribution, with the echoes of the session's routes
(in part DESIGN CHOICE: log 74). -/
def sendAckFrame (i : Inbound) (s : State) : State :=
  match findSess s i.site i.shard with
  | none => s
  | some x =>
    let echoes := x.routes.zipIdx.filterMap (fun r => r.1.lastTx.map (fun t => (r.2, t.1, s.awn.tick - t.2)))
    let a : AckPayload :=
      { round := BitVec.ofNat 48 i.round, groups := rangesOf (sortNat i.decoded), echoes := echoes, grants := 0 }
    sendFrame i.site i.shard { ftype := 3, round := i.round, state := i.state, body := .ack a } s

/-- R409: the map of the packets held of a group. -/
def heldMap (i : Inbound) (g : Nat) : BitVec 48 :=
  (i.packets.filter (fun q => q.1 = g)).foldl (fun m q => m ||| (1 : BitVec 48) <<< q.2.1) 0

/-- R419: REPAIR for a group, whose tick is kept. -/
def sendRepair (i : Inbound) (g : Nat) (s : State) : State :=
  let s := s.withSite { s.site with
    inbound := s.site.inbound.map (fun x => if isInbound i.site i.shard i.round i.state x then
      { x with repaired := x.repaired.filter (fun r => r.1 ≠ g) ++ [(g, s.awn.tick)] } else x) }
  let s := siteCount i.site (fun t => { t with repairsSent := add48 t.repairsSent 1 }) s
  sendFrame i.site i.shard { ftype := 4, round := i.round, group := g, state := i.state, body := .repair (heldMap i g) } s

/-- R419: the largest smoothed round trip of a session's routes, in ns. -/
def largestTrip (s : State) (site shard : Nat) : Int :=
  match findSess s site shard with
  | some x => (x.routes.map (·.rtt)).foldl max 0
  | none => 0

/-- R419: a group is due for REPAIR: none has left for it, or the largest round trip has passed since. -/
def repairDue (s : State) (i : Inbound) (g : Nat) : Bool :=
  match i.repaired.find? (fun r => r.1 = g) with
  | none => true
  | some r => decide (largestTrip s i.site i.shard ≤ (((s.awn.tick - r.2).toNat : Nat) : Int))

/-- R416: the bytes of a contribution's stream, or of a state transfer's: a contribution of this module's own shard. -/
def streamBytes (i : Inbound) (s : State) : Nat :=
  if i.state then 4 * s.site.anchor.length else contributionBytes s.site.anchor.length

/-- R421: a late joiner writes the donor's anchor and momentum into its outer-loop state and commits them as an outer
step (in part DEDUCED: log 79). -/
def adoptState (i : Inbound) (stream : Bytes) (s : State) : State :=
  let p := s.site.anchor.length
  let word := fun j => BitVec.ofNat 16 (field stream (2 * j) 2)
  if s.step.run.isSome ∨ s.site.joining.isNone then s
  else
    let s := s.withSite { s.site with round := i.round, nextResidual := List.replicate p 0 }
    beginOuter siteRun ((List.range p).map (fun j => toBf (bf32 (word j)))) ((List.range p).map (fun j => word (p + j))) [] s

/-- R401, R405: a contribution is held whole: it is reported, or dropped when the boundary that could apply it has
passed. -/
def becomesHeld (i : Inbound) (s : State) : State :=
  let sb := (s.site.desc.map (·.s)).getD 1
  if i.round + sb < s.site.round then
    let s := s.withSite { s.site with
      inbound := s.site.inbound.filter (fun x => !isInbound i.site i.shard i.round false x),
      dropped := s.site.dropped ++ [{ site := i.site, round := i.round }] }
    grantSlots i.site i.shard 1 (siteCount i.site (fun t => { t with staleDrops := add48 t.staleDrops 1 }) s)
  else reportHeld (setInbound { i with held := true } s)

/-- R478, R419: the seal check of a contribution has failed, and decoding again from the held packets gives the same: its
groups are discarded and repaired (in part DEDUCED: log 81). -/
def sealFails (i : Inbound) (computed : W64) (s : State) : State :=
  let i' := { i with packets := [], seen := [], decoded := [], firsts := [] }
  let s := setInbound i' (countDetection 10 .barter 0 computed i.sealWord s)
  (List.range i.groups).foldl (fun s g => sendRepair i' g s) s

/-- R401: a contribution whose groups have all decoded, with its ROUND_OPEN, is checked against its seal
(in part DESIGN CHOICE: log 64). -/
def completeInbound (h : FrameHeader) (s : State) : State :=
  match findInbound h s with
  | none => s
  | some i =>
    if !i.opened || i.held || decide (i.decoded.length < i.groups) then s
    else
      let stream := inboundStream i (streamBytes i s)
      if i.state then
        if crc64 stream = i.sealWord then adoptState i stream s else sealFails i (crc64 stream) s
      else
        let p := s.site.anchor.length
        let n := packedBytes .e2m1 p
        let d := { contributionDesc s p i.round with sec := BitVec.ofNat 16 i.shard }
        let computed := sealOf d (stream.take n) (stream.drop n) i.record
        if computed = i.sealWord then becomesHeld i s else sealFails i computed s

/-- R418: the threshold of a route in ns (in part DESIGN CHOICE: log 75). -/
def lateOf (d : SiteDesc) (x : Session) (r : Nat) : Int :=
  let t := x.routes.getD r {}
  let a := t.d + 4 * t.v + 1000 * (d.skewMargin : Int)
  match (x.routes.filter (·.up)).map (·.d) with
  | [] => a
  | y :: ys => min a (ys.foldl min y + 1000 * (d.skewMax : Int))

/-- R418: a route's delay and deviation after a sample (in part DESIGN CHOICE: log 75). -/
def sampleRoute (o : Int) (t : Route) : Route :=
  let err := o - t.d
  { t with d := t.d + err / 8, v := t.v + ((err.natAbs : Int) - t.v) / 4 }

/-- A route of a session changed. -/
def updRoute (site shard r : Nat) (f : Route → Route) (s : State) : State :=
  updSess site shard (fun x => { x with routes := x.routes.mapIdx (fun j t => if j = r then f t else t) }) s

/-- R418: the lateness of a packet's group on its route; the first packet decides it and updates the route. -/
def judgeLate (d : SiteDesc) (x : Session) (h : FrameHeader) (arrival : W64) (i : Inbound) (s : State) : Bool × Inbound × State :=
  match i.firsts.find? (fun f => decide (f.1 = h.group) && decide (f.2.1 = h.route)) with
  | some f => (f.2.2.1, i, s)
  | none =>
    let o : Int := (arrival.toNat : Int) - h.txNs.toNat
    let lim := lateOf d x h.route
    let late := decide (lim < o)
    (late, { i with firsts := i.firsts ++ [(h.group, h.route, late, (h.txNs.toNat : Int) + lim)] },
      updRoute x.site x.shard h.route (sampleRoute o) s)

/-- R416, R419: a packet is held, and its group decodes once it holds K. -/
def holdPacket (h : FrameHeader) (payload : Bytes) (i : Inbound) (s : State) : State :=
  let i := { i with packets := i.packets ++ [(h.group, h.pkt, payload)] }
  let ps := i.packets.filter (fun q => q.1 = h.group)
  if ps.length < h.k then setInbound i s
  else
    let data := decodeGroup h.k (ps.map (·.2))
    let i := { i with
      packets := i.packets.filter (fun q => q.1 ≠ h.group) ++ data.zipIdx.map (fun q => (h.group, q.2, q.1)),
      decoded := i.decoded ++ [h.group] }
    let s := siteCount h.site (fun t => { t with groupsDecoded := add48 t.groupsDecoded 1 }) (setInbound i s)
    completeInbound h (sendAckFrame i s)

/-- R415, R418, R419: an authenticated DATA frame. -/
def dataArrives (h : FrameHeader) (payload : Bytes) (arrival : W64) (x : Session) (s : State) : State :=
  let s := openInbound h (updRoute x.site x.shard h.route (fun t => { t with lastTx := some (h.txNs, arrival) }) s)
  match s.site.desc, findInbound h s with
  | some d, some i =>
    if payload.length ≠ 8192 ∨ h.k = 0 ∨ h.k + h.m ≤ h.pkt then s
    else if (h.group, h.pkt) ∈ i.seen then siteCount h.site (fun t => { t with dupPackets := add48 t.dupPackets 1 }) s
    else
      let (late, i, s) := judgeLate d x h arrival { i with seen := i.seen ++ [(h.group, h.pkt)], lastAt := arrival } s
      let s := if late then siteCount h.site (fun t => { t with latePackets := add48 t.latePackets 1 }) s else s
      if h.group ∈ i.decoded then setInbound i s else holdPacket h payload i s
  | _, _ => s

/-- DATA (R419). -/
def execData (h : FrameHeader) (payload : Bytes) (arrival : W64) (s : State) : Result :=
  .next (onFrame 1 h (.coded payload) (dataArrives h payload arrival) s)

/-- R409, R416: ROUND_OPEN gives a contribution's group count, last K, seal and write record. -/
def roundOpens (h : FrameHeader) (groups lastK : Nat) (sealWord : W64) (record : WriteRecord) (s : State) : State :=
  let s := openInbound h s
  match findInbound h s with
  | none => s
  | some i =>
    if i.opened then s
    else completeInbound h (setInbound { i with
      opened := true, groups := groups, lastK := lastK, sealWord := sealWord, record := record } s)

/-- ROUND_OPEN (R409). -/
def execRoundOpen (h : FrameHeader) (groups lastK : Nat) (sealWord : W64) (record : WriteRecord) (s : State) : Result :=
  .next (onFrame 2 h (.roundOpen groups lastK sealWord record) (fun _ => roundOpens h groups lastK sealWord record) s)

/-- R419: a group's deadline has passed, over every route that delivered of it, and it has not decoded
(in part DESIGN CHOICE: log 85). -/
def groupDeadline (site shard round group : Nat) (s : State) : State :=
  match s.site.inbound.find? (fun i => decide (i.site = site) && decide (i.shard = shard) && decide (i.round = round)) with
  | none => s
  | some i =>
    let fs := i.firsts.filter (fun f => f.1 = group)
    if fs = [] ∨ group ∈ i.decoded ∨ repairDue s i group = false ∨ fs.any (fun f => decide ((s.awn.tick.toNat : Int) < f.2.2.2)) then s
    else sendRepair i group s

/-- GROUP_DEADLINE (R419). -/
def execGroupDeadline (site shard round group : Nat) (s : State) : Result := .next (groupDeadline site shard round group s)

/-- R419: a round's DATA has stopped: every group that has not decoded is repaired. -/
def dataStall (site shard round : Nat) (s : State) : State :=
  match s.site.desc, s.site.inbound.find? (fun i =>
      decide (i.site = site) && decide (i.shard = shard) && decide (i.round = round)) with
  | some d, some i =>
    let quiet := 1000 * (d.skewMax : Int) + largestTrip s site shard
    if (((s.awn.tick - i.lastAt).toNat : Nat) : Int) < quiet then s
    else
      let packets := (streamBytes i s + 8191) / 8192
      let n := if i.opened then i.groups else (packets + d.k - 1) / max 1 d.k
      ((List.range n).filter (fun g => decide (g ∉ i.decoded))).foldl (fun s g => sendRepair i g s) s
  | _, _ => s

/-- ROUND_DATA_STALL (R419). -/
def execRoundDataStall (site shard round : Nat) (s : State) : Result := .next (dataStall site shard round s)

/-! ### The sender's side (R406, R415, R417, R419, R420) -/

/-- R419, R415: the packets of a group that the receiver's map lacks leave again, spread over the UP routes
(in part DEDUCED: log 81). -/
def repairGroup (h : FrameHeader) (held : BitVec 48) (x : Session) (s : State) : State :=
  let found := if stateFlag h then
      (s.site.stateOut.find? (fun o => decide (o.1 = h.site) && decide (o.2.round = h.round.toNat))).map (·.2)
    else s.site.outbound.find? (fun o => decide (o.round = h.round.toNat))
  match s.site.desc, found with
  | some d, some o =>
    let first := ((o.epochs.find? (fun e => e.1 = h.site)).map (·.2)).getD 0
    if groupTotal d.k o.stream ≤ h.group then s
    else
      ((List.range (groupK d.k o.stream h.group + d.m)).filter (fun i => !held.getLsbD i)).foldl (fun s i =>
        resendFrame x.site x.shard first (packetFrame d x o (stateFlag h) true h.group i) s) s
  | _, _ => s

/-- REPAIR (R419). -/
def execRepair (h : FrameHeader) (held : BitVec 48) (s : State) : Result := .next (onFrame 4 h (.repair held) (repairGroup h held) s)

/-- R409, R417, R420: an echo of a route's DATA: its round trip, and that it is covered
(in part DESIGN CHOICE: log 75). -/
def takeEcho (site shard : Nat) (e : Nat × W64 × W64) (s : State) : State :=
  let sample : Int := (s.awn.tick.toNat : Int) - e.2.1.toNat - e.2.2.toNat
  updRoute site shard e.1 (fun t => { t with rtt := Config.smoothRoundTrip t.rtt sample, echoAt := s.awn.tick }) s

/-- R409: the groups of a contribution that a peer acknowledges. -/
def ackGroups (k site : Nat) (ranges : List (Nat × Nat)) (o : Outbound) : Outbound :=
  let all := List.range (groupTotal k o.stream)
  { o with acked := o.acked.map (fun a =>
      if a.1 = site then
        (a.1, all.filter (fun g => decide (g ∈ a.2) || ranges.any (fun r => decide (r.1 ≤ g) && decide (g ≤ r.2))))
      else a) }

/-- R397, R406, R423: after acknowledgements or a change of the active peers: slots free, a Form phase that waited runs,
waiting contributions leave and SITE_LEAVE may complete. -/
def settlePeers (s : State) : State :=
  let s := freeOutbound s
  let s := if s.site.boundary = 3 then formPhase s else s
  tryLeave (sendAll s)

/-- R406, R409, R420: an authenticated ACK (in part DESIGN CHOICE: log 74). -/
def ackArrives (h : FrameHeader) (a : AckPayload) (x : Session) (s : State) : State :=
  let k := (s.site.desc.map (·.k)).getD 1
  let s := a.echoes.foldl (fun s e => takeEcho x.site x.shard e s) s
  let s := updSess x.site x.shard (fun x => { x with grants := x.grants + a.grants }) s
  let hit := fun (o : Outbound) => decide (o.round = a.round.toNat) && decide (x.shard = memberIndex s)
  let put := fun (o : Outbound) => if hit o then ackGroups k h.site a.groups o else o
  let states := (s.site.stateOut.map (fun o => if o.1 = h.site then (o.1, put o.2) else o)).filter (fun o => !ackedBy k o.2 o.1)
  let s := s.withSite (if stateFlag h then { s.site with stateOut := states }
    else { s.site with outbound := s.site.outbound.map put })
  settlePeers s

/-- ACK (R409). -/
def execAck (h : FrameHeader) (a : AckPayload) (s : State) : Result := .next (onFrame 3 h (.ack a) (ackArrives h a) s)

/-- R417: no echo has covered a route for 1 s: it stops being UP, and an echo is asked for
(in part DEDUCED: log 78) (in part DESIGN CHOICE: log 85). -/
def routeDown (site route : Nat) (s : State) : State :=
  match findSession s site with
  | none => s
  | some x =>
    let t := x.routes.getD route { up := false }
    if !t.up || decide ((s.awn.tick - t.echoAt).toNat < 1000000000) then s
    else sendFrame site x.shard { ftype := 10, round := s.site.round, route := some route, body := .probe false }
      (updRoute site x.shard route (fun t => { t with up := false }) s)

/-- ROUTE_DOWN (R417). -/
def execRouteDown (site route : Nat) (s : State) : Result := .next (routeDown site route s)

/-- R417: a PROBE is echoed on its route; an echo makes the route UP (in part DEDUCED: log 78). -/
def probeArrives (h : FrameHeader) (echo : Bool) (x : Session) (s : State) : State :=
  if echo then updRoute x.site x.shard h.route (fun t => { t with up := true, echoAt := s.awn.tick }) s
  else sendFrame x.site x.shard { ftype := 10, round := s.site.round, route := some h.route, body := .probe true } s

/-- PROBE (R417). -/
def execProbe (h : FrameHeader) (echo : Bool) (s : State) : Result := .next (onFrame 10 h (.probe echo) (probeArrives h echo) s)

/-! ### Key epochs (R412 to R414, R578, R579) -/

/-- R413: a session that waited for its key switches and sends what waits (in part DEDUCED: log 62). -/
def endKeyWait (site shard : Nat) (s : State) : State :=
  match findSess s site shard with
  | none => s
  | some x =>
    if x.keyWaiting && nextAgreed x then
      let s := switchEpoch site shard s
      sendWaiting site s.site.outbound.length s
    else s

/-- R578: KEY_NEXT at the end with the higher site index: the next epoch's key is agreed and the ciphertext goes back
(in part DEDUCED: log 77). -/
def keyNextArrives (h : FrameHeader) (kem : Bytes) (x : Session) (s : State) : State :=
  if ownSite s < x.site ∨ agreedEpoch x ≠ h.epoch.toNat then s
  else
    let enc := Config.kemEncap kem s.sec.kemUsed
    let s := s.withSec { s.sec with kemUsed := s.sec.kemUsed + 1 }
    let s := updSess x.site x.shard (deriveNext (ownSite s) enc.2) s
    endKeyWait x.site x.shard (sendNow x.site x.shard { ftype := 6, round := s.site.round, body := .kem enc.1 } s)

/-- KEY_NEXT (R412). -/
def execKeyNext (h : FrameHeader) (kem : Bytes) (s : State) : Result := .next (onFrame 5 h (.kem kem) (keyNextArrives h kem) s)

/-- R578, R579: KEY_NEXT_ACK at the end with the lower site index completes the agreement, and the decapsulation key is
erased. -/
def keyNextAckArrives (kem : Bytes) (x : Session) (s : State) : State :=
  if x.kemKey = [] then s
  else
    endKeyWait x.site x.shard (updSess x.site x.shard (deriveNext (ownSite s) (Config.kemDecap x.kemKey kem)) s)

/-- KEY_NEXT_ACK (R578). -/
def execKeyNextAck (h : FrameHeader) (kem : Bytes) (s : State) : Result := .next (onFrame 6 h (.kem kem) (keyNextAckArrives kem) s)

/-- R413, R425: a forced switch of the sessions with a site: to the next epoch when it is agreed, else one KEY_WAIT
(in part DEDUCED: log 62). -/
def forceSwitch (site : Nat) (s : State) : State :=
  (s.site.sessions.filter (fun x => decide (x.site = site) && x.opened && switchDue s x)).foldl (fun s x =>
    if nextAgreed x then switchEpoch site x.shard s
    else if x.keyWaiting then s
    else updSess site x.shard (fun x => { x with keyWaiting := true })
      (siteCount site (fun t => { t with keyWaits := add48 t.keyWaits 1 }) s)) s

/-- KEY_EPOCH_SWITCH (R413). -/
def execKeyEpochSwitch (site : Nat) (s : State) : Result := .next (forceSwitch site s)

/-- R414, R579: a sender's keys of earlier epochs are erased 2 s after its switch. -/
def eraseTx (now : W64) (x : Session) : Session :=
  if (now - x.since).toNat < 2000000000 then x else { x with txKeys := x.txKeys.filter (fun k => decide (x.epoch ≤ k.1)) }

/-- R414, R579: a receiver's keys of earlier epochs are erased 2 s after the first frame of the newest. -/
def eraseRx (now : W64) (x : Session) : Session :=
  let keys := x.rxKeys.filter (fun k => decide (x.rxEpoch ≤ k.1))
  let seen := x.rx.filter (fun r => decide (x.rxEpoch ≤ r.1))
  if (now - x.rxSince).toNat < 2000000000 then x else { x with rxKeys := keys, rx := seen }

/-- R414: the grace of the sessions with a site ends, at the sender or at the receiver (in part DEDUCED: log 77)
(in part DESIGN CHOICE: log 85). -/
def graceExpiry (site : Nat) (sender : Bool) (s : State) : State :=
  let f := if sender then eraseTx s.awn.tick else eraseRx s.awn.tick
  s.withSite { s.site with
    sessions := s.site.sessions.map (fun x => if decide (x.site = site) && x.opened then f x else x) }

/-- KEY_GRACE_EXPIRY (R414). -/
def execKeyGraceExpiry (site : Nat) (sender : Bool) (s : State) : Result := .next (graceExpiry site sender s)

/-! ### Sites that join, leave or are excluded (R403, R404, R421 to R423) -/

/-- R404, R422: a NOTICE leaves for sites. -/
def sendNotices (tos : List Nat) (site : Nat) (excluded : Bool) (from_ : Nat) (s : State) : State :=
  tos.foldl (fun s i =>
    sendFrame i (memberIndex s) { ftype := 9, round := s.site.round, body := .notice site excluded from_ } s) s

/-- R421, R422: a site counts as active from a round on (in part DEDUCED: log 79). -/
def addActive (site from_ : Nat) (s : State) : State :=
  s.withSite { s.site with active := s.site.active.filter (fun a => a.1 ≠ site) ++ [(site, from_)] }

/-- R404: a site is excluded from the active set at this boundary (in part DEDUCED: log 80). -/
def excludeSite (site : Nat) (s : State) : State :=
  let w := if s.site.waitingFor = some site then none else s.site.waitingFor
  let s := logSite 0 site s.site.round [] s
  s.withSite { s.site with active := s.site.active.filter (fun a => a.1 ≠ site), waitingFor := w }

/-- R404: the wait for a site has lasted SITE_WAIT: the lead excludes it, tells every site and takes up the roll again. -/
def siteWaitExpiry (s : State) : State :=
  match s.site.waitingFor with
  | none => s
  | some site =>
    let limit := 1000000000 * ((s.site.desc.map (·.siteWait)).getD 0)
    if !isLead s || decide ((s.awn.tick - s.site.waitSince).toNat < limit) then s
    else
      let s := sendNotices (peerSites s) site true s.site.round (excludeSite site s)
      evaluateRoll (settlePeers s)

/-- SITE_WAIT_EXPIRY (R404). -/
def execSiteWaitExpiry (s : State) : Result := .next (siteWaitExpiry s)

/-- R421, R422: JOIN_REQ: a donor lead answers with its round, will send its state and tells the other sites; the answer
gives a late joiner its round (in part DEDUCED: log 79). -/
def joinReqArrives (h : FrameHeader) (x : Session) (s : State) : State :=
  if s.site.joining.isSome then s.withSite { s.site with round := h.round.toNat }
  else if s.mbx.job ≠ .site ∨ h.site ∈ s.site.joiners then s
  else
    let w := s.site.round
    let s := sendFrame x.site x.shard { ftype := 7, round := w, body := .joinReq } s
    let others := (activePeers s).filter (fun i => i ≠ h.site)
    let s := sendNotices others h.site false (w + 1) s
    let s := logSite 1 h.site (w + 1) [] (addActive h.site (w + 1) s)
    s.withSite { s.site with joiners := s.site.joiners ++ [h.site] }

/-- JOIN_REQ (R421). -/
def execJoinReq (h : FrameHeader) (s : State) : Result := .next (onFrame 7 h .joinReq (joinReqArrives h) s)

/-- R403, R423: a site declares its last round. -/
def leaveArrives (h : FrameHeader) (s : State) : State :=
  let w := h.round.toNat
  let s := logSite 2 h.site w [] s
  let s := s.withSite { s.site with last := s.site.last.filter (fun l => l.1 ≠ h.site) ++ [(h.site, w)] }
  evaluateRoll s

/-- LEAVE (R423). -/
def execLeave (h : FrameHeader) (s : State) : Result := .next (onFrame 8 h .leave (fun _ => leaveArrives h) s)

/-- R404, R422, R423: a NOTICE: this site is excluded, another site is, or a site joins from a round. Rounds of a joiner
that this site has passed are not waited for (in part DEDUCED: log 80). -/
def noticeArrives (site : Nat) (excluded : Bool) (from_ : Nat) (s : State) : State :=
  if excluded then
    if site = ownSite s then
      logSite 0 site s.site.round [] (s.withSite { s.site with excluded := true, waitingFor := none })
    else evaluateRoll (settlePeers (excludeSite site s))
  else
    let sb := (s.site.desc.map (·.s)).getD 1
    logSite 1 site from_ [] (addActive site (max from_ (s.site.round - sb)) s)

/-- NOTICE (R422). -/
def execNotice (h : FrameHeader) (site : Nat) (excluded : Bool) (fromRound : Nat) (s : State) : Result :=
  .next (onFrame 9 h (.notice site excluded fromRound) (fun _ => noticeArrives site excluded fromRound) s)

/-- R423: SITE_LEAVE: an excluded site leaves with SITE_STALE; else the current round is the last, and peers that have
been sent its contribution are told (in part DEDUCED: log 80). -/
def siteLeave (k : CmdRef) (s : State) : State :=
  match ready s k 0x91 with
  | none => s
  | some c =>
    if agreedHere s c = false ∨ s.site.leaving.isSome then s
    else if s.site.excluded then endSite k rSiteStale s
    else
      let w := s.site.round
      let s := s.withSite { s.site with leaving := some (k, w), leaveAt := s.awn.tick }
      let sent := (s.site.outbound.filter (fun o => o.round = w)).flatMap (fun o => o.acked.map (·.1))
      tryLeave (sent.foldl (fun s i => sendLeave i w s) s)

/-- SITE_LEAVE (R423). -/
def execSiteLeave (k : CmdRef) (s : State) : Result := .next (siteLeave k s)

/-- R423: SITE_WAIT has passed since SITE_LEAVE. -/
def leaveWaitExpiry (s : State) : State :=
  match s.site.leaving with
  | some (k, _) =>
    let limit := 1000000000 * ((s.site.desc.map (·.siteWait)).getD 0)
    if (s.awn.tick - s.site.leaveAt).toNat < limit then s else endSite k rDegraded s
  | none => s

/-- SITE_LEAVE_WAIT_EXPIRY (R423). -/
def execSiteLeaveWaitExpiry (s : State) : Result := .next (leaveWaitExpiry s)

end Sys2Proof.Machine
end

