-- ==== Sys2Proof/Machine/Stats.lean ====
section
/-! DEFINITION. STATS_READ (R609 to R612) and LOGBOOK_READ (R495, R533). -/

namespace Sys2Proof.Machine

/-! ### Statistics (R609 to R611) -/

/-- R610: a STATS record: its group, INDEX, PART and values. -/
structure StatRec where
  group : Nat
  index : Nat
  part : Nat
  values : List W48
  deriving DecidableEq, Repr

/-- A number as a 48-bit value, two's complement. -/
def val48 (x : Int) : W48 := BitVec.ofInt 48 x

/-- R610: the 64 bytes of a STATS record; EVAL stands in the records of groups 2 and 3 that R611 redirects. -/
def statBytes (eval : Bool) (r : StatRec) : Bytes :=
  let sat := decide (r.group ≤ 10) && r.values.any (fun v => decide (v.toNat = 2 ^ 48 - 1))
  let ev := eval && (decide (r.group = 2) || decide (r.group = 3))
  rec64 (natLe 2 1 ++ natLe 2 r.group ++ natLe 8 r.index ++ natLe 1 r.part ++ natLe 1 r.values.length ++
    natLe 1 (bitN sat + 2 * bitN ev) ++ natLe 1 0 ++ r.values.flatMap (fun v => natLe 6 v.toNat))

/-- The loaded program's part, or nothing. -/
def ofProgram {α : Type} (s : State) (f : Program → List α) : List α :=
  match s.load.prog with
  | some p => f p
  | none => []

/-- R603: the counters a to b − 1 of a stall. -/
def stallCounts (s : State) (i a b : Nat) : List W48 := ((List.range b).drop a).map (fun c => sget 0 s.tal.counts (14 * i + c))

/-- R609 group 1: a cause summed over a Hall's stalls, stopping at the maximum. -/
def hallCount (s : State) (h c : Nat) : W48 :=
  sat48 ((List.range 256).foldl (fun m j => m + (sget 0 s.tal.counts (14 * (256 * h + j) + c)).toNat) 0)

/-- R609 groups 0 and 1. -/
def tallyRecords (s : State) (hall : Bool) : List StatRec :=
  if hall then
    (List.range 4).flatMap (fun h =>
      [{ group := 1, index := h, part := 0, values := (List.range 8).map (hallCount s h) },
       { group := 1, index := h, part := 1, values := ((List.range 14).drop 8).map (hallCount s h) }])
  else
    (List.range 1024).flatMap (fun i =>
      [{ group := 0, index := i, part := 0, values := stallCounts s i 0 8 },
       { group := 0, index := i, part := 1, values := stallCounts s i 8 14 }])

/-- R609 groups 2 and 3. -/
def jobRecords (s : State) (eval : Bool) (verbs : Bool) : List StatRec :=
  if verbs then
    (List.range (ofProgram s (·.verbs)).length).map (fun v =>
      let t := sget {} (if eval then s.tens.evalVerbs else s.tens.verbs) v
      { group := 3, index := v, part := 0, values := [t.invalid, t.overflow, t.nonfinite] })
  else
    (sortNat (ofProgram s (fun p => p.tensors.map (fun t => t.tid.toNat)))).map (fun tid =>
      let t := sget {} (if eval then s.tens.evalConv else s.tens.conv) tid
      { group := 2, index := tid, part := 0,
        values := [t.sat, val48 (bitN t.range), val48 (bitN t.nonfinite), val48 (bitN t.tiny)] })

/-- R609 groups 4 and 5. -/
def layerRecords (s : State) (resid : Bool) : List StatRec :=
  (sortNat ((ofProgram s (·.layers)).map (fun l => rtLayer l.desc))).map (fun l =>
    if resid then
      let t := sget {} s.ledger.resid l
      { group := 5, index := l, part := 0,
        values := [t.fetches, t.fetchBytes, t.streamedPasses, t.promotions, t.demotions, t.replicasAdded, t.replicasRemoved,
                   t.poolSkips] }
    else
      let t := sget {} s.ledger.routes l
      { group := 4, index := l, part := 0,
        values := [t.skippedChoices, t.droppedTokens, t.extraPasses, t.maxLoad, t.dupRecords, t.nonfinite] })

/-- R609 groups 6 and 7. -/
def linkRecords (s : State) (lanes : Bool) : List StatRec :=
  allPorts.flatMap (fun p =>
    let t := getPort s p
    let c := t.counts
    if lanes then
      (List.range 16).map (fun l =>
        { group := 7, index := 16 * (portIx p).val + l, part := 0,
          values := [t.fecCorrected.toList.getD l 0, t.fecUncorrected.toList.getD l 0] })
    else
      [{ group := 6, index := (portIx p).val, part := 0,
         values := [c.crcFails, c.naksSent, c.replayed, c.dupFlits, c.replayTimeouts, c.lanesDropped, c.retrains, c.discarded] },
       { group := 6, index := (portIx p).val, part := 1, values := [val48 t.width] }])

/-- R609 groups 8 and 9. -/
def houseRecords (s : State) (whole : Bool) : List StatRec :=
  if whole then
    [{ group := 9, index := 0, part := 0, values := [s.house.residueRetries, s.house.addersFenced, s.house.mismatches] }]
  else
    (List.range (ofProgram s (·.collectives)).length).map (fun e =>
      let t := sget {} s.house.totals e
      { group := 8, index := e, part := 0,
        values := [t.lateArrivals, t.lateCarried, t.lateDropped, t.dupContrib, t.staleContrib, t.fallbacks, t.slotWaitTicks,
                   t.lastN] })

/-- R609 groups 10 and 11. -/
def siteRecords (s : State) (routes : Bool) : List StatRec :=
  if routes then
    (peerSites s).flatMap (fun i =>
      let rs := ((findSession s i).map (·.routes)).getD []
      rs.mapIdx (fun r x =>
        { group := 11, index := 4 * i + r, part := 0, values := [val48 x.d, val48 x.v, val48 x.rtt, val48 (bitN x.up)] }))
  else
    (peerSites s).flatMap (fun i =>
      let t := sget {} s.site.totals i
      [{ group := 10, index := i, part := 0,
         values := [t.framesSent, t.resent, t.dupPackets, t.latePackets, t.repairsSent, t.groupsDecoded, t.authFails,
                    t.replayedFrames] },
       { group := 10, index := i, part := 1,
         values := [t.epochDiscards, t.keyWaits, t.staleDrops, t.nonfiniteContrib, t.waitSiteTicks] }])

/-- R609 group 12. -/
def windowRecords (s : State) : List StatRec :=
  s.tal.ring.flatMap (fun w =>
    w.halls.flatMap (fun p =>
      [{ group := 12, index := w.opened.toNat, part := 2 * p.1, values := (p.2.take 8).map (fun n => sat48 n) },
       { group := 12, index := w.opened.toNat, part := 2 * p.1 + 1, values := (p.2.drop 8).map (fun n => sat48 n) }]) ++
    [{ group := 12, index := w.opened.toNat, part := 8,
       values := [sat48 w.energyMj, sat48 w.peakW, val48 w.hallC, val48 w.cellarC, sat48 w.leastAclk, sat48 w.lost] }])

/-- R609: the records of a group, in ascending INDEX and PART. -/
def groupRecords (s : State) (eval : Bool) (g : Nat) : List StatRec :=
  match g with
  | 0 => tallyRecords s false
  | 1 => tallyRecords s true
  | 2 => jobRecords s eval false
  | 3 => jobRecords s eval true
  | 4 => layerRecords s false
  | 5 => layerRecords s true
  | 6 => linkRecords s false
  | 7 => linkRecords s true
  | 8 => houseRecords s false
  | 9 => houseRecords s true
  | 10 => siteRecords s false
  | 11 => siteRecords s true
  | 12 => windowRecords s
  | _ => []

/-- R611: the counters of a stall's causes a to b − 1 cleared. -/
def clearStall (i a b : Nat) (t : Tal) : Tal :=
  { t with
    counts := ((List.range b).drop a).foldl (fun m c => sput 0 m (14 * i + c) 0) t.counts,
    saturated := if ((List.range 14).any (fun c => decide (c < a ∨ b ≤ c) && decide ((sget 0 t.counts (14 * i + c)).toNat = 2 ^ 48 - 1)))
      then t.saturated else t.saturated.filter (fun j => decide (j ≠ i)) }

/-- R609, R611: the counters of one record cleared. -/
def clearStat (eval : Bool) (r : StatRec) (s : State) : State :=
  match r.group with
  | 0 => s.withTal (if r.part = 0 then clearStall r.index 0 8 s.tal else clearStall r.index 8 14 s.tal)
  | 2 =>
    if eval then s.withTens { s.tens with evalConv := sput {} s.tens.evalConv r.index {} }
    else s.withTens { s.tens with conv := sput {} s.tens.conv r.index {} }
  | 3 =>
    if eval then s.withTens { s.tens with evalVerbs := sput {} s.tens.evalVerbs r.index {} }
    else s.withTens { s.tens with verbs := sput {} s.tens.verbs r.index {} }
  | 4 => s.withLedger { s.ledger with routes := sput {} s.ledger.routes r.index {} }
  | 5 => s.withLedger { s.ledger with resid := sput {} s.ledger.resid r.index {} }
  | 6 =>
    if r.part = 0 then let p := portOfIx r.index; setPort s p { getPort s p with counts := {} } else s
  | 7 =>
    let p := portOfIx (r.index / 16)
    let t := getPort s p
    let z := fun (v : Vector W48 16) => Vector.ofFn (fun i => if i.val = r.index % 16 then 0 else v[i])
    setPort s p { t with fecCorrected := z t.fecCorrected, fecUncorrected := z t.fecUncorrected }
  | 8 => s.withHouse { s.house with
      totals := sput {} s.house.totals r.index { lastN := (sget {} s.house.totals r.index).lastN } }
  | 9 => s.withHouse { s.house with residueRetries := 0, addersFenced := 0, mismatches := 0 }
  | 10 =>
    let t := sget {} s.site.totals r.index
    let t' : SiteTotal := if r.part = 0 then
        { t with framesSent := 0, resent := 0, dupPackets := 0, latePackets := 0, repairsSent := 0, groupsDecoded := 0,
                 authFails := 0, replayedFrames := 0 }
      else { t with epochDiscards := 0, keyWaits := 0, staleDrops := 0, nonfiniteContrib := 0, waitSiteTicks := 0 }
    s.withSite { s.site with totals := sput {} s.site.totals r.index t' }
  | _ => s

/-- R514, R611: the records that the result buffer holds: all of them, or all but the one that TRUNCATED replaces. -/
def writtenOf (cap : Nat) (l : List StatRec) : List StatRec := if l.length ≤ cap then l else l.take (cap - 1)

/-- R609, R611: STATS_READ: every value is captured at this tick, and with CLEAR each record written is cleared. -/
def statsRead (k : CmdRef) (s : State) : State :=
  match ready s k 0x70 with
  | none => s
  | some c =>
    let groups := field c.bytes 80 8
    let clear := decide (field c.bytes 88 1 % 2 = 1)
    let eval := decide (field c.bytes 88 1 / 2 % 2 = 1)
    if groups = 0 ∨ 8192 ≤ groups then finish k rBadDescriptor s
    else
      let rs := ((List.range 13).filter (fun g => decide (groups / 2 ^ g % 2 = 1))).flatMap (groupRecords s eval)
      let w := writtenOf (resultCap c) rs
      let s := rs.foldl (fun s r => addRecord k (statBytes eval r) s) s
      let s := if clear then w.foldl (fun s r => clearStat eval r s) s else s
      finish k rOK (updCmd k (fun c => { c with progress := w.length }) s)

/-- STATS_READ (R611). -/
def execStatsRead (k : CmdRef) (s : State) : Result := .next (statsRead k s)

/-! ### LOGBOOK_READ (R495, R533) -/

/-- Records in SEQ order. -/
def insertRec (x : LogRec) : List LogRec → List LogRec
  | [] => [x]
  | y :: t => if x.seq.toNat < y.seq.toNat then x :: y :: t else y :: insertRec x t

/-- R495: every record held, in SEQ order. -/
def heldRecords (s : State) : List LogRec := (s.log.segs.flatMap (·.2)).foldr insertRec []

/-- R495: the records of a frozen segment, in SEQ order (in part DESIGN CHOICE: log 49). -/
def segRecords (s : State) (g : Nat) : List LogRec := (sget [] s.log.segs g).foldr insertRec []

/-- R523: the segments that a mask names. -/
def maskList (m : Nat) : List Nat := (List.range 16).filter (fun i => decide (m / 2 ^ i % 2 = 1))

/-- R495: the records that LOGBOOK_READ returns, room left aside. -/
def selected (s : State) (first last segs : Nat) : List LogRec :=
  if segs = 0 then (heldRecords s).filter (fun r => decide (first ≤ r.seq.toNat) && decide (r.seq.toNat ≤ last))
  else (maskList segs).flatMap (segRecords s)

/-- R495: the frozen segments that the records returned hold whole. -/
def readWhole (s : State) (out : List LogRec) : List Nat :=
  s.log.frozen.filter (fun g => (sget [] s.log.segs g).all (fun r => out.any (fun x => decide (x.seq = r.seq))))

/-- R495: how many SEQs of the range were not returned. -/
def absentCount (s : State) (first last segs : Nat) (out : List LogRec) : Nat :=
  match (heldRecords s).getLast? with
  | none => 0
  | some h => if segs ≠ 0 then 0 else (min last h.seq.toNat + 1 - first) - out.length

/-- R483, R533: retirements and retired pages are cleared. -/
def clearRetirements (s : State) : State :=
  let keep := fun (p : Nat × Fence) => decide (p.2.state ≠ .retired)
  let s := s.withSaf { s.saf with stalls := s.saf.stalls.filter keep, cellars := s.saf.cellars.filter keep }
  let sound := fun (p : Nat × PageHist) => !p.2.retired
  s.withMem { s.mem with nearPages := s.mem.nearPages.filter sound, farPages := s.mem.farPages.filter sound }

/-- R514: the LOG_SUMMARY record (in part DESIGN CHOICE: log 49). -/
def logSummary (s : State) (out : List LogRec) (absent : Nat) (released : List Nat) : Bytes :=
  let l := heldRecords s
  let ends := ((l.head?.map (fun r => r.seq.toNat)).getD 0, (l.getLast?.map (fun r => r.seq.toNat)).getD 0)
  rec64 (natLe 2 1 ++ natLe 6 0 ++ natLe 8 ends.1 ++ natLe 8 ends.2 ++ natLe 4 out.length ++ natLe 4 absent ++
    natLe 2 (released.foldl (fun m i => m + 2 ^ i) 0))

/-- R495, R533, R478: LOGBOOK_READ. A second failed transfer ends it with INTEGRITY_FAIL. -/
def logbookRead (k : CmdRef) (fails : Nat) (s : State) : State :=
  match ready s k 0x71 with
  | none => s
  | some c =>
    let first := field c.bytes 80 8
    let last := field c.bytes 88 8
    let segs := field c.bytes 96 2
    let release := decide (field c.bytes 98 1 % 2 = 1)
    let clear := decide (field c.bytes 98 1 / 2 % 2 = 1)
    if clear && decide (s.mbx.job ≠ .idle) then finish k rBadDescriptor s
    else if (maskList segs).any (fun g => decide (g ∉ s.log.frozen)) then finish k rBadDescriptor s
    else if 2 ≤ fails then finishWith k rIntegrityFail { logSeq := transferSeq s } (transferDetections fails s)
    else
      let s := transferDetections fails s
      let out := (selected s first last segs).take ((bufA c).bytes / 64)
      let freed := if release then readWhole s out else []
      let summary := logSummary s out (absentCount s first last segs out) freed
      let s := writeBuf (bufA c) 0 (out.flatMap logBytes) s
      let s := s.withLog { s.log with frozen := s.log.frozen.filter (fun g => decide (g ∉ freed)) }
      let s := if clear then clearRetirements s else s
      let s := addRecord k summary (setProgress k out.length s)
      finish k rOK s

/-- LOGBOOK_READ (R495). -/
def execLogbookRead (k : CmdRef) (transferFails : Nat) (s : State) : Result := .next (logbookRead k transferFails s)

end Sys2Proof.Machine
end

