-- ==== Sys2Proof/Machine/StepRun.lean ====
section
/-! DEFINITION. The commands that run steps and move tensors: STEP_RUN, EVAL_RUN, TENSOR_WRITE, TENSOR_READ,
AUDIT_REPLAY, and the inner steps of site mode (R169 to R173, R395, R484 to R486, R529 to R531). -/

namespace Sys2Proof.Machine

/-! ### Inputs (R529) -/

/-- R529: the bytes of one step's inputs in BUF_A: each stream's tensor starts at the next 64-byte boundary. -/
def inputBytes (l : List InputStream) : Nat := l.foldl (fun n x => (n + 63) / 64 * 64 + x.bytes) 0

/-- R529: a step's inputs are taken from a buffer at an offset. -/
def loadInputs (eval : Bool) (r : BufRef) (base : Nat) (epoch : W48) (s : State) : State :=
  ((inputStreams s eval).foldl (fun (x : State × Nat) st =>
    let off := (x.2 + 63) / 64 * 64
    let secs := inputSections x.1 st (readBuf s r (base + off) st.bytes) epoch
    (x.1.withTens { x.1.tens with plain := secs.foldl putSection x.1.tens.plain }, off + st.bytes)) (s, 0)).1

/-! ### STEP_RUN (R529) -/

/-- R523, R529: the arguments of STEP_RUN. -/
def srFirst (c : Cmd) : Nat := field c.bytes 80 6
def srSteps (c : Cmd) : Nat := field c.bytes 86 4
def srInput (c : Cmd) : Nat := field c.bytes 90 1
def srStepBytes (c : Cmd) : Nat := field c.bytes 92 6

/-- R529: STEP_RUN is refused: no steps, an INPUT that is not coded, or a BUF_A that its layout does not fit. -/
def stepRunBad (s : State) (c : Cmd) : Bool :=
  decide (srSteps c = 0) || decide (1 < srInput c) ||
  (decide (srInput c = 1) && (decide (srStepBytes c < inputBytes (inputStreams s false)) ||
    decide ((bufA c).bytes < srSteps c * srStepBytes c)))

/-- R441, R529: the inputs of step j of a STEP_RUN with INPUT = 1, which are copied to the partner (in part DEDUCED: log 61). -/
def stepInputs (c : Cmd) (j : Nat) (s : State) : State :=
  if srInput c = 1 then
    let s := loadInputs false (bufA c) (j * srStepBytes c) (s.job.epoch + 1) s
    let tids := (inputStreams s false).map (·.tensor)
    if hasPartner s then emit (.stagedInputs (s.job.epoch + 1) (s.tens.plain.filter (fun x => x.desc.tid ∈ tids))) s else s
  else s

/-- R529, R521: STEP_RUN starts once its slice agrees, and its first step begins; on a later call, the inputs of the step
that then runs are taken from BUF_A (in part DEDUCED: log 61). -/
def stepRun (k : CmdRef) (s : State) : State :=
  match ready s k 0x30 with
  | none => s
  | some c =>
    match s.step.run with
    | some r => if r.cmd = some k then stepInputs c r.done s else s
    | none =>
      if s.mbx.job = .site then finish k rBadDescriptor s
      else if s.load.prog.isNone then finish k rNotLoaded s
      else if stepRunBad s c then finish k rBadDescriptor s
      else if agreedHere s c = false || s.snap.paused then s
      else if srFirst c ≠ 0 ∧ srFirst c ≠ (s.job.epoch + 1).toNat then
        finishWith k rMismatch { member := memberIndex s, field := 0x1D } s
      else
        let r : RunCmd :=
          { cmd := some k, eval := false, evalList := 0, drawBase := 0, cursor := 0, loader := decide (srInput c = 0),
            stepsLeft := srSteps c, done := 0, worst := 0 }
        beginStep (stepInputs c 0 (s.withStep { s.step with run := some r }))

/-- STEP_RUN (R529). -/
def execStepRun (k : CmdRef) (s : State) : Result := .next (stepRun k s)

/-! ### EVAL_RUN (R169 to R173) -/

/-- R523: the arguments of EVAL_RUN. -/
def erList (c : Cmd) : Nat := field c.bytes 80 2
def erBase (c : Cmd) : W64 := BitVec.ofNat 64 (field c.bytes 82 8)
def erCursor (c : Cmd) : W64 := BitVec.ofNat 64 (field c.bytes 90 8)
def erInput (c : Cmd) : Nat := field c.bytes 98 1

/-- R169: the sentences of an evaluation list. -/
def evalSentences (s : State) (l : Nat) : List Sentence :=
  ((s.load.prog.map (·.sentences)).getD []).filter (fun x => decide (x.kind = .evaluation l))

/-- R169: the verbs of an evaluation list. -/
def evalVerbs (s : State) (l : Nat) : List Nat :=
  match s.load.prog with
  | none => []
  | some p => ((evalSentences s l).flatMap (·.clauses)).filterMap (fun c => (p.clauses[c]?).bind (·.verb)) |>.eraseDups

/-- R533: the summary slots of an evaluation list. -/
def evalSlots (s : State) (l : Nat) : List (Nat × Nat) :=
  (evalVerbs s l).flatMap (fun v => (List.range 4).filterMap (fun i => if (slotKind s v i).isSome then some (v, i) else none))

/-- R533: the code of a summary kind. -/
def kindCode : SlotKind → Nat
  | .sum => 0 | .max => 1 | .min => 2 | .nfc => 3

/-- R533: the SUMMARY record of a slot. -/
def summaryRecord (s : State) (v i : Nat) : Bytes :=
  let x := ((s.job.summaries.find? (fun p => p.1 = (v, i))).map (·.2)).getD 0
  rec64 (natLe 2 1 ++ natLe 1 i ++ natLe 1 ((slotKind s v i).map kindCode |>.getD 0) ++ natLe 4 v ++ natLe 8 x.toNat)

/-- An evaluation has run to its end: every summary of its list exists, its collectives are complete, and its attempt is not suspect
(R473) (in part DESIGN CHOICE: log 60). -/
def evalDone (s : State) (l : Nat) : Bool :=
  !s.step.suspect && (evalSlots s l).all (fun x => s.job.summaries.any (fun p => p.1 = x)) && s.house.colls.all (·.complete)

/-- R170, R171, R358: an evaluation starts: its streams stand at the draw base, its collectives count from 0 and no
training state is touched. -/
def beginEval (k : CmdRef) (c : Cmd) (s : State) : State :=
  let s := freshStep (clearWork s)
  let r : RunCmd :=
    { cmd := some k, eval := true, evalList := erList c, drawBase := erBase c, cursor := erCursor c,
      loader := decide (erInput c = 0), stepsLeft := 1, done := 0, worst := 0 }
  let s := s.withStep { s.step with run := some r }
  let s := s.withJob { s.job with evalSeq := 0 }
  startColls (readInputs (setEvalDraws (erBase c) s))

/-- R169, R170, R171, R172, R533: an EVAL_RUN starts once its slice agrees, and ends with its SUMMARY records once its
work is done; the routing work of an evaluation is then freed (in part DESIGN CHOICE: log 60). -/
def evalRun (k : CmdRef) (s : State) : State :=
  match ready s k 0x31 with
  | none => s
  | some c =>
    match s.step.run with
    | some r =>
      if r.cmd = some k ∧ evalDone s r.evalList = true then
        let result := if lateDropped s then rLateDropped else rOK
        let s := (evalSlots s r.evalList).foldl (fun s x => addRecord k (summaryRecord s x.1 x.2) s) s
        let s := setProgress k (evalSentences s r.evalList).length s
        endRun result {} (clearWork s)
      else s
    | none =>
      if s.load.prog.isNone then finish k rNotLoaded s
      else if 1 < erInput c ∨ evalSentences s (erList c) = [] ∨
          (erInput c = 1 ∧ (bufA c).bytes < inputBytes (inputStreams s true)) then finish k rBadDescriptor s
      else if agreedHere s c = false then s
      else
        let s := if erInput c = 1 then loadInputs true (bufA c) 0 s.job.epoch s else s
        beginEval k c s

/-- EVAL_RUN (R169). -/
def execEvalRun (k : CmdRef) (s : State) : Result := .next (evalRun k s)

/-! ### TENSOR_WRITE and TENSOR_READ (R207, R530, R531) -/

/-- R523: the arguments of the tensor commands. -/
def twTid (c : Cmd) : W64 := BitVec.ofNat 64 (field c.bytes 80 8)
def twFirst (c : Cmd) : Nat := field c.bytes 88 2
def twCount (c : Cmd) : Nat := field c.bytes 90 2

/-- R530: the bytes of section i of a tensor: packed content and scale array. -/
def sectionBytes (t : TensorDecl) (i : Nat) : Nat × Nat :=
  let d := sectionDesc t i 0
  (packedBytes t.fmt d.elems, if t.mx then scaleCount (rowLen t.dims) d.base d.elems else 0)

/-- The sections that a tensor command names. -/
def twSections (c : Cmd) : List Nat := (List.range (twCount c)).map (· + twFirst c)

/-- R530: the total bytes of the sections that a tensor command names. -/
def twBytes (t : TensorDecl) (c : Cmd) : Nat :=
  ((twSections c).map (fun i => (sectionBytes t i).1 + (sectionBytes t i).2)).foldl (· + ·) 0

/-- R530, R199: the sections that BUF_A gives. -/
def takenSections (s : State) (t : TensorDecl) (c : Cmd) : List Section :=
  ((twSections c).foldl (fun (x : List Section × Nat) i =>
    let d := sectionDesc t i s.job.epoch
    let n := sectionBytes t i
    let content := readBuf s (bufA c) x.2 n.1
    let scales := readBuf s (bufA c) (x.2 + n.1) n.2
    (x.1 ++ [{ desc := d, content := content, scales := scales, record := {}, sealWord := sealOf d content scales {} }],
     x.2 + n.1 + n.2)) ([], 0)).1

/-- R207, R530: the host's seals agree, where the descriptor carries them. -/
def hostSealsOk (s : State) (c : Cmd) (l : List Section) : Bool :=
  decide ((bufB c).bytes = 0) ||
  (l.mapIdx (fun i x => decide (leNat (readBuf s (bufB c) (8 * i) 8) = x.sealWord.toNat))).all id

/-- R530: a section written by the host is stored: the committed buffer and the partner's standby for a state tensor. -/
def hostStore (t : TensorDecl) (x : Section) (s : State) : State :=
  if isState t.role then
    let s := setCommitted s (putSection (committed s) x)
    if hasPartner s then emit (.drainSection x) s else s
  else s.withTens { s.tens with plain := putSection s.tens.plain x }

/-- R207, R478, R530: TENSOR_WRITE. In SITE it runs at an inner-step boundary (in part DEDUCED: log 108). -/
def tensorWrite (k : CmdRef) (transferFails : Nat) (s : State) : State :=
  match ready s k 0x40 with
  | none => s
  | some c =>
    if s.step.run.isSome then s
    else
      match findTensor s (twTid c) with
      | none => finish k rBadDescriptor s
      | some t =>
        if sectionCount t < twFirst c + twCount c ∨ twCount c = 0 ∨ (bufA c).bytes ≠ twBytes t c ∨
            ((bufB c).bytes ≠ 0 ∧ (bufB c).bytes ≠ 8 * twCount c) then finish k rBadDescriptor s
        else
          let seq := if 2 ≤ transferFails then transferSeq s else 0
          let s := transferDetections transferFails s
          let l := takenSections s t c
          if 2 ≤ transferFails ∨ hostSealsOk s c l = false then
            finishWith k rIntegrityFail { tid := twTid c, logSeq := seq } s
          else finish k rOK (setProgress k (((bufA c).bytes + 4095) / 4096) (l.foldl (fun s x => hostStore t x s) s))

/-- TENSOR_WRITE (R530). -/
def execTensorWrite (k : CmdRef) (transferFails : Nat) (s : State) : Result := .next (tensorWrite k transferFails s)

/-- R531: the section that a TENSOR_READ returns: the committed buffer's, or the tensor's only one. -/
def readSection (s : State) (t : TensorDecl) (i : Nat) : Option Section :=
  findSection (if isState t.role then committed s else s.tens.plain) t.tid i

/-- R533: the SECTION record. -/
def sectionRecordOf (x : Section) : Bytes :=
  rec64 (natLe 2 1 ++ natLe 2 x.desc.sec.toNat ++ natLe 4 0 ++ natLe 6 x.desc.epoch.toNat ++ natLe 2 0 ++
    natLe 8 x.sealWord.toNat ++ recordBytes x.record ++ natLe 8 (x.content.length + x.scales.length))

/-- R203, R206, R207, R478, R531: TENSOR_READ (in part DEDUCED: log 108). -/
def tensorRead (k : CmdRef) (transferFails : Nat) (s : State) : State :=
  match ready s k 0x41 with
  | none => s
  | some c =>
    match findTensor s (twTid c) with
    | none => finish k rBadDescriptor s
    | some t =>
      if sectionCount t < twFirst c + twCount c ∨ twCount c = 0 ∨ (bufA c).bytes < twBytes t c then finish k rBadDescriptor s
      else
        let l := (twSections c).filterMap (readSection s t)
        let bad := l.any (unsound s)
        let seq := if 2 ≤ transferFails then transferSeq s else if bad then nextSeq (transferDetections transferFails s) else 0
        let s := transferDetections transferFails s
        if 2 ≤ transferFails ∨ l.length ≠ twCount c ∨ bad = true then
          finishWith k rIntegrityFail { tid := twTid c, logSeq := seq } (unsoundFailure .none l s)
        else
          let s := (l.foldl (fun (x : State × Nat) y =>
            (addRecord k (sectionRecordOf y) (writeBuf (bufA c) x.2 (y.content ++ y.scales) x.1),
             x.2 + y.content.length + y.scales.length)) (s, 0)).1
          finish k rOK (setProgress k ((twBytes t c + 4095) / 4096) s)

/-- TENSOR_READ (R531). -/
def execTensorRead (k : CmdRef) (transferFails : Nat) (s : State) : Result := .next (tensorRead k transferFails s)

/-! ### AUDIT_REPLAY (R484 to R486) -/

/-- R484: the records cover every step from E0 + 1 to E1 in order, and an outer step's site descriptor is here. -/
def auditRecords (s : State) (a : AuditRun) (e0 e1 : Nat) : Bool :=
  a.recordsOk && decide (a.steps.map (fun x => x.epoch.toNat) = (List.range (e1 - e0)).map (e0 + 1 + ·)) &&
  a.steps.all (fun x => !x.outer || s.site.desc.isSome)

/-- R484 to R486: AUDIT_REPLAY starts once its slice agrees: the image at E0 is installed and its first step is replayed; COMMIT ends
each step (R486) (in part DESIGN CHOICE: log 60). -/
def auditReplay (k : CmdRef) (a : AuditRun) (s : State) : State :=
  match ready s k 0xA0 with
  | none => s
  | some c =>
    let e0 := field c.bytes 80 6
    let e1 := field c.bytes 86 6
    if s.step.run.isSome || agreedHere s c = false then s
    else if e1 ≤ e0 ∨ 2 < field c.bytes 92 1 ∨ a.image.valid = false then finish k rBadDescriptor s
    else if auditRecords s a e0 e1 = false then finishWith k rBadDescriptor { field := 0x21 } s
    else
      match imageMismatch s a.image with
      | some (m, f) => finishWith k rMismatch { member := m, field := f } s
      | none =>
        match a.image.roles.find? (fun r => r.member = memberIndex s) with
        | none => finish k rBadDescriptor s
        | some r =>
          if r.epoch.toNat ≠ e0 then finish k rBadDescriptor s
          else if imageBroken a.image then finish k rIntegrityFail s
          else
            let run : RunCmd :=
              { cmd := some k, eval := false, evalList := 0, drawBase := 0, cursor := 0, audit := some a.steps,
                stepsLeft := a.steps.length, done := 0, worst := 0 }
            beginAudit (fillThin ((installRole r s).withStep { (installRole r s).step with run := some run }))

/-- AUDIT_REPLAY (R484). -/
def execAuditReplay (k : CmdRef) (a : AuditRun) (s : State) : Result := .next (auditReplay k a s)

/-! ### Inner steps of site mode (R395, R423) -/

/-- R395, R423: Ondarel starts the next inner step, unless a boundary is open, the site was excluded or it has finished
its last round. -/
def innerStepStart (s : State) : State :=
  let finished := match s.site.leaving with
    | some (_, w) => decide (w < s.site.round)
    | none => false
  if s.mbx.job = .site ∧ s.step.run.isNone ∧ s.site.boundary = 0 ∧ s.site.joining.isNone ∧ s.site.excluded = false ∧
      finished = false ∧ s.snap.paused = false then
    beginStep (s.withStep { s.step with run := some siteRun })
  else s

/-- INNER_STEP_START (R395). -/
def execInnerStepStart (s : State) : Result := .next (innerStepStart s)

end Sys2Proof.Machine
end

