-- ==== Sys2Proof/Machine/Dispatch.lean ====
section
/-! DEFINITION. The dispatch of a command to its meaning: one arm per constructor of Instr, each one direct call. -/

namespace Sys2Proof.Machine

/-- The effect of a command on the module, the queue left aside. -/
def exec (i : Instr) (s : State) : Host.Outcome State Fault Refusal :=
  match i with
  | .mbxDoorbell value => Sys2Proof.Machine.execMbxDoorbell value s
  | .descriptorRead => Sys2Proof.Machine.execDescriptorRead s
  | .queueCommandStart => Sys2Proof.Machine.execQueueCommandStart s
  | .sliceCommandAgreement k reports => Sys2Proof.Machine.execSliceCommandAgreement k reports s
  | .cmdAbsent k absent => Sys2Proof.Machine.execCmdAbsent k absent s
  | .hello k => Sys2Proof.Machine.execHello k s
  | .jobOpen k => Sys2Proof.Machine.execJobOpen k s
  | .jobClose k => Sys2Proof.Machine.execJobClose k s
  | .programLoad k prog => Sys2Proof.Machine.execProgramLoad k prog s
  | .sliceJoin k => Sys2Proof.Machine.execSliceJoin k s
  | .stepRun k => Sys2Proof.Machine.execStepRun k s
  | .evalRun k => Sys2Proof.Machine.execEvalRun k s
  | .tensorWrite k transferFails => Sys2Proof.Machine.execTensorWrite k transferFails s
  | .tensorRead k transferFails => Sys2Proof.Machine.execTensorRead k transferFails s
  | .ckptTake k => Sys2Proof.Machine.execCkptTake k s
  | .ckptRestore k image => Sys2Proof.Machine.execCkptRestore k image s
  | .funcEnable k => Sys2Proof.Machine.execFuncEnable k s
  | .funcDisable k => Sys2Proof.Machine.execFuncDisable k s
  | .statsRead k => Sys2Proof.Machine.execStatsRead k s
  | .logbookRead k transferFails => Sys2Proof.Machine.execLogbookRead k transferFails s
  | .attest k => Sys2Proof.Machine.execAttest k s
  | .membership k => Sys2Proof.Machine.execMembership k s
  | .firmware k => Sys2Proof.Machine.execFirmware k s
  | .keyRevoke k => Sys2Proof.Machine.execKeyRevoke k s
  | .debugUnlock k => Sys2Proof.Machine.execDebugUnlock k s
  | .siteJoin k => Sys2Proof.Machine.execSiteJoin k s
  | .siteLeave k => Sys2Proof.Machine.execSiteLeave k s
  | .auditReplay k audit => Sys2Proof.Machine.execAuditReplay k audit s
  | .identifyMemoryDevice => Sys2Proof.Machine.execIdentifyMemoryDevice s
  | .getEventRecords max => Sys2Proof.Machine.execGetEventRecords max s
  | .clearEventRecords count => Sys2Proof.Machine.execClearEventRecords count s
  | .cxlMailboxUnsupported opcode => Sys2Proof.Machine.execCxlMailboxUnsupported opcode s
  | .cxlMemRead line ecc => Sys2Proof.Machine.execCxlMemRead line ecc s
  | .cxlMemWrite line bytes => Sys2Proof.Machine.execCxlMemWrite line bytes s
  | .busMasterEnableSet => Sys2Proof.Machine.execBusMasterEnableSet s
  | .perstNAssert held => Sys2Proof.Machine.execPerstNAssert held s
  | .perstNDeassert held => Sys2Proof.Machine.execPerstNDeassert held s
  | .hostLinkTrained lanes gts => Sys2Proof.Machine.execHostLinkTrained lanes gts s
  | .hostRetrainTimer => Sys2Proof.Machine.execHostRetrainTimer s
  | .pairLoRead off => Sys2Proof.Machine.execPairLoRead off s
  | .registerWrite off width value => Sys2Proof.Machine.execRegisterWrite off width value s
  | .cmpTargetWrite n hi value => Sys2Proof.Machine.execCmpTargetWrite n hi value s
  | .cmpControlWrite n value => Sys2Proof.Machine.execCmpControlWrite n value s
  | .awnRootPriority value => Sys2Proof.Machine.execAwnRootPriority value s
  | .talSnap value => Sys2Proof.Machine.execTalSnap value s
  | .tallySnapshotDone => Sys2Proof.Machine.execTallySnapshotDone s
  | .talWindowWrite hi value => Sys2Proof.Machine.execTalWindowWrite hi value s
  | .powerCapChange cap value => Sys2Proof.Machine.execPowerCapChange cap value s
  | .dbgProbeSelect p value => Sys2Proof.Machine.execDbgProbeSelect p value s
  | .comparatorFire n => Sys2Proof.Machine.execComparatorFire n s
  | .ftSyncEdge => Sys2Proof.Machine.execFtSyncEdge s
  | .timeExchange p => Sys2Proof.Machine.execTimeExchange p s
  | .timeFlit p f rx => Sys2Proof.Machine.execTimeFlit p f rx s
  | .advertisementExpiry p => Sys2Proof.Machine.execAdvertisementExpiry p s
  | .rackclkLoss => Sys2Proof.Machine.execRackclkLoss s
  | .rackclkReturn => Sys2Proof.Machine.execRackclkReturn s
  | .linkDetect p lanes => Sys2Proof.Machine.execLinkDetect p lanes s
  | .detectRetry p => Sys2Proof.Machine.execDetectRetry p s
  | .linkProbe p lossTenthsDb => Sys2Proof.Machine.execLinkProbe p lossTenthsDb s
  | .linkEqualise p failed => Sys2Proof.Machine.execLinkEqualise p failed s
  | .linkLock p failed farDropped asymmetry => Sys2Proof.Machine.execLinkLock p failed farDropped asymmetry s
  | .linkFlitSync p => Sys2Proof.Machine.execLinkFlitSync p s
  | .identFlit p x => Sys2Proof.Machine.execIdentFlit p x s
  | .identTimer => Sys2Proof.Machine.execIdentTimer s
  | .dataFlit p f => Sys2Proof.Machine.execDataFlit p f s
  | .controlFlit p c => Sys2Proof.Machine.execControlFlit p c s
  | .ackTimer p => Sys2Proof.Machine.execAckTimer p s
  | .replayTimeout p => Sys2Proof.Machine.execReplayTimeout p s
  | .laneErrorWindowClose p errors => Sys2Proof.Machine.execLaneErrorWindowClose p errors s
  | .laneLockLoss p lane => Sys2Proof.Machine.execLaneLockLoss p lane s
  | .retrain p farDropped => Sys2Proof.Machine.execRetrain p farDropped s
  | .retrainFail p failed => Sys2Proof.Machine.execRetrainFail p failed s
  | .packetForward source pkt => Sys2Proof.Machine.execPacketForward source pkt s
  | .heartbeat => Sys2Proof.Machine.execHeartbeat s
  | .heartbeatMissed member reason mirrored => Sys2Proof.Machine.execHeartbeatMissed member reason mirrored s
  | .mirrorSection epoch index sec last => Sys2Proof.Machine.execMirrorSection epoch index sec last s
  | .mirrorAck epoch index => Sys2Proof.Machine.execMirrorAck epoch index s
  | .preparedSend => Sys2Proof.Machine.execPreparedSend s
  | .preparedResend => Sys2Proof.Machine.execPreparedResend s
  | .prepared m => Sys2Proof.Machine.execPrepared m s
  | .decision m => Sys2Proof.Machine.execDecision m s
  | .decisionAck epoch attempt => Sys2Proof.Machine.execDecisionAck epoch attempt s
  | .commit m => Sys2Proof.Machine.execCommit m s
  | .failed m => Sys2Proof.Machine.execFailed m s
  | .snapDone member epoch => Sys2Proof.Machine.execSnapDone member epoch s
  | .suspect m => Sys2Proof.Machine.execSuspect m s
  | .replay epoch attempt => Sys2Proof.Machine.execReplay epoch attempt s
  | .detect d => Sys2Proof.Machine.execDetect d s
  | .stallSelfTest st result => Sys2Proof.Machine.execStallSelfTest st result s
  | .unitSelfTest row unit pass => Sys2Proof.Machine.execUnitSelfTest row unit pass s
  | .fencedRetest cellar st pass => Sys2Proof.Machine.execFencedRetest cellar st pass s
  | .logbookQueueRoom => Sys2Proof.Machine.execLogbookQueueRoom s
  | .logbookMramWrite => Sys2Proof.Machine.execLogbookMramWrite s
  | .contributionHeader h => Sys2Proof.Machine.execContributionHeader h s
  | .collectiveAbort seq member field => Sys2Proof.Machine.execCollectiveAbort seq member field s
  | .deadlineClose seq => Sys2Proof.Machine.execDeadlineClose seq s
  | .roll m => Sys2Proof.Machine.execRoll m s
  | .chunkArrival c residueFails => Sys2Proof.Machine.execChunkArrival c residueFails s
  | .leaseGrant => Sys2Proof.Machine.execLeaseGrant s
  | .slotWaitExpiry seq => Sys2Proof.Machine.execSlotWaitExpiry seq s
  | .releasedChunk m => Sys2Proof.Machine.execReleasedChunk m s
  | .barrierCompletion seq => Sys2Proof.Machine.execBarrierCompletion seq s
  | .weightBlockPass st b => Sys2Proof.Machine.execWeightBlockPass st b s
  | .preloadIssue st buf src fmt only => Sys2Proof.Machine.execPreloadIssue st buf src fmt only s
  | .preloadComplete st buf codes => Sys2Proof.Machine.execPreloadComplete st buf codes s
  | .drainElement st buf d => Sys2Proof.Machine.execDrainElement st buf d s
  | .runningSum st buf values => Sys2Proof.Machine.execRunningSum st buf values s
  | .streamFlitSend st stream f => Sys2Proof.Machine.execStreamFlitSend st stream f s
  | .creditReturn st stream consumer => Sys2Proof.Machine.execCreditReturn st stream consumer s
  | .streamFlitReceive st stream f => Sys2Proof.Machine.execStreamFlitReceive st stream f s
  | .contextSwitch st ctx => Sys2Proof.Machine.execContextSwitch st ctx s
  | .spanStart st v => Sys2Proof.Machine.execSpanStart st v s
  | .fadd st d a b => Sys2Proof.Machine.execFadd st d a b s
  | .fsub st d a b => Sys2Proof.Machine.execFsub st d a b s
  | .fmul st d a b => Sys2Proof.Machine.execFmul st d a b s
  | .fma st d a b c => Sys2Proof.Machine.execFma st d a b c s
  | .fmax st d a b => Sys2Proof.Machine.execFmax st d a b s
  | .fmin st d a b => Sys2Proof.Machine.execFmin st d a b s
  | .fabs st d a => Sys2Proof.Machine.execFabs st d a s
  | .fneg st d a => Sys2Proof.Machine.execFneg st d a s
  | .fcmp st d cond a b => Sys2Proof.Machine.execFcmp st d cond a b s
  | .sel st d a b c => Sys2Proof.Machine.execSel st d a b c s
  | .mov st d a => Sys2Proof.Machine.execMov st d a s
  | .rcp st d a => Sys2Proof.Machine.execRcp st d a s
  | .rsqrt st d a => Sys2Proof.Machine.execRsqrt st d a s
  | .sqrt st d a => Sys2Proof.Machine.execSqrt st d a s
  | .div st d a b => Sys2Proof.Machine.execDiv st d a b s
  | .exp2 st d a => Sys2Proof.Machine.execExp2 st d a s
  | .log2 st d a => Sys2Proof.Machine.execLog2 st d a s
  | .iadd st d a b => Sys2Proof.Machine.execIadd st d a b s
  | .isub st d a b => Sys2Proof.Machine.execIsub st d a b s
  | .imul st d a b => Sys2Proof.Machine.execImul st d a b s
  | .and st d a b => Sys2Proof.Machine.execAnd st d a b s
  | .or st d a b => Sys2Proof.Machine.execOr st d a b s
  | .xor st d a b => Sys2Proof.Machine.execXor st d a b s
  | .shl st d a b => Sys2Proof.Machine.execShl st d a b s
  | .shr st d a b => Sys2Proof.Machine.execShr st d a b s
  | .sar st d a b => Sys2Proof.Machine.execSar st d a b s
  | .icmp st d cond a b => Sys2Proof.Machine.execIcmp st d cond a b s
  | .itof st d a => Sys2Proof.Machine.execItof st d a s
  | .ftoi st d rm a => Sys2Proof.Machine.execFtoi st d rm a s
  | .qnt st d fmt rm a b => Sys2Proof.Machine.execQnt st d fmt rm a b s
  | .draw st d slot => Sys2Proof.Machine.execDraw st d slot s
  | .put st out a => Sys2Proof.Machine.execPut st out a s
  | .summ st slot a => Sys2Proof.Machine.execSumm st slot a s
  | .summaryPartial verb slot role roles value => Sys2Proof.Machine.execSummaryPartial verb slot role roles value s
  | .decisionRun d => Sys2Proof.Machine.execDecisionRun d s
  | .cellarTransfer c x => Sys2Proof.Machine.execCellarTransfer c x s
  | .farTierRead addr ecc holds => Sys2Proof.Machine.execFarTierRead addr ecc holds s
  | .scrub far ecc holds => Sys2Proof.Machine.execScrub far ecc holds s
  | .cellarTemperatureSample c base top => Sys2Proof.Machine.execCellarTemperatureSample c base top s
  | .refreshRateChange c => Sys2Proof.Machine.execRefreshRateChange c s
  | .select key token scores vec last => Sys2Proof.Machine.execSelect key token scores vec last s
  | .countRecord key member tm counts => Sys2Proof.Machine.execCountRecord key member tm counts s
  | .grant key home cap grants split => Sys2Proof.Machine.execGrant key home cap grants split s
  | .dispatchRecord h payload => Sys2Proof.Machine.execDispatchRecord h payload s
  | .passComplete key expert pass backward outs => Sys2Proof.Machine.execPassComplete key expert pass backward outs s
  | .passCredit key expert pass backward => Sys2Proof.Machine.execPassCredit key expert pass backward s
  | .expertFetchDone e => Sys2Proof.Machine.execExpertFetchDone e s
  | .returnRecord h server outs => Sys2Proof.Machine.execReturnRecord h server outs s
  | .unpark key grads => Sys2Proof.Machine.execUnpark key grads s
  | .park key => Sys2Proof.Machine.execPark key s
  | .backwardRecord h weights grad => Sys2Proof.Machine.execBackwardRecord h weights grad s
  | .backwardReturn h server nodes => Sys2Proof.Machine.execBackwardReturn h server nodes s
  | .cascadeNode e tile level index values => Sys2Proof.Machine.execCascadeNode e tile level index values s
  | .promotionCopyDone e => Sys2Proof.Machine.execPromotionCopyDone e s
  | .replicaCopyDone e copy => Sys2Proof.Machine.execReplicaCopyDone e copy s
  | .gatherDone layer secs => Sys2Proof.Machine.execGatherDone layer secs s
  | .loadAgreement member digest sliceId board => Sys2Proof.Machine.execLoadAgreement member digest sliceId board s
  | .loadWait absent => Sys2Proof.Machine.execLoadWait absent s
  | .slicePlacement => Sys2Proof.Machine.execSlicePlacement s
  | .planDistribution plan digest => Sys2Proof.Machine.execPlanDistribution plan digest s
  | .localPlacement m => Sys2Proof.Machine.execLocalPlacement m s
  | .loadResult results field shift records => Sys2Proof.Machine.execLoadResult results field shift records s
  | .innerStepStart => Sys2Proof.Machine.execInnerStepStart s
  | .contributionReport member held => Sys2Proof.Machine.execContributionReport member held s
  | .acceptedSet accepted => Sys2Proof.Machine.execAcceptedSet accepted s
  | .siteWaitExpiry => Sys2Proof.Machine.execSiteWaitExpiry s
  | .data h payload arrival => Sys2Proof.Machine.execData h payload arrival s
  | .roundOpen h groups lastK sealWord record => Sys2Proof.Machine.execRoundOpen h groups lastK sealWord record s
  | .ack h a => Sys2Proof.Machine.execAck h a s
  | .repair h held => Sys2Proof.Machine.execRepair h held s
  | .keyNext h kem => Sys2Proof.Machine.execKeyNext h kem s
  | .keyNextAck h kem => Sys2Proof.Machine.execKeyNextAck h kem s
  | .joinReq h => Sys2Proof.Machine.execJoinReq h s
  | .leave h => Sys2Proof.Machine.execLeave h s
  | .notice h site excluded fromRound => Sys2Proof.Machine.execNotice h site excluded fromRound s
  | .probe h echo => Sys2Proof.Machine.execProbe h echo s
  | .sessionInit h p => Sys2Proof.Machine.execSessionInit h p s
  | .sessionAccept h p => Sys2Proof.Machine.execSessionAccept h p s
  | .sessionInitResend site => Sys2Proof.Machine.execSessionInitResend site s
  | .sessionSetupTimeout site => Sys2Proof.Machine.execSessionSetupTimeout site s
  | .groupDeadline site shard round group => Sys2Proof.Machine.execGroupDeadline site shard round group s
  | .roundDataStall site shard round => Sys2Proof.Machine.execRoundDataStall site shard round s
  | .routeDown site route => Sys2Proof.Machine.execRouteDown site route s
  | .keyEpochSwitch site => Sys2Proof.Machine.execKeyEpochSwitch site s
  | .keyGraceExpiry site sender => Sys2Proof.Machine.execKeyGraceExpiry site sender s
  | .standbyUpdateDone epoch digest secs => Sys2Proof.Machine.execStandbyUpdateDone epoch digest secs s
  | .drainDone epoch secs => Sys2Proof.Machine.execDrainDone epoch secs s
  | .catchUpDone done => Sys2Proof.Machine.execCatchUpDone done s
  | .flashWriteDone epoch => Sys2Proof.Machine.execFlashWriteDone epoch s
  | .flashInterval => Sys2Proof.Machine.execFlashInterval s
  | .storeInterval => Sys2Proof.Machine.execStoreInterval s
  | .storeCopyDone role epoch => Sys2Proof.Machine.execStoreCopyDone role epoch s
  | .awningPowerUp millivolts => Sys2Proof.Machine.execAwningPowerUp millivolts s
  | .awningPowerOff millivolts => Sys2Proof.Machine.execAwningPowerOff millivolts s
  | .inputOutOfRange millivolts => Sys2Proof.Machine.execInputOutOfRange millivolts s
  | .inputRangeTimeout => Sys2Proof.Machine.execInputRangeTimeout s
  | .pwrEnAssert held => Sys2Proof.Machine.execPwrEnAssert held s
  | .pwrEnDeassert held => Sys2Proof.Machine.execPwrEnDeassert held s
  | .shutdownDone => Sys2Proof.Machine.execShutdownDone s
  | .pgDeassert => Sys2Proof.Machine.execPgDeassert s
  | .sleepTimeout => Sys2Proof.Machine.execSleepTimeout s
  | .idleEntry => Sys2Proof.Machine.execIdleEntry s
  | .idleExit => Sys2Proof.Machine.execIdleExit s
  | .currentGating milliamps => Sys2Proof.Machine.execCurrentGating milliamps s
  | .currentGatingRelease milliamps => Sys2Proof.Machine.execCurrentGatingRelease milliamps s
  | .throttleInterval inputW hallW => Sys2Proof.Machine.execThrottleInterval inputW hallW s
  | .thermalLevel sensor celsius => Sys2Proof.Machine.execThermalLevel sensor celsius s
  | .thermalLimit => Sys2Proof.Machine.execThermalLimit s
  | .lossOfControl c => Sys2Proof.Machine.execLossOfControl c s
  | .railsUp halls => Sys2Proof.Machine.execRailsUp halls s
  | .fuses pendingSvn => Sys2Proof.Machine.execFuses pendingSvn s
  | .loader => Sys2Proof.Machine.execLoader s
  | .firmwareVerify => Sys2Proof.Machine.execFirmwareVerify s
  | .bootIdentity cacheOk => Sys2Proof.Machine.execBootIdentity cacheOk s
  | .cacheRebuilt ms => Sys2Proof.Machine.execCacheRebuilt ms s
  | .farTierTraining failed => Sys2Proof.Machine.execFarTierTraining failed s
  | .startupSelfTest failedStalls => Sys2Proof.Machine.execStartupSelfTest failedStalls s
  | .startupLinks => Sys2Proof.Machine.execStartupLinks s
  | .ready => Sys2Proof.Machine.execReady s
  | .startupPhaseTimeout phase => Sys2Proof.Machine.execStartupPhaseTimeout phase s
  | .functionTransitionDone f => Sys2Proof.Machine.execFunctionTransitionDone f s
  | .signature => Sys2Proof.Machine.execSignature s
  | .attestWindow => Sys2Proof.Machine.execAttestWindow s
  | .telemetryWindowClose => Sys2Proof.Machine.execTelemetryWindowClose s
  | .extest => Sys2Proof.Machine.execExtest s
  | .samplePreload preload pins => Sys2Proof.Machine.execSamplePreload preload pins s
  | .idcode => Sys2Proof.Machine.execIdcode s
  | .ijtagAccess => Sys2Proof.Machine.execIjtagAccess s
  | .bypass code => Sys2Proof.Machine.execBypass code s
  | .segmentInsert segment insert => Sys2Proof.Machine.execSegmentInsert segment insert s
  | .logbookInstrumentRead addr => Sys2Proof.Machine.execLogbookInstrumentRead addr s
  | .spiNorWrite addr bytes => Sys2Proof.Machine.execSpiNorWrite addr bytes s
  | .hostLinkDown => Sys2Proof.Machine.execHostLinkDown s
  | .busMasterEnableClear => Sys2Proof.Machine.execBusMasterEnableClear s
  | .copyOutComplete e member => Sys2Proof.Machine.execCopyOutComplete e member s
  | .ethernetLaneFault e lane => Sys2Proof.Machine.execEthernetLaneFault e lane s
  | .siteLeaveWaitExpiry => Sys2Proof.Machine.execSiteLeaveWaitExpiry s
  | .inputInRange millivolts => Sys2Proof.Machine.execInputInRange millivolts s
  | .testLogicReset trst => Sys2Proof.Machine.execTestLogicReset trst s

end Sys2Proof.Machine
end

