-- ==== Sys2Proof/Laws/Memory.lean ====
section
/-! SUPPORT. Sparse tables and memories: reading after writing, and the canonical form that every write keeps. -/

namespace Sys2Proof.Machine

variable {α : Type} [DecidableEq α]

/-- A canonical table from a bound is canonical from a lower one. -/
theorem swfFrom_mono (d : α) : ∀ (t : Sparse α) (lo hi : Nat), lo ≤ hi → swfFrom d hi t = true → swfFrom d lo t = true
  | [], _, _, _, _ => rfl
  | (k, v) :: t, lo, hi, h, hw => by
    simp only [swfFrom, Bool.and_eq_true, decide_eq_true_eq] at hw ⊢
    exact ⟨⟨Nat.le_trans h hw.1.1, hw.1.2⟩, hw.2⟩

/-- Below its bound a canonical table lists nothing. -/
theorem sget_below (d : α) : ∀ (t : Sparse α) (lo k : Nat), swfFrom d lo t = true → k < lo → sget d t k = d
  | [], _, _, _, _ => rfl
  | (k', v) :: t, lo, k, hw, h => by
    simp only [swfFrom, Bool.and_eq_true, decide_eq_true_eq] at hw
    have hne : k ≠ k' := by omega
    simp only [sget, hne, if_false]
    exact sget_below d t (k' + 1) k hw.2 (by omega)

/-- A write keeps a table canonical from a bound that its key respects. -/
theorem swfFrom_sput (d : α) : ∀ (t : Sparse α) (lo k : Nat) (v : α), swfFrom d lo t = true → lo ≤ k →
    swfFrom d lo (sput d t k v) = true
  | [], lo, k, v, _, h => by
    unfold sput
    split <;> simp_all [swfFrom]
  | (k', v') :: t, lo, k, v, hw, h => by
    have hw0 := hw
    simp only [swfFrom, Bool.and_eq_true, decide_eq_true_eq] at hw
    unfold sput
    split
    · rename_i hlt
      split
      · exact hw0
      · rename_i hv
        simp only [swfFrom, Bool.and_eq_true, decide_eq_true_eq]
        exact ⟨⟨h, hv⟩, ⟨⟨by omega, hw.1.2⟩, hw.2⟩⟩
    · split
      · rename_i hnlt heq
        split
        · exact swfFrom_mono d t lo (k' + 1) (by omega) hw.2
        · rename_i hv
          simp only [swfFrom, Bool.and_eq_true, decide_eq_true_eq]
          exact ⟨⟨h, hv⟩, by rw [heq]; exact hw.2⟩
      · rename_i hnlt hne
        simp only [swfFrom, Bool.and_eq_true, decide_eq_true_eq]
        exact ⟨hw.1, swfFrom_sput d t (k' + 1) k v hw.2 (by omega)⟩

/-- A write keeps the canonical form. -/
theorem swf_sput (d : α) (t : Sparse α) (k : Nat) (v : α) (h : swf d t = true) : swf d (sput d t k v) = true :=
  swfFrom_sput d t 0 k v h (Nat.zero_le k)

/-- A canonical table reads back what was written. -/
theorem sget_sput_self (d : α) : ∀ (t : Sparse α) (lo k : Nat) (v : α), swfFrom d lo t = true → sget d (sput d t k v) k = v
  | [], _, k, v, _ => by
    unfold sput
    split <;> simp_all [sget]
  | (k', v') :: t, lo, k, v, hw => by
    have hw0 := hw
    simp only [swfFrom, Bool.and_eq_true, decide_eq_true_eq] at hw
    unfold sput
    split
    · rename_i hlt
      split
      · rename_i hv
        rw [hv]
        exact sget_below d ((k', v') :: t) k' k
          (by simp only [swfFrom, Bool.and_eq_true, decide_eq_true_eq]; exact ⟨⟨Nat.le_refl _, hw.1.2⟩, hw.2⟩) hlt
      · simp [sget]
    · split
      · rename_i heq
        split
        · rename_i hv
          rw [hv]
          exact sget_below d t (k' + 1) k hw.2 (by omega)
        · simp [sget]
      · rename_i hne
        simp only [sget, hne, if_false]
        exact sget_sput_self d t (k' + 1) k v hw.2

/-- A write leaves every other key alone. -/
theorem sget_sput_other (d : α) : ∀ (t : Sparse α) (k j : Nat) (v : α), j ≠ k → sget d (sput d t k v) j = sget d t j
  | [], k, j, v, h => by
    unfold sput
    split <;> simp [sget, h]
  | (k', v') :: t, k, j, v, h => by
    unfold sput
    split
    · split
      · rfl
      · simp [sget, h]
    · split
      · rename_i heq
        subst heq
        split <;> simp [sget, h]
      · simp only [sget]
        split
        · rfl
        · exact sget_sput_other d t k j v h

/-- Entries taken out leave a table canonical. -/
theorem swfFrom_filter (d : α) (f : Nat × α → Bool) : ∀ (t : Sparse α) (lo : Nat), swfFrom d lo t = true →
    swfFrom d lo (t.filter f) = true
  | [], _, _ => rfl
  | (k, v) :: t, lo, hw => by
    simp only [swfFrom, Bool.and_eq_true, decide_eq_true_eq] at hw
    have ih := swfFrom_filter d f t (k + 1) hw.2
    by_cases hf : f (k, v) = true
    · rw [List.filter_cons_of_pos hf]
      simp only [swfFrom, Bool.and_eq_true, decide_eq_true_eq]
      exact ⟨hw.1, ih⟩
    · rw [List.filter_cons_of_neg hf]
      exact swfFrom_mono d _ lo (k + 1) (by omega) ih

/-! ### Memories -/

/-- A stored byte reads back. -/
theorem readByte_writeByte (m : List Host.Cell) (a : Nat) (b : Byte) (h : Memory.wf m = true) :
    readByte (writeByte m a b) a = b := sget_sput_self unlisted m 0 a b h

/-- A stored byte leaves every other byte. -/
theorem readByte_writeByte_other (m : List Host.Cell) (a x : Nat) (b : Byte) (h : x ≠ a) :
    readByte (writeByte m a b) x = readByte m x := sget_sput_other unlisted m a x b h

/-- A stored byte keeps the canonical form. -/
theorem wf_writeByte (m : List Host.Cell) (a : Nat) (b : Byte) (h : Memory.wf m = true) : Memory.wf (writeByte m a b) = true :=
  swf_sput unlisted m a b h

/-- A stored byte string keeps the canonical form. -/
theorem wf_writeBytes : ∀ (bs : Bytes) (m : List Host.Cell) (a : Nat), Memory.wf m = true → Memory.wf (writeBytes m a bs) = true
  | [], _, _, h => h
  | b :: t, m, a, h => wf_writeBytes t (writeByte m a b) (a + 1) (wf_writeByte m a b h)

/-- A stored byte string leaves every byte outside its range. -/
theorem readByte_writeBytes_other : ∀ (bs : Bytes) (m : List Host.Cell) (a x : Nat), (x < a ∨ a + bs.length ≤ x) →
    readByte (writeBytes m a bs) x = readByte m x
  | [], _, _, _, _ => rfl
  | b :: t, m, a, x, h => by
    have h1 : x ≠ a := by simp only [List.length_cons] at h; omega
    have h2 : x < a + 1 ∨ a + 1 + t.length ≤ x := by simp only [List.length_cons] at h; omega
    simp only [writeBytes]
    rw [readByte_writeBytes_other t (writeByte m a b) (a + 1) x h2, readByte_writeByte_other m a x b h1]

/-- A stored byte string reads back byte by byte. -/
theorem readByte_writeBytes : ∀ (bs : Bytes) (m : List Host.Cell) (a i : Nat) (h : i < bs.length), Memory.wf m = true →
    readByte (writeBytes m a bs) (a + i) = bs[i]
  | b :: t, m, a, 0, _, hw => by
    simp only [writeBytes, Nat.add_zero, List.getElem_cons_zero]
    rw [readByte_writeBytes_other t _ (a + 1) a (by omega)]
    exact readByte_writeByte m a b hw
  | b :: t, m, a, i + 1, h, hw => by
    have h' : i < t.length := by simp only [List.length_cons] at h; omega
    simp only [writeBytes, List.getElem_cons_succ]
    have e : a + (i + 1) = a + 1 + i := by omega
    rw [e]
    exact readByte_writeBytes t (writeByte m a b) (a + 1) i h' (wf_writeByte m a b hw)

theorem length_readBytes (m : List Host.Cell) : ∀ (n a : Nat), (readBytes m a n).length = n
  | 0, _ => rfl
  | n + 1, a => by rw [readBytes, List.length_cons, length_readBytes m n (a + 1)]

theorem getElem_readBytes (m : List Host.Cell) : ∀ (n a i : Nat) (h : i < (readBytes m a n).length),
    (readBytes m a n)[i] = readByte m (a + i)
  | 0, _, _, h => absurd h (Nat.not_lt_zero _)
  | _ + 1, _, 0, _ => rfl
  | n + 1, a, i + 1, h => by
    simp only [readBytes, List.getElem_cons_succ]
    rw [getElem_readBytes m n (a + 1) i]
    congr 1
    omega

/-- Bytes that were stored read back. -/
theorem readBytes_writeBytes (bs : Bytes) (m : List Host.Cell) (a : Nat) (hm : Memory.wf m = true) :
    readBytes (writeBytes m a bs) a bs.length = bs := by
  refine List.ext_getElem (length_readBytes _ _ _) (fun i h1 h2 => ?_)
  rw [getElem_readBytes, readByte_writeBytes bs m a i h2 hm]

end Sys2Proof.Machine
end

