-- ==== Sys2Proof/Safety.lean ====
section
/-! DEFINITION. What counts as a safe run: the well-formed states, and a step that neither faults nor refuses. -/

namespace Sys2Proof.Machine

/-- The memories keep their canonical form. -/
def State.memWf (s : State) : Bool :=
  Memory.wf s.mem.near && Memory.wf s.mem.far && Memory.wf s.mem.host && Memory.wf s.mbx.ringMem && Memory.wf s.sec.nor

/-- R185: the partner slots are never both COMPLETE or both FILLING at once. -/
def State.slotsWf (s : State) : Bool := decide (s.snap.slotA.state ≠ s.snap.slotB.state)

/-- A state whose memories are canonical and whose partner slots differ. -/
def State.wf (s : State) : Bool := s.memWf && s.slotsWf

/-- An outcome is safe when it is a next state. -/
def safeOutcome (r : Host.Outcome State Fault Refusal) : Prop := ∃ t, r = .next t

/-- A command answers a next state of which P holds. -/
def Completes (i : Instr) (s : State) (P : State → Prop) : Prop := ∃ t, exec i s = .next t ∧ P t

/-- A command answers a next state of which P holds and that differs from s in one part of State at most: `put x` puts
the part x in place. -/
def CompletesIn {α : Type} (i : Instr) (s : State) (put : α → State) (P : α → Prop) : Prop :=
  ∃ x, exec i s = .next (put x) ∧ P x

/-- R345: t's root, parent and HOPS are those that its advertisements give a module with the ROOT_ID of s. -/
def Elects (s t : State) : Prop :=
  match bestAdvert t.awn.adverts with
  | some (p, a) =>
    if a.rootId.toNat < (ownRootId s).toNat then
      t.awn.isRoot = false ∧ t.awn.parent = some (portOfIx p) ∧ t.awn.hops = BitVec.ofNat 8 (a.hops + 1) ∧ t.awn.rootId = a.rootId
    else t.awn.isRoot = true ∧ t.awn.parent = none ∧ t.awn.hops = 0 ∧ t.awn.rootId = ownRootId s
  | none => t.awn.isRoot = true ∧ t.awn.parent = none ∧ t.awn.hops = 0 ∧ t.awn.rootId = ownRootId s

/-- A step from a state is safe. -/
def safeStep (s : State) : Prop := safeOutcome (step s)

/-- A Verb instruction that writes register d runs over the span of stall i: its word w is the verb's next one, every operand is
ready and a further instruction follows. It ends with register d of each element holding `f` of that element's operand values, the next
instruction in line, and nothing changed but that stall. -/
def VerbWrites (c : Instr) (i : Fin 1024) (w : W64) (d : BitVec 5) (srcs : List (BitVec 6)) (f : Nat → List W32 → W32) (s : State) : Prop :=
  ∀ (st : Stall) (sp : Span), getStall s i = st → st.span = some sp → runsNext sp w = true → operandsWait s st sp srcs = none →
    sp.pc + 1 < sp.header.instrs.length →
    Completes c s (fun t => t = s.withStalls t.stalls ∧ (∀ j, j ≠ i → getStall t j = getStall s j) ∧
      (getStall t i).store = st.store ∧ (getStall t i).outs = st.outs ∧ (getStall t i).ins = st.ins ∧
      ∃ sp', (getStall t i).span = some sp' ∧ sp'.pc = sp.pc + 1 ∧ sp'.init = sp.init ∧ sp'.header = sp.header ∧
        sp'.regs = List.zipWith (fun v x => v.set d.toNat x d.isLt) sp.regs
          ((List.range (spanSize sp)).map (fun e => f e (srcs.map (fun q => (operand s st sp q e).1)))))

/-- A Verb instruction with an operand that is not ready waits and takes what has arrived of its queue operands; when it names
no input, nothing but the wait changes (R39, R140). -/
def VerbWaits (c : Instr) (i : Fin 1024) (w : W64) (srcs : List (BitVec 6)) (s : State) : Prop :=
  ∀ (st : Stall) (sp : Span) (cause : Fin 14), getStall s i = st → st.span = some sp → runsNext sp w = true →
    operandsWait s st sp srcs = some cause →
    exec c s = .next (instrWaits i sp srcs cause s) ∧
    (inputsOf srcs = [] → instrWaits i sp srcs cause s = stallWaits i cause s)

/-- A Verb instruction whose word is not the next one of the span's verb does nothing (R115, R134). -/
def VerbKeepsOrder (c : Instr) (i : Fin 1024) (w : W64) (s : State) : Prop :=
  (∀ sp, (getStall s i).span = some sp → runsNext sp w = false) → exec c s = .next s

end Sys2Proof.Machine
end

