-- ==== Sys2Proof/Certificates/Slice0/Obligations.lean ====
section
/-! DEFINITION. The statements about the model that the provers prove: sixty properties, by family of commands and by kind of state.
`Completes c s P` says that exec of command c on s answers a next state and that P holds of it. A state t written as s with some
parts replaced says that every other part of s is unchanged. -/

open Sys2Proof Sys2Proof.Machine

/-- A step takes the command at the front of the queue and is exec of it on the state with the queue's rest. For every
state s whose queue is c followed by rest, step s is exec c on s with its queue set to rest. That a command stands in a
queue, first in first out, is the form of the block model. Rests on 00_scope.md, 01_module_architecture.md. -/
def Obligations.CommandsRunFromTheFront : Prop :=
  ∀ (s : State) (c : Instr) (rest : List Instr), s.pending = c :: rest → step s = exec c (s.withPending rest)

/-- On an empty queue a step idles, or passes one tick of fabric time while the Awning is on (model's choice, log 8).
With an empty queue and the Awning off, step answers the same state. With an empty queue and the Awning on, step answers
a next state whose fabric tick is one more, whose queue is empty, whose loaded program and slice are unchanged (and,
while the step has had fewer than three replays, its memory and mailbox), and in which the site a module waits for has
one more WAIT_SITE tick. That a tick is what an empty queue does is the model's choice (log entry 8). Rests on
11_fabric_links_and_time.md (R343), 13_intersite_exchange.md (R405). -/
def Obligations.EmptyQueueTicksWithTheAwningOn : Prop :=
  (∀ s : State, s.pending = [] → s.awn.on = false → step s = .next s) ∧
  (∀ s : State, s.pending = [] → s.awn.on = true → ∃ t, step s = .next t ∧ t.awn.tick = s.awn.tick + 1 ∧ t.pending = [] ∧
    t.load = s.load ∧ t.slice = s.slice ∧ (s.step.replays < 3 → t.mem = s.mem ∧ t.mbx = s.mbx) ∧
    (∀ i, s.site.waitingFor = some i → (sget {} t.site.totals i).waitSiteTicks = add48 (sget {} s.site.totals i).waitSiteTicks 1))

/-- Reset holds the reset values the register tables give, an empty queue, and is a well-formed state. In the reset
state the command queue is empty, AWN_ROOT_PRIORITY is 0xFF, FATAL_EN is 1, TAL_WINDOW is 0x0EE6B280, the job is
NO_HELLO and PWR_STATE REQUESTED is P0; and the reset state is well-formed (memory images and sparse maps in their
canonical form). That reset is the state without input power is the model's choice (log entry 1). Rests on
17_register_reference.md (R541, R546, R549, R551), 16_host_interface.md (R522). -/
def Obligations.ResetHoldsTheStatedValues : Prop :=
  (State.reset.pending = [] ∧ State.reset.awn.rootPriority = 0xFF ∧ State.reset.saf.fatalEn = true ∧
  State.reset.tal.window = 0x0EE6B280 ∧ State.reset.mbx.job = .noHello ∧ State.reset.pwr.requestP1 = false) ∧
  (State.reset.wf = true)

/-- Every step from a well-formed state gives a well-formed state. For all states s and t, if s is well-formed and step
s answers next t, then t is well-formed: every byte image (near, far, host memory, descriptor rings, NOR, stall stores)
stays sorted by address with no entry equal to what an unlisted address reads as, and every stall's sparse maps stay
canonical. It holds for every command and for the tick of an empty queue. The canonical form is the model's own
invariant. Rests on 01_module_architecture.md, 07_memory_tiers.md. -/
def Obligations.StepsKeepStatesWellFormed : Prop :=
  ∀ s t : State, s.wf = true → step s = .next t → t.wf = true

/-- No command changes the queue of waiting commands. For every well-formed state s, every command c and every t: if
exec c s answers next t, the queue of t is the queue of s. It covers all commands. Rests on 00_scope.md,
01_module_architecture.md. -/
def Obligations.CommandsLeaveTheQueueAlone : Prop :=
  ∀ (s t : State) (c : Instr), s.wf = true → exec c s = .next t → t.pending = s.pending

/-- A doorbell posts slots or reports an overrun; descriptors are taken in order; queue commands run one at a time. With
the link up and READY, a doorbell that names new slots of a channel posts them and moves the tail when the module owns
none of them, and otherwise only sets the channel's OVERRUN bit. DESCRIPTOR_READ takes the first posted slot whose token
is above the channel's mark and whose descriptor is allowed: the command is held, head and mark advance and its status
word is written. QUEUE_COMMAND_START, when no queue command runs, starts the oldest one when the job state allows it,
and otherwise ends it NOT_LOADED or BAD_DESCRIPTOR. Each clause gives the whole next state. Rests on
16_host_interface.md (R505, R506, R507, R508, R516, R520, R522), 17_register_reference.md (R540). -/
def Obligations.DescriptorsArePostedTakenAndStarted : Prop :=
  (∀ (v : W32) (s : State) (ch : Fin 16), ch = (v.extractLsb' 16 4).toFin → s.bus.linkUp = true → s.mbx.ready = true →
    slotsBetween ch s.mbx.rings[ch].tail (v.extractLsb' 0 8) ≠ [] →
    ((slotsBetween ch s.mbx.rings[ch].tail (v.extractLsb' 0 8)).any (slotOwned s) = false →
      exec (.mbxDoorbell v) s = .next (s.withMbx { s.mbx with
        rings := s.mbx.rings.set ch { s.mbx.rings[ch] with tail := v.extractLsb' 0 8 },
        posted := s.mbx.posted ++ slotsBetween ch s.mbx.rings[ch].tail (v.extractLsb' 0 8), takes := true })) ∧
    ((slotsBetween ch s.mbx.rings[ch].tail (v.extractLsb' 0 8)).any (slotOwned s) = true →
      exec (.mbxDoorbell v) s = .next (s.withMbx { s.mbx with
        overrun := s.mbx.overrun ||| (1 : W16) <<< ch.val, takes := true }))) ∧
  (∀ (s : State) (k : CmdRef) (rest : List CmdRef) (c : Cmd), s.mbx.posted = k :: rest → takesDescriptors s = true →
    c = { newCmd k (readBytes s.mbx.ringMem (slotOffset k) 128) false with takenAt := s.awn.tick } →
    s.mbx.rings[k.ch].mark.toNat < c.token.toNat → descriptorBad c = false →
    (isQueueOp (cmdOp c) = true ∨ allowedIn (cmdOp c) s.mbx.job = true) →
    exec .descriptorRead s = .next (refreshStatus k (s.withMbx { s.mbx with
      posted := rest, cmds := s.mbx.cmds ++ [c],
      rings := s.mbx.rings.set k.ch { s.mbx.rings[k.ch] with head := s.mbx.rings[k.ch].head + 1, mark := c.token } }))) ∧
  (∀ (s : State) (c : Cmd), queueBusy s = false →
    s.mbx.cmds.find? (fun c => isQueueOp (cmdOp c) && !c.isRepeat) = some c →
    (allowedIn (cmdOp c) s.mbx.job = true →
      exec .queueCommandStart s = .next (reportCommand c (setRunning c.ref s))) ∧
    (allowedIn (cmdOp c) s.mbx.job = false →
      exec .queueCommandStart s = .next (finish c.ref
        (if needsProgram (cmdOp c) ∧ s.load.prog = none then rNotLoaded else rBadDescriptor) s)))

/-- Slice commands are agreed or end MISMATCH; HELLO, JOB_OPEN, JOB_CLOSE and SLICE_JOIN change the job as their rules
say. A slice command with a report of every member, all of them agreeing with the lead's, becomes agreed; one whose
reports differ ends MISMATCH with the lowest member and field that differ, and every member hears it; one that a member
lacks 120 s after it was taken ends at the lead MISMATCH with that member and the field CMD_ABSENT (0x04), and at a
member when the lead says so. HELLO with legal lengths and coordinates stores them and leaves NO_HELLO for IDLE.
JOB_OPEN with a legal block opens the job, keeps its parameters, sets the partner interval, clears the collective totals
and starts the flash and store times. JOB_CLOSE discards the program, slice, carries and sessions and returns to IDLE.
SLICE_JOIN with legal arguments, no wrap crossing and no neighbour conflict stores the slice. Each clause says what else
is unchanged. Rests on 16_host_interface.md (R521, R522, R523, R525, R526, R527), 10_placement_and_slices.md (R286,
R287), 14_resilience.md (R436, R450). -/
def Obligations.CommandsAgreeAndChangeTheJob : Prop :=
  ((∀ (s : State) (k : CmdRef) (c : Cmd) (reports : List AgreeReport) (lead : AgreeReport),
    findCmd s k = some c → (allReports s c reports).find? (fun r => r.member = leadIndex s) = some lead → isSliceOp (cmdOp c) = true →
    c.isRepeat = false → c.agreed = false → (∀ m, m < memberCount s → ∃ r ∈ allReports s c reports, r.member = m) →
    ((∀ r ∈ allReports s c reports, reportDiff (cmdOp c) lead r = none) →
      exec (.sliceCommandAgreement k reports) s = .next (updCmd k (fun c => { c with agreed := true }) s)) ∧
    (∀ m f, firstMismatch (cmdOp c) lead (allReports s c reports) = some (m, f) →
      exec (.sliceCommandAgreement k reports) s =
        .next (finishWith k rMismatch { member := m, field := f } (emit (.cmdVerdict k m (BitVec.ofNat 8 f)) s)))) ∧
  (∀ (s : State) (k : CmdRef) (c : Cmd) (absent : Nat), findCmd s k = some c → isSliceOp (cmdOp c) = true →
    cmdOp c ≠ 0x20 → c.isRepeat = false → c.agreed = false →
    (isLead s = true → 120000000000 ≤ (s.awn.tick - c.takenAt).toNat →
      exec (.cmdAbsent k absent) s =
        .next (finishWith k rMismatch { member := absent, field := 0x04 } (emit (.cmdVerdict k absent 0x04) s))) ∧
    (isLead s = false → exec (.cmdAbsent k absent) s = .next (finishWith k rMismatch { member := absent, field := 0x04 } s)))) ∧
  ((∀ (s : State) (k : CmdRef) (c : Cmd) (xyz l : Nat × Nat × Nat) (board : W64), ready s k 0x01 = some c →
    helloValues c = (xyz, l, board) → lensOk l = true → coordsOk xyz l = true →
    (s.mbx.job = .noHello ∨ s.mbx.job = .idle) →
    Completes (.hello k) s (fun t => t = (((s.withMbx t.mbx).withMem t.mem).withOut t.out).withSlice t.slice ∧
        t.slice = { s.slice with coords := some xyz, lens := l, board := board } ∧
      t.mbx.job = .idle ∧ t.awn = s.awn ∧ t.load = s.load ∧ t.step = s.step ∧ t.ports = s.ports)) ∧
  (∀ (s : State) (k : CmdRef) (c : Cmd), ready s k 0x10 = some c → jobBlockBad (jobBlock s c) = false →
    Completes (.jobOpen k) s (fun t => t = (((((s.withHouse t.house).withJob t.job).withMbx t.mbx).withMem t.mem).withOut t.out).withSnap t.snap ∧
        t.mbx.job = .opened ∧ t.job = jobOf (jobBlock s c) s.job ∧ t.load = s.load ∧ t.slice = s.slice ∧
      t.snap.failures = [] ∧ t.snap.times = [] ∧ t.snap.flashAt = s.awn.tick ∧ t.snap.storeAt = s.awn.tick ∧
      t.house = { s.house with totals := [] } ∧
      t.snap.interval = partnerInterval 1000000000 ((jobOf (jobBlock s c) s.job).mtbf.toNat * 1000000000 / memberCount s))) ∧
  (∀ (s : State) (k : CmdRef) (c : Cmd), ready s k 0x11 = some c →
    Completes (.jobClose k) s (fun t => t.mbx.job = .idle ∧ t.load.prog = none ∧ t.slice.sliceId = none ∧ t.slice.coords = s.slice.coords ∧
      t.house.carries = [] ∧ t.step.run = none ∧ t.site.sessions = [] ∧ t.awn = s.awn ∧ t.ports = s.ports)) ∧
  (∀ (s : State) (k : CmdRef) (c : Cmd) (id : W32) (l o a : Nat × Nat × Nat), ready s k 0x21 = some c →
    joinArgs c = (id, l, o, a) → joinBad s l o a = false → crossesWrap o.1 a.1 l.1 = false →
    crossesWrap o.2.1 a.2.1 l.2.1 = false → crossesWrap o.2.2 a.2.2 l.2.2 = false → s.slice.sliceId = none →
    s.load.prog = none → neighbourConflict s id o a l = false →
    Completes (.sliceJoin k) s (fun t => t = (((s.withMbx t.mbx).withMem t.mem).withOut t.out).withSlice t.slice ∧
        t.slice = { s.slice with sliceId := some id, origin := o, extent := a } ∧
      t.load = s.load ∧ t.job = s.job ∧ t.ports = s.ports)))

/-- PROGRAM_LOAD checks the image and begins the load or ends with the refusal; LOAD_RESULT ends the load at every
member. PROGRAM_LOAD with no load running and no failing check begins a load with the image's digest, in its agreement
phase (its placement phase for a lone lead), and changes neither the loaded program, the job, the tensors nor the slice.
With a failing check it ends with that check's result and NEED records. LOAD_RESULT with no refusal, once every member
has reported, makes the program loaded with its plan and map, a fresh expert directory and fresh tensors, and the job
LOADED; a refusal of the own member ends the load with its result. Rests on 10_placement_and_slices.md (R302, R303,
R304, R305), 09_expert_residency_and_backward.md (R252), 16_host_interface.md (R522). -/
def Obligations.ProgramLoadsBeginAndEnd : Prop :=
  ((∀ (s : State) (k : CmdRef) (p : Program) (c : Cmd) (b : Bytes), ready s k 0x20 = some c → loadingNow s = none →
    b = readBuf s (bufA c) 0 (min (bufA c).bytes (leNat (readBuf s (bufA c) 8 8))) → checkRefusal s c b p = none →
    Completes (.programLoad k p) s (fun t => t = (((s.withLoad t.load).withMbx t.mbx).withMem t.mem).withOut t.out ∧
        (∃ l, t.load.loading = some l ∧ l.cmd = k ∧ l.prog = p ∧
        l.digest = (imageHeader b).digest ∧ l.plan = none ∧
        l.phase = (if isLead s = true ∧ memberCount s ≤ 1 then .placement else .agreement)) ∧
      t.load.prog = s.load.prog ∧ t.mbx.job = s.mbx.job ∧ t.tens = s.tens ∧ t.slice = s.slice)) ∧
  (∀ (s : State) (k : CmdRef) (p : Program) (c : Cmd) (b : Bytes) (r : Nat) (needs : List Need), ready s k 0x20 = some c →
    loadingNow s = none → b = readBuf s (bufA c) 0 (min (bufA c).bytes (leNat (readBuf s (bufA c) 8 8))) →
    checkRefusal s c b p = some (r, needs) →
    exec (.programLoad k p) s = .next (endLoad k r { member := memberIndex s }
      (addRecords k (needs.flatMap (needRecords (memberIndex s))) (setProgress k 1 s))))) ∧
  ((∀ (s : State) (l : Loading) (plan : Plan) (map : PhysMap) (results : List (Nat × W16)) (f shift : Nat) (records : List Bytes),
    loadingNow s = some l → lowestRefusal results = none → l.phase = .result → l.plan = some plan → l.phys = some map →
    l.result = some 0 → results.length = memberCount s →
    Completes (.loadResult results f shift records) s (fun t => t.mbx.job = .loaded ∧
      t.load = { prog := some l.prog, digest := l.digest, plan := some plan, phys := some map, loading := none } ∧
      t.ledger.dir = freshDirectory l.prog plan (extentList s) ∧
      t.tens = (freshTensors l.prog s).tens ∧ t.slice = s.slice ∧ t.ports = s.ports)) ∧
  (∀ (s : State) (l : Loading) (m r : Nat) (results : List (Nat × W16)) (f shift : Nat) (records : List Bytes),
    loadingNow s = some l → lowestRefusal results = some (m, r) → m = memberIndex s →
    exec (.loadResult results f shift records) s = .next (endLoad l.cmd r { member := m, field := f } s)))

/-- A load's phases follow in order: agreement, slice placement, plan distribution, local placement. At the lead the
last report of an agreement moves the load to placement when all digests, slices and boards agree and otherwise ends it
MISMATCH at every member; LOAD_WAIT 120 s after the load began ends it at the lead MISMATCH with the lowest absent
member and the field DIGEST (0x03). SLICE_PLACEMENT with a chosen cut sends the plan and its summary record;
PLAN_DISTRIBUTION of the plan that the member itself forms takes it; LOCAL_PLACEMENT with a legal map that fits reports
a fit. Each clause gives the whole next state. Rests on 10_placement_and_slices.md (R295, R297, R302, R303, R308). -/
def Obligations.LoadPhasesFollowInOrder : Prop :=
  (∀ (s : State) (l : Loading) (m : Nat) (digest : Bytes) (slice : W32) (board : W64), loadingNow s = some l →
    isLead s = true → l.phase = .agreement → m < memberCount s → l.reports.any (fun r => r.1 = m) = false →
    memberCount s ≤ l.reports.length + 1 →
    (loadMismatch (ownReport s l.digest) (l.reports ++ [(m, digest, slice, board)]) = none →
      exec (.loadAgreement m digest slice board) s = .next (setProgress l.cmd 3
        (setLoading { l with reports := l.reports ++ [(m, digest, slice, board)], phase := .placement } s))) ∧
    (∀ x f, loadMismatch (ownReport s l.digest) (l.reports ++ [(m, digest, slice, board)]) = some (x, f) →
      exec (.loadAgreement m digest slice board) s = .next (endLoad l.cmd rMismatch { member := x, field := f }
        (emit (.cmdVerdict l.cmd x (BitVec.ofNat 8 f)) s)))) ∧
  (∀ (s : State) (l : Loading) (absent : Nat), loadingNow s = some l → isLead s = true → l.phase = .agreement →
    absent < memberCount s → lowestAbsent l absent = true →
    exec (.loadWait absent) s = .next (if 120000000000 ≤ (s.awn.tick - l.since).toNat then
      endLoad l.cmd rMismatch { member := absent, field := 0x03 } (emit (.cmdVerdict l.cmd absent 0x03) s) else s)) ∧
  (∀ (s : State) (l : Loading) (x : (Nat × Nat × Nat) × Nat) (plan : Plan), loadingNow s = some l → isLead s = true →
    l.phase = .placement → chooseCut l.planVersion l.prog (extentList s) l.limits = some x → plan = planOf l (extentList s) x →
    exec .slicePlacement s = .next (setProgress l.cmd 5 (setLoading { l with phase := .localPlacement, plan := some plan }
      (addRecord l.cmd (summaryOf (memberIndex s) plan.version plan.prefetch (some plan)) (emit (.plan plan) s))))) ∧
  (∀ (s : State) (l : Loading) (plan : Plan), loadingNow s = some l → isLead s = false → l.phase = .agreement →
    plan = planOf { l with planVersion := plan.version } (extentList s) ((plan.q, plan.p, plan.d), plan.estimate.toNat) →
    exec (.planDistribution plan plan.digest) s = .next (setProgress l.cmd 5
      (setLoading { l with phase := .localPlacement, plan := some plan }
        (addRecord l.cmd (summaryOf (memberIndex s) plan.version plan.prefetch (some plan)) s)))) ∧
  (∀ (s : State) (l : Loading) (plan : Plan) (m m' : PhysMap), loadingNow s = some l → l.plan = some plan →
    l.phase = .localPlacement → m.roles.any (fun r => !stallPlaceable s r.stall.val) = false →
    mapOk l.prog plan (planStage s plan) m = true → fitNeeds (retireDue s) l plan m = [] →
    m' = { m with digest := Config.mapDigest plan.version { m with digest := 0 } } → verbRegionsBad l.prog m' = false →
    exec (.localPlacement m) s = .next (setProgress l.cmd 6
      (setLoading { l with phase := .result, phys := some m', result := some 0 } (emit (.fitReport 0 []) (retireDue s)))))

/-- STEP_RUN and EVAL_RUN begin their steps and end with their records; INNER_STEP_START begins a site's step. STEP_RUN
agreed by the slice, not paused, with legal arguments and FIRST_EPOCH 0 or the next epoch loads its input and begins the
first step; with another FIRST_EPOCH it ends MISMATCH with the own member. EVAL_RUN begins its evaluation, and once all
its sentences are done it writes one SUMMARY record for each slot and ends OK or LATE_DROPPED. INNER_STEP_START in SITE
mode, at no round boundary and with no join or due leave, begins a step. Each clause gives the whole next state. Rests
on 16_host_interface.md (R529, R533), 06_training_numerics.md (R169, R170, R171), 13_intersite_exchange.md (R395, R423).
-/
def Obligations.RunCommandsBeginTheirSteps : Prop :=
  (∀ (s : State) (k : CmdRef) (c : Cmd) (r : RunCmd), ready s k 0x30 = some c → s.step.run = none → s.mbx.job ≠ .site →
    r = { cmd := some k, eval := false, evalList := 0, drawBase := 0, cursor := 0, loader := decide (srInput c = 0),
          stepsLeft := srSteps c, done := 0, worst := 0 } →
    s.load.prog.isSome = true → stepRunBad s c = false → agreedHere s c = true → s.snap.paused = false →
    (srFirst c = 0 ∨ srFirst c = (s.job.epoch + 1).toNat →
      exec (.stepRun k) s = .next (beginStep (stepInputs c 0 (s.withStep { s.step with run := some r })))) ∧
    (srFirst c ≠ 0 → srFirst c ≠ (s.job.epoch + 1).toNat →
      exec (.stepRun k) s = .next (finishWith k rMismatch { member := memberIndex s, field := 0x1D } s))) ∧
  (∀ (s : State) (k : CmdRef) (c : Cmd), ready s k 0x31 = some c → s.step.run = none → s.load.prog.isSome = true →
    erInput c = 0 → evalSentences s (erList c) ≠ [] → agreedHere s c = true →
    exec (.evalRun k) s = .next (beginEval k c s)) ∧
  (∀ (s : State) (k : CmdRef) (c : Cmd) (r : RunCmd), ready s k 0x31 = some c → s.step.run = some r → r.cmd = some k →
    evalDone s r.evalList = true →
    exec (.evalRun k) s = .next (endRun (if lateDropped s then rLateDropped else rOK) {} (clearWork
      (setProgress k (evalSentences s r.evalList).length
        ((evalSlots s r.evalList).foldl (fun s x => addRecord k (summaryRecord s x.1 x.2) s) s))))) ∧
  (∀ (s : State), s.mbx.job = .site → s.step.run = none → s.site.boundary = 0 → s.site.joining = none → s.site.excluded = false → s.snap.paused = false →
    (∀ x, s.site.leaving = some x → s.site.round ≤ x.2) →
    exec .innerStepStart s = .next (beginStep (s.withStep { s.step with run := some siteRun })))

/-- TENSOR_WRITE and TENSOR_READ move whole sections; CKPT_TAKE, CKPT_RESTORE and AUDIT_REPLAY keep, restore and replay
images. TENSOR_WRITE stores the named sections when the transfers and the host's seals are good, and otherwise stores
nothing and ends INTEGRITY_FAIL, a transfer that failed twice with its detections. TENSOR_READ of sections with good
seals writes their contents and one SECTION record each. CKPT_TAKE at the lead makes the capture pending and begins the
drain, or with no partner the flash write when the drive holds the state. CKPT_RESTORE installs the member's role from a
matching, unbroken image, or ends MISMATCH with the differing member and field. AUDIT_REPLAY installs the checkpoint and
begins the run of the recorded steps. Rests on 16_host_interface.md (R523, R530, R531, R532), 07_memory_tiers.md (R199,
R203, R206, R207), 14_resilience.md (R459, R460), 15_integrity_and_safety.md (R478, R486). -/
def Obligations.TensorsAndCheckpointsMoveSections : Prop :=
  ((∀ (s : State) (k : CmdRef) (c : Cmd) (t : TensorDecl) (fails : Nat), ready s k 0x40 = some c → s.step.run = none →
    findTensor s (twTid c) = some t → twFirst c + twCount c ≤ sectionCount t → twCount c ≠ 0 → (bufA c).bytes = twBytes t c →
    (bufB c).bytes = 0 ∨ (bufB c).bytes = 8 * twCount c →
    (fails = 0 → hostSealsOk s c (takenSections s t c) = true →
      exec (.tensorWrite k fails) s = .next (finish k rOK (setProgress k (((bufA c).bytes + 4095) / 4096)
        ((takenSections s t c).foldl (fun s x => hostStore t x s) s)))) ∧
    (fails = 0 → hostSealsOk s c (takenSections s t c) = false →
      exec (.tensorWrite k fails) s = .next (finishWith k rIntegrityFail { tid := twTid c } s)) ∧
    (2 ≤ fails → exec (.tensorWrite k fails) s =
      .next (finishWith k rIntegrityFail { tid := twTid c, logSeq := transferSeq s } (transferDetections fails s)))) ∧
  (∀ (s : State) (k : CmdRef) (c : Cmd) (t : TensorDecl), ready s k 0x41 = some c → findTensor s (twTid c) = some t →
    twFirst c + twCount c ≤ sectionCount t → twCount c ≠ 0 → twBytes t c ≤ (bufA c).bytes →
    ((twSections c).filterMap (readSection s t)).length = twCount c →
    ((twSections c).filterMap (readSection s t)).any (unsound s) = false →
    exec (.tensorRead k 0) s = .next (finish k rOK (setProgress k ((twBytes t c + 4095) / 4096)
      (((twSections c).filterMap (readSection s t)).foldl (fun (x : State × Nat) y =>
        (addRecord k (sectionRecordOf y) (writeBuf (bufA c) x.2 (y.content ++ y.scales) x.1),
         x.2 + y.content.length + y.scales.length)) (s, 0)).1)))) ∧
  ((∀ (s : State) (k : CmdRef) (c : Cmd) (layer : Nat), ready s k 0x50 = some c → layer = field c.bytes 80 1 → layer ≤ 1 →
    isLead s = true → s.snap.take = none → s.step.run = none → s.snap.awaiting = none → s.snap.flashWriting = none →
    Completes (.ckptTake k) s (fun t => t = (((s.withMbx t.mbx).withMem t.mem).withOut t.out).withSnap t.snap ∧
        t.snap.take = some (k, layer) ∧
      (hasPartner s = true → t.snap.flashMark = (s.snap.flashMark || decide (0 < layer)) ∧
        t.snap.draining = some s.job.epoch ∧ t.snap.drainOut = committed s ∧ t.snap.flashWriting = none ∧
        t.snap.flashSkipped = s.snap.flashSkipped) ∧
      (hasPartner s = false → t.snap.draining = s.snap.draining ∧ t.snap.drainOut = s.snap.drainOut ∧
        t.snap.flashWriting = (if driveHolds s (committed s) then some s.job.epoch else none) ∧
        t.snap.flashMark = (!driveHolds s (committed s)) ∧
        t.snap.flashSkipped = (if driveHolds s (committed s) then s.snap.flashSkipped else s.snap.flashSkipped + 1)) ∧
      t.tens = s.tens ∧ t.job = s.job ∧ t.step = s.step ∧ t.ledger = s.ledger)) ∧
  (∀ (s : State) (k : CmdRef) (c : Cmd) (img : RestoreImage) (r : RoleImage), ready s k 0x51 = some c → agreedHere s c = true →
    field c.bytes 80 1 ≤ 2 → img.valid = true → field c.bytes 81 6 = 0 → imageMismatch s img = none →
    imageBroken img = false → img.roles.find? (fun r => r.member = memberIndex s) = some r →
    exec (.ckptRestore k img) s = .next (finish k rOK (setProgress k r.sections.length (seedStandby (recopyReplicas (fillThin (installRole r s))))))) ∧
  (∀ (s : State) (k : CmdRef) (c : Cmd) (img : RestoreImage) (m f : Nat), ready s k 0x51 = some c → agreedHere s c = true →
    field c.bytes 80 1 ≤ 2 → img.valid = true → field c.bytes 81 6 = 0 → imageMismatch s img = some (m, f) →
    exec (.ckptRestore k img) s = .next (finishWith k rMismatch { member := m, field := f } s)) ∧
  (∀ (s : State) (k : CmdRef) (c : Cmd) (a : AuditRun) (r : RoleImage) (run : RunCmd), ready s k 0xA0 = some c → agreedHere s c = true →
    s.step.run = none → field c.bytes 80 6 < field c.bytes 86 6 → field c.bytes 92 1 ≤ 2 → a.image.valid = true →
    auditRecords s a (field c.bytes 80 6) (field c.bytes 86 6) = true → imageMismatch s a.image = none →
    a.image.roles.find? (fun r => r.member = memberIndex s) = some r → r.epoch.toNat = field c.bytes 80 6 →
    imageBroken a.image = false →
    run = { cmd := some k, eval := false, evalList := 0, drawBase := 0, cursor := 0, audit := some a.steps,
            stepsLeft := a.steps.length, done := 0, worst := 0 } →
    exec (.auditReplay k a) s =
      .next (beginAudit (fillThin ((installRole r s).withStep { (installRole r s).step with run := some run })))))

/-- A member sends and resends PREPARED; the lead decides exactly when it holds every role's PREPARED. A member that is
ready sends PREPARED once and sends it again 1 ms after it was last sent. The lead keeps one message for each role and
decides. It decides nothing while a role is missing; with every role it records the decision, sends it to its partner
and keeps it, or with no partner sends the commit and commits. The partner acknowledges a decision, and the
acknowledgement makes the lead send the commit and commit the step. Rests on 14_resilience.md (R431, R432, R433, R438,
R453). -/
def Obligations.PreparedMembersAreDecidedOn : Prop :=
  ((∀ (s : State), prepareReady s = true → s.step.prepared = false → isLead s = false →
    exec .preparedSend s = .next (emit (.prepared (preparedMsg s))
      (s.withStep { s.step with prepared := true, preparedAt := s.awn.tick }))) ∧
  (∀ (s : State), s.step.prepared = true → s.step.run.isSome = true → isLead s = false →
    exec .preparedResend s = .next (if 1000000 ≤ (s.awn.tick - s.step.preparedAt).toNat then
      emit (.prepared (preparedMsg s)) (s.withStep { s.step with preparedAt := s.awn.tick }) else s)) ∧
  (∀ (s : State) (m : PreparedMsg), isLead s = true → s.step.run.isSome = true → inEval s = false → m.epoch = runningEpoch s →
    m.attempt = s.step.attempt → s.snap.covers ≠ some m.role →
    exec (.prepared m) s = .next (decideCommit (s.withStep { s.step with held := s.step.held.filter (fun x => x.role ≠ m.role) ++ [m] }))) ∧
  (∀ (s : State) (m : DecisionMsg), s.snap.covers = some (leadIndex s) → s.step.run.isSome = true → m.epoch = runningEpoch s →
    exec (.decision m) s = .next (emit (.decisionAck m.epoch) (s.withStep { s.step with decision := some m }))) ∧
  (∀ (s : State) (d : DecisionMsg), s.step.decision = some d → isLead s = true →
    exec (.decisionAck d.epoch d.attempt) s = .next (commitStep d (emit (.commit d) s)))) ∧
  ((∀ (s : State), s.step.decision = none →
    ((List.range (memberCount s)).all (fun i => s.step.held.any (fun m => m.role = i)) = false → decideCommit s = s) ∧
    ((List.range (memberCount s)).all (fun i => s.step.held.any (fun m => m.role = i)) = true → snapDue s = false →
      hasPartner s = true →
      decideCommit s = emit (.decision (decisionOf s)) (logDecision (decisionOf s) s)) ∧
    ((List.range (memberCount s)).all (fun i => s.step.held.any (fun m => m.role = i)) = true → hasPartner s = false →
      decideCommit s = commitStep (decisionOf s) (emit (.commit (decisionOf s)) (logDecision (decisionOf s) s)))) ∧
  (∀ (s : State) (d : DecisionMsg), auditing s = false →
    logDecision d s = logCommit d (stepResult s d.skipped) (digestOf (shadow s))
      (s.withStep { s.step with decision := some d, logged := true })))

/-- COMMIT makes the shadow the committed state, inverts the buffer select and takes the epoch; a stale one does
nothing. For the last step of a STEP_RUN, COMMIT of the running epoch inverts the buffer select, takes the epoch, swaps
committed and shadow sections, advances the input cursors (unless the step is an outer one), ends the run and leaves the
stored tensors, the load, the slice and the ports. COMMIT of another epoch, or during an evaluation, leaves the state
unchanged. In an audit, COMMIT of a step whose digests differ from the record ends the run with the buffers as they
were, and the last step's with all digests equal commits it and ends the run. Rests on
12_collectives_and_counting_house.md (R388), 06_training_numerics.md (R168), 07_memory_tiers.md (R184), 14_resilience.md
(R434). -/
def Obligations.CommitInvertsTheBufferSelect : Prop :=
  (∀ (s : State) (d : DecisionMsg) (r : RunCmd) (k : CmdRef), s.step.run = some r → r.eval = false → r.cmd = some k →
    r.audit = none → r.stepsLeft = 1 → d.epoch = runningEpoch s →
    Completes (.commit d) s (fun t => t.job.bufSel = !s.job.bufSel ∧ t.job.epoch = d.epoch ∧
      (d.outer = false → t.job.cursors = advanceCursors s) ∧ committed t = shadow s ∧ shadow t = committed s ∧
      t.tens = s.tens ∧ t.step.run = none ∧ t.load = s.load ∧ t.slice = s.slice ∧ t.ports = s.ports)) ∧
  (∀ (s : State) (d : DecisionMsg) (r : RunCmd), s.step.run = some r → (r.eval = true ∨ d.epoch ≠ runningEpoch s) →
    exec (.commit d) s = .next s) ∧
  (∀ (s : State) (d : DecisionMsg) (r : RunCmd) (k : CmdRef) (x : AuditStep) (rest : List AuditStep), s.step.run = some r →
    r.eval = false → d.epoch = runningEpoch s → r.audit = some (x :: rest) → r.cmd = some k →
    (d.sliceDigest ≠ x.sliceDigest → Completes (.commit d) s (fun t => t.step.run = none ∧ t.job.bufSel = s.job.bufSel ∧
      t.load = s.load ∧ t.slice = s.slice ∧ t.ports = s.ports)) ∧
    (d.sliceDigest = x.sliceDigest → isLead s = false → (∀ p ∈ x.roles, p.1 = memberIndex s → p.2 = digestOf (shadow s)) → rest = [] →
      Completes (.commit d) s (fun t => t.step.run = none ∧ t.job.bufSel = !s.job.bufSel ∧ t.job.epoch = d.epoch ∧
        t.load = s.load ∧ t.slice = s.slice ∧ t.ports = s.ports)))

/-- Mirror sections with good seals reach the partner's store; a missed heartbeat fails a member and its partner takes
over. A partner keeps a mirrored section whose seal matches and acknowledges it, leaving both snapshot slots; a section
whose seal differs is a detection and marks the attempt suspect. The acknowledgement of the last one completes the
mirror. HEARTBEAT sends the running epoch. At the lead a missed heartbeat logs and announces the failure with the
attempt, partner and row of R439. A FAILED of an unprotected member ends the run FENCED; of a protected one it records
the takeover and remaps the member. Rests on 14_resilience.md (R427, R430, R432, R436, R437, R438, R439, R440, R445),
15_integrity_and_safety.md (R474). -/
def Obligations.PartnersMirrorAndTakeOver : Prop :=
  ((∀ (s : State) (index : Nat) (sec : Section) (last : Option MirrorRecord), s.snap.covers.isSome = true →
    s.snap.updating = none → sealOf sec.desc sec.content sec.scales sec.record = sec.sealWord →
    Completes (.mirrorSection (runningEpoch s) index sec last) s (fun t => t = (((((((s.withBus t.bus).withLog t.log).withMbx t.mbx).withMem t.mem).withOut t.out).withSaf t.saf).withSnap t.snap).withStep t.step ∧
        t.snap.mirror = (if s.snap.mirrorEpoch = runningEpoch s then s.snap.mirror else []) ++ [sec] ∧
      t.snap.mirrorEpoch = runningEpoch s ∧ t.snap.mirrorDone = last.isSome ∧
      t.out = s.out ++ [.mirrorAck (runningEpoch s) index] ∧
      t.snap.slotA = s.snap.slotA ∧ t.snap.slotB = s.snap.slotB ∧ t.tens = s.tens ∧ t.job = s.job ∧ t.step = s.step)) ∧
  (∀ (s : State) (index : Nat) (sec : Section) (last : Option MirrorRecord), s.snap.covers.isSome = true →
    s.snap.updating = none → sealOf sec.desc sec.content sec.scales sec.record ≠ sec.sealWord →
    exec (.mirrorSection (runningEpoch s) index sec last) s = .next (markSuspect .none (nextSeq s)
      (countDetection 10 .none 0 (sealOf sec.desc sec.content sec.scales sec.record) sec.sealWord s))) ∧
  (∀ (s : State) (index : Nat), s.step.run.isSome = true → s.step.mirrored = mirrorExpected s → mirrorExpected s = index + 1 →
    exec (.mirrorAck (runningEpoch s) index) s = .next (s.withStep { s.step with mirrorAcked := true }))) ∧
  ((∀ (s : State), s.load.prog.isSome = true → exec .heartbeat s = .next (emit (.heartbeat (runningEpoch s)) s)) ∧
  (∀ (s : State) (m reason : Nat) (mirrored : Bool) (x : FailedMsg), isLead s = true → m ≠ memberIndex s → m < memberCount s →
    m ∉ s.step.failedMembers →
    x = { member := m, epoch := runningEpoch s, attempt := s.step.attempt + 1, partner := partnerOf s m,
          row := if s.step.decision.isSome ∨ s.step.run.isNone then 1 else if mirrored then 2 else 3 } →
    exec (.heartbeatMissed m reason mirrored) s = .next (memberFailed x (emit (.failed x)
      (((logEvent 0x205 4 .none ([BitVec.ofNat 8 reason, 0] ++ natLe 2 m) s).withSnap
          { s.snap with failures := s.snap.failures ++ [s.awn.tick] }).withStep
        { s.step with failedMembers := s.step.failedMembers ++ [m] })))) ∧
  (∀ (s : State) (m : FailedMsg), m.member ≠ memberIndex s → s.step.taken.any (fun t => decide (t.1 = m.member)) = false →
    unprotected s m.member = true → exec (.failed m) s = .next (endRun rFenced { member := m.member } s)) ∧
  (∀ (s : State) (m : FailedMsg), m.member ≠ memberIndex s → s.step.taken.any (fun t => decide (t.1 = m.member)) = false →
    unprotected s m.member = false → s.step.run = none → m.member ≠ 0 →
    Completes (.failed m) s (fun t => t.step.taken = s.step.taken ++ [(m.member, m.partner)] ∧
      t.slice.remap = s.slice.remap.filter (fun p => p.1 ≠ m.member) ++ [(m.member, m.partner)] ∧
      t.tens = s.tens ∧ t.job = s.job ∧ t.load = s.load ∧ t.snap = s.snap ∧ t.ports = s.ports)))

/-- Standby updates, drains, catch-ups, flash and store writes complete as their rules say. STANDBY_UPDATE_DONE puts the
updated sections into the complete slot; DRAIN_DONE with no broken or differing seal fills the filling slot with the
epoch before; CATCH_UP_DONE with the sections of the covered digest swaps the slots and sends SNAP_DONE; the last
SNAP_DONE completes the slice image and keeps the last eight times; FLASH_WRITE_DONE keeps the last two flash images;
FLASH_INTERVAL 600 s after the last mark marks the next image; a completed slot that is marked or due is written to
flash when the drive holds it; STORE_INTERVAL, once its period has passed and no role is taken over, begins the store
copy and STORE_COPY_DONE of the last role completes it. The other state is unchanged as each clause says. Rests on
14_resilience.md (R429, R430, R447, R450, R452, R453, R454, R455, R457, R458). -/
def Obligations.StandbysAndImagesAreKept : Prop :=
  (∀ (s : State) (f : Nat) (digest : W64) (secs : List Section) (epoch : W48), s.snap.covers = some f →
    s.snap.updating = some epoch → s.snap.coveredDigest = some digest → digest = digestOf secs →
    exec (.standbyUpdateDone epoch digest secs) s = .next (setComplete { completeSlot s with epoch := epoch, sections := secs }
      (s.withSnap { s.snap with updating := none }))) ∧
  (∀ (s : State) (secs : List Section) (epoch : W48), s.snap.filling = some epoch → s.snap.catchUp = false →
    secs.any sealBroken = false → sealDiffs secs s.snap.before = [] →
    Completes (.drainDone epoch secs) s (fun t => fillingSlot t = { fillingSlot s with epoch := epoch - 1, sections := secs } ∧
      completeSlot t = completeSlot s ∧ t.snap.catchUp = true ∧ t.tens = s.tens ∧ t.job = s.job ∧ t.step = s.step)) ∧
  (∀ (s : State) (secs : List Section) (epoch : W48), s.snap.filling = some epoch → s.snap.catchUp = true → s.snap.updating = none →
    (s.snap.coveredDigest = none ∨ s.snap.coveredDigest = some (digestOf secs)) →
    isLead s = false → s.snap.slotA.state = .complete → s.snap.slotB.state = .filling →
    Completes (.catchUpDone { epoch := epoch, secs := secs }) s (fun t => t = ((((((s.withBus t.bus).withLog t.log).withMbx t.mbx).withMem t.mem).withOut t.out).withSaf t.saf).withSnap t.snap ∧
        t.snap.slotB.state = .complete ∧ t.snap.slotA.state = .filling ∧
      t.snap.slotB.epoch = epoch ∧ t.snap.slotB.sections = secs ∧ t.snap.slotA.sections = s.snap.slotA.sections ∧
      t.snap.image = some epoch ∧ t.snap.filling = none ∧ .snapDone epoch ∈ t.out ∧
      t.snap.flashWriting = (if driveHolds s s.snap.slotA.sections && (s.snap.flashMark || betweenFits s s.snap.slotA.sections)
        then some epoch else s.snap.flashWriting) ∧ t.tens = s.tens ∧ t.job = s.job)) ∧
  (∀ (s : State) (member : Nat) (epoch : W48) (tick : W64) (l : List Nat), s.snap.awaiting = some (epoch, tick, l) →
    isLead s = true →
    (l.filter (fun m => m ≠ member) ≠ [] → exec (.snapDone member epoch) s =
      .next (s.withSnap { s.snap with awaiting := some (epoch, tick, l.filter (fun m => m ≠ member)) })) ∧
    (l.filter (fun m => m ≠ member) = [] → s.snap.take = none → Completes (.snapDone member epoch) s (fun t => t = (((s.withMbx t.mbx).withMem t.mem).withOut t.out).withSnap t.snap ∧
        t.snap.awaiting = none ∧ t.snap.image = some epoch ∧
      t.snap.times = (s.snap.times ++ [(s.awn.tick - tick).toNat]).drop (s.snap.times.length - 7) ∧
      t.mbx = s.mbx ∧ t.tens = s.tens ∧ t.job = s.job))) ∧
  (∀ (s : State) (epoch : W48), s.snap.flashWriting = some epoch → s.snap.take = none →
    exec (.flashWriteDone epoch) s = .next (s.withSnap { s.snap with flashWriting := none, flash := (epoch :: s.snap.flash).take 2 })) ∧
  (∀ (s : State), isLead s = true → s.load.prog.isSome = true →
    exec .flashInterval s = .next (if 600000000000 ≤ (s.awn.tick - s.snap.flashAt).toNat then
      s.withSnap { s.snap with flashMark := true, flashAt := s.awn.tick } else s)) ∧
  (∀ (s : State) (st : Store) (e : W48) (l : List W48), s.job.store = some st → s.snap.flash = e :: l → s.snap.storing = none →
    s.step.taken = [] → 1000000000 * s.job.storeInterval.toNat ≤ (s.awn.tick - s.snap.storeAt).toNat →
    Completes .storeInterval s (fun t => t = (s.withOut t.out).withSnap t.snap ∧
        t.out = s.out ++ [.storeCopy e] ∧
      t.snap.storing = some (e, if isLead s then List.range (memberCount s) else [s.snap.covers.getD (memberIndex s)]) ∧
      t.snap.degraded = false ∧ t.snap.storeAt = s.awn.tick ∧ t.tens = s.tens ∧ t.job = s.job)) ∧
  (∀ (s : State) (role : Nat) (epoch : W48) (l : List Nat), s.snap.storing = some (epoch, l) →
    (l.filter (fun r => r ≠ role) ≠ [] → exec (.storeCopyDone role epoch) s =
      .next (s.withSnap { s.snap with storing := some (epoch, l.filter (fun r => r ≠ role)) })) ∧
    (l.filter (fun r => r ≠ role) = [] → s.snap.take = none → s.snap.paused = false → exec (.storeCopyDone role epoch) s =
      .next (s.withSnap { s.snap with storing := none, stored := some epoch, degraded := false })))

/-- Detections and self-tests fence units, a suspect attempt is replayed from the commit point, and retests restore. A
detection on a stall in service counts, logs and fences it (retired when it was fenced less than a day before) and, with
active work, marks the attempt suspect. At the lead SUSPECT sends REPLAY of the next attempt, or the replay limit after
three. REPLAY restores the draw counters, sequence numbers, directory and carries of the commit point, drops the shadow
and all open writes, and begins the collectives anew. A stall self-test that may begin uses the stall, and one that
passes records its time; one that fails fences the stall, with a suspect mark only when it holds a role; one that may
not begin does nothing. A fenced unit is due for a retest 1 s after its fence and 500 ms after the last, and not before.
Three passed retests in a row make a fenced stall restorable, and a failed one starts the count again. Rests on
15_integrity_and_safety.md (R470, R472, R474, R475, R476, R480, R482). -/
def Obligations.DetectionsFenceAndReplaysRestore : Prop :=
  ((∀ (s : State) (d : Detection) (i : Fin 1024), d.unit = .stall i → d.mechanism ≤ 7 → s.load.loading = none →
    (sget {} s.saf.stalls i.val).state = .inService →
    exec (.detect d) s = .next ((if d.active then markSuspect (.stall i) (nextSeq s) else id)
      (fenceStall i (nextSeq s) (countDetection d.mechanism (.stall i) d.location d.observed d.expected s))) ∧
    (fenceStall i (nextSeq s) (countDetection d.mechanism (.stall i) d.location d.observed d.expected s)).saf.stalls =
      sput {} s.saf.stalls i.val (fencedEntry s.awn.tick (sget {} s.saf.stalls i.val)) ∧
    (fenceStall i (nextSeq s) (countDetection d.mechanism (.stall i) d.location d.observed d.expected s)).saf.detections =
      add48 s.saf.detections 1) ∧
  (∀ (now : W64) (f : Fence), (fencedEntry now f).state =
    (if 0 < f.times ∧ (now - f.fencedAt).toNat < dayTicks then .retired else .fenced))) ∧
  ((∀ (s : State) (m : SuspectMsg), isLead s = true → s.step.run.isSome = true → inEval s = false → m.epoch = runningEpoch s →
    m.attempt = s.step.attempt → s.step.decision = none → s.step.replaySent ≠ some (m.attempt + 1) →
    (s.step.replays < 3 → exec (.suspect m) s = .next (emit (.replay m.epoch (m.attempt + 1))
      (s.withStep { s.step with replaySent := some (m.attempt + 1) }))) ∧
    (3 ≤ s.step.replays → exec (.suspect m) s = .next (replayLimit s))) ∧
  (∀ (s : State) (attempt : Byte), s.step.run.isSome = true → inEval s = false → s.step.attempt.toNat < attempt.toNat →
    (∀ m, s.load.phys = some m → m.roles.all (fun r => stallInService s r.stall.val) = true) →
    ∃ u, exec (.replay (runningEpoch s) attempt) s = .next (startColls (readInputs u)) ∧ u.step.attempt = attempt ∧
      u.step.suspect = false ∧ u.step.prepared = false ∧ u.step.replays = s.step.replays + 1 ∧
      u.job.draws = s.job.point.draws ∧ u.job.collSeq = s.job.point.collSeq ∧ u.ledger.dir = s.job.point.dir ∧
      u.house.carries = s.job.point.carries ∧ committed u = committed s ∧ shadow u = [] ∧ u.tens.writes = [])) ∧
  ((∀ (s : State) (i : Fin 1024), testMayBegin s i = true →
    exec (.stallSelfTest i .pass) s = .next (setStall (beginTest i s) i
      { getStall (beginTest i s) i with testedAt := s.awn.tick, testedEpoch := runningEpoch s })) ∧
  (∀ (s : State) (i : Fin 1024) (p l : W32), testMayBegin s i = true →
    (holdsRole s i = false → exec (.stallSelfTest i (.faultyUnit p l)) s =
      .next (fenceStall i (nextSeq s) (selfTestFail 0 (.stall i) p l (beginTest i s)))) ∧
    (holdsRole s i = true → exec (.stallSelfTest i (.faultyUnit p l)) s =
      .next (markSuspect (.stall i) (nextSeq s) (fenceStall i (nextSeq s) (selfTestFail 0 (.stall i) p l (beginTest i s)))))) ∧
  (∀ (s : State) (i : Fin 1024) (t : SelfTest), testMayBegin s i = false → exec (.stallSelfTest i t) s = .next s) ∧
  (∀ (s : State) (row : Nat) (p : Fin 16), exec (.unitSelfTest row (.pipe p) false) s =
    .next (fencePipe p (nextSeq s) (selfTestFail row (.pipe p) 0 0 s))) ∧
  (∀ (s : State) (row : Nat) (u : UnitId), exec (.unitSelfTest row u true) s = .next s) ∧
  (∀ (now : W64) (f : Fence), retestDue now f = true ↔ (∃ t, f.retested = some t ∧ 500000000 ≤ (now - t).toNat) ∨
    (f.retested = none ∧ 1000000000 ≤ (now - f.fencedAt).toNat)) ∧
  (∀ (s : State) (i : Fin 1024) (f : Fence) (pass : Bool), sget {} s.saf.stalls i.val = f → f.state = .fenced →
    retestDue s.awn.tick f = false →
    exec (.fencedRetest false i pass) s = .next (s.withSaf { s.saf with stalls := sput {} s.saf.stalls i.val f })) ∧
  (∀ (s : State) (i : Fin 1024) (f : Fence) (w : Option W64), sget {} s.saf.stalls i.val = f → f.state = .fenced →
    retestDue s.awn.tick f = true → w = some s.awn.tick →
    (f.passes < 2 → exec (.fencedRetest false i true) s =
      .next (s.withSaf { s.saf with stalls := sput {} s.saf.stalls i.val { f with passes := f.passes + 1, retested := w } })) ∧
    (2 ≤ f.passes → exec (.fencedRetest false i true) s = .next (logFence (.stall i) .restorable 0 (s.withSaf { s.saf with
      stalls := sput {} s.saf.stalls i.val { f with state := .restorable, passes := f.passes + 1, retested := w } }))) ∧
    exec (.fencedRetest false i false) s =
      .next (s.withSaf { s.saf with stalls := sput {} s.saf.stalls i.val { f with passes := 0, retested := w } })))

/-- Logbook records enter the queue, reach the MRAM and are read; STATS_READ writes the groups it names.
LOGBOOK_QUEUE_ROOM admits a waiting group that fits, with the next sequence numbers; LOGBOOK_MRAM_WRITE moves the oldest
record to the current segment; a low-severity group that finds the queue past its mark is counted lost. STATS_READ with
a legal group mask writes one STATS record for each counter of the groups named and ends OK; an empty or too wide mask
ends BAD_DESCRIPTOR. LOGBOOK_READ without release writes the records held between its two sequence numbers, then one
LOG_SUMMARY record, and releases nothing. Rests on 15_integrity_and_safety.md (R490, R491, R492, R495),
20_telemetry_and_debug.md (R609, R610, R611), 16_host_interface.md (R533). -/
def Obligations.LogbookRecordsAndCountersAreRead : Prop :=
  ((∀ (s : State) (g : List LogRec), s.log.waiting = [g] → s.log.queue.length + g.length ≤ 4096 →
    Completes .logbookQueueRoom s (fun t => t = ((s.withBus t.bus).withLog t.log).withSaf t.saf ∧
        t.log.waiting = [] ∧ t.log.queue.length = s.log.queue.length + g.length ∧
      t.log.nextSeq = s.log.nextSeq + BitVec.ofNat 64 g.length ∧ t.log.segs = s.log.segs ∧ t.mbx = s.mbx ∧ t.step = s.step ∧
      t.tens = s.tens)) ∧
  (∀ (s : State) (r : LogRec) (l : List LogRec), s.log.queue = r :: l → r.sev ≠ 4 → s.log.lost = 0 →
    (sget [] s.log.segs s.log.seg).length + 1 < 65536 →
    exec .logbookMramWrite s = .next (s.withLog { s.log with
      queue := l, segs := sput [] s.log.segs s.log.seg (sget [] s.log.segs s.log.seg ++ [r]) })) ∧
  (∀ (s : State) (r : LogRec) (rs : List LogRec), r.sev.toNat < 2 → 3840 < s.log.queue.length → neverDropped r.code r.sev = false →
    offerGroup (r :: rs) s = s.withLog { s.log with
      lost := s.log.lost + (rs.length + 1), lostWindow := s.log.lostWindow + (rs.length + 1) })) ∧
  ((∀ (s : State) (k : CmdRef) (c : Cmd) (eval : Bool) (rs : List StatRec), ready s k 0x70 = some c → field c.bytes 80 8 ≠ 0 →
    field c.bytes 80 8 < 8192 → field c.bytes 88 1 % 2 = 0 → eval = decide (field c.bytes 88 1 / 2 % 2 = 1) →
    rs = ((List.range 13).filter (fun g => decide (field c.bytes 80 8 / 2 ^ g % 2 = 1))).flatMap (groupRecords s eval) →
    exec (.statsRead k) s = .next (finish k rOK (updCmd k (fun c' => { c' with progress := (writtenOf (resultCap c) rs).length })
      (rs.foldl (fun s r => addRecord k (statBytes eval r) s) s)))) ∧
  (∀ (s : State) (k : CmdRef) (c : Cmd), ready s k 0x70 = some c → (field c.bytes 80 8 = 0 ∨ 8192 ≤ field c.bytes 80 8) →
    exec (.statsRead k) s = .next (finish k rBadDescriptor s)) ∧
  (∀ (s : State) (k : CmdRef) (c : Cmd) (out : List LogRec), ready s k 0x71 = some c → field c.bytes 96 2 = 0 → field c.bytes 98 1 = 0 →
    out = ((heldRecords s).filter (fun r => decide (field c.bytes 80 8 ≤ r.seq.toNat) && decide (r.seq.toNat ≤ field c.bytes 88 8))).take
      ((bufA c).bytes / 64) →
    Completes (.logbookRead k 0) s (fun t => t.log = s.log ∧ t.saf = s.saf ∧ t.tal = s.tal ∧ t.job = s.job ∧ t.tens = s.tens ∧
      t = finish k rOK (addRecord k (logSummary s out (absentCount s (field c.bytes 80 8) (field c.bytes 88 8) 0 out) [])
        (setProgress k out.length (writeBuf (bufA c) 0 (out.flatMap logBytes) s))))))

/-- FUNC_ENABLE and FUNC_DISABLE begin, join or await transitions; their end turns a Hall on or off. For a function with
no pending request: FUNC_ENABLE of an OFF function starts it and joins, of an ON one ends OK, of a STARTING one joins,
of a STOPPING one is held; FUNC_DISABLE the same with the states exchanged. FUNCTION_TRANSITION_DONE of a starting Hall
makes it ON and sets its HALLS_ON bit unless the Hall is lost; of a stopping Hall makes it OFF, clears the bit and drops
its stalls. ETHERNET_LANE_FAULT on an ON port takes the port's routes down. Each clause gives what else is unchanged.
Rests on 19_power_clocks_startup.md (R599, R600, R601), 16_host_interface.md (R528), 11_fabric_links_and_time.md (R316),
13_intersite_exchange.md (R417). -/
def Obligations.FunctionsMakeTransitions : Prop :=
  (∀ (s : State) (k : CmdRef) (c : Cmd) (f : Func), ready s k 0x60 = some c → funcOf (field c.bytes 80 1) = some f →
    alreadyWaits s k = false → enableBad s f c = false → (getFn s f).pending = none →
    ((getFn s f).state = .off → exec (.funcEnable k) s = .next (joinFn f k (beginStart f (reachArg c) s))) ∧
    ((getFn s f).state = .on → exec (.funcEnable k) s = .next (finish k rOK s)) ∧
    ((getFn s f).state = .starting → exec (.funcEnable k) s = .next (joinFn f k s)) ∧
    ((getFn s f).state = .stopping → exec (.funcEnable k) s = .next (holdFn f k s))) ∧
  (∀ (s : State) (k : CmdRef) (c : Cmd) (f : Func), ready s k 0x61 = some c → funcOf (field c.bytes 80 1) = some f →
    alreadyWaits s k = false → disableBad s f = false → (getFn s f).pending = none →
    ((getFn s f).state = .on → exec (.funcDisable k) s = .next (joinFn f k (beginStop f s))) ∧
    ((getFn s f).state = .off → exec (.funcDisable k) s = .next (finish k rOK s)) ∧
    ((getFn s f).state = .stopping → exec (.funcDisable k) s = .next (joinFn f k s)) ∧
    ((getFn s f).state = .starting → exec (.funcDisable k) s = .next (holdFn f k s))) ∧
  (∀ (s : State) (h : Fin 4) (l : List CmdRef), getFn s (.hall h) = { state := .starting, joined := l, pending := none } →
    Completes (.functionTransitionDone (.hall h)) s (fun t => getFn t (.hall h) = { state := .on } ∧
      t.dev.hallsOn = s.dev.hallsOn ||| ((1 : BitVec 4) <<< h.val &&& ~~~s.saf.hallsLost) ∧ t.stalls = s.stalls ∧ t.awn = s.awn)) ∧
  (∀ (s : State) (h : Fin 4) (l : List CmdRef), getFn s (.hall h) = { state := .stopping, joined := l, pending := none } →
    Completes (.functionTransitionDone (.hall h)) s (fun t => getFn t (.hall h) = {} ∧
      t.dev.hallsOn = s.dev.hallsOn &&& ~~~((1 : BitVec 4) <<< h.val) ∧
      t.stalls = s.stalls.filter (fun p => decide (p.1 / 256 ≠ h.val)) ∧ t.awn = s.awn)) ∧
  (∀ (s : State) (e : EthPort) (lane : Fin 8), fnOn s (.eth e) = true →
    exec (.ethernetLaneFault e lane) s = .next (routesDown e (s.withBus { s.bus with ethDown := s.bus.ethDown ||| ethBit e })))

/-- Attestations wait for a leaf and are signed once; key installs take effect only when their packages check. ATTEST
joins the signing queue while a leaf and the window's allowance remain, ends AUTH_FAIL with no leaf, and waits past the
allowance, which a queued ATTEST counts against; ATTEST_WINDOW opens a new allowance once the window has passed; using a
leaf raises a stored leaf index above it; SIGNATURE signs the first request with the next leaf. A membership package
with a valid certificate of the own key is stored, logged and extended into register 5; a firmware package whose three
images verify is written to the other bank and then preferred; a key revocation with a valid package sets the slot's bit
unless it is its own or the last key; a debug unlock of this module and boot unlocks. The chosen extent of each effect
is said clause by clause. Rests on 18_security.md (R560, R567, R568, R569, R571, R572, R573, R574, R575). -/
def Obligations.KeysAndAttestationsAreChecked : Prop :=
  ((∀ (s : State) (k : CmdRef) (c : Cmd), ready s k 0x80 = some c → c.phase = .queued → attestBytes s ≤ (bufA c).bytes →
    attWindowOf s.awn.tick = s.sec.attWindow →
    (leafCount ≤ s.sec.nextLeaf → exec (.attest k) s = .next (finish k rAuthFail s)) ∧
    (s.sec.nextLeaf < leafCount → s.sec.attSigned < 16 → exec (.attest k) s = .next (setRunning k (s.withSec { s.sec with
      attSigned := s.sec.attSigned + 1, signQueue := s.sec.signQueue ++ [.attest k] }))) ∧
    (s.sec.nextLeaf < leafCount → 16 ≤ s.sec.attSigned → exec (.attest k) s = .next s)) ∧
  (∀ (s : State), attWindowOf s.awn.tick ≠ s.sec.attWindow →
    s.mbx.cmds.filter (fun c => decide (cmdOp c = 0x80) && !c.isRepeat && decide (c.phase = .queued)) = [] →
    exec .attestWindow s = .next (s.withSec
      { s.sec with attWindow := attWindowOf s.awn.tick, attSigned := (s.sec.signQueue.filter isAttest).length })) ∧
  (∀ (s : State), (useLeaf s).1 = s.sec.nextLeaf ∧ (useLeaf s).2.sec.nextLeaf = s.sec.nextLeaf + 1 ∧
    s.sec.nextLeaf < max (useLeaf s).2.sec.leafA.1 (useLeaf s).2.sec.leafB.1) ∧
  (∀ (s : State) (k : CmdRef) (c : Cmd) (l : List SignReq), s.sec.signQueue = .attest k :: l → s.sec.cacheOk = true →
    s.saf.clerkFenced ≠ 3 → findCmd s k = some c → attestBytes s ≤ (bufA c).bytes → s.sec.nextLeaf < leafCount →
    Completes .signature s (fun t => t.sec.nextLeaf = s.sec.nextLeaf + 1 ∧ t.sec.signQueue = l ∧
      t.sec.meas = s.sec.meas ∧ t.sec.attLog = s.sec.attLog ∧ t.job = s.job ∧ t.tens = s.tens))) ∧
  ((∀ (s : State) (k : CmdRef) (c : Cmd) (b : Bytes), keyReady s k 1 = some c → b = package s c → certForm 1 b = true →
    certValid s.awn.rtc b = true → certSubject b = Config.idkHash → field b 108 8 = Config.serial.toNat →
    (putCert b s.sec.memberships).length ≤ 4 →
    exec (.membership k) s = .next (finish k rOK (logSecurity 6 ((hash32 (certIssuer b)).take 16)
      (extend 5 (hash32 b) (s.withSec { s.sec with memberships := putCert b s.sec.memberships }))))) ∧
  (∀ (s : State) (k : CmdRef) (c : Cmd), keyReady s k 2 = some c → s.sec.installing = none → firmwareForm (package s c) = true →
    (∀ i : Fin 3, imageOk s i.val ((packageImages (package s c)).getD i.val []) = true) →
    Completes (.firmware k) s (fun t => t = ((((((s.withBus t.bus).withLog t.log).withMbx t.mbx).withMem t.mem).withOut t.out).withSaf t.saf).withSec t.sec ∧
        t.sec = { s.sec with installing := some k, nor := [0, 1, 2].foldl (fun m i =>
        writeBytes m (imageBase (!s.sec.bootedB) i) ((packageImages (package s c)).getD i [])) s.sec.nor } ∧
      t.saf = s.saf ∧ t.dev = s.dev ∧ t.awn = s.awn)) ∧
  (∀ (s : State) (k : CmdRef) (c : Cmd), keyReady s k 2 = some c → s.sec.installing = some k →
    norFails s (!s.sec.bootedB) 0 = none → norFails s (!s.sec.bootedB) 1 = none → norFails s (!s.sec.bootedB) 2 = none →
    Completes (.firmware k) s (fun t => t = ((((((s.withBus t.bus).withLog t.log).withMbx t.mbx).withMem t.mem).withOut t.out).withSaf t.saf).withSec t.sec ∧
        t.sec = { s.sec with installing := none, preferB := !s.sec.bootedB } ∧
      t.dev = s.dev ∧ t.awn = s.awn)) ∧
  (∀ (s : State) (k : CmdRef) (c : Cmd) (b : Bytes) (slot : Nat), keyReady s k 3 = some c → b = package s c → b.length = 4160 →
    (parseHdr b).bytes = 64 → slot = field b 4096 1 → slot < 4 → failedCheck s 4 (parseHdr b) (b.drop 4096) = none →
    (parseHdr b).keySlot ≠ slot → s.sec.revoked ||| (1 : BitVec 4) <<< slot ≠ 15 →
    Completes (.keyRevoke k) s (fun t => t = ((((((s.withBus t.bus).withLog t.log).withMbx t.mbx).withMem t.mem).withOut t.out).withSaf t.saf).withSec t.sec ∧
        t.sec = { s.sec with revoked := s.sec.revoked ||| (1 : BitVec 4) <<< slot } ∧
      t.dev = s.dev ∧ t.awn = s.awn ∧ t.dbg = s.dbg)) ∧
  (∀ (s : State) (k : CmdRef) (c : Cmd) (b : Bytes), keyReady s k 4 = some c → b = package s c → b.length = 4160 →
    (parseHdr b).bytes = 64 → failedCheck s 5 (parseHdr b) (b.drop 4096) = none → field b 4096 8 = Config.serial.toNat →
    field b 4104 8 = s.dev.bootId.toNat →
    Completes (.debugUnlock k) s (fun t => t.dbg = { s.dbg with locked := false } ∧ t.sec.unlocked = true ∧
      t.sec.revoked = s.sec.revoked ∧ t.sec.svn = s.sec.svn ∧ t.dev = s.dev ∧ t.awn = s.awn)))

/-- Start-up runs its phases: rails, fuses, verified images, training, self-test, links, READY; failures fall back or
latch off. RAILS_UP asserts PG and keeps the Halls that came up; FUSES raises the version floor; LOADER verifies image 0
of the chosen bank and extends register 0, or counts the bank as failed (the first time the other bank is tried, the
second time recovery); FIRMWARE_VERIFY, BOOT_IDENTITY and READY complete their phases; CACHE_REBUILT logs and completes
the signing cache. Far-tier training retries once and then latches off; the self-test and links end as their clauses
say, and a phase that passes its bound ends as its clause says and not before. Each clause gives what else is unchanged.
Rests on 18_security.md (R559, R561, R562, R563, R564, R565, R567, R581), 19_power_clocks_startup.md (R595, R597, R598,
R599). -/
def Obligations.BootIsVerifiedAndRuns : Prop :=
  ((∀ (s : State) (n : Nat), s.pwr.phase = .fuses →
    exec (.fuses n) s = .next ((s.withSec { s.sec with svn := min 128 (max s.sec.svn n) }).withPwr { s.pwr with phase := .loader, phaseSince := s.awn.tick })) ∧
  (∀ (s : State), s.pwr.phase = .loader →
    (norFails s (bootBank s) 0 = none → exec .loader s = .next (extend 0 (norHdr s (bootBank s) 0).digest
      ((s.withSec { s.sec with bootedB := bootBank s }).withPwr { s.pwr with phase := .firmware, phaseSince := s.awn.tick }))) ∧
    (∀ c, norFails s (bootBank s) 0 = some c → exec .loader s = .next (bankFails 0 c s))) ∧
  (∀ (s : State), s.pwr.phase = .firmware → norFails s s.sec.bootedB 1 = none → norFails s s.sec.bootedB 2 = none →
    Completes .firmwareVerify s (fun t => t = (((((s.withBus t.bus).withFree t.free).withLog t.log).withPwr t.pwr).withSaf t.saf).withSec t.sec ∧
        t.pwr = { s.pwr with phase := .identity, phaseSince := s.awn.tick } ∧ t.sec.bootedB = s.sec.bootedB ∧
      t.sec.svn = s.sec.svn ∧ t.sec.revoked = s.sec.revoked ∧ t.sec.nor = s.sec.nor ∧ t.dev = s.dev ∧ t.mbx = s.mbx)) ∧
  (∀ (s : State) (image check : Nat), s.sec.failedBank = none → bankFails image check s =
    (s.withSec { s.sec with failedBank := some (s.sec.preferB, image, check), fallback := true }).withPwr { s.pwr with phase := .loader, phaseSince := s.awn.tick }) ∧
  (∀ (s : State) (image check : Nat) (x : Bool × Nat × Nat), s.sec.failedBank = some x →
    (bankFails image check s).pwr = { s.pwr with phase := .recovery, phaseSince := s.awn.tick }) ∧
  (∀ (s : State) (b : Bool), s.pwr.phase = .identity →
    exec (.bootIdentity b) s = .next (startFunctions ((resumeLeaf s).withSec { (resumeLeaf s).sec with cacheOk := b }))) ∧
  (∀ (s : State) (ms : W32), s.sec.cacheOk = false → s.pwr.phase = .done →
    exec (.cacheRebuilt ms) s = .next (logSecurity 9 (natLe 4 ms.toNat) (s.withSec { s.sec with cacheOk := true }))) ∧
  (∀ (s : State), s.pwr.phase = .ready →
    Completes .ready s (fun t => t = (((((((s.withBus t.bus).withDev t.dev).withLog t.log).withMbx t.mbx).withPwr t.pwr).withSaf t.saf).withSec t.sec).withTal t.tal ∧
        t.mbx = { s.mbx with ready := true } ∧ t.dev = bootDev s ∧ t.tal.opened = s.awn.tick ∧
      t.pwr = { s.pwr with phase := .done, state := activeState s.pwr } ∧ t.awn = s.awn ∧ t.ports = s.ports ∧ t.fns = s.fns))) ∧
  ((∀ (s : State) (halls : BitVec 4), s.pwr.phase = .rails → s.pwr.state = .starting → s.pwr.pg = false →
    Completes (.railsUp halls) s (fun t => t = ((((s.withBus t.bus).withDev t.dev).withOut t.out).withPwr t.pwr).withSaf t.saf ∧
        t.pwr = { s.pwr with phase := .fuses, pg := true, phaseSince := s.awn.tick } ∧
      t.dev = { s.dev with hallsOn := halls } ∧ t.out = (if s.dbg.extest then s.out else s.out ++ [.pin "PG" true]) ∧
      t.bus.trainArmed = (s.bus.trainArmed || !s.bus.perst) ∧ t.mbx = s.mbx ∧ t.mem = s.mem)) ∧
  (∀ (s : State), s.pwr.phase = .parallel → s.pwr.parDone.1 = false →
    exec (.farTierTraining 0) s = .next (parallelEnd ((s.withMem { s.mem with far := [] }).withPwr
      { s.pwr with parDone := (true, s.pwr.parDone.2) }))) ∧
  (∀ (s : State) (failed : BitVec 24), s.pwr.phase = .parallel → s.pwr.parDone.1 = false → failed ≠ 0 →
    (s.pwr.farRetried = false → exec (.farTierTraining failed) s = .next (s.withPwr { s.pwr with farRetried := true })) ∧
    (s.pwr.farRetried = true → Completes (.farTierTraining failed) s (fun t => t.pwr.state = .latched ∧ t.pwr.startFault = true ∧
      t.pwr.phase = .wait ∧ t.mbx = {} ∧ t.mem.near = [] ∧ t.awn = s.awn))) ∧
  (∀ (s : State), s.pwr.phase = .parallel → s.pwr.parDone.2.1 = false → s.pwr.parDone.1 = false →
    Completes (.startupSelfTest []) s (fun t => t = (((((s.withBus t.bus).withFns t.fns).withLog t.log).withMem t.mem).withPwr t.pwr).withSaf t.saf ∧
        t.mem = { s.mem with near := [] } ∧ t.saf = { s.saf with startTest := s.awn.tick } ∧
      t.pwr = { s.pwr with parDone := (false, true, s.pwr.parDone.2.2) } ∧
      (∀ h : Fin 4, (getFn s (.hall h)).state = .starting → (getFn t (.hall h)).state = .on) ∧ t.mbx = s.mbx)) ∧
  (∀ (s : State), s.pwr.phase = .parallel → s.pwr.parDone = (true, true, false) → s.ports.toList.all portTrained = true →
    Completes .startupLinks s (fun t => t = (s.withFns t.fns).withPwr t.pwr ∧
        t.pwr = { s.pwr with phase := .ready, parDone := (true, true, true), phaseSince := s.awn.tick } ∧
      (∀ p, (getFn s (.torus p)).state = .starting → (getFn t (.torus p)).state = .on) ∧ t.ports = s.ports ∧ t.mem = s.mem)) ∧
  (∀ (s : State) (ph : StartPhase), ph ≠ s.pwr.phase → exec (.startupPhaseTimeout ph) s = .next s) ∧
  (∀ (s : State) (ph : StartPhase), (s.awn.tick - s.pwr.phaseSince).toNat ≤ phaseBound s.pwr ph → exec (.startupPhaseTimeout ph) s = .next s) ∧
  (∀ (s : State) (ph : StartPhase), s.pwr.state = .starting → ph = s.pwr.phase →
    ph ∈ [.rails, .fuses, .loader, .firmware, .identity, .parallel, .ready] → phaseBound s.pwr ph < (s.awn.tick - s.pwr.phaseSince).toNat →
    Completes (.startupPhaseTimeout ph) s (fun t => t.pwr.state = .latched ∧ t.pwr.startFault = true ∧ t.pwr.phase = .wait ∧
      t.mbx = {} ∧ t.job = {} ∧ t.awn = s.awn)))

/-- The TAP selects its instructions, segments open when powered and unlocked, instruments answer through open segments.
With the Awning on, EXTEST in NO_HELLO enters EXTEST and otherwise acts as BYPASS; SAMPLE_PRELOAD, IDCODE, IJTAG and
every other code select their registers and shift out their values; Test-Logic-Reset selects IDCODE. A powered segment
opens unless it is locked. The Logbook instrument answers the bytes at its addresses and faults beyond them (the model's
fault for an address that does not exist). The SPI instrument writes the NOR in recovery only. That EXTEST outside
NO_HELLO acts as BYPASS is the model's choice (assumption log). Rests on 20_telemetry_and_debug.md (R615, R616, R617),
15_integrity_and_safety.md (R496), 18_security.md (R563, R575). -/
def Obligations.JtagReachesTheInstruments : Prop :=
  (∀ (s : State), s.awn.on = true → s.mbx.job = .noHello →
    exec .extest s = .next (s.withDbg { s.dbg with ir := .extest, tapActive := true, extest := true })) ∧
  (∀ (s : State), s.awn.on = true → s.mbx.job ≠ .noHello →
    exec .extest s = .next (s.withDbg { s.dbg with ir := .bypass, tapActive := true })) ∧
  (∀ (s : State) (p q : BitVec 64), s.awn.on = true →
    exec (.samplePreload p q) s = .next (emit (.tdo (bytesOf 64 q 8)) (s.withDbg { s.dbg with ir := .samplePreload, tapActive := true, boundary := p }))) ∧
  (∀ (s : State), s.awn.on = true →
    exec .idcode s = .next (emit (.tdo (bytesOf 32 idcodeValue 4)) (s.withDbg { s.dbg with ir := .idcode, tapActive := true }))) ∧
  (∀ (s : State), s.awn.on = true → exec .ijtagAccess s = .next (s.withDbg { s.dbg with ir := .ijtag, tapActive := true })) ∧
  (∀ (s : State) (code : Byte), s.awn.on = true → code ∉ otherCodes →
    exec (.bypass code) s = .next (s.withDbg { s.dbg with ir := .bypass, tapActive := true })) ∧
  (∀ (s : State) (b : Bool), exec (.testLogicReset b) s = .next (s.withDbg { s.dbg with ir := .idcode, tapActive := false })) ∧
  (∀ (s : State) (g : Fin 5), s.dbg.ir = .ijtag → segmentPowered s g = true →
    (segmentLocked s g = false → exec (.segmentInsert g true) s =
      .next (s.withDbg { s.dbg with segments := s.dbg.segments ||| ((1 : BitVec 5) <<< g.val) })) ∧
    (segmentLocked s g = true → exec (.segmentInsert g true) s =
      .next (s.withDbg { s.dbg with segments := s.dbg.segments &&& ~~~((1 : BitVec 5) <<< g.val) })) ∧
    exec (.segmentInsert g false) s = .next (s.withDbg { s.dbg with segments := s.dbg.segments &&& ~~~((1 : BitVec 5) <<< g.val) })) ∧
  (∀ (s : State) (addr : Nat), s.dbg.ir = .ijtag → segmentOpen s 0 = true → addr < 0x4000010 →
    exec (.logbookInstrumentRead addr) s = .next (emit (.tdo (instrumentBytes s addr)) (s.withDbg { s.dbg with instrument := instrumentBytes s addr }))) ∧
  (∀ (s : State) (addr : Nat), 0x4000010 ≤ addr → exec (.logbookInstrumentRead addr) s = .fault (.noSuchAddress addr)) ∧
  (∀ (s : State) (addr : BitVec 28) (b : Bytes), s.pwr.phase = .recovery → s.dbg.ir = .ijtag → segmentOpen s 1 = true →
    exec (.spiNorWrite addr b) s = .next (s.withSec { s.sec with nor := writeBytes s.sec.nor addr.toNat (b.take (0x10000000 - addr.toNat)) })) ∧
  (∀ (s : State) (addr : BitVec 28) (b : Bytes), s.pwr.phase ≠ .recovery → exec (.spiNorWrite addr b) s = .next s)

/-- Input voltage, PWR_EN, PG and timeouts drive the power states; power-off keeps only MRAM, NOR, fuses and flash.
AWNING_POWER_UP enters Standby with a fresh Awning and the Logbook continuing at its reserve. AWNING_POWER_OFF clears
every volatile state and keeps the Logbook segments, the NOR, the version floor and the flash images. Input out of range
for 100 us and back in range for 100 us set their events and may start the rails. PWR_EN asserted or deasserted begins
rails, shutdown or restart as the power state says; SHUTDOWN_DONE enters Sleep or Standby with volatile state cleared;
PG_DEASSERT completes the freezes; SLEEP_TIMEOUT after 300 s of Sleep, IDLE_ENTRY after 1 ms of rest and IDLE_EXIT with
new work change the state alone, and before that do nothing. Rests on 19_power_clocks_startup.md (R582, R584, R585,
R591, R592, R595, R632), 15_integrity_and_safety.md (R493). -/
def Obligations.InputAndPinsDriveThePowerStates : Prop :=
  ((∀ (s : State) (mv : Nat), s.awn.on = false → 40000 ≤ mv → (s.pwr.pwrEn = false ∨ mv < 46000 ∨ 60000 < mv) →
    Completes (.awningPowerUp mv) s (fun t => t.awn = { on := true } ∧ t.pwr.state = .standby ∧ t.pwr.phase = .wait ∧
      t.pwr.pwrEn = s.pwr.pwrEn ∧ t.saf = { stalls := s.saf.stalls, cellars := s.saf.cellars } ∧
      t.log.nextSeq = s.log.reserve ∧ t.log.segs = s.log.segs ∧ t.log.queue = [] ∧ t.mbx = s.mbx ∧ t.sec = s.sec)) ∧
  (∀ (s : State) (mv : Nat), mv < 36000 →
    Completes (.awningPowerOff mv) s (fun t => t.awn = {} ∧ t.mbx = {} ∧ t.mem.near = [] ∧ t.mem.far = [] ∧ t.stalls = [] ∧
      t.job = {} ∧ t.load = {} ∧ t.tens = {} ∧ t.fns = Vector.replicate 14 {} ∧ t.log.segs = s.log.segs ∧
      t.log.frozen = s.log.frozen ∧ t.sec.nor = s.sec.nor ∧ t.sec.svn = s.sec.svn ∧ t.snap.flash = s.snap.flash)) ∧
  (∀ (s : State) (mv : Nat), s.awn.on = true →
    (mv < 46000 → exec (.inputOutOfRange mv) s = .next (s.withPwr { s.pwr with
      undervolt := true, inRange := false, leftHigh := some false, mv := BitVec.ofNat 17 mv,
      outSince := if s.pwr.inRange then s.awn.tick else s.pwr.outSince })) ∧
    (60000 < mv → exec (.inputOutOfRange mv) s = .next (s.withPwr { s.pwr with
      overvolt := true, inRange := false, leftHigh := some true, mv := BitVec.ofNat 17 mv,
      outSince := if s.pwr.inRange then s.awn.tick else s.pwr.outSince }))) ∧
  (∀ (s : State) (mv : Nat), s.awn.on = true → recovered s.pwr.leftHigh mv = true →
    (s.pwr.pwrEn = false ∨ (s.pwr.state ≠ .standby ∧ s.pwr.state ≠ .sleep) → exec (.inputInRange mv) s =
      .next (s.withPwr { s.pwr with inRange := true, leftHigh := none, mv := BitVec.ofNat 17 mv })) ∧
    (s.pwr.pwrEn = true → (s.pwr.state = .standby ∨ s.pwr.state = .sleep) → exec (.inputInRange mv) s =
      .next (beginRails (s.withPwr { s.pwr with inRange := true, leftHigh := none, mv := BitVec.ofNat 17 mv })))) ∧
  (∀ (s : State), s.pwr.inRange = false → (s.awn.tick - s.pwr.outSince).toNat < 100000 → exec .inputRangeTimeout s = .next s) ∧
  (∀ (s : State), s.pwr.inRange = false → railsOn s = true → 100000 ≤ (s.awn.tick - s.pwr.outSince).toNat →
    Completes .inputRangeTimeout s (fun t => t = (((((s.withBus t.bus).withLog t.log).withOut t.out).withPwr t.pwr).withSaf t.saf).withStalls t.stalls ∧
        t.pwr = { s.pwr with state := .shutdown, rangeLoss := true, restart := false } ∧
      t.stalls = clearStalls s.stalls ∧ t.mbx = s.mbx ∧ t.job = s.job ∧ t.mem = s.mem ∧ t.awn = s.awn))) ∧
  ((∀ (s : State), s.pwr.state ≠ .shutdown →
    ((s.pwr.state = .standby ∨ s.pwr.state = .sleep) → s.pwr.inRange = true →
      exec (.pwrEnAssert true) s = .next (beginRails (s.withPwr { s.pwr with pwrEn := true }))) ∧
    (s.pwr.inRange = false → exec (.pwrEnAssert true) s = .next (s.withPwr { s.pwr with pwrEn := true }))) ∧
  (∀ (s : State), s.pwr.state = .shutdown →
    exec (.pwrEnAssert true) s = .next (s.withPwr { s.pwr with pwrEn := true, restart := true })) ∧
  (∀ (s : State), exec (.pwrEnAssert false) s = .next s ∧ exec (.pwrEnDeassert false) s = .next s) ∧
  (∀ (s : State), s.pwr.state = .latched →
    exec (.pwrEnDeassert true) s = .next (s.withPwr { s.pwr with pwrEn := false, restart := false, state := .standby })) ∧
  (∀ (s : State), railsOn s = true →
    Completes (.pwrEnDeassert true) s (fun t => t = (((((s.withBus t.bus).withLog t.log).withOut t.out).withPwr t.pwr).withSaf t.saf).withStalls t.stalls ∧
        t.pwr = { s.pwr with pwrEn := false, restart := false, state := .shutdown, rangeLoss := false } ∧
      t.stalls = clearStalls s.stalls ∧ t.mbx = s.mbx ∧ t.job = s.job ∧ t.awn = s.awn)) ∧
  (∀ (s : State), s.pwr.state = .shutdown → s.pwr.pwrEn = false →
    Completes .shutdownDone s (fun t => t.pwr.state = (if s.pwr.rangeLoss then .standby else .sleep) ∧ t.pwr.phase = .wait ∧
      t.pwr.pg = false ∧ t.pwr.sleepSince = s.awn.tick ∧ t.mbx = {} ∧ t.mem.near = [] ∧ t.mem.far = [] ∧ t.job = {} ∧ t.log = s.log ∧ t.saf = s.saf ∧ t.awn = s.awn)) ∧
  (∀ (s : State), s.pwr.pg = true → (∃ u, exec .pgDeassert s = .next (completeFreezes u) ∧ u.pwr.pg = false ∧
      (s.dbg.extest = false → (.pin "PG" false) ∈ u.out) ∧ u.mbx = s.mbx ∧ u.mem = s.mem)) ∧
  (∀ (s : State), s.pwr.state = .sleep → exec .sleepTimeout s = .next
    (if 300000000000 ≤ (s.awn.tick - s.pwr.sleepSince).toNat then s.withPwr { s.pwr with state := .standby } else s)) ∧
  (∀ (s : State), (s.pwr.state = .p0 ∨ s.pwr.state = .p1) → workPresent s = false → exec .idleEntry s = .next
    (if 1000000 ≤ s.pwr.restTicks then s.withPwr { s.pwr with state := .idle } else s)) ∧
  (∀ (s : State), workPresent s = true → exec .idleEntry s = .next s) ∧
  (∀ (s : State), s.pwr.state = .idle → exec .idleExit s = .next
    (if workPresent s then s.withPwr { s.pwr with state := activeState s.pwr } else s)))

/-- Current, temperature, loss of control and power caps throttle or stop the Halls; the telemetry window closes on its
grid. CURRENT_GATING above 92 A and its release below 85 A set and clear the gating. THROTTLE_INTERVAL takes the watts,
sets CAP_HIT when the cap is passed and moves every Hall by its interval rule. A reading that changes no level is only
stored. THERMAL_LIMIT with a Hall gated for 1 s ends the run THERMAL_LIMIT; loss of a Hall's rail turns the Hall off. A
power cap from 1,000 to 4,000 W is taken and moves the ladder, any other value is ignored; the requested state is taken
when legal. TELEMETRY_WINDOW_CLOSE adds one window record to the ring of 64 and sets the next close on the window's
grid. The power model is a free function of the configuration. Rests on 19_power_clocks_startup.md (R583, R587, R588,
R589, R590), 17_register_reference.md (R551, R552), 15_integrity_and_safety.md (R478), 20_telemetry_and_debug.md (R607,
R608), 07_memory_tiers.md (R178). -/
def Obligations.HeatCurrentAndCapsThrottle : Prop :=
  ((∀ (s : State) (ma : Nat), railsOn s = true → 92000 < ma →
    exec (.currentGating ma) s = .next (s.withPwr { s.pwr with currentGated := true, ma := BitVec.ofNat 17 ma })) ∧
  (∀ (s : State) (ma : Nat), ma < 85000 →
    exec (.currentGatingRelease ma) s = .next (s.withPwr { s.pwr with currentGated := false, ma := BitVec.ofNat 17 ma })) ∧
  (∀ (s : State) (w : Nat) (l : List Nat), railsOn s = true →
    Completes (.throttleInterval w l) s (fun t => t = (s.withPwr t.pwr).withTal t.tal ∧
        t.pwr.watts = BitVec.ofNat 13 w ∧
      t.pwr.capHit = (s.pwr.capHit || decide (capInForce s.pwr < w)) ∧
      (∀ h : Fin 4, t.pwr.halls[h] = hallInterval s (capInForce s.pwr) w l h) ∧ t.tal.winPeak = max s.tal.winPeak w ∧
      t.tal.winEnergy = s.tal.winEnergy + w * 100000000 ∧ t.mbx = s.mbx ∧ t.fns = s.fns ∧ t.stalls = s.stalls)) ∧
  (∀ (s : State) (h : Fin 4) (i : Fin 16) (t : Int), railsOn s = true → swf 0 s.pwr.levels = true →
    levelOf [100, 110, 118] (sget 0 s.pwr.levels (16 * h.val + i.val)) t = sget 0 s.pwr.levels (16 * h.val + i.val) →
    exec (.thermalLevel (.hallDie h i) t) s = .next (enterReading (.hallDie h i) t s)) ∧
  (∀ (s : State) (since : W64), s.pwr.gatedSince = some since → s.step.run.isSome = true → exec .thermalLimit s = .next
    (if 1000000000 ≤ (s.awn.tick - since).toNat then emit (.thermalLimit (memberIndex s)) (endRun rThermalLimit {} s) else s)) ∧
  (∀ (s : State), s.pwr.gatedSince = none → exec .thermalLimit s = .next s) ∧
  (∀ (s : State) (h : Fin 4), railsOn s = true →
    Completes (.lossOfControl (.hallRail h)) s (fun t => getFn t (.hall h) = { state := .off, lostOff := true } ∧
      t.dev.hallsOn = s.dev.hallsOn &&& ~~~((1 : BitVec 4) <<< h.val) ∧
      t.stalls = s.stalls.filter (fun p => decide (p.1 / 256 ≠ h.val)) ∧ t.saf.selfFailed.isSome = true ∧ t.mbx = s.mbx)) ∧
  (∀ (s : State) (c : Fin 1024) (base top : Int), railsOn s = true →
    exec (.cellarTemperatureSample c base top) s = .next (cellarTemp c (max base top) s)) ∧
  (∀ (s : State) (c : Fin 1024) (t : Int), sget {} s.mem.cellars c.val = {} → sget 0 s.pwr.levels (64 + c.val) = 0 →
    85 ≤ t → t < 95 → (sget {} (cellarTemp c t s).mem.cellars c.val).row = 1)) ∧
  ((∀ (s : State) (v : W32), hostReaches s = true →
    ((v.extractLsb' 0 13).toNat < 1000 ∨ 4000 < (v.extractLsb' 0 13).toNat → exec (.powerCapChange true v) s = .next s) ∧
    (1000 ≤ (v.extractLsb' 0 13).toNat → (v.extractLsb' 0 13).toNat ≤ 4000 →
      Completes (.powerCapChange true v) s (fun t => t.pwr.cap = v.extractLsb' 0 13 ∧ t = s.withPwr t.pwr ∧
        (v.extractLsb' 0 13 ≠ s.pwr.cap → ∀ h : Fin 4, t.pwr.halls[h].powerMhz = rung (Config.powerModel (capInForce t.pwr) h)))) ∧
    (1 < (v.extractLsb' 8 3).toNat → exec (.powerCapChange false v) s = .next s) ∧
    ((v.extractLsb' 8 3).toNat ≤ 1 → Completes (.powerCapChange false v) s (fun t => t.pwr.requestP1 = decide ((v.extractLsb' 8 3).toNat = 1) ∧
      t = s.withPwr t.pwr ∧ t.pwr.cap = s.pwr.cap))) ∧
  (∀ (s : State) (cap : Bool) (v : W32), hostReaches s = false → exec (.powerCapChange cap v) s = .next s) ∧
  (∀ s : State, s.pwr.phase = .done → s.tal.closes.toNat ≤ s.awn.tick.toNat →
    Completes .telemetryWindowClose s (fun t => t = (s.withLog t.log).withTal t.tal ∧
        t.tal.ring.getLast? = some (windowRecord s) ∧ t.tal.opened = s.tal.closes ∧
      (s.tal.ring.length < 64 → t.tal.ring = s.tal.ring ++ [windowRecord s]) ∧
      (s.tal.ring.length = 64 → t.tal.ring = s.tal.ring.drop 1 ++ [windowRecord s]) ∧
      t.tal.winCounts = [] ∧ t.tal.winEnergy = 0 ∧ t.tal.winPeak = 0 ∧ t.tal.counts = s.tal.counts ∧ t.log.lostWindow = 0 ∧
      (0 < s.tal.window.toNat → s.tal.closes.toNat + s.tal.window.toNat < 2 ^ 64 → s.tal.closes.toNat < t.tal.closes.toNat ∧
        t.tal.closes.toNat % s.tal.window.toNat = 0 ∧ t.tal.closes.toNat ≤ s.tal.closes.toNat + s.tal.window.toNat))) ∧
  (∀ s : State, s.awn.tick.toNat < s.tal.closes.toNat → exec .telemetryWindowClose s = .next s))

/-- PERST_N, link training, link loss and Bus Master Enable change the host link and nothing of the job. PERST_N
asserted takes the link down, stops descriptor taking and resets the registers of its reset class, and keeps the job,
the load, the Awning and the Logbook; deasserted it arms training when PG holds. Training gives a link at 1, 2, 4 or 8
lanes and 32 or 64 GT/s, else the link stays down. Link loss stops descriptor taking. Setting Bus Master Enable resumes
stalls that wait for the host. Glitches shorter than the filter change nothing. That PERST_N also clears Bus Master
Enable is the model's presumption and is not stated here. Rests on 16_host_interface.md (R497, R501, R502),
19_power_clocks_startup.md (R598, R630, R632). -/
def Obligations.HostLinkComesUpAndGoesDown : Prop :=
  (∀ (s : State), Completes (.perstNAssert true) s (fun t => t = (((((s.withBus t.bus).withDbg t.dbg).withDev t.dev).withMbx t.mbx).withPwr t.pwr).withTal t.tal ∧
        t.bus.perst = true ∧ t.bus.linkUp = false ∧ t.bus.trainArmed = false ∧
    t.mbx = { s.mbx with takes := false } ∧ t.job = s.job ∧ t.load = s.load ∧ t.awn = s.awn ∧ t.saf = s.saf ∧ t.log = s.log ∧
    (exchangeOn s = true → t.dev.scratch = 0 ∧ t.tal.window = 0x0EE6B280 ∧ t.tal.select = 0 ∧ t.pwr.cap = 0xFA0))) ∧
  (∀ (s : State), exec (.perstNDeassert true) s = .next (s.withBus { s.bus with
    perst := false, trainArmed := s.bus.trainArmed || (s.pwr.pg && !s.bus.linkUp) })) ∧
  (∀ (s : State), exec (.perstNAssert false) s = .next s ∧ exec (.perstNDeassert false) s = .next s) ∧
  (∀ (s : State) (lanes gts : Nat), s.bus.trainArmed = true →
    ((lanes ∈ [1, 2, 4, 8] ∧ gts ∈ [32, 64]) → exec (.hostLinkTrained lanes gts) s = .next (s.withBus { s.bus with
      trainArmed := false, linkUp := true, width := lanes, rate := gts })) ∧
    (¬ (lanes ∈ [1, 2, 4, 8] ∧ gts ∈ [32, 64]) → exec (.hostLinkTrained lanes gts) s = .next (s.withBus { s.bus with
      trainArmed := false, linkUp := false }))) ∧
  (∀ (s : State), s.bus.linkUp = false → s.bus.perst = false → s.pwr.pg = true →
    exec .hostRetrainTimer s = .next (s.withBus { s.bus with trainArmed := true })) ∧
  (∀ (s : State), exec .hostLinkDown s =
    .next ((s.withBus { s.bus with linkUp := false, trainArmed := false }).withMbx { s.mbx with takes := false })) ∧
  (∀ (s : State), hostReaches s = true →
    exec .busMasterEnableSet s = .next ((s.withBus { s.bus with busMaster := true }).withStalls (resumeHost s.stalls)) ∧
    exec .busMasterEnableClear s = .next (s.withBus { s.bus with busMaster := false }))

/-- A _LO read captures the whole pair for the _HI read; an RW pair commits at its _HI write and not before. For every
pair, reading _LO answers the lower half and captures the upper half, which a read of _HI answers while that capture
stands, whatever else has changed; a read of _HI leaves every other capture; an aligned read of the descriptor rings
answers their bytes. For the three RW pairs (TAL_WINDOW, AWN_CMP_TARGET of comparators 8 to 15, AWN_SYNC_VALUE) a write
of _LO changes nothing but the pending half, and the _HI write then commits both halves at once; a telemetry window of
zero keeps the previous one, and a write to a target of comparators 0 to 7 is ignored. Rests on R7, R8. -/
def Obligations.RegisterPairsReadAndCommitTogether : Prop :=
  (∀ (s : State) (off : BitVec 21) (v : W64), s.bus.linkUp = true → off.toNat < 0x100000 → pairValue s off.toNat = some v →
    Completes (.pairLoRead off) s (fun t => t.bus.readData = v ∧
      (∀ k, k ≠ off.toNat + 4 → sget none t.bus.captured k = sget none s.bus.captured k) ∧
      (∀ u : State, u.bus.captured = t.bus.captured → hiValue u (off.toNat + 4) = v.extractLsb' 32 32) ∧
      t = s.withBus { s.bus with captured := t.bus.captured, readData := v })) ∧
  (∀ (s : State) (off : BitVec 21), s.bus.linkUp = true → off.toNat < 0x100000 → pairValue s off.toNat = none →
    Completes (.pairLoRead off) s (fun t => t.bus.readData = (hiValue s off.toNat).setWidth 64 ∧
      (∀ k, k ≠ off.toNat → sget none t.bus.captured k = sget none s.bus.captured k) ∧
      t = s.withBus { s.bus with captured := t.bus.captured, readData := t.bus.readData })) ∧
  (∀ (s : State) (off : BitVec 21), s.bus.linkUp = true → 0x100000 ≤ off.toNat →
    exec (.pairLoRead off) s = .next (s.withBus { s.bus with
      readData := BitVec.ofNat 64 (if off.toNat < 0x180000 ∧ off.toNat % 8 = 0 then leNat (readBytes s.mbx.ringMem (off.toNat - 0x100000) 8) else 0) })) ∧
  (∀ (s : State) (lo hi : W32), s.bus.linkUp = true → hi ++ lo ≠ (0 : W64) →
    Completes (.talWindowWrite false lo) s (fun u => u = s.withBus u.bus ∧
      Completes (.talWindowWrite true hi) u (fun t => t = (u.withBus t.bus).withTal t.tal ∧
        t.tal = { s.tal with window := hi ++ lo } ∧
        t.stalls = s.stalls ∧ t.mbx = s.mbx ∧ t.awn = s.awn ∧ t.mem = s.mem))) ∧
  (∀ (s : State), s.bus.linkUp = true → Completes (.talWindowWrite false 0) s (fun u =>
      Completes (.talWindowWrite true 0) u (fun t => t = (u.withBus t.bus).withTal t.tal ∧
        t.tal = s.tal))) ∧
  (∀ (s : State) (n : Fin 16) (lo hi : W32), s.bus.linkUp = true → 8 ≤ n.val →
    Completes (.cmpTargetWrite n false lo) s (fun u => u = s.withBus u.bus ∧
      Completes (.cmpTargetWrite n true hi) u (fun t => t = ((u.withAwn t.awn).withBus t.bus).withSnap t.snap ∧
        (t.awn.cmps[n]).target = hi ++ lo ∧
        (∀ m : Fin 16, m ≠ n → t.awn.cmps[m] = s.awn.cmps[m]) ∧ t.awn.tick = s.awn.tick ∧ t.tal = s.tal ∧ t.mem = s.mem ∧
        ((s.awn.cmps[n]).enable = false → t.saf = s.saf)))) ∧
  (∀ (s : State) (n : Fin 16) (hi : Bool) (v : W32), n.val < 8 → exec (.cmpTargetWrite n hi v) s = .next s) ∧
  (∀ (s : State) (lo hi : W64), s.bus.linkUp = true →
    Completes (.registerWrite 0x20030 4 lo) s (fun u => u = s.withBus u.bus ∧
      Completes (.registerWrite 0x20034 4 hi) u (fun t => t.awn.syncValue = hi.extractLsb' 0 32 ++ lo.extractLsb' 0 32 ∧
        t.awn.tick = s.awn.tick ∧ t.awn.cmps = s.awn.cmps ∧ t.awn.syncArm = s.awn.syncArm ∧ t.tal = s.tal ∧ t.mem = s.mem ∧ t.saf = s.saf)))

/-- Register writes change exactly the fields the tables give: priority, comparator control, snapshot, probes, W1C
events. AWN_ROOT_PRIORITY takes bits 7 to 0. Enabling a comparator of the host clears MISSED, takes ALERT_EN, clears
FIRED and LATE only where 1 is written and no event sets them in the same tick, and leaves the other comparators.
TAL_SNAP with SNAP set begins a snapshot of the counts at the tick and the completion publishes it; while busy, or with
SNAP clear, it does nothing. A legal probe signal is taken and another ignored; with the probes off or locked every pin
is 0. REGISTER_WRITE of DEV_SCRATCH, TAL_SELECT, PWR_EVENTS and MBX_OVERRUN changes exactly those fields, and of an RO
register nothing. Rests on 17_register_reference.md (R540, R541, R543, R545, R549, R550, R551, R553),
20_telemetry_and_debug.md (R613). -/
def Obligations.RegisterWritesHaveTheirEffects : Prop :=
  (∀ (s : State) (v : W32), s.bus.linkUp = true →
    exec (.awnRootPriority v) s = .next (s.withAwn { s.awn with rootPriority := v.extractLsb' 0 8 })) ∧
  (∀ (s : State) (n : Fin 16) (v : W32), s.bus.linkUp = true → 8 ≤ n.val → v.getLsbD 0 = true → (s.awn.cmps[n]).enable = false →
    Completes (.cmpControlWrite n v) s (fun t => t = (s.withAwn t.awn).withBus t.bus ∧
        (t.awn.cmps[n]).enable = true ∧ (t.awn.cmps[n]).missed = 0 ∧
      (t.awn.cmps[n]).alertEn = v.getLsbD 1 ∧ (t.awn.cmps[n]).target = (s.awn.cmps[n]).target ∧
      (t.awn.cmps[n]).lateDue = decide ((s.awn.cmps[n]).target.toNat ≤ s.awn.tick.toNat) ∧
      (t.awn.cmps[n]).fired = ((s.awn.cmps[n]).fired &&
        (!v.getLsbD 8 || decide ((s.awn.cmps[n]).firedAt = some s.awn.tick))) ∧
      (t.awn.cmps[n]).late = ((s.awn.cmps[n]).late && (!v.getLsbD 9 || decide ((s.awn.cmps[n]).lateAt = some s.awn.tick))) ∧
      (∀ m : Fin 16, m ≠ n → t.awn.cmps[m] = s.awn.cmps[m]) ∧ t.saf = s.saf ∧ t.mbx = s.mbx ∧ t.mem = s.mem)) ∧
  (∀ (s : State) (v : W32), s.bus.linkUp = true → v.getLsbD 0 = true → s.tal.snapBusy = false →
    Completes (.talSnap v) s (fun u => u.tal = { s.tal with snapBusy := true, taking := some (s.awn.tick, s.tal.counts) } ∧
      Completes .tallySnapshotDone u (fun t => t = s.withTal { s.tal with
        snapBusy := false, taking := none, snapTick := s.awn.tick, snapshot := s.tal.counts }))) ∧
  (∀ (s : State) (v : W32), (s.tal.snapBusy = true ∨ v.getLsbD 0 = false) → exec (.talSnap v) s = .next s) ∧
  (∀ (s : State) (p : Fin 32) (v : W32), s.bus.linkUp = true →
    (signalOk (v.extractLsb' 0 16) = true → exec (.dbgProbeSelect p v) s = .next (drivePins (s.withDbg { s.dbg with
      probes := s.dbg.probes.set p (v.extractLsb' 0 16, v.getLsbD 16) }))) ∧
    (signalOk (v.extractLsb' 0 16) = false → exec (.dbgProbeSelect p v) s = .next s)) ∧
  (∀ (s : State), s.dbg.probeEn = false ∨ s.dbg.locked = true →
    drivePins s = s.withDbg { s.dbg with pins := 0 }) ∧
  (∀ (s : State) (v : W64), s.bus.linkUp = true →
    exec (.registerWrite 0x2C 4 v) s = .next (s.withDev { s.dev with scratch := v.extractLsb' 0 32 }) ∧
    exec (.registerWrite 0x40004 4 v) s = .next (s.withTal { s.tal with select := (v.extractLsb' 0 32).extractLsb' 0 10 }) ∧
    exec (.registerWrite 0x0 4 v) s = .next s ∧
    Completes (.registerWrite 0x50054 4 v) s (fun t => t = s.withPwr { s.pwr with
      therm := s.pwr.therm && !(v.extractLsb' 0 32).getLsbD 3, capHit := s.pwr.capHit && !(v.extractLsb' 0 32).getLsbD 2,
      overvolt := s.pwr.overvolt && !(v.extractLsb' 0 32).getLsbD 1, undervolt := s.pwr.undervolt && !(v.extractLsb' 0 32).getLsbD 0 }) ∧
    Completes (.registerWrite 0x10008 4 v) s (fun t => t = s.withMbx { s.mbx with
      overrun := s.mbx.overrun &&& ~~~((v.extractLsb' 0 32).extractLsb' 0 16) }))

/-- TIME flits elect the root and slew fabric time; RACKCLK loss enters HOLDOVER; an armed FT_SYNC edge loads the value.
TIME_EXCHANGE sends a TIME flit that carries the module's root, hops and state. A TIME flit that fails its CRC is only
counted; any other one stamps its port, keeps the advertisement and elects the root, and one from the parent with an
echo sets the offset and the slew (within the limit it keeps SYNCED). The expiry of an advertisement elects again; of
the only one, the module is root. RACKCLK_LOSS enters HOLDOVER; its return elects, a root is SYNCED and a module with a
parent acquires. An FT_SYNC edge sooner than 1 us after the last accepted one is ignored; otherwise it is captured, and
an armed edge loads the value at the root with no job open, or sets SYNC_REFUSED. Rests on 11_fabric_links_and_time.md
(R344, R345, R346, R347, R348, R350, R351), 21_connectors_and_mechanical.md (R635). -/
def Obligations.FabricTimeFollowsItsTree : Prop :=
  ((∀ (s : State) (p : Port), s.awn.on = true → portLive (getPort s p) = true →
    Completes (.timeExchange p) s (fun t => t = ((((s.withAwn t.awn).withBus t.bus).withLog t.log).withOut t.out).withSaf t.saf ∧
        t.mbx = s.mbx ∧ t.mem = s.mem ∧ t.ports = s.ports ∧
      (.timeFlit p ((getPort s p).lastTime.getD (0, 0)).1 ((getPort s p).lastTime.getD (0, 0)).2 t.awn.rootId t.awn.hops.toNat t.awn.tstate)
        ∈ t.out)) ∧
  (∀ (s : State) (p : Port) (f : TimeFlit) (rx : Nat), s.awn.on = true → portLive (getPort s p) = true → timeOk f = false →
    exec (.timeFlit p f rx) s = .next (setPort s p { getPort s p with
      counts := { (getPort s p).counts with crcFails := add48 (getPort s p).counts.crcFails 1 } })) ∧
  (∀ (s : State) (p : Port) (f : TimeFlit) (rx : Nat), s.awn.on = true → portLive (getPort s p) = true → timeOk f = true →
    Completes (.timeFlit p f rx) s (fun t => t = (((((s.withAwn t.awn).withBus t.bus).withLog t.log).withPorts t.ports).withSaf t.saf).withTal t.tal ∧
      getPort t p = { getPort s p with lastTime := some (f.tx, rx) } ∧ (∀ q, q ≠ p → getPort t q = getPort s q) ∧
      t.awn.adverts = (if f.hops.toNat < 64 then sput { rootId := 0, hops := 64, heard := 0 } s.awn.adverts (portIx p).val
        { rootId := f.rootId, hops := f.hops.toNat, heard := s.awn.tick } else s.awn.adverts) ∧ Elects s t ∧
      (t.awn.parent = some p → f.echoTx ≠ 0 → t.awn.theta = BitVec.ofInt 32 (thetaOf f.echoTx f.echoRx f.tx rx (getPort s p).alpha) ∧
        t.awn.slew = slewOf (thetaOf f.echoTx f.echoRx f.tx rx (getPort s p).alpha)) ∧
      ((t.awn.parent ≠ some p ∨ f.echoTx = 0) → t.awn.theta = s.awn.theta ∧ t.awn.slew = s.awn.slew ∧ t.awn.tick = s.awn.tick))) ∧
  (∀ (s : State) (p : Port) (f : TimeFlit) (rx : Nat), s.awn.on = true → portLive (getPort s p) = true → timeOk f = true →
    s.awn.parent = some p → s.awn.adverts = [] → f.rootId.toNat < (ownRootId s).toNat → f.hops.toNat < 64 → f.echoTx ≠ 0 →
    s.awn.tstate = .synced →
    (thetaOf f.echoTx f.echoRx f.tx rx (getPort s p).alpha).natAbs ≤ 25600 →
    Completes (.timeFlit p f rx) s (fun t => t = (((((s.withAwn t.awn).withBus t.bus).withLog t.log).withPorts t.ports).withSaf t.saf).withTal t.tal ∧
        t.awn.theta = BitVec.ofInt 32 (thetaOf f.echoTx f.echoRx f.tx rx (getPort s p).alpha) ∧
      t.awn.slew = slewOf (thetaOf f.echoTx f.echoRx f.tx rx (getPort s p).alpha) ∧ t.awn.tick = s.awn.tick ∧
      t.awn.rootId = f.rootId ∧ t.awn.hops = BitVec.ofNat 8 (f.hops.toNat + 1) ∧ t.awn.parent = some p ∧ t.awn.isRoot = false ∧
      t.awn.tstate = .synced ∧ t.saf = s.saf ∧ t.log = s.log ∧ t.mem = s.mem)) ∧
  (∀ (s : State) (p : Port), (∃ a ∈ s.awn.adverts, a.1 = (portIx p).val ∧ 1000000 ≤ (s.awn.tick - a.2.heard).toNat) →
    Completes (.advertisementExpiry p) s (fun t => t = (((s.withAwn t.awn).withBus t.bus).withLog t.log).withSaf t.saf ∧
      t.awn.adverts = s.awn.adverts.filter (fun a => decide (a.1 ≠ (portIx p).val)) ∧ Elects s t ∧ t.awn.tick = s.awn.tick ∧
      t.awn.theta = s.awn.theta ∧ t.awn.slew = s.awn.slew ∧ t.awn.cmps = s.awn.cmps)) ∧
  (∀ (s : State) (p : Port), s.awn.parent = some p → (∃ a, s.awn.adverts = [((portIx p).val, a)] ∧ 1000000 ≤ (s.awn.tick - a.heard).toNat) →
    s.awn.rackOk = true → s.awn.tstate = .synced →
    exec (.advertisementExpiry p) s = .next (s.withAwn { s.awn with
      adverts := [], isRoot := true, parent := none, hops := 0, rootId := ownRootId s })) ∧
  (∀ (s : State), s.awn.on = true → Completes .rackclkLoss s (fun t => t = (((s.withAwn t.awn).withBus t.bus).withLog t.log).withSaf t.saf ∧
        t.awn.rackOk = false ∧ t.awn.tstate = .holdover ∧
    t.awn.tick = s.awn.tick ∧ t.awn.cmps = s.awn.cmps ∧ t.mbx = s.mbx ∧ t.mem = s.mem)) ∧
  (∀ (s : State), s.awn.on = true → Completes .rackclkReturn s (fun t => t = (((s.withAwn t.awn).withBus t.bus).withLog t.log).withSaf t.saf ∧
    t.awn.rackOk = true ∧ Elects s t ∧ t.awn.adverts = s.awn.adverts ∧ (t.awn.isRoot = true → t.awn.tstate = .synced) ∧
    (t.awn.isRoot = false → s.awn.tstate = .holdover → t.awn.tstate = .acquiring) ∧ t.awn.tick = s.awn.tick ∧ t.awn.cmps = s.awn.cmps))) ∧
  ((∀ (s : State) (e : W64), s.awn.on = true → s.awn.lastEdge = some e → (s.awn.tick - e).toNat < 1000 →
    exec .ftSyncEdge s = .next s) ∧
  (∀ (s : State), s.awn.on = true → (∀ e, s.awn.lastEdge = some e → 1000 ≤ (s.awn.tick - e).toNat) → s.awn.syncArm = false →
    exec .ftSyncEdge s = .next (s.withAwn { s.awn with syncCapture := s.awn.tick, lastEdge := some s.awn.tick })) ∧
  (∀ (s : State), s.awn.on = true → (∀ e, s.awn.lastEdge = some e → 1000 ≤ (s.awn.tick - e).toNat) → s.awn.armTick = some s.awn.tick →
    exec .ftSyncEdge s = .next (s.withAwn { s.awn with syncCapture := s.awn.tick, lastEdge := some s.awn.tick })) ∧
  (∀ (s : State), s.awn.on = true → (∀ e, s.awn.lastEdge = some e → 1000 ≤ (s.awn.tick - e).toNat) → s.awn.syncArm = true →
    s.awn.armTick ≠ some s.awn.tick → s.awn.isRoot = true → jobIsOpen s = false →
    Completes .ftSyncEdge s (fun t => t = ((((s.withAwn t.awn).withBus t.bus).withLog t.log).withSaf t.saf).withTal t.tal ∧
        t.awn.tick = (match s.awn.syncPrev with
          | some (x, old) => if x = s.awn.tick then old else s.awn.syncValue
          | none => s.awn.syncValue) ∧
      t.awn.syncCapture = s.awn.tick ∧ t.awn.syncArm = false ∧
      t.awn.syncRefused = s.awn.syncRefused ∧ t.awn.cmps = s.awn.cmps ∧ t.mbx = s.mbx ∧ t.mem = s.mem)) ∧
  (∀ (s : State), s.awn.on = true → (∀ e, s.awn.lastEdge = some e → 1000 ≤ (s.awn.tick - e).toNat) → s.awn.syncArm = true →
    s.awn.armTick ≠ some s.awn.tick → (s.awn.isRoot = false ∨ jobIsOpen s = true) →
    exec .ftSyncEdge s = .next (s.withAwn { s.awn with
      syncCapture := s.awn.tick, lastEdge := some s.awn.tick, syncArm := false, armTick := none, syncRefused := true,
      refusedAt := some s.awn.tick })))

/-- A comparator fires at its target, advances by whole periods past the tick counting those passed over, or fires once.
An enabled comparator that is not quiet and whose TARGET is not above the tick fires, one that was armed late only at a
tick after it was armed, with LATE set then. With PERIOD at least 1,000 it stays enabled, TARGET advances by k periods,
k at least 1, to the first grid point above the tick, and MISSED rises by k - 1 (saturating). With PERIOD 0 it fires
once and is then quiet with ENABLE still 1. A disabled or quiet one, or one whose TARGET is ahead, does not fire. A
write of TARGET, or ENABLE from 0 to 1, rearms it. A write of PERIOD takes 0 or at least 1,000 and otherwise keeps the
previous value. The clause with a period assumes that tick plus period stays below 2^64. Rests on R352. -/
def Obligations.ComparatorsFireOnTheirGrid : Prop :=
  (∀ (s : State) (n : Fin 16), s.awn.on = true → (s.awn.cmps[n]).enable = true → (s.awn.cmps[n]).quiet = false →
    (s.awn.cmps[n]).target.toNat ≤ s.awn.tick.toNat →
    ((s.awn.cmps[n]).lateDue = true → s.awn.tick ≠ (s.awn.cmps[n]).armedAt) → 1000 ≤ (s.awn.cmps[n]).period.toNat →
    s.awn.tick.toNat + (s.awn.cmps[n]).period.toNat < 2 ^ 64 →
    Completes (.comparatorFire n) s (fun t => t = ((s.withAwn t.awn).withBus t.bus).withSnap t.snap ∧
        (t.awn.cmps[n]).fired = true ∧ (t.awn.cmps[n]).quiet = false ∧
      (t.awn.cmps[n]).enable = true ∧
      (∃ k, (t.awn.cmps[n]).target.toNat = (s.awn.cmps[n]).target.toNat + k * (s.awn.cmps[n]).period.toNat ∧ 1 ≤ k ∧
        (t.awn.cmps[n]).missed = add32 (s.awn.cmps[n]).missed (k - 1)) ∧
      s.awn.tick.toNat < (t.awn.cmps[n]).target.toNat ∧
      (t.awn.cmps[n]).target.toNat ≤ s.awn.tick.toNat + (s.awn.cmps[n]).period.toNat)) ∧
  (∀ (s : State) (n : Fin 16), s.awn.on = true → (s.awn.cmps[n]).enable = true → (s.awn.cmps[n]).quiet = false →
    (s.awn.cmps[n]).target.toNat ≤ s.awn.tick.toNat →
    ((s.awn.cmps[n]).lateDue = true → s.awn.tick ≠ (s.awn.cmps[n]).armedAt) → (s.awn.cmps[n]).period = 0 →
    Completes (.comparatorFire n) s (fun t => t = ((s.withAwn t.awn).withBus t.bus).withSnap t.snap ∧
        (t.awn.cmps[n]).fired = true ∧ (t.awn.cmps[n]).quiet = true ∧
      (t.awn.cmps[n]).firedAt = some s.awn.tick ∧ (t.awn.cmps[n]).enable = true ∧ (t.awn.cmps[n]).target = (s.awn.cmps[n]).target ∧
      (t.awn.cmps[n]).missed = (s.awn.cmps[n]).missed ∧ (∀ m : Fin 16, m ≠ n → t.awn.cmps[m] = s.awn.cmps[m]) ∧
      t.awn.tick = s.awn.tick ∧ t.snap.trigger = (s.snap.trigger || (decide (n = 0) && jobIsOpen s && isLead s)) ∧
      t.saf = s.saf ∧ t.mem = s.mem)) ∧
  (∀ (s : State) (n : Fin 16), s.awn.on = true → (s.awn.cmps[n]).enable = true → (s.awn.cmps[n]).quiet = false →
    (s.awn.cmps[n]).lateDue = true → s.awn.tick ≠ (s.awn.cmps[n]).armedAt →
    Completes (.comparatorFire n) s (fun t => t = ((s.withAwn t.awn).withBus t.bus).withSnap t.snap ∧
      (t.awn.cmps[n]).fired = true ∧ (t.awn.cmps[n]).late = true ∧ (t.awn.cmps[n]).lateAt = some s.awn.tick ∧
      (t.awn.cmps[n]).lateDue = false)) ∧
  (∀ (s : State) (n : Fin 16), (s.awn.cmps[n]).enable = false ∨ (s.awn.cmps[n]).quiet = true ∨
      (s.awn.tick.toNat < (s.awn.cmps[n]).target.toNat ∧ (s.awn.cmps[n]).lateDue = false) ∨
      ((s.awn.cmps[n]).lateDue = true ∧ s.awn.tick = (s.awn.cmps[n]).armedAt) →
    exec (.comparatorFire n) s = .next s) ∧
  (∀ (s : State) (n : Fin 16) (v : W32), s.bus.linkUp = true → 8 ≤ n.val →
    Completes (.cmpTargetWrite n true v) s (fun t => t = ((s.withAwn t.awn).withBus t.bus).withSnap t.snap ∧
        (t.awn.cmps[n]).quiet = false ∧ (t.awn.cmps[n]).enable = (s.awn.cmps[n]).enable)) ∧
  (∀ (s : State) (n : Fin 16) (v : W32), s.bus.linkUp = true → 8 ≤ n.val → v.getLsbD 0 = true →
    Completes (.cmpControlWrite n v) s (fun t => t = (s.withAwn t.awn).withBus t.bus ∧
        (t.awn.cmps[n]).enable = true ∧
      (t.awn.cmps[n]).quiet = ((s.awn.cmps[n]).enable && (s.awn.cmps[n]).quiet))) ∧
  (∀ (s : State) (n : Fin 16) (v : W64), s.bus.linkUp = true → 8 ≤ n.val →
    (((v.extractLsb' 0 32) = 0 ∨ 1000 ≤ (v.extractLsb' 0 32).toNat) →
      exec (.registerWrite (BitVec.ofNat 21 (0x20108 + 0x20 * n.val)) 4 v) s = .next (s.withAwn { s.awn with
        cmps := s.awn.cmps.set n { s.awn.cmps[n] with period := v.extractLsb' 0 32 } })) ∧
    ((v.extractLsb' 0 32) ≠ 0 → (v.extractLsb' 0 32).toNat < 1000 →
      exec (.registerWrite (BitVec.ofNat 21 (0x20108 + 0x20 * n.val)) 4 v) s = .next s))

/-- Link training runs detect, probe, equalise, lock and flit sync; IDENT flits verify a port or find it miswired. Each
training event in its phase moves the port to the next phase with its result (reach class, dropped lanes, width, fresh
link state), leaves all other ports, and with no width left the port is DOWN; LINK_DETECT with fewer than 4 lanes, or
before its time of 10 ms (1 s on a port that is DOWN), does nothing. An IDENT flit with the expected coordinates makes
the port UP; with others MISWIRED, with one LINK record; before coordinates are known it is only kept; one that fails
its CRC is counted; on a port that is not live it does nothing. IDENT_TIMER sends an IDENT on every live port. Rests on
11_fabric_links_and_time.md (R317, R318, R319, R320, R321, R322, R333). -/
def Obligations.LinksTrainAndVerify : Prop :=
  ((∀ (s : State) (p : Port) (lanes : Nat), 4 ≤ lanes →
    (((getPort s p).state = .down ∧ 1000000000 ≤ (s.awn.tick - (getPort s p).detectAt).toNat) ∨
      ((getPort s p).state = .training ∧ (getPort s p).phase = .detect)) →
    exec (.linkDetect p lanes) s = .next (setPort s p { getPort s p with state := .training, phase := .probe })) ∧
  (∀ (s : State) (p : Port) (lanes : Nat), lanes < 4 → exec (.linkDetect p lanes) s = .next s) ∧
  (∀ (s : State) (p : Port), (getPort s p).state = .training → (getPort s p).phase = .detect →
    ((s.awn.tick - (getPort s p).detectAt).toNat < 10000000 → exec (.detectRetry p) s = .next s) ∧
    (10000000 ≤ (s.awn.tick - (getPort s p).detectAt).toNat →
      Completes (.detectRetry p) s (fun t => t = ((((s.withBus t.bus).withLog t.log).withOut t.out).withPorts t.ports).withSaf t.saf ∧
        getPort t p = { getPort s p with state := .down, detectAt := s.awn.tick } ∧ (∀ q, q ≠ p → getPort t q = getPort s q) ∧
        t.mbx = s.mbx ∧ t.mem = s.mem))) ∧
  (∀ (s : State) (p : Port), (getPort s p).state = .down → exec (.detectRetry p) s = .next
    (if 1000000000 ≤ (s.awn.tick - (getPort s p).detectAt).toNat then setPort s p { getPort s p with detectAt := s.awn.tick } else s)) ∧
  (∀ (s : State) (p : Port) (loss : Nat), (getPort s p).state = .training → (getPort s p).phase = .probe →
    exec (.linkProbe p loss) s = .next (setPort s p { getPort s p with
      phase := .equalise, reach := if (getPort s p).reachReq = 0 then (if loss ≤ 240 then 1 else 2) else (getPort s p).reachReq })) ∧
  (∀ (s : State) (p : Port) (failed : BitVec 16), (getPort s p).state = .training → (getPort s p).phase = .equalise →
    Completes (.linkEqualise p failed) s (fun t => t = (((s.withBus t.bus).withLog t.log).withPorts t.ports).withSaf t.saf ∧
        (getPort t p).state = .training ∧ (getPort t p).phase = .lock ∧
      (getPort t p).dropped = (getPort s p).dropped ||| failed ∧ (∀ q, q ≠ p → getPort t q = getPort s q) ∧
      t.out = s.out ∧ t.mbx = s.mbx ∧ t.mem = s.mem)) ∧
  (∀ (s : State) (p : Port) (failed far : BitVec 16) (asym : Int), (getPort s p).state = .training → (getPort s p).phase = .lock →
    Completes (.linkLock p failed far asym) s (fun t => t = ((((s.withBus t.bus).withLog t.log).withOut t.out).withPorts t.ports).withSaf t.saf ∧
        (getPort t p).width = widthOf (((getPort s p).dropped ||| failed) ||| far) ∧
      (getPort t p).alpha = asym ∧ (getPort t p).farDropped = far ∧ (getPort t p).dropped = (getPort s p).dropped ||| failed ∧
      ((getPort t p).width = 0 → (getPort t p).state = .down) ∧
      ((getPort t p).width ≠ 0 → (getPort t p).state = .training ∧ (getPort t p).phase = .flitSync) ∧
      (∀ q, q ≠ p → getPort t q = getPort s q) ∧ t.mbx = s.mbx ∧ t.mem = s.mem)) ∧
  (∀ (s : State) (p : Port), (getPort s p).state = .training → (getPort s p).phase = .flitSync →
    Completes (.linkFlitSync p) s (fun t => t = (s.withOut t.out).withPorts t.ports ∧
        getPort t p = { freshLink (getPort s p) with state := .unverified } ∧
      (getPort t p).expected = 0 ∧ (getPort t p).txNext = 0 ∧ (getPort t p).replay = [] ∧ (getPort t p).credits = #v[2048, 2048, 64, 64] ∧
      (∀ q, q ≠ p → getPort t q = getPort s q) ∧
      t.out = s.out ++ (if s.slice.coords.isSome then [identOut s p] else []) ∧ t.log = s.log ∧ t.mem = s.mem))) ∧
  ((∀ (s : State) (p : Port) (i : Ident), portLive (getPort s p) = true → identOk i = true → s.slice.coords.isSome = true → i.assigned = true →
    (i.lx, i.ly, i.lz) = s.slice.lens → farCoords s p = some (i.x, i.y, i.z) →
    exec (.identFlit p i) s = .next (setPort s p { getPort s p with farIdent := some i, state := .up })) ∧
  (∀ (s : State) (p : Port) (i : Ident), portLive (getPort s p) = true → identOk i = true → (getPort s p).state ≠ .miswired →
    s.slice.coords.isSome = true → i.assigned = true → identFits s p i = false →
    Completes (.identFlit p i) s (fun t =>
      t = logLink p 0xFF 3 (ownIdentBytes s p ++ farIdentBytes i) (setPort s p { getPort s p with farIdent := some i, state := .miswired }) ∧
      getPort t p = { getPort s p with farIdent := some i, state := .miswired } ∧
      (∀ q, q ≠ p → getPort t q = getPort s q) ∧ t.out = s.out ∧ t.mbx = s.mbx ∧ t.mem = s.mem)) ∧
  (∀ (s : State) (p : Port) (i : Ident), portLive (getPort s p) = true → identOk i = true → (s.slice.coords = none ∨ i.assigned = false) →
    exec (.identFlit p i) s = .next (setPort s p { getPort s p with farIdent := some i })) ∧
  (∀ (s : State) (p : Port) (i : Ident), portLive (getPort s p) = true → identOk i = false →
    exec (.identFlit p i) s = .next (setPort s p { getPort s p with
      counts := { (getPort s p).counts with crcFails := add48 (getPort s p).counts.crcFails 1 } })) ∧
  (∀ (s : State) (p : Port) (i : Ident), portLive (getPort s p) = false → exec (.identFlit p i) s = .next s) ∧
  (∀ (s : State), Completes .identTimer s (fun t => t = s.withOut t.out ∧
    ∀ p, portLive (getPort s p) = true → identOut s p ∈ t.out)))

/-- A data flit is accepted exactly when it is the expected one; duplicates are counted; losses are answered by one NAK.
On an UP port: a data flit with a valid CRC and the expected sequence number is accepted, and the expected number rises
by one (every 32nd accepted flit is acknowledged). One whose distance behind the expected number lies between 1 and
32,768 is discarded and counted in DUP_FLITS. Any other, and any flit that fails its CRC, is discarded and answered by a
CONTROL flit with NAK = 1 and ACK_SEQ the expected number, unless a NAK of the same number left less than 2 us before.
On a port that is not UP data flits do nothing. Other ports, memory and the Logbook are unchanged. Rests on R328. -/
def Obligations.DataFlitsArriveOnceAndInOrder : Prop :=
  (∀ (s : State) (p : Port) (f : Flit), (getPort s p).state = .up → flitOk f = true → isData f = true →
    f.seq = (getPort s p).expected →
    Completes (.dataFlit p f) s (fun t => t = (s.withOut t.out).withPorts t.ports ∧
        (getPort t p).rx = (getPort s p).rx ++ [f] ∧
      (getPort t p).expected = (getPort s p).expected + 1 ∧ (getPort t p).counts = (getPort s p).counts ∧
      (32 ≤ (getPort s p).unacked + 1 → (getPort t p).unacked = 0 ∧
        (.control p (getPort s p).expected false (getPort s p).freed.toList) ∈ t.out) ∧
      ((getPort s p).unacked + 1 < 32 → (getPort t p).unacked = (getPort s p).unacked + 1 ∧ t.out = s.out) ∧
      (∀ q, q ≠ p → getPort t q = getPort s q) ∧ t.mem = s.mem ∧ t.log = s.log)) ∧
  (∀ (s : State) (p : Port) (f : Flit), (getPort s p).state = .up → flitOk f = true → isData f = true →
    1 ≤ ((getPort s p).expected - f.seq).toNat → ((getPort s p).expected - f.seq).toNat ≤ 32768 →
    exec (.dataFlit p f) s = .next (setPort s p { getPort s p with
      counts := { (getPort s p).counts with dupFlits := add48 (getPort s p).counts.dupFlits 1 } })) ∧
  (∀ (s : State) (p : Port) (f : Flit), (getPort s p).state = .up →
    (∀ e at', (getPort s p).nak = some (e, at') → e = (getPort s p).expected → 2000 ≤ (s.awn.tick - at').toNat) →
    (flitOk f = false ∨ (isData f = true ∧ 32768 < ((getPort s p).expected - f.seq).toNat)) →
    Completes (.dataFlit p f) s (fun t => t = (s.withOut t.out).withPorts t.ports ∧
        (getPort t p).rx = (getPort s p).rx ∧
      (getPort t p).expected = (getPort s p).expected ∧ (getPort t p).nak = some ((getPort s p).expected, s.awn.tick) ∧
      (getPort t p).counts.naksSent = add48 (getPort s p).counts.naksSent 1 ∧
      t.out = s.out ++ [.control p (getPort s p).expected true (getPort s p).freed.toList] ∧
      (∀ q, q ≠ p → getPort t q = getPort s q) ∧ t.mem = s.mem ∧ t.log = s.log)) ∧
  (∀ (s : State) (p : Port) (f : Flit) (at' : W64), (getPort s p).state = .up →
    (getPort s p).nak = some ((getPort s p).expected, at') → (s.awn.tick - at').toNat < 2000 →
    (flitOk f = true → isData f = true → 32768 < ((getPort s p).expected - f.seq).toNat → exec (.dataFlit p f) s = .next s) ∧
    (flitOk f = false → exec (.dataFlit p f) s = .next (setPort s p { getPort s p with
      counts := { (getPort s p).counts with crcFails := add48 (getPort s p).counts.crcFails 1 } }))) ∧
  (∀ (s : State) (p : Port) (f : Flit), (getPort s p).state ≠ .up → exec (.dataFlit p f) s = .next s)

/-- Acknowledgements free held flits, NAKs and timeouts resend them, lane losses retrain the port at the width left. A
CONTROL flit with a valid CRC takes credits and frees the flits it acknowledges, or with NAK sends the held flits from
its number again in order; one that fails its CRC is counted. The ACK timer acknowledges the last accepted flit.
REPLAY_TIMEOUT after 4 us sends the held flits again, and after 16 sends enters RETRAIN. Lane errors above budget or a
lock loss drop the lanes and enter RETRAIN with replay state kept; a retrain at a width above 0 returns to UP and sends
the held flits, else the port is DOWN; a failed retrain is retried once. Rests on 11_fabric_links_and_time.md (R327,
R329, R331, R332, R333, R334, R335). -/
def Obligations.AcknowledgementsAndRetrainsKeepTheLink : Prop :=
  ((∀ (s : State) (p : Port) (c : ControlFlit), portLive (getPort s p) = true → controlOk c = true → c.nak = false →
    exec (.controlFlit p c) s = .next (servePort p (setPort s p { takeCredits c.freed (getPort s p) with
      replay := freeAcked c.ackSeq (getPort s p).replay })) ∧
    ((getPort s p).waiting = [] → exec (.controlFlit p c) s = .next (setPort s p { takeCredits c.freed (getPort s p) with
      replay := freeAcked c.ackSeq (getPort s p).replay }))) ∧
  (∀ (s : State) (p : Port) (c : ControlFlit), portLive (getPort s p) = true → controlOk c = true → c.nak = true →
    (getPort s p).waiting = [] →
    Completes (.controlFlit p c) s (fun t => t = (s.withOut t.out).withPorts t.ports ∧
        t.out = s.out ++ ((getPort s p).replay.filter (heldFrom c.ackSeq)).map (fun f => Out.flit p f.flit) ∧
      (getPort t p).replay.map HeldFlit.flit = (getPort s p).replay.map HeldFlit.flit ∧
      (∀ q, q ≠ p → getPort t q = getPort s q) ∧ t.mem = s.mem ∧ t.log = s.log)) ∧
  (∀ (s : State) (p : Port) (c : ControlFlit), portLive (getPort s p) = true → controlOk c = false →
    exec (.controlFlit p c) s = .next (setPort s p { getPort s p with
      counts := { (getPort s p).counts with crcFails := add48 (getPort s p).counts.crcFails 1 } })) ∧
  (∀ (s : State) (p : Port), portLive (getPort s p) = true →
    Completes (.ackTimer p) s (fun t => t = (s.withOut t.out).withPorts t.ports ∧
        getPort t p = { getPort s p with unacked := 0 } ∧
      t.out = s.out ++ [.control p ((getPort s p).expected - 1) false (getPort s p).freed.toList] ∧ t.mem = s.mem ∧ t.log = s.log)) ∧
  (∀ (s : State) (p : Port) (f : HeldFlit) (r : List HeldFlit), (getPort s p).state = .up → (getPort s p).replay = f :: r →
    4000 ≤ (s.awn.tick - f.sentAt).toNat → f.sends < 16 →
    Completes (.replayTimeout p) s (fun t => t = ((((s.withBus t.bus).withLog t.log).withOut t.out).withPorts t.ports).withSaf t.saf ∧
        t.out = s.out ++ (getPort s p).replay.map (fun f => Out.flit p f.flit) ∧
      (getPort t p).state = .up ∧ (getPort t p).replay = (getPort s p).replay.map (fun f => { f with sentAt := s.awn.tick, sends := f.sends + 1 }) ∧
      (getPort t p).counts.replayTimeouts = add48 (getPort s p).counts.replayTimeouts 1 ∧ t.mem = s.mem ∧ t.log = s.log)) ∧
  (∀ (s : State) (p : Port) (f : HeldFlit) (r : List HeldFlit), (getPort s p).state = .up → (getPort s p).replay = f :: r →
    4000 ≤ (s.awn.tick - f.sentAt).toNat → 16 ≤ f.sends →
    Completes (.replayTimeout p) s (fun t => t = ((((s.withBus t.bus).withLog t.log).withOut t.out).withPorts t.ports).withSaf t.saf ∧
        (getPort t p).state = .retrain ∧ (getPort t p).replay = (getPort s p).replay ∧
      (getPort t p).counts.retrains = add48 (getPort s p).counts.retrains 1 ∧ t.out = s.out ∧ t.mem = s.mem))) ∧
  ((∀ (s : State) (p : Port) (errors : List (Nat × Nat)), portLive (getPort s p) = true →
    overBudget errors &&& ~~~(getPort s p).dropped = 0 →
    exec (.laneErrorWindowClose p errors) s = .next (setPort s p (addFec (getPort s p) errors))) ∧
  (∀ (s : State) (p : Port) (errors : List (Nat × Nat)), portLive (getPort s p) = true →
    overBudget errors &&& ~~~(getPort s p).dropped ≠ 0 →
    Completes (.laneErrorWindowClose p errors) s (fun t => t = (((s.withBus t.bus).withLog t.log).withPorts t.ports).withSaf t.saf ∧
        (getPort t p).state = .retrain ∧
      (getPort t p).dropped = (getPort s p).dropped ||| (overBudget errors &&& ~~~(getPort s p).dropped) ∧
      (getPort t p).replay = (getPort s p).replay ∧ (∀ q, q ≠ p → getPort t q = getPort s q) ∧ t.mem = s.mem)) ∧
  (∀ (s : State) (p : Port) (lane : Fin 16), portLive (getPort s p) = true → (getPort s p).dropped = 0 →
    Completes (.laneLockLoss p lane) s (fun t => t = (((s.withBus t.bus).withLog t.log).withPorts t.ports).withSaf t.saf ∧
        (getPort t p).state = .retrain ∧ (getPort t p).dropped = (1 : W16) <<< lane.val ∧
      (getPort t p).expected = (getPort s p).expected ∧ (getPort t p).replay = (getPort s p).replay ∧ t.mem = s.mem)) ∧
  (∀ (s : State) (p : Port) (far : BitVec 16) (i : Ident), (getPort s p).state = .retrain → (getPort s p).farIdent = some i →
    i.assigned = true → s.slice.coords.isSome = true → identFits s p i = true → (getPort s p).waiting = [] → widthOf ((getPort s p).dropped ||| far) ≠ 0 →
    Completes (.retrain p far) s (fun t => t = ((((s.withBus t.bus).withLog t.log).withOut t.out).withPorts t.ports).withSaf t.saf ∧
        (getPort t p).state = .up ∧ (getPort t p).width = widthOf ((getPort s p).dropped ||| far) ∧
      (getPort t p).expected = (getPort s p).expected ∧
      t.out = s.out ++ (getPort s p).replay.map (fun f => Out.flit p f.flit) ∧ t.mem = s.mem ∧ t.log = s.log)) ∧
  (∀ (s : State) (p : Port) (far : BitVec 16), (getPort s p).state = .retrain → widthOf ((getPort s p).dropped ||| far) = 0 →
    Completes (.retrain p far) s (fun t => t = ((((s.withBus t.bus).withLog t.log).withOut t.out).withPorts t.ports).withSaf t.saf ∧
        (getPort t p).state = .down ∧ t.mem = s.mem ∧ t.mbx = s.mbx)) ∧
  (∀ (s : State) (p : Port) (failed : BitVec 16), (getPort s p).state = .retrain →
    ((getPort s p).retried = true → Completes (.retrainFail p failed) s (fun t => t = ((((s.withBus t.bus).withLog t.log).withOut t.out).withPorts t.ports).withSaf t.saf ∧
        (getPort t p).state = .down ∧
      (getPort t p).dropped = (getPort s p).dropped ||| failed ∧ t.mem = s.mem)) ∧
    ((getPort s p).retried = false → widthOf (((getPort s p).dropped ||| failed) ||| (getPort s p).farDropped) ≠ 0 →
      Completes (.retrainFail p failed) s (fun t => t = ((((s.withBus t.bus).withLog t.log).withOut t.out).withPorts t.ports).withSaf t.saf ∧
        (getPort t p).state = .retrain ∧ (getPort t p).retried = true ∧
        (getPort t p).dropped = (getPort s p).dropped ||| failed ∧ t.out = s.out ∧ t.mem = s.mem))))

/-- A packet leaves along x, then y, then z, over an open port with credits and replay room; a bad one is discarded. A
packet at its destination goes to its Hall; otherwise it leaves on the port of its hop when the port is open and has the
credits and replay room, with consecutive sequence numbers, its flits held for replay and all other ports unchanged. A
packet whose flits are not at the head of its input does nothing. A packet for a closed output waits there; the one
served next leads its input, and is PRIO when a PRIO packet can be served. A bad packet from the module is dropped and
one from a port is counted DISCARDED there. The hop is along x until the x coordinates agree (on a whole ring the
shorter way, positive on a tie), then y, then z, and none exactly at the destination. Rests on
11_fabric_links_and_time.md (R325, R326, R330, R338, R339, R340), 10_placement_and_slices.md (R289). -/
def Obligations.PacketsGoInDimensionOrder : Prop :=
  (∀ (s : State) (pkt : Packet), badPacket s pkt = false → routeHop s pkt = none →
    exec (.packetForward none pkt) s = .next (ringPacket pkt (emit (.hallPacket pkt) s))) ∧
  (∀ (s : State) (pkt : Packet) (p : Port) (wrap : Bool), badPacket s pkt = false → routeHop s pkt = some (p, wrap) →
    outputOpen s p = true → (getPort s p).waiting = [] → pkt.flits ≤ (getPort s p).credits[vcIx (outVc none pkt p wrap)] → (getPort s p).replay.length + pkt.flits ≤ 8192 →
    Completes (.packetForward none pkt) s (fun t => t = ((s.withOut t.out).withPorts t.ports).withStep t.step ∧
        (getPort t p).txNext = (getPort s p).txNext + BitVec.ofNat 16 pkt.flits ∧
      (getPort t p).replay.length = (getPort s p).replay.length + pkt.flits ∧
      t.out = s.out ++ ((List.range pkt.flits).map (packetFlit pkt (outVc none pkt p wrap) (getPort s p).txNext)).map (Out.flit p) ∧
      (∀ q, q ≠ p → getPort t q = getPort s q) ∧ t.mem = s.mem ∧ t.log = s.log)) ∧
  (∀ (s : State) (pkt : Packet) (q : Port), atInput s q pkt = false → exec (.packetForward (some q) pkt) s = .next s) ∧
  (∀ (s : State) (pkt : Packet) (q : Option Port) (p : Port) (wrap : Bool), q.all (atInput s · pkt) = true → badPacket s pkt = false →
    routeHop s pkt = some (p, wrap) → (getPort s p).waiting = [] → outputOpen s p = false →
    exec (.packetForward q pkt) s = .next (setPort s p { getPort s p with waiting := [(q, pkt)] })) ∧
  (∀ (s : State) (p : Port) (x : Option Port × Packet), nextServed s p = some x →
    x ∈ (getPort s p).waiting ∧ leadsInput (getPort s p) x = true ∧ outputTakes s p x = true ∧
    (∀ y ∈ (getPort s p).waiting, leadsInput (getPort s p) y = true → outputTakes s p y = true → y.2.cls = 4 → x.2.cls = 4)) ∧
  (∀ (s : State) (pkt : Packet), badPacket s pkt = true → exec (.packetForward none pkt) s = .next s) ∧
  (∀ (s : State) (pkt : Packet) (q : Port), atInput s q pkt = true → badPacket s pkt = true →
    Completes (.packetForward (some q) pkt) s (fun t => t = ((s.withOut t.out).withPorts t.ports).withStep t.step ∧
        (getPort t q).counts.discarded = add48 (getPort s q).counts.discarded 1 ∧
      (∀ p, p ≠ q → getPort t p = getPort s p) ∧ t.out = s.out ∧ t.mem = s.mem ∧ t.log = s.log)) ∧
  (∀ (s : State) (x y z : Nat) (pkt : Packet), s.slice.coords = some (x, y, z) → x ≠ pkt.destX →
    s.slice.extent.1 = s.slice.lens.1 →
    routeHop s pkt = some (if 2 * ((pkt.destX + s.slice.lens.1 - x) % s.slice.lens.1) ≤ s.slice.lens.1
      then (.px, decide (x + 1 = s.slice.lens.1)) else (.nx, decide (x = 0)))) ∧
  (∀ (s : State) (x y z : Nat) (pkt : Packet), s.slice.coords = some (x, y, z) → x = pkt.destX → y ≠ pkt.destY →
    ∃ w, routeHop s pkt = some (.py, w) ∨ routeHop s pkt = some (.ny, w)) ∧
  (∀ (s : State) (x y z : Nat) (pkt : Packet), s.slice.coords = some (x, y, z) →
    (routeHop s pkt = none ↔ (x = pkt.destX ∧ y = pkt.destY ∧ z = pkt.destZ)))

/-- The width of a port is 16, 8, 4 or 0 by the lanes that are good. For every set of bad lanes: the width is 16 exactly
when none is bad; 8 exactly when some lane is bad and lanes 0 to 7 or lanes 8 to 15 are all good; 0 exactly when each
group of four has a bad lane; and it is always 0, 4, 8 or 16. Rests on 11_fabric_links_and_time.md (R333). -/
def Obligations.WidthIsThatOfTheLowestGoodGroup : Prop :=
  ∀ (bad : W16),
    (widthOf bad = 16 ↔ bad = 0) ∧
    (widthOf bad = 8 ↔ bad ≠ 0 ∧ (bad &&& 0x00FF = 0 ∨ bad &&& 0xFF00 = 0)) ∧
    (widthOf bad = 0 ↔ bad &&& 0x000F ≠ 0 ∧ bad &&& 0x00F0 ≠ 0 ∧ bad &&& 0x0F00 ≠ 0 ∧ bad &&& 0xF000 ≠ 0) ∧
    (widthOf bad ∈ [0, 4, 8, 16])

/-- A CXL.mem line that was written reads back, and no other byte of the far tier changes. With the link up and 64
bytes, CXL_MEM_WRITE of a line leaves every byte outside the line (and near and host memory, the mailbox, the tensors
and the bus state), and a clean CXL_MEM_READ of that line in the state after answers exactly the bytes written,
unpoisoned, changing no memory. The line's address is computed by lineAddr, as the meaning does; the window's place is
the model's choice (log entry 3). Rests on 07_memory_tiers.md (R208, R209). -/
def Obligations.CxlWindowLinesReadBack : Prop :=
  ∀ (s : State) (line : BitVec 30) (b : Bytes), s.bus.linkUp = true → Memory.wf s.mem.far = true → b.length = 64 →
    Completes (.cxlMemWrite line b) s (fun t => t = s.withMem t.mem ∧
        (∀ a, (a < lineAddr line ∨ lineAddr line + 64 ≤ a) → readByte t.mem.far a = readByte s.mem.far a) ∧
      t.mem.near = s.mem.near ∧ t.mem.host = s.mem.host ∧ t.mbx = s.mbx ∧ t.tens = s.tens ∧ t.bus = s.bus ∧
      Completes (.cxlMemRead line .clean) t (fun u => u.bus.cxlData = some (b, false) ∧ u.mem = t.mem ∧ u.tens = s.tens ∧ u.log = s.log))

/-- Far-tier and CXL reads answer their lines, count corrections, retire pages on losses; the CXL mailbox serves its
opcodes. An uncorrectable CXL read is poisoned, adds an event record and retires the page; a corrected one answers the
line. The CXL mailbox identifies the device, answers and clears event records, and answers Unsupported to any other
opcode (the code 0x15 is presumed, assumption log). FAR_TIER_READ outside the tier faults (the model's fault for an
address that does not exist); a clean or corrected read answers the aligned line and a corrected one is counted; an
uncorrectable one with no holder retires the page and counts a detection. Scrubbing moves its pointer round the tier and
counts what it corrects. Rests on 07_memory_tiers.md (R180, R192, R193, R195, R208, R209, R213), 16_host_interface.md
(R498). -/
def Obligations.CxlAndFarTierReadsReportTheirErrors : Prop :=
  ((∀ (s : State) (line : BitVec 30), s.bus.linkUp = true →
    Completes (.cxlMemRead line .uncorrectable) s (fun t => t = ((((s.withBus t.bus).withFree t.free).withLog t.log).withMem t.mem).withSaf t.saf ∧
        (t.bus.cxlData.map (·.2)) = some true ∧
      t.bus.cxlEvents = s.bus.cxlEvents ++ [lineAddr line] ∧ t.mem.far = s.mem.far ∧
      (sget {} t.mem.farPages (lineAddr line / 4096)).retired = true ∧ t.tens = s.tens ∧ t.mbx = s.mbx ∧ t.step = s.step)) ∧
  (∀ (s : State) (line : BitVec 30), s.bus.linkUp = true →
    Completes (.cxlMemRead line .corrected) s (fun t => t = ((((s.withBus t.bus).withFree t.free).withLog t.log).withMem t.mem).withSaf t.saf ∧
        t.bus.cxlData = some (readBytes s.mem.far (lineAddr line) 64, false) ∧
      t.mem.far = s.mem.far ∧ t.tens = s.tens ∧ t.mbx = s.mbx ∧ t.step = s.step)) ∧
  (∀ (s : State), s.bus.linkUp = true →
    exec .identifyMemoryDevice s = .next (s.withBus { s.bus with cxlReturn := 0 })) ∧
  (∀ (s : State) (n : Nat), s.bus.linkUp = true →
    exec (.getEventRecords n) s = .next (s.withBus { s.bus with cxlReturn := 0, cxlOut := s.bus.cxlEvents.take n }) ∧
    exec (.clearEventRecords n) s = .next (s.withBus { s.bus with cxlReturn := 0, cxlEvents := s.bus.cxlEvents.drop n })) ∧
  (∀ (s : State) (op : W16), s.bus.linkUp = true → op ∉ cxlServed →
    exec (.cxlMailboxUnsupported op) s = .next (s.withBus { s.bus with cxlReturn := cxlUnsupported }))) ∧
  ((∀ (s : State) (a : Nat) (ecc : EccOutcome) (h : Option SectionRef), 0x18000000000 ≤ a →
    exec (.farTierRead a ecc h) s = .fault (.noSuchAddress a)) ∧
  (∀ (s : State) (a : Nat) (h : Option SectionRef), a < 0x18000000000 → s.pwr.pg = true →
    exec (.farTierRead a .clean h) s = .next (s.withOut (s.out ++ [.memData (a / 64 * 64) (readBytes s.mem.far (a / 64 * 64) 64)]))) ∧
  (∀ (s : State) (a : Nat) (h : Option SectionRef), a < 0x18000000000 → s.pwr.pg = true →
    Completes (.farTierRead a .corrected h) s (fun t =>
      t.out = s.out ++ [.memData (a / 64 * 64) (readBytes s.mem.far (a / 64 * 64) 64)] ∧ t.mem.far = s.mem.far ∧
      t.saf.corrections = add48 s.saf.corrections 1 ∧ t.saf.detections = s.saf.detections ∧ t.tens = s.tens ∧ t.step = s.step)) ∧
  (∀ (s : State) (a : Nat), a < 0x18000000000 → s.pwr.pg = true → s.step.run = none →
    Completes (.farTierRead a .uncorrectable none) s (fun t => t.out = s.out ∧ t.mem.far = s.mem.far ∧
      (sget {} t.mem.farPages (a / 64 * 64 / 4096)).retired = true ∧
      t.saf.detections = add48 s.saf.detections 1 ∧ t.tens = s.tens ∧ t.step = s.step)) ∧
  (∀ (s : State) (h : Option SectionRef), s.pwr.pg = true →
    exec (.scrub true .clean h) s = .next (s.withMem { s.mem with farScrub := (s.mem.farScrub + 1) % 25769803776 })) ∧
  (∀ (s : State) (h : Option SectionRef), s.pwr.pg = true →
    bankBusy s (cellarOfLine s.mem.nearScrub) (64 * (s.mem.nearScrub % 8388608)) = true → exec (.scrub false .clean h) s = .next s) ∧
  (∀ (s : State) (h : Option SectionRef), s.pwr.pg = true →
    bankBusy s (cellarOfLine s.mem.nearScrub) (64 * (s.mem.nearScrub % 8388608)) = false →
    exec (.scrub false .clean h) s = .next (s.withMem { s.mem with nearScrub := (s.mem.nearScrub + 1) % 8589934592 })) ∧
  (∀ (s : State) (h : Option SectionRef), s.pwr.pg = true →
    Completes (.scrub true .corrected h) s (fun t => t.mem.farScrub = (s.mem.farScrub + 1) % 25769803776 ∧
      t.saf.corrections = add48 s.saf.corrections 1 ∧ t.out = s.out ∧ t.mem.far = s.mem.far ∧ t.tens = s.tens)))

/-- A Cellar transfer moves 64 bytes; uncorrectable data retires the page; a fourth CRC failure fences the Cellar. A
write of 64 bytes through an ON Hall leaves exactly those bytes at the Cellar's address, every other near byte and the
far tier unchanged, and ends the requester's wait; a clean read sends out the 64 bytes and changes no memory. An
uncorrectable read with no run and no holder sends nothing, retires the page and counts a detection. A fourth CRC
failure of a write fences the Cellar (or retires it) and stores nothing. A transfer that is not its stall's turn waits
in the Cellar's queue; owner and remote transfers alternate. A refresh-rate change changes only that Cellar's rate. The
address is computed by nearAddr, as the meaning does. Rests on 07_memory_tiers.md (R174, R179, R180, R191, R194, R195).
-/
def Obligations.CellarTransfersMoveSixtyFourBytes : Prop :=
  (∀ (s : State) (c : Fin 1024) (x : CellarXfer) (b : Bytes), fnOn s (.hall (hallOf c)) = true → cellarStopped s c = false →
    cellarServes s c x = true → x.crcFails < 4 → x.write = some b → b.length = 64 → Memory.wf s.mem.near = true →
    Completes (.cellarTransfer c x) s (fun t =>
      readBytes t.mem.near (nearAddr c x.addr.toNat) 64 = b ∧
      (∀ a, (a < nearAddr c x.addr.toNat ∨ nearAddr c x.addr.toNat + 64 ≤ a) → readByte t.mem.near a = readByte s.mem.near a) ∧
      t.mem.far = s.mem.far ∧ (x.requester = c → (sget {} t.mem.cellars c.val).ownerLast = true) ∧ (getStall t x.requester).wait ≠ some waitCellar ∧ t.mbx = s.mbx ∧ t.tens = s.tens ∧ t.log = s.log)) ∧
  (∀ (s : State) (c : Fin 1024) (x : CellarXfer), fnOn s (.hall (hallOf c)) = true → cellarStopped s c = false →
    cellarServes s c x = true → x.crcFails < 4 → x.write = none → x.ecc = .clean →
    Completes (.cellarTransfer c x) s (fun t =>
      t.out = s.out ++ [.memData (nearAddr c x.addr.toNat) (readBytes s.mem.near (nearAddr c x.addr.toNat) 64)] ∧
      t.mem = { s.mem with cellars := t.mem.cellars } ∧ (getStall t x.requester).wait ≠ some waitCellar ∧ t.mbx = s.mbx ∧ t.tens = s.tens ∧ t.log = s.log)) ∧
  (∀ (s : State) (c : Fin 1024) (x : CellarXfer), fnOn s (.hall (hallOf c)) = true → cellarStopped s c = false →
    cellarServes s c x = true → x.crcFails < 4 → x.write = none → x.ecc = .uncorrectable → s.step.run = none → x.holds = none →
    Completes (.cellarTransfer c x) s (fun t => t.out = s.out ∧
      (sget {} t.mem.nearPages (nearPage c x.addr.toNat)).retired = true ∧ t.mem.near = s.mem.near ∧ t.mem.far = s.mem.far ∧
      t.saf.detections = add48 s.saf.detections 1 ∧ t.tens = s.tens ∧
      (∀ i, i ≠ c → getStall t i = getStall s i))) ∧
  (∀ (s : State) (c : Fin 1024) (x : CellarXfer), fnOn s (.hall (hallOf c)) = true → (sget {} s.saf.cellars c.val).state = .inService →
    cellarServes s c x = true → 4 ≤ x.crcFails → x.write.isSome = true → s.step.run = none →
    Completes (.cellarTransfer c x) s (fun t => t.out = s.out ∧
      t.saf.cellars = sput {} s.saf.cellars c.val (fencedEntry s.awn.tick (sget {} s.saf.cellars c.val)) ∧
      t.mem = { s.mem with cellars := t.mem.cellars } ∧ t.saf.detections = add48 s.saf.detections 1 ∧ t.tens = s.tens)) ∧
  (∀ (s : State) (c : Fin 1024) (x : CellarXfer), fnOn s (.hall (hallOf c)) = true → cellarStopped s c = false →
    cellarServes s c x = false → exec (.cellarTransfer c x) s = .next (cellarQueue c x s)) ∧
  (∀ (s : State) (c : Fin 1024) (x : CellarXfer), (firstRemote s c = none → x.requester = c → cellarServes s c x = true) ∧
    ((sget {} s.mem.cellars c.val).ownerLast = true → (firstRemote s c).isSome = true → x.requester = c → cellarServes s c x = false) ∧
    ((sget {} s.mem.cellars c.val).ownerLast = false → (sget {} s.mem.cellars c.val).ownerWaits = true → x.requester ≠ c →
      cellarServes s c x = false)) ∧
  (∀ (s : State) (c : Fin 1024), exec (.refreshRateChange c) s = .next (s.withMem { s.mem with
    cellars := sput {} s.mem.cellars c.val { sget {} s.mem.cellars c.val with doubled := decide (1 ≤ (sget {} s.mem.cellars c.val).row) } }))

/-- A caller takes one header from each member, closes at the deadline with those in time, and results are held once. At
the caller a header of the running attempt with the right digest is taken once, with its tick; one of another attempt is
counted STALE, a second one DUP, one with another digest aborts the collective with its member and field. The abort ends
the STEP_RUN and restores the commit point. DEADLINE_CLOSE at a deadline-policy collective closes the roll with exactly
the current headers taken before the deadline, and before it does nothing. A ROLL of the running attempt is applied
once; BARRIER_COMPLETION completes a barrier. A released chunk of an unfinished collective is held once and changes
nothing else. Rests on 12_collectives_and_counting_house.md (R362, R363, R364, R370, R372, R373, R374, R375, R376,
R378). -/
def Obligations.CallersTakeHeadersAndClose : Prop :=
  ((∀ (s : State) (c : Coll) (h : CHeader), findColl s h.seq = some c → c.seq = h.seq → isCaller s c = true → h.attempt = s.step.attempt →
    (c.taken.any (fun t => decide (t.1 = h.member) && decide (t.2.1 = h.carried))) = false → h.seq ∉ s.house.completed →
    h.digest = c.own.digest → c.roll = none → isLate s c = false → h.carried = false →
    (c.taken.filter (fun t => !t.2.1)).length + 1 < collSize s c →
    exec (.contributionHeader h) s = .next (updColl h.seq (fun x => { x with
      taken := x.taken ++ [(h.member, false, h.stepTag, s.awn.tick)], openAt := some (x.openAt.getD s.awn.tick) }) s)) ∧
  (∀ (s : State) (c : Coll) (h : CHeader), findColl s h.seq = some c → isCaller s c = true → h.attempt ≠ s.step.attempt →
    exec (.contributionHeader h) s = .next (collCount c (fun t => { t with staleContrib := add48 t.staleContrib 1 }) s)) ∧
  (∀ (s : State) (c : Coll) (h : CHeader), findColl s h.seq = some c → isCaller s c = true → h.attempt = s.step.attempt →
    (h.seq ∈ s.house.completed ∨ (h.member, h.carried) ∈ c.taken.map (fun t => (t.1, t.2.1))) →
    exec (.contributionHeader h) s = .next (collCount c (fun t => { t with dupContrib := add48 t.dupContrib 1 }) s)) ∧
  (∀ (s : State) (c : Coll) (h : CHeader) (f : Nat), findColl s h.seq = some c → isCaller s c = true → h.attempt = s.step.attempt →
    (c.taken.any (fun t => decide (t.1 = h.member) && decide (t.2.1 = h.carried))) = false → h.seq ∉ s.house.completed →
    h.digest ≠ c.own.digest → headerDiff c.own h = some f →
    exec (.contributionHeader h) s = .next (abortColl h.seq (groupMember s (collEntry s c).group h.member) (BitVec.ofNat 8 f)
      (emit (.mismatch h.seq h.member (BitVec.ofNat 8 f)) s))) ∧
  (∀ (s : State) (seq : W48) (member : Nat) (f : Byte) (r : RunCmd) (k : CmdRef), s.step.run = some r → r.cmd = some k → r.eval = false →
    Completes (.collectiveAbort seq member f) s (fun t => t.step.run = none ∧ t.house.colls = [] ∧ t.house.leased = 0 ∧
      t.house.mismatches = add48 s.house.mismatches 1 ∧ committed t = committed s ∧ shadow t = [] ∧ t.tens.writes = [] ∧
      t.job.collSeq = s.job.point.collSeq ∧ t.job.draws = s.job.point.draws ∧ t.house.carries = s.job.point.carries)) ∧
  (∀ (s : State) (seq : W48) (member : Nat) (f : Byte), s.step.run = none → exec (.collectiveAbort seq member f) s = .next s)) ∧
  ((∀ (s : State) (c : Coll) (t0 : W64), findColl s c.seq = some c → isCaller s c = true → policyOf s c ≠ 0 → c.roll = none →
    c.openAt = some t0 → (collEntry s c).d ≠ 0 → t0.toNat + (collEntry s c).d ≤ s.awn.tick.toNat → (collEntry s c).op ≠ 6 →
    ∃ r : RollMsg, exec (.deadlineClose c.seq) s = .next (applyRoll r (auditRoll (collSize s c) r (emit (.roll r) s))) ∧
      r.seq = c.seq ∧ r.attempt = s.step.attempt ∧
      r.mask = sortNat ((c.taken.filter (fun t => !t.2.1 && decide (t.2.2.2.toNat < t0.toNat + (collEntry s c).d))).map (·.1)) ∧
      r.carried = (c.taken.filter (fun t => t.2.1)).map (fun t => (t.1, t.2.2.1))) ∧
  (∀ (s : State) (c : Coll) (t0 : W64), findColl s c.seq = some c → c.openAt = some t0 →
    s.awn.tick.toNat < t0.toNat + (collEntry s c).d → exec (.deadlineClose c.seq) s = .next s) ∧
  (∀ (s : State) (c : Coll) (r : RollMsg), findColl s r.seq = some c → r.attempt = s.step.attempt → c.roll = none →
    policyOf s c = 0 → (collEntry s c).op ≠ 5 →
    exec (.roll r) s = .next (advance r.seq (updColl r.seq (fun c => { c with roll := some r }) s))) ∧
  (∀ (s : State) (c : Coll) (r : RollMsg), findColl s r.seq = some c → r.attempt ≠ s.step.attempt → exec (.roll r) s = .next s) ∧
  (∀ (s : State) (c : Coll) (seq : W48), findColl s seq = some c → (collEntry s c).op = 6 → c.complete = false →
    exec (.barrierCompletion seq) s = .next (completeColl c s))) ∧
  (∀ (s : State) (c : Coll) (m : ReleasedMsg), findColl s m.seq = some c → c.seq = m.seq → m.attempt = s.step.attempt → c.complete = false →
    m.last = false → (collEntry s c).op = 2 → c.entry ≠ normInst s → isGradient s c = false →
    2 ≤ chunkCount (collEntry s c) (collSize s c) (collSelf s c) → c.results = [] →
    Completes (.releasedChunk m) s (fun t => findColl t m.seq = some { c with results := [(m.shard, m.chunk, m.values)] } ∧
      t.out = s.out ∧ t.job = s.job ∧ t.tens = s.tens ∧ t.mem = s.mem ∧ t.log = s.log))

/-- Chunks of the attempt request a lease and are added; leases are granted within 3,072 slots and expire at SLOT_WAIT.
A chunk of the running attempt requests a lease and enters the tree, one of another attempt does nothing. LEASE_GRANT
before the close of the wait grants the first waiting collective exactly when its window fits in 3,072 slots and counts
its wait. At the close (SLOT_WAIT_EXPIRY, or a grant that comes then or with the Counting House off) the collective
turns to endpoint reduction, its wait is counted, and the caller counts a FALLBACK, of which another member tells it;
SLOT_WAIT_EXPIRY before the close does nothing. A RELEASED_CHUNK with a good seal is taken, one whose last chunk's seal
fails is a detection that marks the attempt suspect. Rests on 12_collectives_and_counting_house.md (R367, R370, R371,
R379, R380, R381). -/
def Obligations.ChunksTakeLeasesAndAreAdded : Prop :=
  (∀ (s : State) (c : Coll) (m : ChunkMsg), findColl s m.seq = some c → m.attempt = s.step.attempt → c.complete = false →
    m.index ≠ collSelf s c → exec (.chunkArrival m []) s = .next (advance m.seq (holdNode m (requestLease c s)))) ∧
  (∀ (s : State) (c : Coll) (m : ChunkMsg) (f : List (Fin 16)), findColl s m.seq = some c → m.attempt ≠ s.step.attempt →
    exec (.chunkArrival m f) s = .next s) ∧
  (∀ (s : State) (c : Coll), s.house.colls.find? (fun c => c.lease = some false) = some c → houseOff s = false →
    s.awn.tick.toNat < c.requested.toNat + s.job.slotWait.toNat →
    (s.house.leased + windowOf (collEntry s c) ≤ 3072 →
      ∃ u, exec .leaseGrant s = .next (advance c.seq (updColl c.seq (fun c => { c with lease := some true }) u)) ∧
        u.house.leased = s.house.leased + windowOf (collEntry s c) ∧ u.house.colls = s.house.colls ∧
        u.house.totals = sput {} s.house.totals c.entry { sget {} s.house.totals c.entry with
          slotWaitTicks := add48 (sget {} s.house.totals c.entry).slotWaitTicks (s.awn.tick - c.requested).toNat }) ∧
    (3072 < s.house.leased + windowOf (collEntry s c) → exec .leaseGrant s = .next s)) ∧
  (∀ (s : State) (c : Coll), c.lease = some false → ∃ u,
    (s.house.colls.find? (fun c => c.lease = some false) = some c →
      (houseOff s = true ∨ c.requested.toNat + s.job.slotWait.toNat ≤ s.awn.tick.toNat) →
      exec .leaseGrant s = .next (advance c.seq (updColl c.seq (fun c => { c with lease := none, endpoint := true }) u))) ∧
    (∀ seq : W48, findColl s seq = some c →
      (c.requested.toNat + s.job.slotWait.toNat ≤ s.awn.tick.toNat →
        exec (.slotWaitExpiry seq) s = .next (advance c.seq (updColl c.seq (fun c => { c with lease := none, endpoint := true }) u))) ∧
      (s.awn.tick.toNat < c.requested.toNat + s.job.slotWait.toNat → exec (.slotWaitExpiry seq) s = .next s)) ∧
    u.house.colls = s.house.colls ∧ u.house.leased = s.house.leased ∧
    u.out = (if isCaller s c then s.out else s.out ++ [.fallback c.seq]) ∧
    u.house.totals = sput {} s.house.totals c.entry { sget {} s.house.totals c.entry with
      slotWaitTicks := add48 (sget {} s.house.totals c.entry).slotWaitTicks (s.awn.tick - c.requested).toNat,
      fallbacks := if isCaller s c then add48 (sget {} s.house.totals c.entry).fallbacks 1
        else (sget {} s.house.totals c.entry).fallbacks }) ∧
  (∀ (s : State) (c : Coll) (m : ReleasedMsg), findColl s m.seq = some c → m.attempt = s.step.attempt → c.complete = false →
    ((m.last = false ∨ receivedSeal s c m = m.carried) → exec (.releasedChunk m) s = .next (takeResult c m s)) ∧
    (m.last = true → receivedSeal s c m ≠ m.carried → exec (.releasedChunk m) s =
      .next (markSuspect .none (nextSeq s) (countDetection 10 .none 0 (receivedSeal s c m) m.carried s))))

/-- The streaming cascade gives, for each accumulator element, the pairwise sum of the block results. For every
non-empty list of tiles of one length, pushing them in order into the cascade and merging gives at each element the
pairwise sum (R93) of that element of the tiles; the same for single values; and for blocks of one power-of-two size the
cascade of the blocks' pairwise sums is the pairwise sum of all their leaves in order. Rests on R97. -/
def Obligations.CascadesSumAsTheTree : Prop :=
  (∀ (n : Nat) (tiles : List (List W32)), tiles ≠ [] → (∀ t ∈ tiles, t.length = n) →
    tileMerge (tiles.foldl (fun es t => tilePush t 0 es) []) = (List.range n).map (fun i => pairwise (tiles.map (fun t => t.getD i 0)))) ∧
  (∀ (l : List W32), cascadeMerge (l.foldl (fun es t => cascadePush t 0 es) []) = pairwise l) ∧
  (∀ (k : Nat) (blocks : List (List W32)), (∀ b ∈ blocks, b.length = 2 ^ k) →
    cascadeMerge ((blocks.map pairwise).foldl (fun es t => cascadePush t 0 es) []) = pairwise blocks.flatten)

/-- Each Verb ALU instruction writes its result to its destination for every element and advances, changing nothing
else. For every stall, destination and operands: when the instruction's word is the next one of the verb and its
operands are ready, it answers a next state in which the destination register of every element of the span holds the
result the opcode table gives for that element (exact operation rounded once, canonical NaN, shifts modulo 32, and so
on), the program counter advances, and everything VerbWrites names is unchanged; it covers the floating-point,
comparison, select, move, integer, conversion, quantise and draw instructions. Rests on 05_verb_unit.md (R126, R127,
R128, R130, R131). -/
def Obligations.VerbInstructionsWriteTheirResults : Prop :=
  (∀ (s : State) (i : Fin 1024) (d : BitVec 5) (a b c : BitVec 6),
    VerbWrites (.fadd i d a b) i (instrWord 0x01 d [a, b]) d [a, b] (fun _ l => toA32 (Val.add (ofA32 (l.getD 0 0)) (ofA32 (l.getD 1 0)))) s ∧
    VerbWrites (.fsub i d a b) i (instrWord 0x02 d [a, b]) d [a, b] (fun _ l => toA32 (Val.add (ofA32 (l.getD 0 0)) (Val.neg (ofA32 (l.getD 1 0))))) s ∧
    VerbWrites (.fmul i d a b) i (instrWord 0x03 d [a, b]) d [a, b] (fun _ l => toA32 (Val.mul (ofA32 (l.getD 0 0)) (ofA32 (l.getD 1 0)))) s ∧
    VerbWrites (.fma i d a b c) i (instrWord 0x04 d [a, b, c]) d [a, b, c] (fun _ l =>
      toA32 (Val.add (Val.mul (ofA32 (l.getD 0 0)) (ofA32 (l.getD 1 0))) (ofA32 (l.getD 2 0)))) s ∧
    VerbWrites (.fmax i d a b) i (instrWord 0x05 d [a, b]) d [a, b] (fun _ l => fmax32 (l.getD 0 0) (l.getD 1 0)) s ∧
    VerbWrites (.fmin i d a b) i (instrWord 0x06 d [a, b]) d [a, b] (fun _ l => fmin32 (l.getD 0 0) (l.getD 1 0)) s ∧
    VerbWrites (.fabs i d a) i (instrWord 0x07 d [a]) d [a] (fun _ l => if isNan32 (l.getD 0 0) then nan32 else l.getD 0 0 &&& 0x7FFFFFFF) s ∧
    VerbWrites (.fneg i d a) i (instrWord 0x08 d [a]) d [a] (fun _ l => if isNan32 (l.getD 0 0) then nan32 else l.getD 0 0 ^^^ 0x80000000) s ∧
    VerbWrites (.rcp i d a) i (instrWord 0x10 d [a]) d [a] (fun _ l => toA32 (Val.div (.fin false 1 0) (ofA32 (l.getD 0 0)))) s ∧
    VerbWrites (.rsqrt i d a) i (instrWord 0x11 d [a]) d [a] (fun _ l => toA32 (Val.rsqrt (ofA32 (l.getD 0 0)))) s ∧
    VerbWrites (.sqrt i d a) i (instrWord 0x12 d [a]) d [a] (fun _ l => toA32 (Val.sqrt (ofA32 (l.getD 0 0)))) s ∧
    VerbWrites (.div i d a b) i (instrWord 0x13 d [a, b]) d [a, b] (fun _ l => toA32 (Val.div (ofA32 (l.getD 0 0)) (ofA32 (l.getD 1 0)))) s ∧
    VerbWrites (.exp2 i d a) i (instrWord 0x14 d [a]) d [a] (fun _ l => toA32 (Val.exp2 (ofA32 (l.getD 0 0)))) s ∧
    VerbWrites (.log2 i d a) i (instrWord 0x15 d [a]) d [a] (fun _ l => toA32 (Val.log2 (ofA32 (l.getD 0 0)))) s) ∧
  (∀ (s : State) (i : Fin 1024) (d : BitVec 5) (a b c : BitVec 6) (cc : Cond) (rm : RMode) (f : Fmt),
    VerbWrites (.fcmp i d cc a b) i (instrWord 0x09 d [a, b] (mod := condCode cc)) d [a, b] (fun _ l => if fcmpHolds cc (l.getD 0 0) (l.getD 1 0) then 0xFFFFFFFF else 0) s ∧
    VerbWrites (.sel i d a b c) i (instrWord 0x0A d [a, b, c]) d [a, b, c] (fun _ l => if l.getD 0 0 ≠ 0 then l.getD 1 0 else l.getD 2 0) s ∧
    VerbWrites (.mov i d a) i (instrWord 0x0B d [a]) d [a] (fun _ l => l.getD 0 0) s ∧
    VerbWrites (.iadd i d a b) i (instrWord 0x20 d [a, b]) d [a, b] (fun _ l => l.getD 0 0 + l.getD 1 0) s ∧
    VerbWrites (.isub i d a b) i (instrWord 0x21 d [a, b]) d [a, b] (fun _ l => l.getD 0 0 - l.getD 1 0) s ∧
    VerbWrites (.imul i d a b) i (instrWord 0x22 d [a, b]) d [a, b] (fun _ l => l.getD 0 0 * l.getD 1 0) s ∧
    VerbWrites (.and i d a b) i (instrWord 0x23 d [a, b]) d [a, b] (fun _ l => l.getD 0 0 &&& l.getD 1 0) s ∧
    VerbWrites (.or i d a b) i (instrWord 0x24 d [a, b]) d [a, b] (fun _ l => l.getD 0 0 ||| l.getD 1 0) s ∧
    VerbWrites (.xor i d a b) i (instrWord 0x25 d [a, b]) d [a, b] (fun _ l => l.getD 0 0 ^^^ l.getD 1 0) s ∧
    VerbWrites (.shl i d a b) i (instrWord 0x26 d [a, b]) d [a, b] (fun _ l => l.getD 0 0 <<< ((l.getD 1 0).toNat % 32)) s ∧
    VerbWrites (.shr i d a b) i (instrWord 0x27 d [a, b]) d [a, b] (fun _ l => l.getD 0 0 >>> ((l.getD 1 0).toNat % 32)) s ∧
    VerbWrites (.sar i d a b) i (instrWord 0x28 d [a, b]) d [a, b] (fun _ l => (l.getD 0 0).sshiftRight ((l.getD 1 0).toNat % 32)) s ∧
    VerbWrites (.icmp i d cc a b) i (instrWord 0x29 d [a, b] (mod := condCode cc)) d [a, b] (fun _ l => if icmpHolds cc (l.getD 0 0) (l.getD 1 0) then 0xFFFFFFFF else 0) s ∧
    VerbWrites (.itof i d a) i (instrWord 0x30 d [a]) d [a] (fun _ l => itof (l.getD 0 0)) s ∧
    VerbWrites (.ftoi i d rm a) i (instrWord 0x31 d [a] (rmq := rmCode rm)) d [a] (fun _ l => (ftoi rm (l.getD 0 0)).1) s ∧
    VerbWrites (.qnt i d f rm a b) i (instrWord 0x32 d [a, b] (fmt := fmtCode f) (rmq := rmCode rm)) d [a, b] (fun _ l =>
      toA32 (decode f (convert f rm false (l.getD 1 0).toNat (ofA32 (l.getD 0 0))).code)) s ∧
    (∀ (slot : Fin 4) (sp : Span) (id : W32), (getStall s i).span = some sp → sp.header.draws.getD slot.val none = some id →
      VerbWrites (.draw i d slot) i (instrWord 0x38 d [] (mod := slot.val)) d [] (fun e _ =>
        drawWord s.job.seed id (sp.drawBase.getD slot.val 0 + BitVec.ofNat 64 (spanIdx sp e))) s))

/-- A Verb instruction whose operand is not ready waits and has no effect; SPAN_START begins a span with zero registers.
FADD, IADD, MOV, PUT and SUM with an operand that is not ready answer a state in which the stall waits with its cause
(and, with a queue operand, has taken the queue's flits); one whose word is not the verb's next one does nothing. A
parameter operand waits exactly while the parameter is unknown, an accumulator operand exactly while its buffer is not
in DRAIN. SPAN_START on a stall without a span, of a legal span of a chosen sentence with nothing to wait for, begins
one at instruction 0 with every register 0, the verb's bound parameters and the draw bases of the verb's run, and leaves
every other stall. Rests on 05_verb_unit.md (R117, R120, R121, R124, R132). -/
def Obligations.VerbInstructionsWaitForTheirOperands : Prop :=
  (∀ (s : State) (i : Fin 1024) (d : BitVec 5) (a b : BitVec 6) (k : Fin 4),
    VerbWaits (.fadd i d a b) i (instrWord 0x01 d [a, b]) [a, b] s ∧ VerbWaits (.iadd i d a b) i (instrWord 0x20 d [a, b]) [a, b] s ∧
    VerbWaits (.mov i d a) i (instrWord 0x0B d [a]) [a] s ∧ VerbWaits (.put i k a) i (instrWord 0x3C 0 [a] (mod := k.val)) [a] s ∧
    VerbWaits (.summ i k a) i (instrWord 0x3D 0 [a] (mod := k.val)) [a] s) ∧
  (∀ (s : State) (i : Fin 1024) (d : BitVec 5) (a b : BitVec 6) (k : Fin 4),
    VerbKeepsOrder (.fadd i d a b) i (instrWord 0x01 d [a, b]) s ∧ VerbKeepsOrder (.iadd i d a b) i (instrWord 0x20 d [a, b]) s ∧
    VerbKeepsOrder (.mov i d a) i (instrWord 0x0B d [a]) s ∧ VerbKeepsOrder (.put i k a) i (instrWord 0x3C 0 [a] (mod := k.val)) s ∧
    VerbKeepsOrder (.summ i k a) i (instrWord 0x3D 0 [a] (mod := k.val)) s) ∧
  (∀ (s : State) (st : Stall) (sp : Span) (k : Fin 8) (sel : BitVec 6), sel.toNat = 48 + k.val →
    (operandWait s st sp sel = none ↔ paramOf s sp k.val ≠ none)) ∧
  (∀ (s : State) (st : Stall) (sp : Span) (k : Fin 2) (b : Fin 4) (sel : BitVec 6), sel.toNat = 40 + k.val → sp.init.accs[k.val]? = some b →
    (operandWait s st sp sel = none ↔ (st.bufs[b]).state = .drain)) ∧
  (∀ (s : State) (i : Fin 1024) (v : SpanInit) (p : Program) (h : VerbHeader), (getStall s i).span = none → s.load.prog = some p →
    p.verbs[v.verb]? = some h → spanOk s i h v = true → clauseChosen s (getStall s i).ctx = some true →
    clauseRing s (getStall s i).ctx = none → countsAwaited s (getStall s i).ctx = false →
    copyAwaited s (getStall s i).ctx = false → heldBack s (getStall s i).ctx = false →
    Completes (.spanStart i v) s (fun t => t = (((s.withJob t.job).withOut t.out).withStalls t.stalls).withStep t.step ∧
        t.job = { s.job with verbRuns := sput none s.job.verbRuns v.verb (some (verbRun s i h v)) } ∧
      t.mem = s.mem ∧ t.tens = s.tens ∧ t.step = s.step ∧ t.out = s.out ∧ (∀ j, j ≠ i → getStall t j = getStall s j) ∧
      ∃ sp, (getStall t i).span = some sp ∧ sp.drawBase = (verbRun s i h v).bases ∧ sp.init = v ∧ sp.header = h ∧ sp.pc = 0 ∧
        sp.regs = List.replicate (v.rows * v.cols) (Vector.replicate 32 0) ∧
        sp.params = (List.range 8).map (fun k => sget none s.job.params (8 * v.verb + k))))

/-- PUT writes its output or waits for credits, SUM feeds its slot, partials combine and decisions are evaluated. PUT to
a store output with ready operands writes the converted elements to the stall's store and the open tensor write,
advances, and leaves other stalls, memory, job, outputs and the Logbook; a remainder of a saturated element is 0. PUT to
a queue without credits waits, and PUT to the shadow buffer under a snapshot drain waits for the peer. SUM feeds the
slot and advances. SUMMARY_PARTIAL keeps a partial until the last, whose arrival makes the summary. DECISION_RUN of an
undecided decision with a value and no writes keeps its outcome, and unvisited experts under HOLD are then settled when
the step's visits are known. Rests on 05_verb_unit.md (R122, R123, R129, R136, R137, R138, R139),
02_stalls_and_clauses.md (R38). -/
def Obligations.PutAndSummFeedOutputsAndSlots : Prop :=
  (∀ (s : State) (i : Fin 1024) (k : Fin 4) (a : BitVec 6) (st : Stall) (sp : Span) (w : W128) (tid : W64) (tw : TensorWrite)
    (raw convs : List Conv) (scales : List Byte), getStall s i = st → st.span = some sp →
    runsNext sp (instrWord 0x3C 0 [a] (mod := k.val)) = true → operandsWait s st sp [a] = none → sp.pc + 1 < sp.header.instrs.length → sp.header.outs.getD k.val none = some w →
    tid = sp.init.outTids.getD k.val 0 → tw = openWrite s tid (if sdRm w = .sr then some (sdStream w) else none) →
    putConvs s w tw sp ((List.range (spanSize sp)).map (fun e => (operand s st sp a e).1)) = (raw, scales) →
    convs = remainderConvs s tid sp raw →
    (sdQueue w = false → shadowWaits s tid = false →
      (putWrite w i sp tw convs scales).codes.length < heldElems s tid sp.init.elems →
      Completes (.put i k a) s (fun t => t = ((((s.withJob t.job).withOut t.out).withStalls t.stalls).withStep t.step).withTens t.tens ∧
        (getStall t i).store = putRegion w sp convs scales st.store ∧
        t.tens = { s.tens with writes := sput none s.tens.writes tid.toNat (some (putWrite w i sp tw convs scales)) } ∧
        (∀ j, j ≠ i → getStall t j = getStall s j) ∧ (∃ sp', (getStall t i).span = some sp' ∧ sp'.pc = sp.pc + 1 ∧ sp'.regs = sp.regs) ∧
        t.mem = s.mem ∧ t.job = s.job ∧ t.out = s.out ∧ t.log = s.log)) ∧
    (sdQueue w = true → hasCredits (sget {} st.outs (outQueue sp k.val)) 1 = false →
      exec (.put i k a) s = .next (setStall s i { st with wait := some waitOutput, busy := false })) ∧
    ((sdQueue w = true → hasCredits (sget {} st.outs (outQueue sp k.val)) 1 = true) → shadowWaits s tid = true →
      exec (.put i k a) s = .next (setStall s i { st with wait := some waitPeer, busy := false }))) ∧
  (∀ (s : State) (i : Fin 1024) (k : Fin 4) (a : BitVec 6) (st : Stall) (sp : Span) (kind : SlotKind), getStall s i = st → st.span = some sp →
    runsNext sp (instrWord 0x3D 0 [a] (mod := k.val)) = true → operandsWait s st sp [a] = none →
    sp.pc + 1 < sp.header.instrs.length → sp.header.slots.getD k.val none = some kind →
    Completes (.summ i k a) s (fun t => t = s.withStalls t.stalls ∧ (∀ j, j ≠ i → getStall t j = getStall s j) ∧
      (getStall t i).slots = sput {} st.slots (4 * sp.init.verb + k.val)
        (feedSlot kind sp ((List.range (spanSize sp)).map (fun e => (operand s st sp a e).1)) (sget {} st.slots (4 * sp.init.verb + k.val))) ∧
      (getStall t i).store = st.store ∧ (∃ sp', (getStall t i).span = some sp' ∧ sp'.pc = sp.pc + 1 ∧ sp'.regs = sp.regs))) ∧
  (∀ (s : State) (verb slot role roles : Nat) (v : W64) (kind : SlotKind), slotKind s verb slot = some kind →
    s.job.partials = [] → 2 ≤ roles →
    exec (.summaryPartial verb slot role roles v) s = .next (s.withJob { s.job with partials := [(verb, slot, role, v)] })) ∧
  (∀ (s : State) (verb slot role : Nat) (v : W64), slotKind s verb slot = some .nfc → s.job.partials = [] →
    exec (.summaryPartial verb slot role 1 v) s = .next (s.withJob { s.job with
      partials := [], summaries := s.job.summaries.filter (fun p => decide (p.1 ≠ (verb, slot))) ++ [((verb, slot), v)] })) ∧
  (∀ (s : State) (i : Nat) (p : Program) (d : Decision) (x : W32) (n : Option Nat), s.load.prog = some p → p.decisions[i]? = some d →
    s.job.decided.any (fun q => decide (q.1 = i)) = false → decisionValue s d = some (x, n) → d.writes = [] → d.source ≠ .nfflag →
    exec (.decisionRun i) s = .next (holdUnvisited (s.withJob { s.job with
      decided := s.job.decided ++ [(i, match d.test with | none => true | some (c, t) => decisionTest c t x n)] }))) ∧
  (∀ (s : State), s.ledger.counted = false → holdUnvisited s = s)

/-- PUT changes no byte of the store outside the elements and scales it writes. For every span, conversions and scales:
a byte whose eight bits meet no element's bits (base, element width and strides as the descriptor gives them) and that
is no row's scale byte reads after PUT as before. The addresses are computed with the expressions the meaning uses.
Rests on 05_verb_unit.md (R129), 03_number_formats_and_conversion.md (R87, R88, R89). -/
def Obligations.PutKeepsTheOtherBytesOfTheStore : Prop :=
  ∀ (w : W128) (sp : Span) (convs : List Conv) (scales : List Byte) (m : List Host.Cell) (off : Nat),
    (∀ e, e < convs.length →
      8 * off + 8 ≤ sdBase w * 8 + fmtBits (sdFmt w) * ((spanRow sp e : Int) * sdStrideRow w + (spanCol sp e : Int) * sdStrideCol w).toNat ∨
      sdBase w * 8 + fmtBits (sdFmt w) * ((spanRow sp e : Int) * sdStrideRow w + (spanCol sp e : Int) * sdStrideCol w).toNat +
        fmtBits (sdFmt w) ≤ 8 * off) →
    (∀ r, r < scales.length → off ≠ scaleBase w sp + blockOf (sdStrideRow w).toNat (r * (sdStrideRow w).toNat)) →
    readByte (putRegion w sp convs scales m) off = readByte m off

/-- An accumulator buffer goes FREE, PRELOAD, ACCUMULATE, DRAIN as its events come, and waits otherwise. PRELOAD_ISSUE
takes a FREE buffer and no other. PRELOAD_COMPLETE keeps the decoded values, from the Cellar or from a stream that holds
them (else it waits), and goes to ACCUMULATE, or to DRAIN when preload-only. A block pass of 1 to 64 rows that the
clause and the plan give waits while the buffer is in DRAIN or PRELOAD, its expert's fetch runs or its rows have not all
come; a block of an expert's weight gradient enters that tile; any other one pushes the block's tile into the cascade,
and the last one leaves the buffer in DRAIN with the merged sum, added to the preload when there is one; the block and
drain checks then judge it, and other buffers and stalls are unchanged. A pass of more than 256 rows, with too few or
repeated buffers, or beyond 32 cascade entries does nothing. RUNNING_SUM adds the received sum at a complete tile and
sends it on, or drains at the last stall of the chain; before that it waits in the queue. Rests on
02_stalls_and_clauses.md (R26, R27, R28, R31, R48, R49), 04_summation_order.md (R97, R98, R100, R101). -/
def Obligations.AccumulatorBuffersFollowTheirStates : Prop :=
  (∀ (s : State) (i : Fin 1024) (n : Fin 4) (src : PreloadSrc) (f : Fmt) (only : Bool),
    (f = .a32 ∨ f = .bf16 ∨ f = .fp16) → preloadOk s i = true → ((getStall s i).bufs[n]).state = .free →
    exec (.preloadIssue i n src f only) s = .next (setStall s i { getStall s i with
      bufs := (getStall s i).bufs.set n { state := .preload, src := src, fmt := f, only := only } })) ∧
  (∀ (s : State) (i : Fin 1024) (n : Fin 4) (src : PreloadSrc) (f : Fmt) (only : Bool), ((getStall s i).bufs[n]).state ≠ .free →
    exec (.preloadIssue i n src f only) s = .next s) ∧
  (∀ (s : State) (i : Fin 1024) (n : Fin 4) (codes : List W32) (b : Buf) (u : State), (getStall s i).bufs[n] = b → b.state = .preload →
    u = setStall s i { getStall s i with
      wait := none, bufs := (getStall s i).bufs.set n { b with
        vals := (preloadCodes (getStall s i) b codes).map (fun c => toA32 (decode b.fmt c.toNat)), preloaded := true,
        state := if b.only then .drain else .accumulate } } →
    (b.src = .cellar → exec (.preloadComplete i n codes) s = .next u) ∧
    (∀ id : Nat, b.src = .stream id →
      (streamLacks (getStall s i) id (fmtBits b.fmt * codes.length) = true → exec (.preloadComplete i n codes) s = .next (streamShort i id s)) ∧
      (streamLacks (getStall s i) id (fmtBits b.fmt * codes.length) = false → exec (.preloadComplete i n codes) s = .next
        (consumeStream i id (fmtBits b.fmt * codes.length) u)))) ∧
  (∀ (s : State) (i : Fin 1024) (n : Fin 4) (p : BlockPass) (b : Buf), (getStall s i).bufs[n] = b → p.bufs = [n] →
    1 ≤ p.rows.length → p.rows.length ≤ 64 → p.chain = none → passOk s i p = true → clauseChosen s (getStall s i).ctx = some true →
    clauseRing s (getStall s i).ctx = none → gathers s (getStall s i).ctx = false →
    (b.state = .drain → exec (.weightBlockPass i p) s = .next (stallWaits i waitOutput s)) ∧
    (b.state = .preload → exec (.weightBlockPass i p) s = .next (stallWaits i
      (match b.src with | .cellar => waitCellar | .stream _ => waitInput) s)) ∧
    ((b.state = .free ∨ b.state = .accumulate) → expertAway s p = true → exec (.weightBlockPass i p) s = .next (stallWaits i waitExpertFetch s)) ∧
    ((b.state = .free ∨ b.state = .accumulate) → expertAway s p = false → rowsAwaited s p = true →
      exec (.weightBlockPass i p) s = .next (stallWaits i waitInput s)) ∧
    (∀ (d : BlockPass) (tile : List W32), (b.state = .free ∨ b.state = .accumulate) → b.only = false → b.complete = false →
      expertAway s p = false → rowsAwaited s p = false → outputWait (getStall s i) = none → halfRows s p = true →
      (weightSections s (getStall s i).ctx p).any (unsound s) = false → p.stream = none → d = passData s i p →
      tile = (passResults d ((List.range d.rows.length).flatMap (rowResult d))).take 2048 →
      (∀ k, tileOf s (getStall s i) d 0 = some k → exec (.weightBlockPass i p) s = .next (checkDetected i 3
        (blockCheck d (passResults d ((List.range d.rows.length).flatMap (rowResult d))))
        (tileBlock i d k n tile (setStall s i { getStall s i with busy := true, wait := none })))) ∧
      (tileOf s (getStall s i) d 0 = none → ∃ (u : State) (c : Option (Nat × W32 × W32)),
        exec (.weightBlockPass i p) s = .next (checkDetected i 4 c (checkDetected i 3
          (blockCheck d (passResults d ((List.range d.rows.length).flatMap (rowResult d)))) u)) ∧
        u = s.withStalls u.stalls ∧ (∀ j, j ≠ i → getStall u j = getStall s j) ∧
        (∀ m : Fin 4, m ≠ n → (getStall u i).bufs[m] = (getStall s i).bufs[m]) ∧
        ((getStall u i).bufs[n]).blocks = b.blocks + 1 ∧
        (p.last = false → c = none ∧ ((getStall u i).bufs[n]).state = .accumulate ∧
          ((getStall u i).bufs[n]).cascade = tilePush tile 0 b.cascade) ∧
        (p.last = true → ((getStall u i).bufs[n]).state = .drain ∧ ((getStall u i).bufs[n]).vals =
          (if b.preloaded then addTiles b.vals (tileMerge (tilePush tile 0 b.cascade))
            else tileMerge (tilePush tile 0 b.cascade)))))) ∧
  (∀ (s : State) (i : Fin 1024) (p : BlockPass), (p.rows.length > 256 ∨ p.rows.length > 64 * p.bufs.length ∨ ¬ p.bufs.Nodup ∨
    cascadeUse (getStall s i) p > 32) → exec (.weightBlockPass i p) s = .next s) ∧
  (∀ (s : State) (i : Fin 1024) (n : Fin 4) (c : List W32) (b : Buf) (j m : Nat), (getStall s i).bufs[n] = b →
    b.chain = some (j, m) → b.complete = true → b.state = .accumulate → 0 < j →
    sget [] (getStall s i).sums n.val = [] →
    (j + 1 < m → ∃ u, exec (.runningSum i n c) s = .next (settleOutput i (sendSum i j (addTiles c b.vals) u)) ∧
      u = s.withStalls u.stalls ∧ (getStall u i).bufs = (getStall s i).bufs.set n {} ∧ (getStall u i).wait = none ∧
      (∀ k, k ≠ i → getStall u k = getStall s k)) ∧
    (j + 1 = m → Completes (.runningSum i n c) s (fun t => t = s.withStalls t.stalls ∧
        t.out = s.out ∧ ((getStall t i).bufs[n]).state = .drain ∧
      ((getStall t i).bufs[n]).vals = addTiles c b.vals ∧ (∀ k, k ≠ i → getStall t k = getStall s k)))) ∧
  (∀ (s : State) (i : Fin 1024) (n : Fin 4) (c : List W32), ((getStall s i).bufs[n]).complete = false →
    Completes (.runningSum i n c) s (fun t => (getStall t i).bufs = (getStall s i).bufs ∧ t.out = s.out ∧
      sget [] (getStall t i).sums n.val = sget [] (getStall s i).sums n.val ++ [c] ∧
      (∀ k, k ≠ i → getStall t k = getStall s k) ∧ t = s.withStalls t.stalls))

/-- Each drained element leaves once and the last frees the buffer; stream flits spend credits and returns give them
back. DRAIN_ELEMENT of an element that the drain path may take enters its value, converted with the column scale and
bias of the stall's region, into the tensor write and marks it read; the last one frees the buffer; a second read, a
buffer not in DRAIN and one that a span reads do nothing, and under a snapshot drain of the shadow it waits. A stream
flit leaves into the Aisle towards each consumer only with a credit of every consumer, spending one of each, numbered
and, at the last, sealed; otherwise the stall waits. CREDIT_RETURN takes an arrived credit and adds one, up to Q. A flit
that has arrived in order joins the queue; a last one whose seal differs from the consumer's own is a seal failure.
CONTEXT_SWITCH at a tensor boundary selects the next context. Other stalls are unchanged. Rests on
02_stalls_and_clauses.md (R31, R38, R39, R42, R45), 03_number_formats_and_conversion.md (R79, R87, R88),
07_memory_tiers.md (R206). -/
def Obligations.DrainsAndStreamsMoveElements : Prop :=
  ((∀ (s u : State) (i : Fin 1024) (n : Fin 4) (d : DrainElem) (b : Buf) (w : TensorWrite), (getStall s i).bufs[n] = b →
    drainOk s i n d = true → shadowWaits s d.tid = false → dcMxOut d.desc.control = false → u = fillColumns i d b s →
    w = openWrite u d.tid (if dcRm d.desc.control = .sr then some (dcStream d.desc.control) else none) →
    exec (.drainElement i n d) s = .next (keepWrite d.tid d.elems
      (enterElem (dcFmt d.desc.control) i.val w (drainIdx d d.row d.col)
        (drainPlain d.desc (drainScale u i d d.col) (drainBias u i d d.col) (writeDraw u w (drainIdx d d.row d.col))
          (b.vals.getD (32 * d.row + d.col) 0)))
      (setStall u i { getStall u i with bufs := (getStall u i).bufs.set n (bufRead d b), busy := true, wait := none }))) ∧
  (∀ (s : State) (i : Fin 1024) (n : Fin 4) (d : DrainElem), drainOk s i n d = true → shadowWaits s d.tid = true →
    exec (.drainElement i n d) s = .next (stallWaits i waitPeer s)) ∧
  (∀ (d : DrainElem) (b : Buf),
    (b.readSet.length + 1 < d.tileRows * d.tileCols → bufRead d b = { b with readSet := b.readSet ++ [32 * d.row + d.col] }) ∧
    (d.tileRows * d.tileCols ≤ b.readSet.length + 1 → bufRead d b = {})) ∧
  (∀ (s : State) (i : Fin 1024) (n : Fin 4) (d : DrainElem), (((getStall s i).bufs[n]).state ≠ .drain ∨
    32 * d.row + d.col ∈ ((getStall s i).bufs[n]).readSet ∨ (∃ sp, (getStall s i).span = some sp ∧ n ∈ sp.init.accs)) →
    exec (.drainElement i n d) s = .next s)) ∧
  ((∀ (s : State) (i : Fin 1024) (id : Nat) (f : StreamFlit) (o : OutStream), sget {} (getStall s i).outs id = o → o.credits ≠ [] →
    ((∀ c ∈ o.credits, 1 ≤ c.2) → o.backlog = [] → ∃ u,
      exec (.streamFlitSend i id f) s = .next (aisleSend i .vc0 (.stream id (formFlit s o f).1) (o.credits.map (·.1)) u) ∧
      u = s.withStalls u.stalls ∧ (∀ j, j ≠ i → getStall u j = getStall s j) ∧ (getStall u i).bufs = (getStall s i).bufs ∧
      (getStall u i).router = (getStall s i).router ∧ (getStall u i).wait = none ∧
      sget {} (getStall u i).outs id = { (formFlit s o f).2 with credits := o.credits.map (fun c => (c.1, c.2 - 1)) }) ∧
    ((∃ c ∈ o.credits, c.2 = 0) → exec (.streamFlitSend i id f) s = .next (stallWaits i waitOutput s))) ∧
  (∀ (s : State) (o : OutStream) (f : StreamFlit), (formFlit s o f).1.idx = o.sent ∧ (formFlit s o f).1.bytes = f.bytes ∧
    (f.last = true → (formFlit s o f).1.carried = streamSeal s f.tid (o.content ++ f.bytes) (o.scales ++ f.scales) f.record ∧
      (formFlit s o f).2.sent = 0 ∧ (formFlit s o f).2.content = []) ∧
    (f.last = false → (formFlit s o f).2.sent = o.sent + 1 ∧ (formFlit s o f).2.content = o.content ++ f.bytes)) ∧
  (∀ (s : State) (i : Fin 1024) (id c n : Nat) (o : OutStream) (g : AisleFlit) (rest : List AisleFlit),
    sget {} (getStall s i).outs id = o → o.credits = [(c, n)] → o.backlog = [] → 1 ≤ o.q →
    takeFlit (fun l => decide (l = .credit id c)) (getStall s i).arrived = some (g, rest) →
    Completes (.creditReturn i id c) s (fun t => sget {} (getStall t i).outs id = { o with credits := [(c, min o.q (n + 1))] } ∧
      (getStall t i).arrived = rest ∧
      (getStall t i).bufs = (getStall s i).bufs ∧ (∀ j, j ≠ i → getStall t j = getStall s j) ∧ t = s.withStalls t.stalls)) ∧
  (∀ (s : State) (i : Fin 1024) (id c : Nat), takeFlit (fun l => decide (l = .credit id c)) (getStall s i).arrived = none →
    exec (.creditReturn i id c) s = .next s) ∧
  (∀ (s : State) (i : Fin 1024) (id : Nat) (f : StreamFlit) (q : InStream), sget {} (getStall s i).ins id = q →
    (takeFlit (isStream id) (getStall s i).arrived = none → exec (.streamFlitReceive i id f) s = .next s) ∧
    (∀ (g : AisleFlit) (rest : List AisleFlit), takeFlit (isStream id) (getStall s i).arrived = some (g, rest) →
      (f.idx ≠ q.got → exec (.streamFlitReceive i id f) s = .next s) ∧
      (f.idx = q.got →
        ((f.last = false ∨ f.carried = streamSeal s f.tid (q.content ++ f.bytes) (q.seen ++ f.scales) f.record) →
          Completes (.streamFlitReceive i id f) s (fun t =>
            sget {} (getStall t i).ins id = queueFlit q f ∧ (getStall t i).arrived = rest ∧ (getStall t i).bufs = (getStall s i).bufs ∧
            (∀ j, j ≠ i → getStall t j = getStall s j) ∧ t = s.withStalls t.stalls)) ∧
        (f.last = true → f.carried ≠ streamSeal s f.tid (q.content ++ f.bytes) (q.seen ++ f.scales) f.record →
          ∃ u, exec (.streamFlitReceive i id f) s =
            .next (sealFailure (.stall i) (stallUnit q.producer) f.tid f.sec f.carried
              (streamSeal s f.tid (q.content ++ f.bytes) (q.seen ++ f.scales) f.record) u) ∧ u = s.withStalls u.stalls ∧
            sget {} (getStall u i).ins id = queueFlit q f)))) ∧
  (∀ (s : State) (i : Fin 1024) (ctx : Nat), underTest s i.val = false → atBoundary s (getStall s i) = true →
    ctx ∈ (getStall s i).contexts → nextContext s (getStall s i) ctx = true →
    exec (.contextSwitch i ctx) s = .next (setStall s i { getStall s i with ctx := ctx, busy := false, wait := some waitInput })))

/-- The chosen experts are the k best by score, NaN last, ties to the lower index, in rank order. For every k and
scores: min k n distinct experts with their own scores are chosen, in rank order, and every chosen one ranks before
every expert not chosen. Minus zero equals plus zero (so the lower index ranks first) and a NaN ranks below minus
infinity; ranking is by score, highest first, and equal ranks go to the lower expert index, as ranksBefore computes.
Rests on R217. -/
def Obligations.ChosenExpertsRankBest : Prop :=
  ∀ (k : Nat) (scores : List W32),
    (chosen k scores).length = min k scores.length ∧
    (∀ c ∈ chosen k scores, scores[c.1]? = some c.2) ∧ ((chosen k scores).map (·.1)).Nodup ∧
    (chosen k scores).Pairwise (fun a b => ranksBefore a b = true) ∧
    (∀ (c : Nat × W32) (e : Nat) (x : W32), c ∈ chosen k scores → scores[e]? = some x → (e, x) ∉ chosen k scores →
      ranksBefore c (e, x) = true) ∧
    ranksBefore (0, 0x80000000) (1, 0) = true ∧ ranksBefore (1, 0xFF800000) (0, 0x7FC00000) = true

/-- Grants run over ranks and members in ascending order with running starts and fill an expert to its capacity. For
every policy, capacity, ranks, members and counts: the grants of one expert are listed by ascending rank and member;
each starts where the counts before it end; under drop each is cut to the room the capacity leaves and under defer none
is; the total is the sum of the counts; and the granted total is the smaller of that and the capacity, or all of it
under defer. Rests on 08_expert_routing.md (R224). -/
def Obligations.GrantsFillAnExpertInOrder : Prop :=
  ∀ (defer : Bool) (cap k q : Nat) (n : Nat → Nat → Nat),
    let pairs := (List.range k).flatMap (fun j => (List.range q).map (fun m => (j, m)))
    let g := grantExpert defer cap k q n
    g.1.map (fun x => (x.1, x.2.1)) = pairs ∧
    g.2 = (pairs.map (fun x => n x.1 x.2)).foldl (· + ·) 0 ∧
    (∀ i, (h : i < g.1.length) → (g.1[i]).2.2.1 = ((pairs.take i).map (fun x => n x.1 x.2)).foldl (· + ·) 0) ∧
    (∀ x ∈ g.1, x.2.2.2 = if defer then n x.1 x.2.1 else min (n x.1 x.2.1) (cap - x.2.2.1)) ∧
    (g.1.map (·.2.2.2)).foldl (· + ·) 0 = if defer then g.2 else min g.2 cap

/-- SELECT chooses, counts go to the homes, grants place tokens, and dispatch records enter or are counted as
duplicates. SELECT of a token in order keeps it with its choices; the last one of a whole half sends a COUNT_RECORD to
every home. COUNT_RECORD is kept, and the last member's makes the home send its grants with the capacity, which for
factor 1 and no minimum is min(ceil(T k / E), T). GRANT places the granted tokens at their positions and adds their
entries; a placed token has the granted rank and expert and a position within the grant. DISPATCH_RECORD before the
split is kept; a second one is counted DUP; otherwise it adds the rows and entries of the choices this module serves;
one whose stream's seal fails is a seal failure. Other state is unchanged as each clause says. Rests on
08_expert_routing.md (R217, R219, R222, R223, R224, R225, R226, R227, R230, R231), 09_expert_residency_and_backward.md
(R267). -/
def Obligations.SelectionIsCountedAndGranted : Prop :=
  ((∀ (s : State) (key : BatchKey) (l : ExpertLayer) (token : Nat) (scores vec : List W32), layerOf s key.layer = some l →
    (batchOf s key).counted = false → scores ≠ [] → scores.length = rtE l.desc → scores.any (fun x => isNan32 (gateScore l.desc x)) = false → tokenFits s l key token = true →
    (∀ x ∈ (batchOf s key).tokens, x.token < token) →
    Completes (.select key token scores vec false) s (fun t => t = s.withLedger t.ledger ∧
      t.ledger.entries = s.ledger.entries ∧ t.ledger.routes = s.ledger.routes ∧
      batchOf t key = { batchOf s key with
        tokens := (batchOf s key).tokens ++ [{ token := token, vec := vec, choices := tokenChoices l.desc scores }] })) ∧
  (∀ (s : State) (key : BatchKey) (l : ExpertLayer) (token : Nat), layerOf s key.layer = some l → (batchOf s key).counted = false →
    halfWhole s l key ((batchOf s key).tokens.map (·.token)) = true →
    Completes (.select key token [] [] true) s (fun t => t = (s.withLedger t.ledger).withOut t.out ∧
      batchOf t key = { batchOf s key with counted := true } ∧
      t.out = s.out ++ (layerHomes s key.layer).map (fun h => Out.countRecord h key (batchOf s key).tokens.length
        ((homeExperts s key.layer h).flatMap (fun e => (List.range (rtK l.desc)).map (fun j => { expert := e, rank := j, n := ((batchOf s key).tokens.filter (fun t => decide ((t.choices[j]?).map (·.1) = some e))).length })))))) ∧
  (∀ (s : State) (key : BatchKey) (l : ExpertLayer) (m tm : Nat) (counts : List CountEntry), layerOf s key.layer = some l →
    m < cutQ s → (∀ c ∈ (batchOf s key).counts, c.1 ≠ m) →
    ((batchOf s key).counts.length + 1 < cutQ s → Completes (.countRecord key m tm counts) s (fun t => t = s.withLedger t.ledger ∧
      batchOf t key = { batchOf s key with counts := (batchOf s key).counts ++ [(m, tm, counts)] })) ∧
    ((batchOf s key).counts.length + 1 = cutQ s → homeExperts s key.layer (ownSeg s) = [] →
      Completes (.countRecord key m tm counts) s (fun t => t = (s.withLedger t.ledger).withOut t.out ∧
        (batchOf t key).cap = capacity l.desc (((batchOf s key).counts ++ [(m, tm, counts)]).map (fun c => c.2.1) |>.foldl (· + ·) 0) ∧
        t.out = s.out ++ (List.range (cutQ s)).map (fun m => Out.grant m key (batchOf t key).cap [] [])))) ∧
  (∀ (d : W128) (T : Nat), rtCf d = 0x3F800000 → rtCapMin d = 0 → 0 < rtE d →
    capacity d T = min ((T * rtK d + rtE d - 1) / rtE d) T)) ∧
  ((∀ (s : State) (key : BatchKey) (l : ExpertLayer) (home cap : Nat) (g : List GrantEntry) (sp : List SplitEntry),
    layerOf s key.layer = some l → (batchOf s key).counted = true → home ∉ (batchOf s key).homes → home ∈ layerHomes s key.layer →
    (∃ h, h ∈ layerHomes s key.layer ∧ h ≠ home ∧ h ∉ (batchOf s key).homes) →
    Completes (.grant key home cap g sp) s (fun t => t = s.withLedger t.ledger ∧
      let b := { batchOf s key with cap := cap, homes := (batchOf s key).homes ++ [home], split := (batchOf s key).split ++ sp }
      batchOf t key = { b with placed := b.placed ++ g.flatMap (assignGrant b l.width), granted := false } ∧
      t.ledger.entries = s.ledger.entries ++ (g.flatMap (assignGrant b l.width)).map (sourceEntry s b))) ∧
  (∀ (b : Batch) (w : Nat) (g : GrantEntry) (p : Placed), p ∈ assignGrant b w g → p.rank = g.rank ∧ p.expert = g.expert ∧
    g.start ≤ p.pos ∧ p.pos < g.start + g.granted ∧ ∃ t ∈ b.tokens, t.token = p.token ∧ (t.choices[g.rank]?) = some (g.expert, p.weight)) ∧
  (∀ (s : State) (h : RecHeader) (l : ExpertLayer) (v : List W32), layerOf s h.key.layer = some l → h.epoch = runningEpoch s →
    (takesRecords (batchOf s h.key) false = false → recordSealOk s false h [] v = true → Completes (.dispatchRecord h v) s (fun t => t = s.withLedger t.ledger ∧
      t.ledger.entries = s.ledger.entries ∧
      batchOf t h.key = { batchOf s h.key with fwd := { (batchOf s h.key).fwd with early := (batchOf s h.key).fwd.early ++ [(h, [], v)] } })) ∧
    (takesRecords (batchOf s h.key) false = true → (∃ r ∈ (batchOf s h.key).fwd.records, r.src = h.src ∧ r.token = h.token) →
      Completes (.dispatchRecord h v) s (fun t => t = s.withLedger t.ledger ∧ (∀ k, k ≠ h.key → batchOf t k = batchOf s k) ∧
        batchOf t h.key = { batchOf s h.key with route := { (batchOf s h.key).route with
          dupRecords := add48 (batchOf s h.key).route.dupRecords 1 } } ∧
        t.ledger.entries = s.ledger.entries ∧
        t.ledger.routes = sput {} s.ledger.routes h.key.layer { sget {} s.ledger.routes h.key.layer with
          dupRecords := add48 (sget {} s.ledger.routes h.key.layer).dupRecords 1 })) ∧
    (∀ cs, takesRecords (batchOf s h.key) false = true → (∀ r ∈ (batchOf s h.key).fwd.records, r.src = h.src → r.token ≠ h.token) →
      recordSealOk s false h [] v = true → recordChoices s l.width (batchOf s h.key) h = some cs →
      Completes (.dispatchRecord h v) s (fun t => t = s.withLedger t.ledger ∧
        (batchOf t h.key).fwd.records = (batchOf s h.key).fwd.records ++ [h] ∧
        (batchOf t h.key).fwd.rows = (batchOf s h.key).fwd.rows ++
          cs.map (fun c => { expert := c.1, pass := c.2.1, slot := c.2.2.1, vec := v }) ∧
        t.ledger.entries.length = s.ledger.entries.length + cs.length)) ∧
    (recordSealOk s false h [] v = false →
      (∀ r ∈ (batchOf s h.key).fwd.records ++ (batchOf s h.key).fwd.early.map (·.1), r.src = h.src → r.token ≠ h.token) →
      exec (.dispatchRecord h v) s = .next (recordFailure h (recordSeal s false h [] v) s))) ∧
  (∀ (s : State) (h : RecHeader) (w : Nat) (b : Batch) (cs) , recordChoices s w b h = some cs → ∀ c ∈ cs,
    slotServer b w c.1 c.2.1 c.2.2.1 = some (ownSeg s)))

/-- PASS_COMPLETE stores a started pass's outputs and credits the pass after next; credits admit passes beyond the first
two. PASS_COMPLETE of a started pass not yet done marks it done, keeps its outputs and sends the credit for pass p + 2
to its sources, then only return records; for another pass it does nothing. PASS_CREDIT admits its pass and sends what
becomes sendable. Passes 0 and 1 are admitted at once and later forward passes only by a credit. EXPERT_FETCH_DONE makes
the fetched expert ready. Rests on 08_expert_routing.md (R232, R233, R234, R236, R237, R238). -/
def Obligations.PassesRunAndAreCredited : Prop :=
  (∀ (s : State) (key : BatchKey) (l : ExpertLayer) (e p : Nat) (back : Bool) (outs : List (Nat × List W32)),
    layerOf s key.layer = some l →
    (e, p) ∈ (serveOf (batchOf s key) back).started → (e, p) ∉ (serveOf (batchOf s key) back).done →
    Completes (.passComplete key e p back outs) s (fun t => t = (s.withLedger t.ledger).withOut t.out ∧
      (serveOf (batchOf t key) back).done = (serveOf (batchOf s key) back).done ++ [(e, p)] ∧
      (serveOf (batchOf t key) back).outs = (serveOf (batchOf s key) back).outs ++
        outs.map (fun o => { expert := e, pass := p, slot := o.1, vec := o.2 }) ∧
      ∃ rs, (∀ o ∈ rs, ∃ h v n, o = Out.returnRec h v ∨ o = Out.backwardRet h n) ∧
        t.out = s.out ++ (match (batchOf s key).split.find? (fun y => decide (y.expert = e) && decide (y.pass = p + 2)) with
          | some y => [Out.passCredit key e (p + 2) back y.sources]
          | none => []) ++ rs)) ∧
  (∀ (s : State) (key : BatchKey) (e p : Nat) (back : Bool) (outs : List (Nat × List W32)),
    (e, p) ∉ (serveOf (batchOf s key) back).started ∨ (e, p) ∈ (serveOf (batchOf s key) back).done →
    exec (.passComplete key e p back outs) s = .next s) ∧
  (∀ (s : State) (key : BatchKey) (l : ExpertLayer) (e p : Nat), layerOf s key.layer = some l → (batchOf s key).granted = true →
    Completes (.passCredit key e p false) s (fun t => t = (s.withLedger t.ledger).withOut t.out ∧ (batchOf t key).admitted = (batchOf s key).admitted ++ [(e, p)] ∧
      (batchOf t key).sent = (batchOf s key).sent ++ sendable { batchOf s key with admitted := (batchOf s key).admitted ++ [(e, p)] } false)) ∧
  (∀ (b : Batch) (back : Bool) (q : Placed), q.pos / max 1 b.cap < 2 → passAdmitted b back q = true) ∧
  (∀ (b : Batch) (q : Placed), 2 ≤ q.pos / max 1 b.cap → (q.expert, q.pos / max 1 b.cap) ∉ b.admitted → passAdmitted b false q = false) ∧
  (∀ (s : State) (x : ExpertRef), (x, false) ∈ s.ledger.fetches →
    Completes (.expertFetchDone x) s (fun t => t = s.withLedger t.ledger ∧ expertReady t x = true ∧ t.ledger.entries = s.ledger.entries))

/-- Returned outputs combine a token by pairwise sums of weighted terms; PARK and UNPARK move its entries. The return,
with a good seal, of a token's one placed choice converts the weighted output and combines the token; in general a
combined row is the pairwise sum, in rank order, of weight times output. PARK after the combine marks the batch's
entries parked and changes no other; before it does nothing. UNPARK of entries whose seals agree begins the backward
part, unparks the entries and sends each token's gate gradients. A return whose seal fails is a seal failure. Rests on
08_expert_routing.md (R237, R239, R240, R241, R243, R244), 09_expert_residency_and_backward.md (R276). -/
def Obligations.ReturnsCombineTheToken : Prop :=
  (∀ (s : State) (h : RecHeader) (l : ExpertLayer) (server : Nat) (v : List W32) (p : Placed),
    layerOf s h.key.layer = some l → placedOf (batchOf s h.key) h.token = [p] → p.server = server → p.token = h.token →
    (∀ r ∈ (batchOf s h.key).returned, r.1 ≠ h.token) → (∀ c ∈ (batchOf s h.key).combined, c.1 ≠ h.token) →
    rtRenorm l.desc = false → returnSealOk h (outputBytes h.pfmt [(p.expert, v)]) = true →
    Completes (.returnRecord h server [(p.expert, v)]) s (fun t => t = s.withLedger t.ledger ∧
      (inEval s = false → t.ledger.entries = s.ledger.entries) ∧
      (batchOf t h.key).returned = (batchOf s h.key).returned ++ [(h.token, p.rank, v)] ∧
      (batchOf t h.key).combined = (batchOf s h.key).combined ++ [(h.token,
        convertRow s l.outConv (rowCounter s l false h.key h.token)
          ((List.range l.outLen).map (fun i => mulRne p.weight (v.getD i 0))))])) ∧
  (∀ (s : State) (h : RecHeader) (l : ExpertLayer) (server : Nat) (outs : List (Nat × List W32)), layerOf s h.key.layer = some l →
    returnSealOk h (outputBytes h.pfmt outs) = false → exec (.returnRecord h server outs) s =
      .next (recordFailure h (crc64 (recHeaderBytes h ++ outputBytes h.pfmt outs)) s)) ∧
  (∀ (l : ExpertLayer) (b : Batch) (os : List (Placed × List W32)), rtRenorm l.desc = false →
    combineRow l b os = (List.range l.outLen).map (fun i => pairwise (os.map (fun o => mulRne o.1.weight (o.2.getD i 0))))) ∧
  (∀ (s : State) (key : BatchKey), combineDone (batchOf s key) = true → (batchOf s key).backward = false → inEval s = false →
    Completes (.park key) s (fun t => t = s.withLedger t.ledger ∧ t.ledger.batches = s.ledger.batches ∧
      (∀ e ∈ t.ledger.entries, e.key = key → e.parked = true) ∧ t.ledger.entries.length = s.ledger.entries.length ∧
      t.ledger.entries.filter (fun e => e.key ≠ key) = s.ledger.entries.filter (fun e => e.key ≠ key))) ∧
  (∀ (s : State) (key : BatchKey), combineDone (batchOf s key) = false → exec (.park key) s = .next s) ∧
  (∀ (s : State) (key : BatchKey) (l : ExpertLayer) (grads : List (Nat × List W32)), layerOf s key.layer = some l →
    combineDone (batchOf s key) = true → (batchOf s key).backward = false → inEval s = false →
    s.ledger.entries.any (entryBroken key) = false → (batchOf s key).bwd.early = [] →
    Completes (.unpark key grads) s (fun t => t = ((s.withLedger t.ledger).withOut t.out).withJob t.job ∧ (dcRm l.bwdConv.control ≠ .sr → t.job = s.job) ∧ (batchOf t key).backward = true ∧
      (∀ e ∈ t.ledger.entries, e.key = key → e.parked = false) ∧ t.ledger.entries.length = s.ledger.entries.length ∧
      (∀ tok ∈ (batchOf s key).tokens, ∃ c, Out.gateGrad tok.token c ∈ t.out ∧ c.length = rtK l.desc)))

/-- Backward records add the served rows scaled by their weights; returned tree nodes complete the token's gradient.
BACKWARD_RECORD before the split is kept; otherwise it adds one row for each choice served here, the gradient times that
choice's weight. BACKWARD_RETURN with the root of a one-choice token converts its values to the token's gradient and
frees the entries of that peer; nodes that do not yet give the root are kept; a record or return whose seal fails is a
seal failure. Other state is unchanged as each clause says. Rests on 09_expert_residency_and_backward.md (R271, R272,
R274, R275). -/
def Obligations.BackwardReturnsFollowTheTree : Prop :=
  (∀ (s : State) (h : RecHeader) (l : ExpertLayer) (w g : List W32), layerOf s h.key.layer = some l → h.epoch = runningEpoch s →
    (takesRecords (batchOf s h.key) true = false → recordSealOk s true h w g = true →
      Completes (.backwardRecord h w g) s (fun t => t = s.withLedger t.ledger ∧
      t.ledger.entries = s.ledger.entries ∧
      batchOf t h.key = { batchOf s h.key with bwd := { (batchOf s h.key).bwd with early := (batchOf s h.key).bwd.early ++ [(h, w, g)] } })) ∧
    (∀ cs, takesRecords (batchOf s h.key) true = true → (∀ r ∈ (batchOf s h.key).bwd.records, r.src = h.src → r.token ≠ h.token) →
      recordSealOk s true h w g = true → recordChoices s l.width (batchOf s h.key) h = some cs →
      Completes (.backwardRecord h w g) s (fun t => t = s.withLedger t.ledger ∧ t.ledger.entries = s.ledger.entries ∧
        (batchOf t h.key).fwd = (batchOf s h.key).fwd ∧ (batchOf t h.key).bwd.records = (batchOf s h.key).bwd.records ++ [h] ∧
        (batchOf t h.key).bwd.rows = (batchOf s h.key).bwd.rows ++ cs.zipIdx.map (fun x =>
          { expert := x.1.1, pass := x.1.2.1, slot := x.1.2.2.1, vec := g.map (mulRne (w.getD x.2 0)) }))) ∧
    (recordSealOk s true h w g = false →
      (∀ r ∈ (batchOf s h.key).bwd.records ++ (batchOf s h.key).bwd.early.map (·.1), r.src = h.src → r.token ≠ h.token) →
      exec (.backwardRecord h w g) s = .next (recordFailure h (recordSeal s true h w g) s))) ∧
  (∀ (s : State) (h : RecHeader) (l : ExpertLayer) (server : Nat) (p : Placed) (v : List W32), layerOf s h.key.layer = some l →
    (batchOf s h.key).backward = true → (h.token, server) ∈ (batchOf s h.key).backSent → placedOf (batchOf s h.key) h.token = [p] →
    (∀ n ∈ (batchOf s h.key).nodes, n.1 ≠ h.token) → (∀ x ∈ (batchOf s h.key).grads, x.1 ≠ h.token) →
    returnSealOk h (nodeBytes [{ level := 0, index := 0, values := v }]) = true →
    Completes (.backwardReturn h server [{ level := 0, index := 0, values := v }]) s (fun t => t = s.withLedger t.ledger ∧
      (batchOf t h.key).grads = (batchOf s h.key).grads ++ [(h.token,
        convertRow s l.bwdConv (rowCounter s l true h.key h.token) v)] ∧
      (∀ e ∈ t.ledger.entries, ¬(e.slotKind = false ∧ e.key = h.key ∧ e.token = h.token ∧ e.peer = server)) ∧
      t.ledger.entries.Sublist s.ledger.entries)) ∧
  (∀ (s : State) (h : RecHeader) (l : ExpertLayer) (server : Nat) (nodes : List TreeNode), layerOf s h.key.layer = some l →
    (batchOf s h.key).backward = true → (h.token, server) ∈ (batchOf s h.key).backSent →
    (∀ n ∈ (batchOf s h.key).nodes, n.1 ≠ h.token) → treeRoot nodes (placedOf (batchOf s h.key) h.token).length = none →
    (returnSealOk h (nodeBytes nodes) = false → exec (.backwardReturn h server nodes) s =
      .next (recordFailure h (crc64 (recHeaderBytes h ++ nodeBytes nodes)) s)) ∧
    (returnSealOk h (nodeBytes nodes) = true → Completes (.backwardReturn h server nodes) s (fun t => t = s.withLedger t.ledger ∧ (batchOf t h.key).grads = (batchOf s h.key).grads ∧
      (h.token, nodes) ∈ (batchOf t h.key).nodes)))

/-- The nodes that the serving modules return complete to the pairwise sum in rank order, whoever served which choice.
For every non-empty list of vectors of one length and every assignment of ranks to a list of modules: the maximal tree
nodes each module forms from its own leaves, put together, give the root whose elements are the pairwise sums (R93) of
the vectors in ascending rank. A module named twice in the list changes nothing. Rests on
09_expert_residency_and_backward.md (R274), 04_summation_order.md (R93). -/
def Obligations.TreeNodesGiveThePairwiseSum : Prop :=
  ∀ (xs : List (List W32)) (server : Nat → Nat) (modules : List Nat) (n : Nat), xs ≠ [] → (∀ x ∈ xs, x.length = n) →
    (∀ i, i < xs.length → server i ∈ modules) →
    treeRoot (modules.flatMap (fun m => rankNodes xs.length 0 (xs.zipIdx.map (fun x =>
        if server x.2 = m then some { level := 0, index := x.2, values := x.1 } else none)))) xs.length =
      some ((List.range n).map (fun i => pairwise (xs.map (fun x => x.getD i 0))))

/-- Promotion, replica and copy-out completions, gathers and cascade nodes change only the Ledger state they name.
PROMOTION_COPY_DONE and REPLICA_COPY_DONE note a pending copy once, a promotion when its space is free; a replica's own
copy is stored when its seals agree and is a seal failure when one does not; a replica not yet complete does not serve.
COPY_OUT_COMPLETE removes exactly that copy. GATHER_DONE keeps the layer's sections and marks it gathered, or with a
broken seal counts a detection and marks a running attempt suspect; without shards it does nothing. CASCADE_NODE waits
until the leaves before it have entered, then enters the tile's cascade in order; a tile that is whole at its home goes
to DRAIN with the merged sum, and one that is not waits for its peers. Rests on 09_expert_residency_and_backward.md
(R251, R256, R257, R258, R261, R262, R278), 10_placement_and_slices.md (R299, R300). -/
def Obligations.CopiesGathersAndNodesComplete : Prop :=
  (∀ (s : State) (x : ExpertRef) (e : DirEntry), dirFind s x = some e →
    (e.state = .fetching → e.home = ownSeg s → x ∉ s.ledger.promoted → spaceFree s = true →
      exec (.promotionCopyDone x) s = .next (s.withLedger { s.ledger with promoted := s.ledger.promoted ++ [x] })) ∧
    (e.home ≠ ownSeg s ∨ spaceFree s = false → exec (.promotionCopyDone x) s = .next s) ∧
    (∀ c : ReplicaCopy, c.member ∈ e.replicas → (∀ r ∈ s.ledger.replicas, r.1 = x → r.2.1 ≠ c.member) →
      (c.member ≠ ownSeg s → exec (.replicaCopyDone x c) s =
        .next (s.withLedger { s.ledger with replicas := s.ledger.replicas ++ [(x, c.member, false)] })) ∧
      (c.member = ownSeg s → c.secs.any (unsound s) = false → exec (.replicaCopyDone x c) s =
        .next ((setCommitted s (c.secs.foldl putSection (committed s))).withLedger
          { s.ledger with replicas := s.ledger.replicas ++ [(x, c.member, false)] })) ∧
      (c.member = ownSeg s → c.secs.any (unsound s) = true → exec (.replicaCopyDone x c) s =
        .next (unsoundFailure .none c.secs s))) ∧
    (∀ m, (∀ r ∈ s.ledger.replicas, r.1 = x → r.2.1 = m → r.2.2 = false) → e.home ≠ m → m ∉ servingModules s x)) ∧
  (∀ (s : State) (x : ExpertRef) (m : Nat),
    Completes (.copyOutComplete x m) s (fun t => t = s.withLedger { s.ledger with copyOuts := t.ledger.copyOuts } ∧
      ∀ c, c ∈ t.ledger.copyOuts ↔ c ∈ s.ledger.copyOuts ∧ ¬(c.1 = x ∧ c.2.1 = m))) ∧
  (∀ (s : State) (layer : Nat) (secs : List Section), 1 < cutD s →
    (secs.find? sealBroken = none → Completes (.gatherDone layer secs) s (fun t =>
      t = (s.withTens { s.tens with gathered := t.tens.gathered }).withLedger { s.ledger with gathered := t.ledger.gathered } ∧
      (layer, secs) ∈ t.tens.gathered ∧ layer ∈ t.ledger.gathered ∧ (∀ l ∈ t.ledger.gathered, l = layer ∨ l ∈ s.ledger.gathered))) ∧
    ((∃ x ∈ secs, sealBroken x = true) → inEval s = false → s.step.replays < 3 → Completes (.gatherDone layer secs) s (fun t => t.ledger = s.ledger ∧ t.tens = s.tens ∧
      t.saf.detections = add48 s.saf.detections 1 ∧ (s.step.run.isSome = true → t.step.suspect = true)))) ∧
  (∀ (s : State) (layer : Nat) (secs : List Section), cutD s ≤ 1 → exec (.gatherDone layer secs) s = .next s) ∧
  (∀ (s : State) (x : ExpertRef) (tile level index : Nat) (v : List W32) (l : ExpertLayer), s.ledger.tileQueue = [] →
    layerOf s x.layer = some l →
    ∃ u, exec (.cascadeNode x tile level index v) s =
      .next ((tileHolders s (x, tile)).foldl (fun s h => settleTile h.1 h.2 l.width s) u) ∧
    (index * 2 ^ level ≠ (tileState s (x, tile)).2 →
      u = s.withLedger { s.ledger with tileQueue := [((x, tile), level, index, v)] }) ∧
    (index * 2 ^ level = (tileState s (x, tile)).2 → u = s.withLedger { s.ledger with tiles := u.ledger.tiles } ∧
      tileState u (x, tile) = (tilePush v level (tileState s (x, tile)).1, (tileState s (x, tile)).2 + 2 ^ level) ∧
      ∀ k, k ≠ (x, tile) → tileState u k = tileState s k)) ∧
  (∀ (s : State) (i : Fin 1024) (n : Fin 4) (w : Nat) (k : ExpertRef × Nat) (b : Buf), (getStall s i).bufs[n] = b → b.tile = some k →
    b.state = .accumulate →
    (b.complete = false → settleTile i n w s = s) ∧
    (b.complete = true → homeOf s k.1 = some (ownSeg s) →
      ((tileKnown s k.1 && decide ((tileState s k).2 = passBlocks w (expertPasses s k.1))) = false → settleTile i n w s = stallWaits i waitPeer s) ∧
      (tileKnown s k.1 = true → (tileState s k).2 = passBlocks w (expertPasses s k.1) →
        ((getStall (settleTile i n w s) i).bufs[n]).state = .drain ∧
        ((getStall (settleTile i n w s) i).bufs[n]).vals = tileMerge (tileState s k).1 ∧
        (∀ j, j ≠ i → getStall (settleTile i n w s) j = getStall s j))))

/-- SITE_JOIN checks and seeds the exchange; sites join, leave, lag and are excluded as frames and timeouts say.
SITE_JOIN with a bad descriptor ends BAD_DESCRIPTOR, with no program NOT_LOADED, without room REFUSED_FIT with its
needs; otherwise it takes the descriptor, the committed parameters as anchor, zero momentum and residual, and requests
its session openings; without active peers the join completes at once. A legal descriptor meets the ranges of R391.
SITE_LEAVE begins to leave, or ends SITE_STALE when excluded; SITE_WAIT after it ends DEGRADED; leaving keeps only the
totals. SITE_WAIT_EXPIRY at the lead, SITE_WAIT after the wait began, excludes the awaited site, and else does nothing;
JOIN_REQ, LEAVE and NOTICE change the active sites as their rules say. Clauses on frames start from the state after the
frame is authenticated. Rests on 13_intersite_exchange.md (R390, R391, R393, R394, R404, R421, R422, R423). -/
def Obligations.SitesEnterLeaveAndAreExcluded : Prop :=
  ((∀ (s : State) (k : CmdRef) (c : Cmd), ready s k 0x90 = some c → agreedHere s c = true → s.site.joining = none →
    let b := readBuf s (bufA c) 0 (bufA c).bytes
    let d := siteDesc b
    (siteDescBad b = true → exec (.siteJoin k) s = .next (finish k rBadDescriptor s)) ∧
    (siteDescBad b = false → s.load.prog = none → exec (.siteJoin k) s = .next (finish k rNotLoaded s)) ∧
    (siteDescBad b = false → s.load.prog.isSome = true → (siteFit d s).available < (siteFit d s).required →
      exec (.siteJoin k) s = .next (finish k rRefusedFit (addRecords k (needRecords (memberIndex s) (siteFit d s)) s))) ∧
    (siteDescBad b = false → s.load.prog.isSome = true → (siteFit d s).required ≤ (siteFit d s).available →
      Completes (.siteJoin k) s (fun t => t = (((((s.withFree t.free).withMbx t.mbx).withMem t.mem).withOut t.out).withSec t.sec).withSite t.site ∧
        t.site.desc = some d ∧ t.site.sessions = [] ∧
        ((∃ i ∈ activeAtStart d, i ≠ d.own) → t.site.joining = some k) ∧
        (activeAtStart d ≠ [] → (∀ i ∈ activeAtStart d, i = d.own) → t.site.joining = none ∧ t.mbx.job = .site) ∧
        t.site.anchor = (roleCodes s (committed s) .param).map (BitVec.ofNat 16) ∧
        (∀ x ∈ t.site.momentum, x = 0) ∧ (∀ x ∈ t.site.residual, x = 0) ∧ t.site.totals = s.site.totals ∧
        t.sec.signQueue = s.sec.signQueue ++
          ((List.range d.sites).filter (fun i => decide (i ≠ d.own) && decide (d.own < i))).map (fun i => SignReq.sessionInit i (memberIndex s))))) ∧
  (∀ b : Bytes, siteDescBad b = false → 2 ≤ (siteDesc b).sites ∧ (siteDesc b).sites ≤ 16 ∧ (siteDesc b).own < (siteDesc b).sites ∧
    1 ≤ (siteDesc b).s ∧ (siteDesc b).s ≤ 8 ∧ 1 ≤ (siteDesc b).h ∧ 1 ≤ (siteDesc b).k ∧ (siteDesc b).k ≤ 32 ∧
    1 ≤ (siteDesc b).m ∧ (siteDesc b).m ≤ 16 ∧ 1 ≤ (siteDesc b).inbound ∧ (siteDesc b).inbound ≤ (siteDesc b).s + 1) ∧
  (∀ (s : State) (k : CmdRef) (c : Cmd), ready s k 0x91 = some c → agreedHere s c = true → s.site.leaving = none →
    (s.site.excluded = true → exec (.siteLeave k) s = .next (endSite k rSiteStale s)) ∧
    (s.site.excluded = false → Completes (.siteLeave k) s (fun t => t = ((((((s.withBus t.bus).withLog t.log).withMbx t.mbx).withMem t.mem).withOut t.out).withSaf t.saf).withSite t.site ∧
        t.site.leaving = some (k, s.site.round) ∧ t.mbx = s.mbx ∧
      t.site.outbound = s.site.outbound ∧ t.site.round = s.site.round))) ∧
  (∀ (s : State) (k : CmdRef) (w : Nat) (d : SiteDesc), s.site.leaving = some (k, w) → s.site.desc = some d →
    exec .siteLeaveWaitExpiry s = .next (if 1000000000 * d.siteWait ≤ (s.awn.tick - s.site.leaveAt).toNat then endSite k rDegraded s else s)) ∧
  (∀ s : State, s.site.leaving = none → exec .siteLeaveWaitExpiry s = .next s) ∧
  (∀ (s : State) (k : CmdRef) (r : Nat), (endSite k r s).site = { totals := s.site.totals })) ∧
  ((∀ s : State, s.site.waitingFor = none → exec .siteWaitExpiry s = .next s) ∧
  (∀ (s : State) (i : Nat) (d : SiteDesc), s.site.waitingFor = some i → s.site.desc = some d →
    (isLead s = false ∨ (s.awn.tick - s.site.waitSince).toNat < 1000000000 * d.siteWait → exec .siteWaitExpiry s = .next s)) ∧
  (∀ (s : State) (i : Nat) (d : SiteDesc), s.site.waitingFor = some i → isLead s = true → s.site.desc = some d →
    1000000000 * d.siteWait ≤ (s.awn.tick - s.site.waitSince).toNat →
    Completes .siteWaitExpiry s (fun t => (∀ a ∈ t.site.active, a.1 ≠ i) ∧ t.load = s.load ∧ t.job = s.job ∧ t.slice = s.slice ∧
      t.snap = s.snap ∧ t.ledger = s.ledger ∧ t.stalls = s.stalls ∧ t.ports = s.ports ∧ t.awn = s.awn)) ∧
  (∀ (s : State) (i : Nat) (d : SiteDesc), s.site.waitingFor = some i → isLead s = true → s.site.desc = some d →
    1000000000 * d.siteWait ≤ (s.awn.tick - s.site.waitSince).toNat → s.site.boundary ≠ 1 → s.site.boundary ≠ 3 → s.site.leaving = none → s.site.outbound = [] →
    Completes .siteWaitExpiry s (fun t => (∀ a ∈ t.site.active, a.1 ≠ i) ∧ (∀ a, a.1 ≠ i → (a ∈ t.site.active ↔ a ∈ s.site.active)) ∧ t.site.waitingFor = none)) ∧
  (∀ (s : State) (h : FrameHeader) (x : Session) (u : State), authFrame 7 h .joinReq s = (some x, u) →
    (u.site.joining.isSome = true → exec (.joinReq h) s = .next (u.withSite { u.site with round := h.round.toNat })) ∧
    (u.site.joining = none → u.mbx.job = .site → h.site ∉ u.site.joiners →
      Completes (.joinReq h) s (fun t => t = ((((s.withBus t.bus).withLog t.log).withOut t.out).withSaf t.saf).withSite t.site ∧
        t.site.joiners = u.site.joiners ++ [h.site] ∧ (h.site, u.site.round + 1) ∈ t.site.active ∧ t.site.round = u.site.round))) ∧
  (∀ (s : State) (h : FrameHeader) (x : Session) (u : State), authFrame 8 h .leave s = (some x, u) →
    Completes (.leave h) s (fun t => t = ((((((s.withBus t.bus).withLog t.log).withOut t.out).withSaf t.saf).withSite t.site).withStep t.step).withTens t.tens ∧
        (h.site, h.round.toNat) ∈ t.site.last ∧ t.site.active = u.site.active ∧ (u.site.boundary ≠ 1 → t.out = u.out))) ∧
  (∀ (s : State) (h : FrameHeader) (x : Session) (u : State) (site : Nat) (r : Nat), authFrame 9 h (.notice site true r) s = (some x, u) →
    (site = ownSite u → Completes (.notice h site true r) s (fun t => t.site.excluded = true ∧ t.out = u.out ∧ t.site.active = u.site.active)) ∧
    (site ≠ ownSite u → Completes (.notice h site true r) s (fun t => (∀ a ∈ t.site.active, a.1 ≠ site) ∧ t.load = s.load ∧
      t.job = s.job ∧ t.slice = s.slice ∧ t.snap = s.snap ∧ t.ledger = s.ledger ∧ t.stalls = s.stalls)) ∧
    (site ≠ ownSite u → u.site.boundary ≠ 1 → u.site.boundary ≠ 3 → u.site.leaving = none → u.site.outbound = [] →
      Completes (.notice h site true r) s (fun t => (∀ a ∈ t.site.active, a.1 ≠ site) ∧ t.site.excluded = u.site.excluded))) ∧
  (∀ (s : State) (h : FrameHeader) (x : Session) (u : State) (site : Nat) (r : Nat), authFrame 9 h (.notice site false r) s = (some x, u) →
    Completes (.notice h site false r) s (fun t => t.out = u.out ∧ ∃ w, r ≤ w ∧ (site, w) ∈ t.site.active)))

/-- Session set-up: a checked SESSION_INIT opens a responder's session, a checked SESSION_ACCEPT derives the keys.
SESSION_INIT from a site of a higher index is not taken; one that repeats a kept one is answered with the same accept;
one that fails its check is logged with the failed check and counted; one that differs in its parameters ends the join
MISMATCH; otherwise the session is kept and the signature requested. SESSION_ACCEPT with a failed check is logged and
counted; a good one opens the session at epoch 1 with the key derived from the shared secret and the transcript. The
set-up frame leaves again after 1 s without an answer; after 60 s the set-up timeout ends the join AUTH_FAIL. Rests on
13_intersite_exchange.md (R408), 18_security.md (R576, R577, R579). -/
def Obligations.SessionsAreSetUp : Prop :=
  (∀ (s : State) (h : FrameHeader) (p : SessionPayload) (d : SiteDesc), s.site.desc = some d → siteFrame h s = true →
    (ownSite s < h.site → exec (.sessionInit h p) s = .next s) ∧ (h.site < ownSite s → (∀ x, findSess s h.site h.shard.toNat = some x → x.initFrame = setupFrame 12 h p → exec (.sessionInit h p) s = .next (emitSetup x s)) ∧
    ((∀ x, findSess s h.site h.shard.toNat = some x → x.initFrame ≠ setupFrame 12 h p) →
      (∀ c, setupCheck s 12 h p [] = some c → exec (.sessionInit h p) s = .next (logSecurity 11 (natLe 1 h.site ++ natLe 1 c)
        (siteCount h.site (fun t => { t with authFails := add48 t.authFails 1 }) s))) ∧
      (∀ f, setupCheck s 12 h p [] = none → setupDiff s p = some f →
        exec (.sessionInit h p) s = .next (failJoin rMismatch { member := memberIndex s, field := f } s)) ∧
      (setupCheck s 12 h p [] = none → setupDiff s p = none →
        Completes (.sessionInit h p) s (fun t => t = (((((((s.withBus t.bus).withLog t.log).withMbx t.mbx).withMem t.mem).withOut t.out).withSaf t.saf).withSec t.sec).withSite t.site ∧
        t.sec.signQueue = s.sec.signQueue ++ [.sessionAccept h.site h.shard.toNat] ∧
          ∃ x, findSess t h.site h.shard.toNat = some x ∧ x.opened = false ∧ x.id = h.session ∧ x.initFrame = setupFrame 12 h p))))) ∧
  (∀ (s : State) (h : FrameHeader) (p : SessionPayload) (x : Session), findSess s h.site h.shard.toNat = some x → siteFrame h s = true →
    x.opened = false → x.kemKey ≠ [] → x.id = h.session →
    (∀ c, setupCheck s 13 h p x.initFrame = some c → exec (.sessionAccept h p) s = .next (logSecurity 11 (natLe 1 h.site ++ natLe 1 c)
        (siteCount h.site (fun t => { t with authFails := add48 t.authFails 1 }) s))) ∧
    (setupCheck s 13 h p x.initFrame = none → setupDiff s p = none →
      Completes (.sessionAccept h p) s (fun t => s.site.joining = none → s.site.outbound = [] → ∃ y, findSess t h.site h.shard.toNat = some y ∧ y.opened = true ∧
        y.km = Config.shake256 (Config.kemDecap x.kemKey p.kem ++ Config.shake256 (x.initFrame ++ setupFrame 13 h p) 32) 32 ∧
        y.epoch = 1))) ∧
  (∀ (s : State) (site : Nat) (x : Session) (q : Nat × FrameHeader × SessionPayload), s.site.sessions = [x] → x.site = site → x.opened = false → x.kemKey ≠ [] →
    x.setup = some q →
    ((s.awn.tick - x.sentAt).toNat < 1000000000 → exec (.sessionInitResend site) s = .next s) ∧
    (1000000000 ≤ (s.awn.tick - x.sentAt).toNat → Completes (.sessionInitResend site) s (fun t => t = (s.withOut t.out).withSite t.site ∧
        t.site.sessions = [{ x with sentAt := s.awn.tick }] ∧
      t.out = s.out ++ [Out.frame site q.1 (wireOf s x q.2.1.route) q.2.1 (.setup q.2.2)]))) ∧
  (∀ (s : State) (site : Nat), ((findSession s site).map (·.opened)).getD false = true → exec (.sessionSetupTimeout site) s = .next s) ∧
  (∀ (s : State) (site : Nat) (k : CmdRef), site ∈ activePeers s → ((findSession s site).map (·.opened)).getD false = false → s.site.joining = some k →
    exec (.sessionSetupTimeout site) s = .next (if 60000000000 ≤ (s.awn.tick - s.site.joinAt).toNat then
      finishWith k rAuthFail {} (s.withSite { totals := s.site.totals }) else s))

/-- A frame acts only in its open session, under a held key, with a good tag and an unseen sequence number. A frame with
no session, another session's id, or an unopened session changes nothing; one of an epoch without a key, or of an older
epoch 2 s after the newer one came, is counted EPOCH_DISCARDS, with a bad tag (AES-GCM of header and payload under the
key of its epoch, a free function) AUTH_FAILS, seen before REPLAYED; otherwise its number is recorded and it takes
effect on a state that differs only in the sessions. A PROBE request is answered, and an echo puts the route up.
ROUTE_DOWN takes a route down after 1 s without an echo. Rests on 13_intersite_exchange.md (R408, R411, R414, R417),
18_security.md (R579). -/
def Obligations.FramesAreAuthenticated : Prop :=
  (∀ (s : State) (n : Nat) (h : FrameHeader) (b : FrameBody) (f : Session → State → State), findSess s h.site h.shard.toNat = none →
    onFrame n h b f s = s) ∧
  (∀ (s : State) (n : Nat) (h : FrameHeader) (b : FrameBody) (f : Session → State → State) (x : Session),
    findSess s h.site h.shard.toNat = some x →
    (tagPasses s n h b = true ↔ ∃ k, (h.epoch.toNat, k) ∈ x.rxKeys ∧
      h.tag = Config.gcmTag k (natBe 4 h.epoch.toNat ++ natBe 8 h.seq.toNat) (barterHeader n h) b) ∧
    (siteFrame h s = false ∨ x.opened = false ∨ x.id ≠ h.session → onFrame n h b f s = s) ∧
    (siteFrame h s = true → x.opened = true → x.id = h.session →
      ((∀ q ∈ x.rxKeys, q.1 ≠ h.epoch.toNat) ∨ (h.epoch.toNat < x.rxEpoch ∧ 2000000000 ≤ (s.awn.tick - x.rxSince).toNat) →
        onFrame n h b f s = siteCount h.site (fun t => { t with epochDiscards := add48 t.epochDiscards 1 }) s) ∧
      (∀ k, (h.epoch.toNat, k) ∈ x.rxKeys → (x.rxEpoch ≤ h.epoch.toNat ∨ (s.awn.tick - x.rxSince).toNat < 2000000000) →
        (tagPasses s n h b = false → onFrame n h b f s = siteCount h.site (fun t => { t with authFails := add48 t.authFails 1 }) s) ∧
        (tagPasses s n h b = true → replayed x h.epoch.toNat h.seq.toNat = true →
          onFrame n h b f s = siteCount h.site (fun t => { t with replayedFrames := add48 t.replayedFrames 1 }) s) ∧
        (tagPasses s n h b = true → replayed x h.epoch.toNat h.seq.toNat = false → ∃ y u, onFrame n h b f s = f y u ∧
          u = s.withSite { s.site with sessions := u.site.sessions } ∧ y.site = x.site ∧ y.shard = x.shard ∧
          y.peerIf = h.source.drop 8 ∧ replayed y h.epoch.toNat h.seq.toNat = true)))) ∧
  (∀ (s : State) (h : FrameHeader) (x : Session) (u : State),
    (authFrame 10 h (.probe true) s = (some x, u) →
      exec (.probe h true) s = .next (updRoute x.site x.shard h.route (fun t => { t with up := true, echoAt := u.awn.tick }) u)) ∧
    (authFrame 10 h (.probe false) s = (some x, u) →
      exec (.probe h false) s = .next (sendFrame x.site x.shard { ftype := 10, round := u.site.round, route := some h.route, body := .probe true } u))) ∧
  (∀ (s : State) (site route : Nat) (x : Session) (r : Route), findSession s site = some x → x.routes[route]? = some r → r.up = true →
    ((s.awn.tick - r.echoAt).toNat < 1000000000 → exec (.routeDown site route) s = .next s) ∧
    (1000000000 ≤ (s.awn.tick - r.echoAt).toNat → Completes (.routeDown site route) s (fun t => t = (s.withOut t.out).withSite t.site ∧
        ∃ y, findSession t site = some y ∧ (y.routes[route]?).map (·.up) = some false)))

/-- DATA packets are kept once and groups decoded at k packets; missing ones are repaired; ACK returns grants. A DATA
packet seen before is only counted; a new one is kept, and the k-th of a group decodes it. ROUND_OPEN fills in the
contribution once. REPAIR sends again exactly the packets of the group that its map lacks. ACK adds its grants.
GROUP_DEADLINE of an undecoded group past its time asks for its repair, at most once in a round trip; ROUND_DATA_STALL
after SKEW_MAX and a round trip without data asks for repair of every undecoded group; before their times they do
nothing. Clauses start from the state after the frame is authenticated. Rests on 13_intersite_exchange.md (R409, R410,
R415, R418, R419, R420). -/
def Obligations.ContributionsArriveAndAreRepaired : Prop :=
  (∀ (s : State) (h : FrameHeader) (payload : Bytes) (arrival : W64) (x : Session) (i : Inbound) (d : SiteDesc) (u : State),
    authFrame 1 h (.coded payload) s = (some x, u) →
    u.site.desc = some d → findInbound h u = some i → payload.length = 8192 → h.k ≠ 0 → h.pkt < h.k + h.m →
    ((h.group, h.pkt) ∈ i.seen → Completes (.data h payload arrival) s (fun t => t = ((((((s.withBus t.bus).withLog t.log).withOut t.out).withSaf t.saf).withSite t.site).withStep t.step).withTens t.tens ∧
        t.site.inbound = u.site.inbound ∧
      t.out = u.out ∧ sget {} t.site.totals h.site = { sget {} u.site.totals h.site with dupPackets := add48 (sget {} u.site.totals h.site).dupPackets 1 })) ∧
    ((h.group, h.pkt) ∉ i.seen → h.group ∉ i.decoded → (i.packets.filter (fun q => q.1 = h.group)).length + 1 < h.k →
      Completes (.data h payload arrival) s (fun t => t.out = u.out ∧ ∃ j, findInbound h t = some j ∧ j.packets = i.packets ++ [(h.group, h.pkt, payload)] ∧
        (h.group, h.pkt) ∈ j.seen ∧ j.decoded = i.decoded ∧ j.held = i.held)) ∧
    ((h.group, h.pkt) ∉ i.seen → h.group ∉ i.decoded → (i.packets.filter (fun q => q.1 = h.group)).length + 1 = h.k → i.opened = false →
      Completes (.data h payload arrival) s (fun t => ∃ j, findInbound h t = some j ∧ j.decoded = i.decoded ++ [h.group] ∧
        (j.packets.filter (fun q => q.1 = h.group)).map (fun q => (q.2.1, q.2.2)) =
          (decodeGroup h.k ((i.packets.filter (fun q => q.1 = h.group)).map (·.2) ++ [(h.pkt, payload)])).zipIdx.map (fun q => (q.2, q.1))))) ∧
  (∀ (s : State) (h : FrameHeader) (groups lastK : Nat) (w : W64) (r : WriteRecord) (x : Session) (i : Inbound) (u : State),
    authFrame 2 h (.roundOpen groups lastK w r) s = (some x, u) →
    findInbound h u = some i →
    (i.opened = true → exec (.roundOpen h groups lastK w r) s = .next u) ∧
    (i.opened = false → i.decoded.length < groups → Completes (.roundOpen h groups lastK w r) s (fun t => t = u.withSite { u.site with inbound := t.site.inbound } ∧
      findInbound h t = some { i with opened := true, groups := groups, lastK := lastK, sealWord := w, record := r }))) ∧
  (∀ (s : State) (h : FrameHeader) (held : BitVec 48) (x : Session) (u : State) (d : SiteDesc) (o : Outbound),
    authFrame 4 h (.repair held) s = (some x, u) →
    u.site.desc = some d → stateFlag h = false → u.site.outbound.find? (fun o => decide (o.round = h.round.toNat)) = some o →
    (groupTotal d.k o.stream ≤ h.group → exec (.repair h held) s = .next u) ∧
    (h.group < groupTotal d.k o.stream → exec (.repair h held) s = .next (((List.range (groupK d.k o.stream h.group + d.m)).filter (fun i => !held.getLsbD i)).foldl
      (fun s i => resendFrame x.site x.shard (((o.epochs.find? (fun e => e.1 = h.site)).map (·.2)).getD 0) (packetFrame d x o false true h.group i) s) u))) ∧
  (∀ (s : State) (h : FrameHeader) (a : AckPayload) (x : Session) (u : State), authFrame 3 h (.ack a) s = (some x, u) → u.site.leaving = none → u.site.boundary ≠ 3 →
    u.site.outbound = [] → x.shard = memberIndex u → a.echoes = [] → stateFlag h = false → findSess u x.site x.shard = some x →
    Completes (.ack h a) s (fun t => (findSess t x.site x.shard).map (·.grants) = some (x.grants + a.grants) ∧ t.out = u.out)) ∧
  (∀ (s : State) (site shard round group : Nat) (i : Inbound),
    s.site.inbound.find? (fun i => decide (i.site = site) && decide (i.shard = shard) && decide (i.round = round)) = some i →
    (group ∈ i.decoded → exec (.groupDeadline site shard round group) s = .next s) ∧
    (group ∉ i.decoded → (∃ f ∈ i.firsts, f.1 = group) → (∀ f ∈ i.firsts, f.1 = group → f.2.2.2 ≤ s.awn.tick.toNat) →
      ((∀ r ∈ i.repaired, r.1 ≠ group) → exec (.groupDeadline site shard round group) s = .next (sendRepair i group s)) ∧
      exec (.groupDeadline site shard round group) s = .next (if repairDue s i group = true then sendRepair i group s else s)) ∧
    ((∃ f ∈ i.firsts, f.1 = group ∧ (s.awn.tick.toNat : Int) < f.2.2.2) → exec (.groupDeadline site shard round group) s = .next s) ∧
    (∀ d, s.site.desc = some d →
      ((((s.awn.tick - i.lastAt).toNat : Nat) : Int) < 1000 * (d.skewMax : Int) + largestTrip s site shard →
        exec (.roundDataStall site shard round) s = .next s) ∧
      (1000 * (d.skewMax : Int) + largestTrip s site shard ≤ (((s.awn.tick - i.lastAt).toNat : Nat) : Int) →
        exec (.roundDataStall site shard round) s = .next (((List.range (if i.opened then i.groups else
          ((streamBytes i s + 8191) / 8192 + d.k - 1) / max 1 d.k)).filter (fun g => decide (g ∉ i.decoded))).foldl (fun s g => sendRepair i g s) s))))

/-- KEY_NEXT and its answer agree the next epoch; a due switch moves to it or waits; old keys go after the grace.
KEY_NEXT to the higher end derives the next key and agrees the next epoch; to the lower end it does nothing.
KEY_NEXT_ACK with a pending key does the same and clears it. KEY_EPOCH_SWITCH switches when due and agreed, waits and
counts when due and not agreed, and else does nothing. KEY_GRACE_EXPIRY after 2 s erases the old epoch's keys of its
direction only. A switch raises the epoch by one and keeps the key of the epoch before. Rests on
13_intersite_exchange.md (R412, R413, R414), 18_security.md (R578, R579). -/
def Obligations.KeyEpochsSwitch : Prop :=
  (∀ (s : State) (h : FrameHeader) (kem : Bytes) (x : Session) (u : State), authFrame 5 h (.kem kem) s = (some x, u) →
    findSess u x.site x.shard = some x → x.opened = true →
    (ownSite u < x.site → exec (.keyNext h kem) s = .next u) ∧
    (x.site ≤ ownSite u → agreedEpoch x = h.epoch.toNat → x.keyWaiting = false → Completes (.keyNext h kem) s (fun t => t = (((((s.withBus t.bus).withLog t.log).withOut t.out).withSaf t.saf).withSec t.sec).withSite t.site ∧
        ∃ y, findSess t x.site x.shard = some y ∧ agreedEpoch y = h.epoch.toNat + 1 ∧ y.epoch = x.epoch ∧
        y.km = Config.shake256 (x.km ++ (Config.kemEncap kem u.sec.kemUsed).2 ++ natBe 4 (h.epoch.toNat + 1)) 32))) ∧
  (∀ (s : State) (h : FrameHeader) (kem : Bytes) (x : Session) (u : State), authFrame 6 h (.kem kem) s = (some x, u) →
    findSess u x.site x.shard = some x → x.opened = true →
    (x.kemKey = [] → exec (.keyNextAck h kem) s = .next u) ∧
    (x.kemKey ≠ [] → x.keyWaiting = false → Completes (.keyNextAck h kem) s (fun t => t = (((((s.withBus t.bus).withLog t.log).withOut t.out).withSaf t.saf).withSec t.sec).withSite t.site ∧
        t.out = u.out ∧
      ∃ y, findSess t x.site x.shard = some y ∧ agreedEpoch y = agreedEpoch x + 1 ∧ y.kemKey = [] ∧ y.epoch = x.epoch ∧
        y.km = Config.shake256 (x.km ++ Config.kemDecap x.kemKey kem ++ natBe 4 (agreedEpoch x + 1)) 32))) ∧
  (∀ (s : State) (site : Nat) (x : Session), s.site.sessions = [x] → x.site = site → x.opened = true →
    (switchDue s x = false → exec (.keyEpochSwitch site) s = .next s) ∧
    (switchDue s x = true → nextAgreed x = true → exec (.keyEpochSwitch site) s = .next (switchEpoch site x.shard s)) ∧
    (switchDue s x = true → nextAgreed x = false → x.keyWaiting = false →
      Completes (.keyEpochSwitch site) s (fun t => t = s.withSite { s.site with sessions := [{ x with keyWaiting := true }], totals := t.site.totals } ∧
        sget {} t.site.totals site = { sget {} s.site.totals site with keyWaits := add48 (sget {} s.site.totals site).keyWaits 1 }))) ∧
  (∀ (s : State) (site : Nat) (x : Session), s.site.sessions = [x] → x.site = site → x.opened = true →
    (2000000000 ≤ (s.awn.tick - x.since).toNat → exec (.keyGraceExpiry site true) s =
      .next (s.withSite { s.site with sessions := [{ x with txKeys := x.txKeys.filter (fun k => decide (x.epoch ≤ k.1)) }] })) ∧
    (2000000000 ≤ (s.awn.tick - x.rxSince).toNat → Completes (.keyGraceExpiry site false) s (fun t =>
      ∃ y, t = s.withSite { s.site with sessions := [y] } ∧ y.rxKeys = x.rxKeys.filter (fun k => decide (x.rxEpoch ≤ k.1)) ∧ y.txKeys = x.txKeys))) ∧
  (∀ (s : State) (site shard : Nat) (x : Session), findSess s site shard = some x →
    ∃ y, findSess (switchEpoch site shard s) site shard = some y ∧ y.epoch = x.epoch + 1 ∧ y.txPrev = x.txSeq ∧ y.txSeq.toNat ≤ 1 ∧
      y.txKeys = x.txKeys.filter (fun k => decide (x.epoch ≤ k.1)))

/-- CONTRIBUTION_REPORTs are kept per member and evaluated at the boundary; an ACCEPTED_SET makes the outer update. A
report replaces the member's report at the lead. At a boundary with every report, a lagging site is waited for, or the
set held by all is accepted in site order and sent. ACCEPTED_SET at the boundary stores the set, begins the outer step
and forms the next momentum by the outer rule from the pairwise mean of the accepted contributions; elsewhere it does
nothing. With one leaf the outer element is the two FMAs of the rule, converted to BF16. Rests on
13_intersite_exchange.md (R396, R397, R401, R402, R403). -/
def Obligations.RollsAreEvaluatedAndApplied : Prop :=
  (∀ (s : State) (m : Nat) (held : List SiteRound), isLead s = false → exec (.contributionReport m held) s = .next s) ∧
  (∀ (s : State) (m : Nat) (held : List SiteRound), isLead s = true → s.site.boundary ≠ 1 →
    Completes (.contributionReport m held) s (fun t => t = s.withSite { s.site with reports := t.site.reports } ∧ (m, held) ∈ t.site.reports ∧
      (∀ r, r.1 ≠ m → (r ∈ t.site.reports ↔ r ∈ s.site.reports)))) ∧
  (∀ (s : State) (m : Nat) (held : List SiteRound) (u : State), u = s.withSite { s.site with reports := s.site.reports.filter (fun r => r.1 ≠ m) ++ [(m, held)] } →
    isLead s = true → s.site.excluded = false → s.site.boundary = 1 → s.step.run = none → reporters s ≤ u.site.reports.length →
    (∀ i, laggingSite u (siteOrder (heldByAll u)) = some i → exec (.contributionReport m held) s = .next (u.withSite { u.site with
      waitingFor := some i, waitSince := if s.site.waitingFor = some i then s.site.waitSince else s.awn.tick })) ∧
    (laggingSite u (siteOrder (heldByAll u)) = none → Completes (.contributionReport m held) s (fun t => t = ((((((s.withBus t.bus).withLog t.log).withOut t.out).withSaf t.saf).withSite t.site).withStep t.step).withTens t.tens ∧
        Out.accepted (siteOrder (heldByAll u)) ∈ t.out ∧ t.site.waitingFor = none ∧
        (s.site.desc.isSome = true → t.site.accepted.Perm (heldByAll u) ∧ t.step.outer = true)))) ∧
  (∀ (s : State) (set : List SiteRound) (d : SiteDesc), s.site.desc = some d → s.site.boundary = 1 → s.step.run = none →
    Completes (.acceptedSet set) s (fun t => t = ((((((s.withBus t.bus).withLog t.log).withOut t.out).withSaf t.saf).withSite t.site).withStep t.step).withTens t.tens ∧
        t.site.accepted = siteOrder set ∧ t.site.boundary = 2 ∧ t.step.outer = true ∧
      t.site.nextMomentum = (List.range s.site.anchor.length).map (fun i => BitVec.ofNat 16 (outerElem d.mu d.eta
        (((siteOrder set).filterMap (fun x => (leafOf s s.site.anchor.length x).map (·.1))).map (fun v => v.getD i 0))
        (s.site.momentum.getD i 0) (s.site.anchor.getD i 0)).1.code))) ∧
  (∀ (s : State) (set : List SiteRound), s.site.boundary ≠ 1 ∨ s.step.run.isSome = true → exec (.acceptedSet set) s = .next s) ∧
  (∀ (mu eta : W32) (x : W32) (m a : W16),
    outerElem mu eta [x] m a = (let g := div32 x 0x3F800000
      let m1 := fmaRne mu (toA32 (decode .bf16 m.toNat)) g
      (convert .bf16 .rne false 0 (ofA32 m1), convert .bf16 .rne false 0 (ofA32 (fmaRne eta (fmaRne mu m1 g) (toA32 (decode .bf16 a.toNat)))))))

/-- Every accumulator word decodes and encodes back to itself, every NaN to the canonical NaN. For every 32-bit word x,
converting its value to A32 gives x, or the canonical NaN 0x7FC00000 when x is a NaN: no bit pattern is lost by the
exact number model. Rests on 03_number_formats_and_conversion.md (R71, R72), 05_verb_unit.md (R127). -/
def Obligations.AccumulatorWordsRoundTrip : Prop :=
  ∀ x : W32, toA32 (ofA32 x) = if isNan32 x then nan32 else x
end

