-- ==== Sys2Proof/Laws/State.lean ====
section
/-! SUPPORT. What each named update of State does to each field: it sets its own and keeps the rest. One simp lemma per
field per update. -/

namespace Sys2Proof.Machine

/-! ### State.withPending -/

@[simp] theorem State.withPending_pending (s : State) (x : List Instr) : (s.withPending x).pending = x := rfl
@[simp] theorem State.withPending_mbx (s : State) (x : List Instr) : (s.withPending x).mbx = s.mbx := rfl
@[simp] theorem State.withPending_bus (s : State) (x : List Instr) : (s.withPending x).bus = s.bus := rfl
@[simp] theorem State.withPending_dev (s : State) (x : List Instr) : (s.withPending x).dev = s.dev := rfl
@[simp] theorem State.withPending_awn (s : State) (x : List Instr) : (s.withPending x).awn = s.awn := rfl
@[simp] theorem State.withPending_saf (s : State) (x : List Instr) : (s.withPending x).saf = s.saf := rfl
@[simp] theorem State.withPending_log (s : State) (x : List Instr) : (s.withPending x).log = s.log := rfl
@[simp] theorem State.withPending_tal (s : State) (x : List Instr) : (s.withPending x).tal = s.tal := rfl
@[simp] theorem State.withPending_pwr (s : State) (x : List Instr) : (s.withPending x).pwr = s.pwr := rfl
@[simp] theorem State.withPending_dbg (s : State) (x : List Instr) : (s.withPending x).dbg = s.dbg := rfl
@[simp] theorem State.withPending_sec (s : State) (x : List Instr) : (s.withPending x).sec = s.sec := rfl
@[simp] theorem State.withPending_fns (s : State) (x : List Instr) : (s.withPending x).fns = s.fns := rfl
@[simp] theorem State.withPending_ports (s : State) (x : List Instr) : (s.withPending x).ports = s.ports := rfl
@[simp] theorem State.withPending_slice (s : State) (x : List Instr) : (s.withPending x).slice = s.slice := rfl
@[simp] theorem State.withPending_job (s : State) (x : List Instr) : (s.withPending x).job = s.job := rfl
@[simp] theorem State.withPending_load (s : State) (x : List Instr) : (s.withPending x).load = s.load := rfl
@[simp] theorem State.withPending_stalls (s : State) (x : List Instr) : (s.withPending x).stalls = s.stalls := rfl
@[simp] theorem State.withPending_mem (s : State) (x : List Instr) : (s.withPending x).mem = s.mem := rfl
@[simp] theorem State.withPending_tens (s : State) (x : List Instr) : (s.withPending x).tens = s.tens := rfl
@[simp] theorem State.withPending_ledger (s : State) (x : List Instr) : (s.withPending x).ledger = s.ledger := rfl
@[simp] theorem State.withPending_house (s : State) (x : List Instr) : (s.withPending x).house = s.house := rfl
@[simp] theorem State.withPending_step (s : State) (x : List Instr) : (s.withPending x).step = s.step := rfl
@[simp] theorem State.withPending_snap (s : State) (x : List Instr) : (s.withPending x).snap = s.snap := rfl
@[simp] theorem State.withPending_site (s : State) (x : List Instr) : (s.withPending x).site = s.site := rfl
@[simp] theorem State.withPending_out (s : State) (x : List Instr) : (s.withPending x).out = s.out := rfl
@[simp] theorem State.withPending_free (s : State) (x : List Instr) : (s.withPending x).free = s.free := rfl

/-! ### State.withMbx -/

@[simp] theorem State.withMbx_pending (s : State) (x : Mbx) : (s.withMbx x).pending = s.pending := rfl
@[simp] theorem State.withMbx_mbx (s : State) (x : Mbx) : (s.withMbx x).mbx = x := rfl
@[simp] theorem State.withMbx_bus (s : State) (x : Mbx) : (s.withMbx x).bus = s.bus := rfl
@[simp] theorem State.withMbx_dev (s : State) (x : Mbx) : (s.withMbx x).dev = s.dev := rfl
@[simp] theorem State.withMbx_awn (s : State) (x : Mbx) : (s.withMbx x).awn = s.awn := rfl
@[simp] theorem State.withMbx_saf (s : State) (x : Mbx) : (s.withMbx x).saf = s.saf := rfl
@[simp] theorem State.withMbx_log (s : State) (x : Mbx) : (s.withMbx x).log = s.log := rfl
@[simp] theorem State.withMbx_tal (s : State) (x : Mbx) : (s.withMbx x).tal = s.tal := rfl
@[simp] theorem State.withMbx_pwr (s : State) (x : Mbx) : (s.withMbx x).pwr = s.pwr := rfl
@[simp] theorem State.withMbx_dbg (s : State) (x : Mbx) : (s.withMbx x).dbg = s.dbg := rfl
@[simp] theorem State.withMbx_sec (s : State) (x : Mbx) : (s.withMbx x).sec = s.sec := rfl
@[simp] theorem State.withMbx_fns (s : State) (x : Mbx) : (s.withMbx x).fns = s.fns := rfl
@[simp] theorem State.withMbx_ports (s : State) (x : Mbx) : (s.withMbx x).ports = s.ports := rfl
@[simp] theorem State.withMbx_slice (s : State) (x : Mbx) : (s.withMbx x).slice = s.slice := rfl
@[simp] theorem State.withMbx_job (s : State) (x : Mbx) : (s.withMbx x).job = s.job := rfl
@[simp] theorem State.withMbx_load (s : State) (x : Mbx) : (s.withMbx x).load = s.load := rfl
@[simp] theorem State.withMbx_stalls (s : State) (x : Mbx) : (s.withMbx x).stalls = s.stalls := rfl
@[simp] theorem State.withMbx_mem (s : State) (x : Mbx) : (s.withMbx x).mem = s.mem := rfl
@[simp] theorem State.withMbx_tens (s : State) (x : Mbx) : (s.withMbx x).tens = s.tens := rfl
@[simp] theorem State.withMbx_ledger (s : State) (x : Mbx) : (s.withMbx x).ledger = s.ledger := rfl
@[simp] theorem State.withMbx_house (s : State) (x : Mbx) : (s.withMbx x).house = s.house := rfl
@[simp] theorem State.withMbx_step (s : State) (x : Mbx) : (s.withMbx x).step = s.step := rfl
@[simp] theorem State.withMbx_snap (s : State) (x : Mbx) : (s.withMbx x).snap = s.snap := rfl
@[simp] theorem State.withMbx_site (s : State) (x : Mbx) : (s.withMbx x).site = s.site := rfl
@[simp] theorem State.withMbx_out (s : State) (x : Mbx) : (s.withMbx x).out = s.out := rfl
@[simp] theorem State.withMbx_free (s : State) (x : Mbx) : (s.withMbx x).free = s.free := rfl

/-! ### State.withBus -/

@[simp] theorem State.withBus_pending (s : State) (x : Bus) : (s.withBus x).pending = s.pending := rfl
@[simp] theorem State.withBus_mbx (s : State) (x : Bus) : (s.withBus x).mbx = s.mbx := rfl
@[simp] theorem State.withBus_bus (s : State) (x : Bus) : (s.withBus x).bus = x := rfl
@[simp] theorem State.withBus_dev (s : State) (x : Bus) : (s.withBus x).dev = s.dev := rfl
@[simp] theorem State.withBus_awn (s : State) (x : Bus) : (s.withBus x).awn = s.awn := rfl
@[simp] theorem State.withBus_saf (s : State) (x : Bus) : (s.withBus x).saf = s.saf := rfl
@[simp] theorem State.withBus_log (s : State) (x : Bus) : (s.withBus x).log = s.log := rfl
@[simp] theorem State.withBus_tal (s : State) (x : Bus) : (s.withBus x).tal = s.tal := rfl
@[simp] theorem State.withBus_pwr (s : State) (x : Bus) : (s.withBus x).pwr = s.pwr := rfl
@[simp] theorem State.withBus_dbg (s : State) (x : Bus) : (s.withBus x).dbg = s.dbg := rfl
@[simp] theorem State.withBus_sec (s : State) (x : Bus) : (s.withBus x).sec = s.sec := rfl
@[simp] theorem State.withBus_fns (s : State) (x : Bus) : (s.withBus x).fns = s.fns := rfl
@[simp] theorem State.withBus_ports (s : State) (x : Bus) : (s.withBus x).ports = s.ports := rfl
@[simp] theorem State.withBus_slice (s : State) (x : Bus) : (s.withBus x).slice = s.slice := rfl
@[simp] theorem State.withBus_job (s : State) (x : Bus) : (s.withBus x).job = s.job := rfl
@[simp] theorem State.withBus_load (s : State) (x : Bus) : (s.withBus x).load = s.load := rfl
@[simp] theorem State.withBus_stalls (s : State) (x : Bus) : (s.withBus x).stalls = s.stalls := rfl
@[simp] theorem State.withBus_mem (s : State) (x : Bus) : (s.withBus x).mem = s.mem := rfl
@[simp] theorem State.withBus_tens (s : State) (x : Bus) : (s.withBus x).tens = s.tens := rfl
@[simp] theorem State.withBus_ledger (s : State) (x : Bus) : (s.withBus x).ledger = s.ledger := rfl
@[simp] theorem State.withBus_house (s : State) (x : Bus) : (s.withBus x).house = s.house := rfl
@[simp] theorem State.withBus_step (s : State) (x : Bus) : (s.withBus x).step = s.step := rfl
@[simp] theorem State.withBus_snap (s : State) (x : Bus) : (s.withBus x).snap = s.snap := rfl
@[simp] theorem State.withBus_site (s : State) (x : Bus) : (s.withBus x).site = s.site := rfl
@[simp] theorem State.withBus_out (s : State) (x : Bus) : (s.withBus x).out = s.out := rfl
@[simp] theorem State.withBus_free (s : State) (x : Bus) : (s.withBus x).free = s.free := rfl

/-! ### State.withDev -/

@[simp] theorem State.withDev_pending (s : State) (x : Dev) : (s.withDev x).pending = s.pending := rfl
@[simp] theorem State.withDev_mbx (s : State) (x : Dev) : (s.withDev x).mbx = s.mbx := rfl
@[simp] theorem State.withDev_bus (s : State) (x : Dev) : (s.withDev x).bus = s.bus := rfl
@[simp] theorem State.withDev_dev (s : State) (x : Dev) : (s.withDev x).dev = x := rfl
@[simp] theorem State.withDev_awn (s : State) (x : Dev) : (s.withDev x).awn = s.awn := rfl
@[simp] theorem State.withDev_saf (s : State) (x : Dev) : (s.withDev x).saf = s.saf := rfl
@[simp] theorem State.withDev_log (s : State) (x : Dev) : (s.withDev x).log = s.log := rfl
@[simp] theorem State.withDev_tal (s : State) (x : Dev) : (s.withDev x).tal = s.tal := rfl
@[simp] theorem State.withDev_pwr (s : State) (x : Dev) : (s.withDev x).pwr = s.pwr := rfl
@[simp] theorem State.withDev_dbg (s : State) (x : Dev) : (s.withDev x).dbg = s.dbg := rfl
@[simp] theorem State.withDev_sec (s : State) (x : Dev) : (s.withDev x).sec = s.sec := rfl
@[simp] theorem State.withDev_fns (s : State) (x : Dev) : (s.withDev x).fns = s.fns := rfl
@[simp] theorem State.withDev_ports (s : State) (x : Dev) : (s.withDev x).ports = s.ports := rfl
@[simp] theorem State.withDev_slice (s : State) (x : Dev) : (s.withDev x).slice = s.slice := rfl
@[simp] theorem State.withDev_job (s : State) (x : Dev) : (s.withDev x).job = s.job := rfl
@[simp] theorem State.withDev_load (s : State) (x : Dev) : (s.withDev x).load = s.load := rfl
@[simp] theorem State.withDev_stalls (s : State) (x : Dev) : (s.withDev x).stalls = s.stalls := rfl
@[simp] theorem State.withDev_mem (s : State) (x : Dev) : (s.withDev x).mem = s.mem := rfl
@[simp] theorem State.withDev_tens (s : State) (x : Dev) : (s.withDev x).tens = s.tens := rfl
@[simp] theorem State.withDev_ledger (s : State) (x : Dev) : (s.withDev x).ledger = s.ledger := rfl
@[simp] theorem State.withDev_house (s : State) (x : Dev) : (s.withDev x).house = s.house := rfl
@[simp] theorem State.withDev_step (s : State) (x : Dev) : (s.withDev x).step = s.step := rfl
@[simp] theorem State.withDev_snap (s : State) (x : Dev) : (s.withDev x).snap = s.snap := rfl
@[simp] theorem State.withDev_site (s : State) (x : Dev) : (s.withDev x).site = s.site := rfl
@[simp] theorem State.withDev_out (s : State) (x : Dev) : (s.withDev x).out = s.out := rfl
@[simp] theorem State.withDev_free (s : State) (x : Dev) : (s.withDev x).free = s.free := rfl

/-! ### State.withAwn -/

@[simp] theorem State.withAwn_pending (s : State) (x : Awn) : (s.withAwn x).pending = s.pending := rfl
@[simp] theorem State.withAwn_mbx (s : State) (x : Awn) : (s.withAwn x).mbx = s.mbx := rfl
@[simp] theorem State.withAwn_bus (s : State) (x : Awn) : (s.withAwn x).bus = s.bus := rfl
@[simp] theorem State.withAwn_dev (s : State) (x : Awn) : (s.withAwn x).dev = s.dev := rfl
@[simp] theorem State.withAwn_awn (s : State) (x : Awn) : (s.withAwn x).awn = x := rfl
@[simp] theorem State.withAwn_saf (s : State) (x : Awn) : (s.withAwn x).saf = s.saf := rfl
@[simp] theorem State.withAwn_log (s : State) (x : Awn) : (s.withAwn x).log = s.log := rfl
@[simp] theorem State.withAwn_tal (s : State) (x : Awn) : (s.withAwn x).tal = s.tal := rfl
@[simp] theorem State.withAwn_pwr (s : State) (x : Awn) : (s.withAwn x).pwr = s.pwr := rfl
@[simp] theorem State.withAwn_dbg (s : State) (x : Awn) : (s.withAwn x).dbg = s.dbg := rfl
@[simp] theorem State.withAwn_sec (s : State) (x : Awn) : (s.withAwn x).sec = s.sec := rfl
@[simp] theorem State.withAwn_fns (s : State) (x : Awn) : (s.withAwn x).fns = s.fns := rfl
@[simp] theorem State.withAwn_ports (s : State) (x : Awn) : (s.withAwn x).ports = s.ports := rfl
@[simp] theorem State.withAwn_slice (s : State) (x : Awn) : (s.withAwn x).slice = s.slice := rfl
@[simp] theorem State.withAwn_job (s : State) (x : Awn) : (s.withAwn x).job = s.job := rfl
@[simp] theorem State.withAwn_load (s : State) (x : Awn) : (s.withAwn x).load = s.load := rfl
@[simp] theorem State.withAwn_stalls (s : State) (x : Awn) : (s.withAwn x).stalls = s.stalls := rfl
@[simp] theorem State.withAwn_mem (s : State) (x : Awn) : (s.withAwn x).mem = s.mem := rfl
@[simp] theorem State.withAwn_tens (s : State) (x : Awn) : (s.withAwn x).tens = s.tens := rfl
@[simp] theorem State.withAwn_ledger (s : State) (x : Awn) : (s.withAwn x).ledger = s.ledger := rfl
@[simp] theorem State.withAwn_house (s : State) (x : Awn) : (s.withAwn x).house = s.house := rfl
@[simp] theorem State.withAwn_step (s : State) (x : Awn) : (s.withAwn x).step = s.step := rfl
@[simp] theorem State.withAwn_snap (s : State) (x : Awn) : (s.withAwn x).snap = s.snap := rfl
@[simp] theorem State.withAwn_site (s : State) (x : Awn) : (s.withAwn x).site = s.site := rfl
@[simp] theorem State.withAwn_out (s : State) (x : Awn) : (s.withAwn x).out = s.out := rfl
@[simp] theorem State.withAwn_free (s : State) (x : Awn) : (s.withAwn x).free = s.free := rfl

/-! ### State.withSaf -/

@[simp] theorem State.withSaf_pending (s : State) (x : Saf) : (s.withSaf x).pending = s.pending := rfl
@[simp] theorem State.withSaf_mbx (s : State) (x : Saf) : (s.withSaf x).mbx = s.mbx := rfl
@[simp] theorem State.withSaf_bus (s : State) (x : Saf) : (s.withSaf x).bus = s.bus := rfl
@[simp] theorem State.withSaf_dev (s : State) (x : Saf) : (s.withSaf x).dev = s.dev := rfl
@[simp] theorem State.withSaf_awn (s : State) (x : Saf) : (s.withSaf x).awn = s.awn := rfl
@[simp] theorem State.withSaf_saf (s : State) (x : Saf) : (s.withSaf x).saf = x := rfl
@[simp] theorem State.withSaf_log (s : State) (x : Saf) : (s.withSaf x).log = s.log := rfl
@[simp] theorem State.withSaf_tal (s : State) (x : Saf) : (s.withSaf x).tal = s.tal := rfl
@[simp] theorem State.withSaf_pwr (s : State) (x : Saf) : (s.withSaf x).pwr = s.pwr := rfl
@[simp] theorem State.withSaf_dbg (s : State) (x : Saf) : (s.withSaf x).dbg = s.dbg := rfl
@[simp] theorem State.withSaf_sec (s : State) (x : Saf) : (s.withSaf x).sec = s.sec := rfl
@[simp] theorem State.withSaf_fns (s : State) (x : Saf) : (s.withSaf x).fns = s.fns := rfl
@[simp] theorem State.withSaf_ports (s : State) (x : Saf) : (s.withSaf x).ports = s.ports := rfl
@[simp] theorem State.withSaf_slice (s : State) (x : Saf) : (s.withSaf x).slice = s.slice := rfl
@[simp] theorem State.withSaf_job (s : State) (x : Saf) : (s.withSaf x).job = s.job := rfl
@[simp] theorem State.withSaf_load (s : State) (x : Saf) : (s.withSaf x).load = s.load := rfl
@[simp] theorem State.withSaf_stalls (s : State) (x : Saf) : (s.withSaf x).stalls = s.stalls := rfl
@[simp] theorem State.withSaf_mem (s : State) (x : Saf) : (s.withSaf x).mem = s.mem := rfl
@[simp] theorem State.withSaf_tens (s : State) (x : Saf) : (s.withSaf x).tens = s.tens := rfl
@[simp] theorem State.withSaf_ledger (s : State) (x : Saf) : (s.withSaf x).ledger = s.ledger := rfl
@[simp] theorem State.withSaf_house (s : State) (x : Saf) : (s.withSaf x).house = s.house := rfl
@[simp] theorem State.withSaf_step (s : State) (x : Saf) : (s.withSaf x).step = s.step := rfl
@[simp] theorem State.withSaf_snap (s : State) (x : Saf) : (s.withSaf x).snap = s.snap := rfl
@[simp] theorem State.withSaf_site (s : State) (x : Saf) : (s.withSaf x).site = s.site := rfl
@[simp] theorem State.withSaf_out (s : State) (x : Saf) : (s.withSaf x).out = s.out := rfl
@[simp] theorem State.withSaf_free (s : State) (x : Saf) : (s.withSaf x).free = s.free := rfl

/-! ### State.withLog -/

@[simp] theorem State.withLog_pending (s : State) (x : Log) : (s.withLog x).pending = s.pending := rfl
@[simp] theorem State.withLog_mbx (s : State) (x : Log) : (s.withLog x).mbx = s.mbx := rfl
@[simp] theorem State.withLog_bus (s : State) (x : Log) : (s.withLog x).bus = s.bus := rfl
@[simp] theorem State.withLog_dev (s : State) (x : Log) : (s.withLog x).dev = s.dev := rfl
@[simp] theorem State.withLog_awn (s : State) (x : Log) : (s.withLog x).awn = s.awn := rfl
@[simp] theorem State.withLog_saf (s : State) (x : Log) : (s.withLog x).saf = s.saf := rfl
@[simp] theorem State.withLog_log (s : State) (x : Log) : (s.withLog x).log = x := rfl
@[simp] theorem State.withLog_tal (s : State) (x : Log) : (s.withLog x).tal = s.tal := rfl
@[simp] theorem State.withLog_pwr (s : State) (x : Log) : (s.withLog x).pwr = s.pwr := rfl
@[simp] theorem State.withLog_dbg (s : State) (x : Log) : (s.withLog x).dbg = s.dbg := rfl
@[simp] theorem State.withLog_sec (s : State) (x : Log) : (s.withLog x).sec = s.sec := rfl
@[simp] theorem State.withLog_fns (s : State) (x : Log) : (s.withLog x).fns = s.fns := rfl
@[simp] theorem State.withLog_ports (s : State) (x : Log) : (s.withLog x).ports = s.ports := rfl
@[simp] theorem State.withLog_slice (s : State) (x : Log) : (s.withLog x).slice = s.slice := rfl
@[simp] theorem State.withLog_job (s : State) (x : Log) : (s.withLog x).job = s.job := rfl
@[simp] theorem State.withLog_load (s : State) (x : Log) : (s.withLog x).load = s.load := rfl
@[simp] theorem State.withLog_stalls (s : State) (x : Log) : (s.withLog x).stalls = s.stalls := rfl
@[simp] theorem State.withLog_mem (s : State) (x : Log) : (s.withLog x).mem = s.mem := rfl
@[simp] theorem State.withLog_tens (s : State) (x : Log) : (s.withLog x).tens = s.tens := rfl
@[simp] theorem State.withLog_ledger (s : State) (x : Log) : (s.withLog x).ledger = s.ledger := rfl
@[simp] theorem State.withLog_house (s : State) (x : Log) : (s.withLog x).house = s.house := rfl
@[simp] theorem State.withLog_step (s : State) (x : Log) : (s.withLog x).step = s.step := rfl
@[simp] theorem State.withLog_snap (s : State) (x : Log) : (s.withLog x).snap = s.snap := rfl
@[simp] theorem State.withLog_site (s : State) (x : Log) : (s.withLog x).site = s.site := rfl
@[simp] theorem State.withLog_out (s : State) (x : Log) : (s.withLog x).out = s.out := rfl
@[simp] theorem State.withLog_free (s : State) (x : Log) : (s.withLog x).free = s.free := rfl

/-! ### State.withTal -/

@[simp] theorem State.withTal_pending (s : State) (x : Tal) : (s.withTal x).pending = s.pending := rfl
@[simp] theorem State.withTal_mbx (s : State) (x : Tal) : (s.withTal x).mbx = s.mbx := rfl
@[simp] theorem State.withTal_bus (s : State) (x : Tal) : (s.withTal x).bus = s.bus := rfl
@[simp] theorem State.withTal_dev (s : State) (x : Tal) : (s.withTal x).dev = s.dev := rfl
@[simp] theorem State.withTal_awn (s : State) (x : Tal) : (s.withTal x).awn = s.awn := rfl
@[simp] theorem State.withTal_saf (s : State) (x : Tal) : (s.withTal x).saf = s.saf := rfl
@[simp] theorem State.withTal_log (s : State) (x : Tal) : (s.withTal x).log = s.log := rfl
@[simp] theorem State.withTal_tal (s : State) (x : Tal) : (s.withTal x).tal = x := rfl
@[simp] theorem State.withTal_pwr (s : State) (x : Tal) : (s.withTal x).pwr = s.pwr := rfl
@[simp] theorem State.withTal_dbg (s : State) (x : Tal) : (s.withTal x).dbg = s.dbg := rfl
@[simp] theorem State.withTal_sec (s : State) (x : Tal) : (s.withTal x).sec = s.sec := rfl
@[simp] theorem State.withTal_fns (s : State) (x : Tal) : (s.withTal x).fns = s.fns := rfl
@[simp] theorem State.withTal_ports (s : State) (x : Tal) : (s.withTal x).ports = s.ports := rfl
@[simp] theorem State.withTal_slice (s : State) (x : Tal) : (s.withTal x).slice = s.slice := rfl
@[simp] theorem State.withTal_job (s : State) (x : Tal) : (s.withTal x).job = s.job := rfl
@[simp] theorem State.withTal_load (s : State) (x : Tal) : (s.withTal x).load = s.load := rfl
@[simp] theorem State.withTal_stalls (s : State) (x : Tal) : (s.withTal x).stalls = s.stalls := rfl
@[simp] theorem State.withTal_mem (s : State) (x : Tal) : (s.withTal x).mem = s.mem := rfl
@[simp] theorem State.withTal_tens (s : State) (x : Tal) : (s.withTal x).tens = s.tens := rfl
@[simp] theorem State.withTal_ledger (s : State) (x : Tal) : (s.withTal x).ledger = s.ledger := rfl
@[simp] theorem State.withTal_house (s : State) (x : Tal) : (s.withTal x).house = s.house := rfl
@[simp] theorem State.withTal_step (s : State) (x : Tal) : (s.withTal x).step = s.step := rfl
@[simp] theorem State.withTal_snap (s : State) (x : Tal) : (s.withTal x).snap = s.snap := rfl
@[simp] theorem State.withTal_site (s : State) (x : Tal) : (s.withTal x).site = s.site := rfl
@[simp] theorem State.withTal_out (s : State) (x : Tal) : (s.withTal x).out = s.out := rfl
@[simp] theorem State.withTal_free (s : State) (x : Tal) : (s.withTal x).free = s.free := rfl

/-! ### State.withPwr -/

@[simp] theorem State.withPwr_pending (s : State) (x : Pwr) : (s.withPwr x).pending = s.pending := rfl
@[simp] theorem State.withPwr_mbx (s : State) (x : Pwr) : (s.withPwr x).mbx = s.mbx := rfl
@[simp] theorem State.withPwr_bus (s : State) (x : Pwr) : (s.withPwr x).bus = s.bus := rfl
@[simp] theorem State.withPwr_dev (s : State) (x : Pwr) : (s.withPwr x).dev = s.dev := rfl
@[simp] theorem State.withPwr_awn (s : State) (x : Pwr) : (s.withPwr x).awn = s.awn := rfl
@[simp] theorem State.withPwr_saf (s : State) (x : Pwr) : (s.withPwr x).saf = s.saf := rfl
@[simp] theorem State.withPwr_log (s : State) (x : Pwr) : (s.withPwr x).log = s.log := rfl
@[simp] theorem State.withPwr_tal (s : State) (x : Pwr) : (s.withPwr x).tal = s.tal := rfl
@[simp] theorem State.withPwr_pwr (s : State) (x : Pwr) : (s.withPwr x).pwr = x := rfl
@[simp] theorem State.withPwr_dbg (s : State) (x : Pwr) : (s.withPwr x).dbg = s.dbg := rfl
@[simp] theorem State.withPwr_sec (s : State) (x : Pwr) : (s.withPwr x).sec = s.sec := rfl
@[simp] theorem State.withPwr_fns (s : State) (x : Pwr) : (s.withPwr x).fns = s.fns := rfl
@[simp] theorem State.withPwr_ports (s : State) (x : Pwr) : (s.withPwr x).ports = s.ports := rfl
@[simp] theorem State.withPwr_slice (s : State) (x : Pwr) : (s.withPwr x).slice = s.slice := rfl
@[simp] theorem State.withPwr_job (s : State) (x : Pwr) : (s.withPwr x).job = s.job := rfl
@[simp] theorem State.withPwr_load (s : State) (x : Pwr) : (s.withPwr x).load = s.load := rfl
@[simp] theorem State.withPwr_stalls (s : State) (x : Pwr) : (s.withPwr x).stalls = s.stalls := rfl
@[simp] theorem State.withPwr_mem (s : State) (x : Pwr) : (s.withPwr x).mem = s.mem := rfl
@[simp] theorem State.withPwr_tens (s : State) (x : Pwr) : (s.withPwr x).tens = s.tens := rfl
@[simp] theorem State.withPwr_ledger (s : State) (x : Pwr) : (s.withPwr x).ledger = s.ledger := rfl
@[simp] theorem State.withPwr_house (s : State) (x : Pwr) : (s.withPwr x).house = s.house := rfl
@[simp] theorem State.withPwr_step (s : State) (x : Pwr) : (s.withPwr x).step = s.step := rfl
@[simp] theorem State.withPwr_snap (s : State) (x : Pwr) : (s.withPwr x).snap = s.snap := rfl
@[simp] theorem State.withPwr_site (s : State) (x : Pwr) : (s.withPwr x).site = s.site := rfl
@[simp] theorem State.withPwr_out (s : State) (x : Pwr) : (s.withPwr x).out = s.out := rfl
@[simp] theorem State.withPwr_free (s : State) (x : Pwr) : (s.withPwr x).free = s.free := rfl

/-! ### State.withDbg -/

@[simp] theorem State.withDbg_pending (s : State) (x : Dbg) : (s.withDbg x).pending = s.pending := rfl
@[simp] theorem State.withDbg_mbx (s : State) (x : Dbg) : (s.withDbg x).mbx = s.mbx := rfl
@[simp] theorem State.withDbg_bus (s : State) (x : Dbg) : (s.withDbg x).bus = s.bus := rfl
@[simp] theorem State.withDbg_dev (s : State) (x : Dbg) : (s.withDbg x).dev = s.dev := rfl
@[simp] theorem State.withDbg_awn (s : State) (x : Dbg) : (s.withDbg x).awn = s.awn := rfl
@[simp] theorem State.withDbg_saf (s : State) (x : Dbg) : (s.withDbg x).saf = s.saf := rfl
@[simp] theorem State.withDbg_log (s : State) (x : Dbg) : (s.withDbg x).log = s.log := rfl
@[simp] theorem State.withDbg_tal (s : State) (x : Dbg) : (s.withDbg x).tal = s.tal := rfl
@[simp] theorem State.withDbg_pwr (s : State) (x : Dbg) : (s.withDbg x).pwr = s.pwr := rfl
@[simp] theorem State.withDbg_dbg (s : State) (x : Dbg) : (s.withDbg x).dbg = x := rfl
@[simp] theorem State.withDbg_sec (s : State) (x : Dbg) : (s.withDbg x).sec = s.sec := rfl
@[simp] theorem State.withDbg_fns (s : State) (x : Dbg) : (s.withDbg x).fns = s.fns := rfl
@[simp] theorem State.withDbg_ports (s : State) (x : Dbg) : (s.withDbg x).ports = s.ports := rfl
@[simp] theorem State.withDbg_slice (s : State) (x : Dbg) : (s.withDbg x).slice = s.slice := rfl
@[simp] theorem State.withDbg_job (s : State) (x : Dbg) : (s.withDbg x).job = s.job := rfl
@[simp] theorem State.withDbg_load (s : State) (x : Dbg) : (s.withDbg x).load = s.load := rfl
@[simp] theorem State.withDbg_stalls (s : State) (x : Dbg) : (s.withDbg x).stalls = s.stalls := rfl
@[simp] theorem State.withDbg_mem (s : State) (x : Dbg) : (s.withDbg x).mem = s.mem := rfl
@[simp] theorem State.withDbg_tens (s : State) (x : Dbg) : (s.withDbg x).tens = s.tens := rfl
@[simp] theorem State.withDbg_ledger (s : State) (x : Dbg) : (s.withDbg x).ledger = s.ledger := rfl
@[simp] theorem State.withDbg_house (s : State) (x : Dbg) : (s.withDbg x).house = s.house := rfl
@[simp] theorem State.withDbg_step (s : State) (x : Dbg) : (s.withDbg x).step = s.step := rfl
@[simp] theorem State.withDbg_snap (s : State) (x : Dbg) : (s.withDbg x).snap = s.snap := rfl
@[simp] theorem State.withDbg_site (s : State) (x : Dbg) : (s.withDbg x).site = s.site := rfl
@[simp] theorem State.withDbg_out (s : State) (x : Dbg) : (s.withDbg x).out = s.out := rfl
@[simp] theorem State.withDbg_free (s : State) (x : Dbg) : (s.withDbg x).free = s.free := rfl

/-! ### State.withSec -/

@[simp] theorem State.withSec_pending (s : State) (x : Sec) : (s.withSec x).pending = s.pending := rfl
@[simp] theorem State.withSec_mbx (s : State) (x : Sec) : (s.withSec x).mbx = s.mbx := rfl
@[simp] theorem State.withSec_bus (s : State) (x : Sec) : (s.withSec x).bus = s.bus := rfl
@[simp] theorem State.withSec_dev (s : State) (x : Sec) : (s.withSec x).dev = s.dev := rfl
@[simp] theorem State.withSec_awn (s : State) (x : Sec) : (s.withSec x).awn = s.awn := rfl
@[simp] theorem State.withSec_saf (s : State) (x : Sec) : (s.withSec x).saf = s.saf := rfl
@[simp] theorem State.withSec_log (s : State) (x : Sec) : (s.withSec x).log = s.log := rfl
@[simp] theorem State.withSec_tal (s : State) (x : Sec) : (s.withSec x).tal = s.tal := rfl
@[simp] theorem State.withSec_pwr (s : State) (x : Sec) : (s.withSec x).pwr = s.pwr := rfl
@[simp] theorem State.withSec_dbg (s : State) (x : Sec) : (s.withSec x).dbg = s.dbg := rfl
@[simp] theorem State.withSec_sec (s : State) (x : Sec) : (s.withSec x).sec = x := rfl
@[simp] theorem State.withSec_fns (s : State) (x : Sec) : (s.withSec x).fns = s.fns := rfl
@[simp] theorem State.withSec_ports (s : State) (x : Sec) : (s.withSec x).ports = s.ports := rfl
@[simp] theorem State.withSec_slice (s : State) (x : Sec) : (s.withSec x).slice = s.slice := rfl
@[simp] theorem State.withSec_job (s : State) (x : Sec) : (s.withSec x).job = s.job := rfl
@[simp] theorem State.withSec_load (s : State) (x : Sec) : (s.withSec x).load = s.load := rfl
@[simp] theorem State.withSec_stalls (s : State) (x : Sec) : (s.withSec x).stalls = s.stalls := rfl
@[simp] theorem State.withSec_mem (s : State) (x : Sec) : (s.withSec x).mem = s.mem := rfl
@[simp] theorem State.withSec_tens (s : State) (x : Sec) : (s.withSec x).tens = s.tens := rfl
@[simp] theorem State.withSec_ledger (s : State) (x : Sec) : (s.withSec x).ledger = s.ledger := rfl
@[simp] theorem State.withSec_house (s : State) (x : Sec) : (s.withSec x).house = s.house := rfl
@[simp] theorem State.withSec_step (s : State) (x : Sec) : (s.withSec x).step = s.step := rfl
@[simp] theorem State.withSec_snap (s : State) (x : Sec) : (s.withSec x).snap = s.snap := rfl
@[simp] theorem State.withSec_site (s : State) (x : Sec) : (s.withSec x).site = s.site := rfl
@[simp] theorem State.withSec_out (s : State) (x : Sec) : (s.withSec x).out = s.out := rfl
@[simp] theorem State.withSec_free (s : State) (x : Sec) : (s.withSec x).free = s.free := rfl

/-! ### State.withFns -/

@[simp] theorem State.withFns_pending (s : State) (x : Vector Fn 14) : (s.withFns x).pending = s.pending := rfl
@[simp] theorem State.withFns_mbx (s : State) (x : Vector Fn 14) : (s.withFns x).mbx = s.mbx := rfl
@[simp] theorem State.withFns_bus (s : State) (x : Vector Fn 14) : (s.withFns x).bus = s.bus := rfl
@[simp] theorem State.withFns_dev (s : State) (x : Vector Fn 14) : (s.withFns x).dev = s.dev := rfl
@[simp] theorem State.withFns_awn (s : State) (x : Vector Fn 14) : (s.withFns x).awn = s.awn := rfl
@[simp] theorem State.withFns_saf (s : State) (x : Vector Fn 14) : (s.withFns x).saf = s.saf := rfl
@[simp] theorem State.withFns_log (s : State) (x : Vector Fn 14) : (s.withFns x).log = s.log := rfl
@[simp] theorem State.withFns_tal (s : State) (x : Vector Fn 14) : (s.withFns x).tal = s.tal := rfl
@[simp] theorem State.withFns_pwr (s : State) (x : Vector Fn 14) : (s.withFns x).pwr = s.pwr := rfl
@[simp] theorem State.withFns_dbg (s : State) (x : Vector Fn 14) : (s.withFns x).dbg = s.dbg := rfl
@[simp] theorem State.withFns_sec (s : State) (x : Vector Fn 14) : (s.withFns x).sec = s.sec := rfl
@[simp] theorem State.withFns_fns (s : State) (x : Vector Fn 14) : (s.withFns x).fns = x := rfl
@[simp] theorem State.withFns_ports (s : State) (x : Vector Fn 14) : (s.withFns x).ports = s.ports := rfl
@[simp] theorem State.withFns_slice (s : State) (x : Vector Fn 14) : (s.withFns x).slice = s.slice := rfl
@[simp] theorem State.withFns_job (s : State) (x : Vector Fn 14) : (s.withFns x).job = s.job := rfl
@[simp] theorem State.withFns_load (s : State) (x : Vector Fn 14) : (s.withFns x).load = s.load := rfl
@[simp] theorem State.withFns_stalls (s : State) (x : Vector Fn 14) : (s.withFns x).stalls = s.stalls := rfl
@[simp] theorem State.withFns_mem (s : State) (x : Vector Fn 14) : (s.withFns x).mem = s.mem := rfl
@[simp] theorem State.withFns_tens (s : State) (x : Vector Fn 14) : (s.withFns x).tens = s.tens := rfl
@[simp] theorem State.withFns_ledger (s : State) (x : Vector Fn 14) : (s.withFns x).ledger = s.ledger := rfl
@[simp] theorem State.withFns_house (s : State) (x : Vector Fn 14) : (s.withFns x).house = s.house := rfl
@[simp] theorem State.withFns_step (s : State) (x : Vector Fn 14) : (s.withFns x).step = s.step := rfl
@[simp] theorem State.withFns_snap (s : State) (x : Vector Fn 14) : (s.withFns x).snap = s.snap := rfl
@[simp] theorem State.withFns_site (s : State) (x : Vector Fn 14) : (s.withFns x).site = s.site := rfl
@[simp] theorem State.withFns_out (s : State) (x : Vector Fn 14) : (s.withFns x).out = s.out := rfl
@[simp] theorem State.withFns_free (s : State) (x : Vector Fn 14) : (s.withFns x).free = s.free := rfl

/-! ### State.withPorts -/

@[simp] theorem State.withPorts_pending (s : State) (x : Vector TPort 6) : (s.withPorts x).pending = s.pending := rfl
@[simp] theorem State.withPorts_mbx (s : State) (x : Vector TPort 6) : (s.withPorts x).mbx = s.mbx := rfl
@[simp] theorem State.withPorts_bus (s : State) (x : Vector TPort 6) : (s.withPorts x).bus = s.bus := rfl
@[simp] theorem State.withPorts_dev (s : State) (x : Vector TPort 6) : (s.withPorts x).dev = s.dev := rfl
@[simp] theorem State.withPorts_awn (s : State) (x : Vector TPort 6) : (s.withPorts x).awn = s.awn := rfl
@[simp] theorem State.withPorts_saf (s : State) (x : Vector TPort 6) : (s.withPorts x).saf = s.saf := rfl
@[simp] theorem State.withPorts_log (s : State) (x : Vector TPort 6) : (s.withPorts x).log = s.log := rfl
@[simp] theorem State.withPorts_tal (s : State) (x : Vector TPort 6) : (s.withPorts x).tal = s.tal := rfl
@[simp] theorem State.withPorts_pwr (s : State) (x : Vector TPort 6) : (s.withPorts x).pwr = s.pwr := rfl
@[simp] theorem State.withPorts_dbg (s : State) (x : Vector TPort 6) : (s.withPorts x).dbg = s.dbg := rfl
@[simp] theorem State.withPorts_sec (s : State) (x : Vector TPort 6) : (s.withPorts x).sec = s.sec := rfl
@[simp] theorem State.withPorts_fns (s : State) (x : Vector TPort 6) : (s.withPorts x).fns = s.fns := rfl
@[simp] theorem State.withPorts_ports (s : State) (x : Vector TPort 6) : (s.withPorts x).ports = x := rfl
@[simp] theorem State.withPorts_slice (s : State) (x : Vector TPort 6) : (s.withPorts x).slice = s.slice := rfl
@[simp] theorem State.withPorts_job (s : State) (x : Vector TPort 6) : (s.withPorts x).job = s.job := rfl
@[simp] theorem State.withPorts_load (s : State) (x : Vector TPort 6) : (s.withPorts x).load = s.load := rfl
@[simp] theorem State.withPorts_stalls (s : State) (x : Vector TPort 6) : (s.withPorts x).stalls = s.stalls := rfl
@[simp] theorem State.withPorts_mem (s : State) (x : Vector TPort 6) : (s.withPorts x).mem = s.mem := rfl
@[simp] theorem State.withPorts_tens (s : State) (x : Vector TPort 6) : (s.withPorts x).tens = s.tens := rfl
@[simp] theorem State.withPorts_ledger (s : State) (x : Vector TPort 6) : (s.withPorts x).ledger = s.ledger := rfl
@[simp] theorem State.withPorts_house (s : State) (x : Vector TPort 6) : (s.withPorts x).house = s.house := rfl
@[simp] theorem State.withPorts_step (s : State) (x : Vector TPort 6) : (s.withPorts x).step = s.step := rfl
@[simp] theorem State.withPorts_snap (s : State) (x : Vector TPort 6) : (s.withPorts x).snap = s.snap := rfl
@[simp] theorem State.withPorts_site (s : State) (x : Vector TPort 6) : (s.withPorts x).site = s.site := rfl
@[simp] theorem State.withPorts_out (s : State) (x : Vector TPort 6) : (s.withPorts x).out = s.out := rfl
@[simp] theorem State.withPorts_free (s : State) (x : Vector TPort 6) : (s.withPorts x).free = s.free := rfl

/-! ### State.withSlice -/

@[simp] theorem State.withSlice_pending (s : State) (x : Slice) : (s.withSlice x).pending = s.pending := rfl
@[simp] theorem State.withSlice_mbx (s : State) (x : Slice) : (s.withSlice x).mbx = s.mbx := rfl
@[simp] theorem State.withSlice_bus (s : State) (x : Slice) : (s.withSlice x).bus = s.bus := rfl
@[simp] theorem State.withSlice_dev (s : State) (x : Slice) : (s.withSlice x).dev = s.dev := rfl
@[simp] theorem State.withSlice_awn (s : State) (x : Slice) : (s.withSlice x).awn = s.awn := rfl
@[simp] theorem State.withSlice_saf (s : State) (x : Slice) : (s.withSlice x).saf = s.saf := rfl
@[simp] theorem State.withSlice_log (s : State) (x : Slice) : (s.withSlice x).log = s.log := rfl
@[simp] theorem State.withSlice_tal (s : State) (x : Slice) : (s.withSlice x).tal = s.tal := rfl
@[simp] theorem State.withSlice_pwr (s : State) (x : Slice) : (s.withSlice x).pwr = s.pwr := rfl
@[simp] theorem State.withSlice_dbg (s : State) (x : Slice) : (s.withSlice x).dbg = s.dbg := rfl
@[simp] theorem State.withSlice_sec (s : State) (x : Slice) : (s.withSlice x).sec = s.sec := rfl
@[simp] theorem State.withSlice_fns (s : State) (x : Slice) : (s.withSlice x).fns = s.fns := rfl
@[simp] theorem State.withSlice_ports (s : State) (x : Slice) : (s.withSlice x).ports = s.ports := rfl
@[simp] theorem State.withSlice_slice (s : State) (x : Slice) : (s.withSlice x).slice = x := rfl
@[simp] theorem State.withSlice_job (s : State) (x : Slice) : (s.withSlice x).job = s.job := rfl
@[simp] theorem State.withSlice_load (s : State) (x : Slice) : (s.withSlice x).load = s.load := rfl
@[simp] theorem State.withSlice_stalls (s : State) (x : Slice) : (s.withSlice x).stalls = s.stalls := rfl
@[simp] theorem State.withSlice_mem (s : State) (x : Slice) : (s.withSlice x).mem = s.mem := rfl
@[simp] theorem State.withSlice_tens (s : State) (x : Slice) : (s.withSlice x).tens = s.tens := rfl
@[simp] theorem State.withSlice_ledger (s : State) (x : Slice) : (s.withSlice x).ledger = s.ledger := rfl
@[simp] theorem State.withSlice_house (s : State) (x : Slice) : (s.withSlice x).house = s.house := rfl
@[simp] theorem State.withSlice_step (s : State) (x : Slice) : (s.withSlice x).step = s.step := rfl
@[simp] theorem State.withSlice_snap (s : State) (x : Slice) : (s.withSlice x).snap = s.snap := rfl
@[simp] theorem State.withSlice_site (s : State) (x : Slice) : (s.withSlice x).site = s.site := rfl
@[simp] theorem State.withSlice_out (s : State) (x : Slice) : (s.withSlice x).out = s.out := rfl
@[simp] theorem State.withSlice_free (s : State) (x : Slice) : (s.withSlice x).free = s.free := rfl

/-! ### State.withJob -/

@[simp] theorem State.withJob_pending (s : State) (x : Job) : (s.withJob x).pending = s.pending := rfl
@[simp] theorem State.withJob_mbx (s : State) (x : Job) : (s.withJob x).mbx = s.mbx := rfl
@[simp] theorem State.withJob_bus (s : State) (x : Job) : (s.withJob x).bus = s.bus := rfl
@[simp] theorem State.withJob_dev (s : State) (x : Job) : (s.withJob x).dev = s.dev := rfl
@[simp] theorem State.withJob_awn (s : State) (x : Job) : (s.withJob x).awn = s.awn := rfl
@[simp] theorem State.withJob_saf (s : State) (x : Job) : (s.withJob x).saf = s.saf := rfl
@[simp] theorem State.withJob_log (s : State) (x : Job) : (s.withJob x).log = s.log := rfl
@[simp] theorem State.withJob_tal (s : State) (x : Job) : (s.withJob x).tal = s.tal := rfl
@[simp] theorem State.withJob_pwr (s : State) (x : Job) : (s.withJob x).pwr = s.pwr := rfl
@[simp] theorem State.withJob_dbg (s : State) (x : Job) : (s.withJob x).dbg = s.dbg := rfl
@[simp] theorem State.withJob_sec (s : State) (x : Job) : (s.withJob x).sec = s.sec := rfl
@[simp] theorem State.withJob_fns (s : State) (x : Job) : (s.withJob x).fns = s.fns := rfl
@[simp] theorem State.withJob_ports (s : State) (x : Job) : (s.withJob x).ports = s.ports := rfl
@[simp] theorem State.withJob_slice (s : State) (x : Job) : (s.withJob x).slice = s.slice := rfl
@[simp] theorem State.withJob_job (s : State) (x : Job) : (s.withJob x).job = x := rfl
@[simp] theorem State.withJob_load (s : State) (x : Job) : (s.withJob x).load = s.load := rfl
@[simp] theorem State.withJob_stalls (s : State) (x : Job) : (s.withJob x).stalls = s.stalls := rfl
@[simp] theorem State.withJob_mem (s : State) (x : Job) : (s.withJob x).mem = s.mem := rfl
@[simp] theorem State.withJob_tens (s : State) (x : Job) : (s.withJob x).tens = s.tens := rfl
@[simp] theorem State.withJob_ledger (s : State) (x : Job) : (s.withJob x).ledger = s.ledger := rfl
@[simp] theorem State.withJob_house (s : State) (x : Job) : (s.withJob x).house = s.house := rfl
@[simp] theorem State.withJob_step (s : State) (x : Job) : (s.withJob x).step = s.step := rfl
@[simp] theorem State.withJob_snap (s : State) (x : Job) : (s.withJob x).snap = s.snap := rfl
@[simp] theorem State.withJob_site (s : State) (x : Job) : (s.withJob x).site = s.site := rfl
@[simp] theorem State.withJob_out (s : State) (x : Job) : (s.withJob x).out = s.out := rfl
@[simp] theorem State.withJob_free (s : State) (x : Job) : (s.withJob x).free = s.free := rfl

/-! ### State.withLoad -/

@[simp] theorem State.withLoad_pending (s : State) (x : Load) : (s.withLoad x).pending = s.pending := rfl
@[simp] theorem State.withLoad_mbx (s : State) (x : Load) : (s.withLoad x).mbx = s.mbx := rfl
@[simp] theorem State.withLoad_bus (s : State) (x : Load) : (s.withLoad x).bus = s.bus := rfl
@[simp] theorem State.withLoad_dev (s : State) (x : Load) : (s.withLoad x).dev = s.dev := rfl
@[simp] theorem State.withLoad_awn (s : State) (x : Load) : (s.withLoad x).awn = s.awn := rfl
@[simp] theorem State.withLoad_saf (s : State) (x : Load) : (s.withLoad x).saf = s.saf := rfl
@[simp] theorem State.withLoad_log (s : State) (x : Load) : (s.withLoad x).log = s.log := rfl
@[simp] theorem State.withLoad_tal (s : State) (x : Load) : (s.withLoad x).tal = s.tal := rfl
@[simp] theorem State.withLoad_pwr (s : State) (x : Load) : (s.withLoad x).pwr = s.pwr := rfl
@[simp] theorem State.withLoad_dbg (s : State) (x : Load) : (s.withLoad x).dbg = s.dbg := rfl
@[simp] theorem State.withLoad_sec (s : State) (x : Load) : (s.withLoad x).sec = s.sec := rfl
@[simp] theorem State.withLoad_fns (s : State) (x : Load) : (s.withLoad x).fns = s.fns := rfl
@[simp] theorem State.withLoad_ports (s : State) (x : Load) : (s.withLoad x).ports = s.ports := rfl
@[simp] theorem State.withLoad_slice (s : State) (x : Load) : (s.withLoad x).slice = s.slice := rfl
@[simp] theorem State.withLoad_job (s : State) (x : Load) : (s.withLoad x).job = s.job := rfl
@[simp] theorem State.withLoad_load (s : State) (x : Load) : (s.withLoad x).load = x := rfl
@[simp] theorem State.withLoad_stalls (s : State) (x : Load) : (s.withLoad x).stalls = s.stalls := rfl
@[simp] theorem State.withLoad_mem (s : State) (x : Load) : (s.withLoad x).mem = s.mem := rfl
@[simp] theorem State.withLoad_tens (s : State) (x : Load) : (s.withLoad x).tens = s.tens := rfl
@[simp] theorem State.withLoad_ledger (s : State) (x : Load) : (s.withLoad x).ledger = s.ledger := rfl
@[simp] theorem State.withLoad_house (s : State) (x : Load) : (s.withLoad x).house = s.house := rfl
@[simp] theorem State.withLoad_step (s : State) (x : Load) : (s.withLoad x).step = s.step := rfl
@[simp] theorem State.withLoad_snap (s : State) (x : Load) : (s.withLoad x).snap = s.snap := rfl
@[simp] theorem State.withLoad_site (s : State) (x : Load) : (s.withLoad x).site = s.site := rfl
@[simp] theorem State.withLoad_out (s : State) (x : Load) : (s.withLoad x).out = s.out := rfl
@[simp] theorem State.withLoad_free (s : State) (x : Load) : (s.withLoad x).free = s.free := rfl

/-! ### State.withStalls -/

@[simp] theorem State.withStalls_pending (s : State) (x : Sparse Stall) : (s.withStalls x).pending = s.pending := rfl
@[simp] theorem State.withStalls_mbx (s : State) (x : Sparse Stall) : (s.withStalls x).mbx = s.mbx := rfl
@[simp] theorem State.withStalls_bus (s : State) (x : Sparse Stall) : (s.withStalls x).bus = s.bus := rfl
@[simp] theorem State.withStalls_dev (s : State) (x : Sparse Stall) : (s.withStalls x).dev = s.dev := rfl
@[simp] theorem State.withStalls_awn (s : State) (x : Sparse Stall) : (s.withStalls x).awn = s.awn := rfl
@[simp] theorem State.withStalls_saf (s : State) (x : Sparse Stall) : (s.withStalls x).saf = s.saf := rfl
@[simp] theorem State.withStalls_log (s : State) (x : Sparse Stall) : (s.withStalls x).log = s.log := rfl
@[simp] theorem State.withStalls_tal (s : State) (x : Sparse Stall) : (s.withStalls x).tal = s.tal := rfl
@[simp] theorem State.withStalls_pwr (s : State) (x : Sparse Stall) : (s.withStalls x).pwr = s.pwr := rfl
@[simp] theorem State.withStalls_dbg (s : State) (x : Sparse Stall) : (s.withStalls x).dbg = s.dbg := rfl
@[simp] theorem State.withStalls_sec (s : State) (x : Sparse Stall) : (s.withStalls x).sec = s.sec := rfl
@[simp] theorem State.withStalls_fns (s : State) (x : Sparse Stall) : (s.withStalls x).fns = s.fns := rfl
@[simp] theorem State.withStalls_ports (s : State) (x : Sparse Stall) : (s.withStalls x).ports = s.ports := rfl
@[simp] theorem State.withStalls_slice (s : State) (x : Sparse Stall) : (s.withStalls x).slice = s.slice := rfl
@[simp] theorem State.withStalls_job (s : State) (x : Sparse Stall) : (s.withStalls x).job = s.job := rfl
@[simp] theorem State.withStalls_load (s : State) (x : Sparse Stall) : (s.withStalls x).load = s.load := rfl
@[simp] theorem State.withStalls_stalls (s : State) (x : Sparse Stall) : (s.withStalls x).stalls = x := rfl
@[simp] theorem State.withStalls_mem (s : State) (x : Sparse Stall) : (s.withStalls x).mem = s.mem := rfl
@[simp] theorem State.withStalls_tens (s : State) (x : Sparse Stall) : (s.withStalls x).tens = s.tens := rfl
@[simp] theorem State.withStalls_ledger (s : State) (x : Sparse Stall) : (s.withStalls x).ledger = s.ledger := rfl
@[simp] theorem State.withStalls_house (s : State) (x : Sparse Stall) : (s.withStalls x).house = s.house := rfl
@[simp] theorem State.withStalls_step (s : State) (x : Sparse Stall) : (s.withStalls x).step = s.step := rfl
@[simp] theorem State.withStalls_snap (s : State) (x : Sparse Stall) : (s.withStalls x).snap = s.snap := rfl
@[simp] theorem State.withStalls_site (s : State) (x : Sparse Stall) : (s.withStalls x).site = s.site := rfl
@[simp] theorem State.withStalls_out (s : State) (x : Sparse Stall) : (s.withStalls x).out = s.out := rfl
@[simp] theorem State.withStalls_free (s : State) (x : Sparse Stall) : (s.withStalls x).free = s.free := rfl

/-! ### State.withMem -/

@[simp] theorem State.withMem_pending (s : State) (x : Mem) : (s.withMem x).pending = s.pending := rfl
@[simp] theorem State.withMem_mbx (s : State) (x : Mem) : (s.withMem x).mbx = s.mbx := rfl
@[simp] theorem State.withMem_bus (s : State) (x : Mem) : (s.withMem x).bus = s.bus := rfl
@[simp] theorem State.withMem_dev (s : State) (x : Mem) : (s.withMem x).dev = s.dev := rfl
@[simp] theorem State.withMem_awn (s : State) (x : Mem) : (s.withMem x).awn = s.awn := rfl
@[simp] theorem State.withMem_saf (s : State) (x : Mem) : (s.withMem x).saf = s.saf := rfl
@[simp] theorem State.withMem_log (s : State) (x : Mem) : (s.withMem x).log = s.log := rfl
@[simp] theorem State.withMem_tal (s : State) (x : Mem) : (s.withMem x).tal = s.tal := rfl
@[simp] theorem State.withMem_pwr (s : State) (x : Mem) : (s.withMem x).pwr = s.pwr := rfl
@[simp] theorem State.withMem_dbg (s : State) (x : Mem) : (s.withMem x).dbg = s.dbg := rfl
@[simp] theorem State.withMem_sec (s : State) (x : Mem) : (s.withMem x).sec = s.sec := rfl
@[simp] theorem State.withMem_fns (s : State) (x : Mem) : (s.withMem x).fns = s.fns := rfl
@[simp] theorem State.withMem_ports (s : State) (x : Mem) : (s.withMem x).ports = s.ports := rfl
@[simp] theorem State.withMem_slice (s : State) (x : Mem) : (s.withMem x).slice = s.slice := rfl
@[simp] theorem State.withMem_job (s : State) (x : Mem) : (s.withMem x).job = s.job := rfl
@[simp] theorem State.withMem_load (s : State) (x : Mem) : (s.withMem x).load = s.load := rfl
@[simp] theorem State.withMem_stalls (s : State) (x : Mem) : (s.withMem x).stalls = s.stalls := rfl
@[simp] theorem State.withMem_mem (s : State) (x : Mem) : (s.withMem x).mem = x := rfl
@[simp] theorem State.withMem_tens (s : State) (x : Mem) : (s.withMem x).tens = s.tens := rfl
@[simp] theorem State.withMem_ledger (s : State) (x : Mem) : (s.withMem x).ledger = s.ledger := rfl
@[simp] theorem State.withMem_house (s : State) (x : Mem) : (s.withMem x).house = s.house := rfl
@[simp] theorem State.withMem_step (s : State) (x : Mem) : (s.withMem x).step = s.step := rfl
@[simp] theorem State.withMem_snap (s : State) (x : Mem) : (s.withMem x).snap = s.snap := rfl
@[simp] theorem State.withMem_site (s : State) (x : Mem) : (s.withMem x).site = s.site := rfl
@[simp] theorem State.withMem_out (s : State) (x : Mem) : (s.withMem x).out = s.out := rfl
@[simp] theorem State.withMem_free (s : State) (x : Mem) : (s.withMem x).free = s.free := rfl

/-! ### State.withTens -/

@[simp] theorem State.withTens_pending (s : State) (x : Tensors) : (s.withTens x).pending = s.pending := rfl
@[simp] theorem State.withTens_mbx (s : State) (x : Tensors) : (s.withTens x).mbx = s.mbx := rfl
@[simp] theorem State.withTens_bus (s : State) (x : Tensors) : (s.withTens x).bus = s.bus := rfl
@[simp] theorem State.withTens_dev (s : State) (x : Tensors) : (s.withTens x).dev = s.dev := rfl
@[simp] theorem State.withTens_awn (s : State) (x : Tensors) : (s.withTens x).awn = s.awn := rfl
@[simp] theorem State.withTens_saf (s : State) (x : Tensors) : (s.withTens x).saf = s.saf := rfl
@[simp] theorem State.withTens_log (s : State) (x : Tensors) : (s.withTens x).log = s.log := rfl
@[simp] theorem State.withTens_tal (s : State) (x : Tensors) : (s.withTens x).tal = s.tal := rfl
@[simp] theorem State.withTens_pwr (s : State) (x : Tensors) : (s.withTens x).pwr = s.pwr := rfl
@[simp] theorem State.withTens_dbg (s : State) (x : Tensors) : (s.withTens x).dbg = s.dbg := rfl
@[simp] theorem State.withTens_sec (s : State) (x : Tensors) : (s.withTens x).sec = s.sec := rfl
@[simp] theorem State.withTens_fns (s : State) (x : Tensors) : (s.withTens x).fns = s.fns := rfl
@[simp] theorem State.withTens_ports (s : State) (x : Tensors) : (s.withTens x).ports = s.ports := rfl
@[simp] theorem State.withTens_slice (s : State) (x : Tensors) : (s.withTens x).slice = s.slice := rfl
@[simp] theorem State.withTens_job (s : State) (x : Tensors) : (s.withTens x).job = s.job := rfl
@[simp] theorem State.withTens_load (s : State) (x : Tensors) : (s.withTens x).load = s.load := rfl
@[simp] theorem State.withTens_stalls (s : State) (x : Tensors) : (s.withTens x).stalls = s.stalls := rfl
@[simp] theorem State.withTens_mem (s : State) (x : Tensors) : (s.withTens x).mem = s.mem := rfl
@[simp] theorem State.withTens_tens (s : State) (x : Tensors) : (s.withTens x).tens = x := rfl
@[simp] theorem State.withTens_ledger (s : State) (x : Tensors) : (s.withTens x).ledger = s.ledger := rfl
@[simp] theorem State.withTens_house (s : State) (x : Tensors) : (s.withTens x).house = s.house := rfl
@[simp] theorem State.withTens_step (s : State) (x : Tensors) : (s.withTens x).step = s.step := rfl
@[simp] theorem State.withTens_snap (s : State) (x : Tensors) : (s.withTens x).snap = s.snap := rfl
@[simp] theorem State.withTens_site (s : State) (x : Tensors) : (s.withTens x).site = s.site := rfl
@[simp] theorem State.withTens_out (s : State) (x : Tensors) : (s.withTens x).out = s.out := rfl
@[simp] theorem State.withTens_free (s : State) (x : Tensors) : (s.withTens x).free = s.free := rfl

/-! ### State.withLedger -/

@[simp] theorem State.withLedger_pending (s : State) (x : Ledger) : (s.withLedger x).pending = s.pending := rfl
@[simp] theorem State.withLedger_mbx (s : State) (x : Ledger) : (s.withLedger x).mbx = s.mbx := rfl
@[simp] theorem State.withLedger_bus (s : State) (x : Ledger) : (s.withLedger x).bus = s.bus := rfl
@[simp] theorem State.withLedger_dev (s : State) (x : Ledger) : (s.withLedger x).dev = s.dev := rfl
@[simp] theorem State.withLedger_awn (s : State) (x : Ledger) : (s.withLedger x).awn = s.awn := rfl
@[simp] theorem State.withLedger_saf (s : State) (x : Ledger) : (s.withLedger x).saf = s.saf := rfl
@[simp] theorem State.withLedger_log (s : State) (x : Ledger) : (s.withLedger x).log = s.log := rfl
@[simp] theorem State.withLedger_tal (s : State) (x : Ledger) : (s.withLedger x).tal = s.tal := rfl
@[simp] theorem State.withLedger_pwr (s : State) (x : Ledger) : (s.withLedger x).pwr = s.pwr := rfl
@[simp] theorem State.withLedger_dbg (s : State) (x : Ledger) : (s.withLedger x).dbg = s.dbg := rfl
@[simp] theorem State.withLedger_sec (s : State) (x : Ledger) : (s.withLedger x).sec = s.sec := rfl
@[simp] theorem State.withLedger_fns (s : State) (x : Ledger) : (s.withLedger x).fns = s.fns := rfl
@[simp] theorem State.withLedger_ports (s : State) (x : Ledger) : (s.withLedger x).ports = s.ports := rfl
@[simp] theorem State.withLedger_slice (s : State) (x : Ledger) : (s.withLedger x).slice = s.slice := rfl
@[simp] theorem State.withLedger_job (s : State) (x : Ledger) : (s.withLedger x).job = s.job := rfl
@[simp] theorem State.withLedger_load (s : State) (x : Ledger) : (s.withLedger x).load = s.load := rfl
@[simp] theorem State.withLedger_stalls (s : State) (x : Ledger) : (s.withLedger x).stalls = s.stalls := rfl
@[simp] theorem State.withLedger_mem (s : State) (x : Ledger) : (s.withLedger x).mem = s.mem := rfl
@[simp] theorem State.withLedger_tens (s : State) (x : Ledger) : (s.withLedger x).tens = s.tens := rfl
@[simp] theorem State.withLedger_ledger (s : State) (x : Ledger) : (s.withLedger x).ledger = x := rfl
@[simp] theorem State.withLedger_house (s : State) (x : Ledger) : (s.withLedger x).house = s.house := rfl
@[simp] theorem State.withLedger_step (s : State) (x : Ledger) : (s.withLedger x).step = s.step := rfl
@[simp] theorem State.withLedger_snap (s : State) (x : Ledger) : (s.withLedger x).snap = s.snap := rfl
@[simp] theorem State.withLedger_site (s : State) (x : Ledger) : (s.withLedger x).site = s.site := rfl
@[simp] theorem State.withLedger_out (s : State) (x : Ledger) : (s.withLedger x).out = s.out := rfl
@[simp] theorem State.withLedger_free (s : State) (x : Ledger) : (s.withLedger x).free = s.free := rfl

/-! ### State.withHouse -/

@[simp] theorem State.withHouse_pending (s : State) (x : House) : (s.withHouse x).pending = s.pending := rfl
@[simp] theorem State.withHouse_mbx (s : State) (x : House) : (s.withHouse x).mbx = s.mbx := rfl
@[simp] theorem State.withHouse_bus (s : State) (x : House) : (s.withHouse x).bus = s.bus := rfl
@[simp] theorem State.withHouse_dev (s : State) (x : House) : (s.withHouse x).dev = s.dev := rfl
@[simp] theorem State.withHouse_awn (s : State) (x : House) : (s.withHouse x).awn = s.awn := rfl
@[simp] theorem State.withHouse_saf (s : State) (x : House) : (s.withHouse x).saf = s.saf := rfl
@[simp] theorem State.withHouse_log (s : State) (x : House) : (s.withHouse x).log = s.log := rfl
@[simp] theorem State.withHouse_tal (s : State) (x : House) : (s.withHouse x).tal = s.tal := rfl
@[simp] theorem State.withHouse_pwr (s : State) (x : House) : (s.withHouse x).pwr = s.pwr := rfl
@[simp] theorem State.withHouse_dbg (s : State) (x : House) : (s.withHouse x).dbg = s.dbg := rfl
@[simp] theorem State.withHouse_sec (s : State) (x : House) : (s.withHouse x).sec = s.sec := rfl
@[simp] theorem State.withHouse_fns (s : State) (x : House) : (s.withHouse x).fns = s.fns := rfl
@[simp] theorem State.withHouse_ports (s : State) (x : House) : (s.withHouse x).ports = s.ports := rfl
@[simp] theorem State.withHouse_slice (s : State) (x : House) : (s.withHouse x).slice = s.slice := rfl
@[simp] theorem State.withHouse_job (s : State) (x : House) : (s.withHouse x).job = s.job := rfl
@[simp] theorem State.withHouse_load (s : State) (x : House) : (s.withHouse x).load = s.load := rfl
@[simp] theorem State.withHouse_stalls (s : State) (x : House) : (s.withHouse x).stalls = s.stalls := rfl
@[simp] theorem State.withHouse_mem (s : State) (x : House) : (s.withHouse x).mem = s.mem := rfl
@[simp] theorem State.withHouse_tens (s : State) (x : House) : (s.withHouse x).tens = s.tens := rfl
@[simp] theorem State.withHouse_ledger (s : State) (x : House) : (s.withHouse x).ledger = s.ledger := rfl
@[simp] theorem State.withHouse_house (s : State) (x : House) : (s.withHouse x).house = x := rfl
@[simp] theorem State.withHouse_step (s : State) (x : House) : (s.withHouse x).step = s.step := rfl
@[simp] theorem State.withHouse_snap (s : State) (x : House) : (s.withHouse x).snap = s.snap := rfl
@[simp] theorem State.withHouse_site (s : State) (x : House) : (s.withHouse x).site = s.site := rfl
@[simp] theorem State.withHouse_out (s : State) (x : House) : (s.withHouse x).out = s.out := rfl
@[simp] theorem State.withHouse_free (s : State) (x : House) : (s.withHouse x).free = s.free := rfl

/-! ### State.withStep -/

@[simp] theorem State.withStep_pending (s : State) (x : Step) : (s.withStep x).pending = s.pending := rfl
@[simp] theorem State.withStep_mbx (s : State) (x : Step) : (s.withStep x).mbx = s.mbx := rfl
@[simp] theorem State.withStep_bus (s : State) (x : Step) : (s.withStep x).bus = s.bus := rfl
@[simp] theorem State.withStep_dev (s : State) (x : Step) : (s.withStep x).dev = s.dev := rfl
@[simp] theorem State.withStep_awn (s : State) (x : Step) : (s.withStep x).awn = s.awn := rfl
@[simp] theorem State.withStep_saf (s : State) (x : Step) : (s.withStep x).saf = s.saf := rfl
@[simp] theorem State.withStep_log (s : State) (x : Step) : (s.withStep x).log = s.log := rfl
@[simp] theorem State.withStep_tal (s : State) (x : Step) : (s.withStep x).tal = s.tal := rfl
@[simp] theorem State.withStep_pwr (s : State) (x : Step) : (s.withStep x).pwr = s.pwr := rfl
@[simp] theorem State.withStep_dbg (s : State) (x : Step) : (s.withStep x).dbg = s.dbg := rfl
@[simp] theorem State.withStep_sec (s : State) (x : Step) : (s.withStep x).sec = s.sec := rfl
@[simp] theorem State.withStep_fns (s : State) (x : Step) : (s.withStep x).fns = s.fns := rfl
@[simp] theorem State.withStep_ports (s : State) (x : Step) : (s.withStep x).ports = s.ports := rfl
@[simp] theorem State.withStep_slice (s : State) (x : Step) : (s.withStep x).slice = s.slice := rfl
@[simp] theorem State.withStep_job (s : State) (x : Step) : (s.withStep x).job = s.job := rfl
@[simp] theorem State.withStep_load (s : State) (x : Step) : (s.withStep x).load = s.load := rfl
@[simp] theorem State.withStep_stalls (s : State) (x : Step) : (s.withStep x).stalls = s.stalls := rfl
@[simp] theorem State.withStep_mem (s : State) (x : Step) : (s.withStep x).mem = s.mem := rfl
@[simp] theorem State.withStep_tens (s : State) (x : Step) : (s.withStep x).tens = s.tens := rfl
@[simp] theorem State.withStep_ledger (s : State) (x : Step) : (s.withStep x).ledger = s.ledger := rfl
@[simp] theorem State.withStep_house (s : State) (x : Step) : (s.withStep x).house = s.house := rfl
@[simp] theorem State.withStep_step (s : State) (x : Step) : (s.withStep x).step = x := rfl
@[simp] theorem State.withStep_snap (s : State) (x : Step) : (s.withStep x).snap = s.snap := rfl
@[simp] theorem State.withStep_site (s : State) (x : Step) : (s.withStep x).site = s.site := rfl
@[simp] theorem State.withStep_out (s : State) (x : Step) : (s.withStep x).out = s.out := rfl
@[simp] theorem State.withStep_free (s : State) (x : Step) : (s.withStep x).free = s.free := rfl

/-! ### State.withSnap -/

@[simp] theorem State.withSnap_pending (s : State) (x : Snap) : (s.withSnap x).pending = s.pending := rfl
@[simp] theorem State.withSnap_mbx (s : State) (x : Snap) : (s.withSnap x).mbx = s.mbx := rfl
@[simp] theorem State.withSnap_bus (s : State) (x : Snap) : (s.withSnap x).bus = s.bus := rfl
@[simp] theorem State.withSnap_dev (s : State) (x : Snap) : (s.withSnap x).dev = s.dev := rfl
@[simp] theorem State.withSnap_awn (s : State) (x : Snap) : (s.withSnap x).awn = s.awn := rfl
@[simp] theorem State.withSnap_saf (s : State) (x : Snap) : (s.withSnap x).saf = s.saf := rfl
@[simp] theorem State.withSnap_log (s : State) (x : Snap) : (s.withSnap x).log = s.log := rfl
@[simp] theorem State.withSnap_tal (s : State) (x : Snap) : (s.withSnap x).tal = s.tal := rfl
@[simp] theorem State.withSnap_pwr (s : State) (x : Snap) : (s.withSnap x).pwr = s.pwr := rfl
@[simp] theorem State.withSnap_dbg (s : State) (x : Snap) : (s.withSnap x).dbg = s.dbg := rfl
@[simp] theorem State.withSnap_sec (s : State) (x : Snap) : (s.withSnap x).sec = s.sec := rfl
@[simp] theorem State.withSnap_fns (s : State) (x : Snap) : (s.withSnap x).fns = s.fns := rfl
@[simp] theorem State.withSnap_ports (s : State) (x : Snap) : (s.withSnap x).ports = s.ports := rfl
@[simp] theorem State.withSnap_slice (s : State) (x : Snap) : (s.withSnap x).slice = s.slice := rfl
@[simp] theorem State.withSnap_job (s : State) (x : Snap) : (s.withSnap x).job = s.job := rfl
@[simp] theorem State.withSnap_load (s : State) (x : Snap) : (s.withSnap x).load = s.load := rfl
@[simp] theorem State.withSnap_stalls (s : State) (x : Snap) : (s.withSnap x).stalls = s.stalls := rfl
@[simp] theorem State.withSnap_mem (s : State) (x : Snap) : (s.withSnap x).mem = s.mem := rfl
@[simp] theorem State.withSnap_tens (s : State) (x : Snap) : (s.withSnap x).tens = s.tens := rfl
@[simp] theorem State.withSnap_ledger (s : State) (x : Snap) : (s.withSnap x).ledger = s.ledger := rfl
@[simp] theorem State.withSnap_house (s : State) (x : Snap) : (s.withSnap x).house = s.house := rfl
@[simp] theorem State.withSnap_step (s : State) (x : Snap) : (s.withSnap x).step = s.step := rfl
@[simp] theorem State.withSnap_snap (s : State) (x : Snap) : (s.withSnap x).snap = x := rfl
@[simp] theorem State.withSnap_site (s : State) (x : Snap) : (s.withSnap x).site = s.site := rfl
@[simp] theorem State.withSnap_out (s : State) (x : Snap) : (s.withSnap x).out = s.out := rfl
@[simp] theorem State.withSnap_free (s : State) (x : Snap) : (s.withSnap x).free = s.free := rfl

/-! ### State.withSite -/

@[simp] theorem State.withSite_pending (s : State) (x : Site) : (s.withSite x).pending = s.pending := rfl
@[simp] theorem State.withSite_mbx (s : State) (x : Site) : (s.withSite x).mbx = s.mbx := rfl
@[simp] theorem State.withSite_bus (s : State) (x : Site) : (s.withSite x).bus = s.bus := rfl
@[simp] theorem State.withSite_dev (s : State) (x : Site) : (s.withSite x).dev = s.dev := rfl
@[simp] theorem State.withSite_awn (s : State) (x : Site) : (s.withSite x).awn = s.awn := rfl
@[simp] theorem State.withSite_saf (s : State) (x : Site) : (s.withSite x).saf = s.saf := rfl
@[simp] theorem State.withSite_log (s : State) (x : Site) : (s.withSite x).log = s.log := rfl
@[simp] theorem State.withSite_tal (s : State) (x : Site) : (s.withSite x).tal = s.tal := rfl
@[simp] theorem State.withSite_pwr (s : State) (x : Site) : (s.withSite x).pwr = s.pwr := rfl
@[simp] theorem State.withSite_dbg (s : State) (x : Site) : (s.withSite x).dbg = s.dbg := rfl
@[simp] theorem State.withSite_sec (s : State) (x : Site) : (s.withSite x).sec = s.sec := rfl
@[simp] theorem State.withSite_fns (s : State) (x : Site) : (s.withSite x).fns = s.fns := rfl
@[simp] theorem State.withSite_ports (s : State) (x : Site) : (s.withSite x).ports = s.ports := rfl
@[simp] theorem State.withSite_slice (s : State) (x : Site) : (s.withSite x).slice = s.slice := rfl
@[simp] theorem State.withSite_job (s : State) (x : Site) : (s.withSite x).job = s.job := rfl
@[simp] theorem State.withSite_load (s : State) (x : Site) : (s.withSite x).load = s.load := rfl
@[simp] theorem State.withSite_stalls (s : State) (x : Site) : (s.withSite x).stalls = s.stalls := rfl
@[simp] theorem State.withSite_mem (s : State) (x : Site) : (s.withSite x).mem = s.mem := rfl
@[simp] theorem State.withSite_tens (s : State) (x : Site) : (s.withSite x).tens = s.tens := rfl
@[simp] theorem State.withSite_ledger (s : State) (x : Site) : (s.withSite x).ledger = s.ledger := rfl
@[simp] theorem State.withSite_house (s : State) (x : Site) : (s.withSite x).house = s.house := rfl
@[simp] theorem State.withSite_step (s : State) (x : Site) : (s.withSite x).step = s.step := rfl
@[simp] theorem State.withSite_snap (s : State) (x : Site) : (s.withSite x).snap = s.snap := rfl
@[simp] theorem State.withSite_site (s : State) (x : Site) : (s.withSite x).site = x := rfl
@[simp] theorem State.withSite_out (s : State) (x : Site) : (s.withSite x).out = s.out := rfl
@[simp] theorem State.withSite_free (s : State) (x : Site) : (s.withSite x).free = s.free := rfl

/-! ### State.withOut -/

@[simp] theorem State.withOut_pending (s : State) (x : List Out) : (s.withOut x).pending = s.pending := rfl
@[simp] theorem State.withOut_mbx (s : State) (x : List Out) : (s.withOut x).mbx = s.mbx := rfl
@[simp] theorem State.withOut_bus (s : State) (x : List Out) : (s.withOut x).bus = s.bus := rfl
@[simp] theorem State.withOut_dev (s : State) (x : List Out) : (s.withOut x).dev = s.dev := rfl
@[simp] theorem State.withOut_awn (s : State) (x : List Out) : (s.withOut x).awn = s.awn := rfl
@[simp] theorem State.withOut_saf (s : State) (x : List Out) : (s.withOut x).saf = s.saf := rfl
@[simp] theorem State.withOut_log (s : State) (x : List Out) : (s.withOut x).log = s.log := rfl
@[simp] theorem State.withOut_tal (s : State) (x : List Out) : (s.withOut x).tal = s.tal := rfl
@[simp] theorem State.withOut_pwr (s : State) (x : List Out) : (s.withOut x).pwr = s.pwr := rfl
@[simp] theorem State.withOut_dbg (s : State) (x : List Out) : (s.withOut x).dbg = s.dbg := rfl
@[simp] theorem State.withOut_sec (s : State) (x : List Out) : (s.withOut x).sec = s.sec := rfl
@[simp] theorem State.withOut_fns (s : State) (x : List Out) : (s.withOut x).fns = s.fns := rfl
@[simp] theorem State.withOut_ports (s : State) (x : List Out) : (s.withOut x).ports = s.ports := rfl
@[simp] theorem State.withOut_slice (s : State) (x : List Out) : (s.withOut x).slice = s.slice := rfl
@[simp] theorem State.withOut_job (s : State) (x : List Out) : (s.withOut x).job = s.job := rfl
@[simp] theorem State.withOut_load (s : State) (x : List Out) : (s.withOut x).load = s.load := rfl
@[simp] theorem State.withOut_stalls (s : State) (x : List Out) : (s.withOut x).stalls = s.stalls := rfl
@[simp] theorem State.withOut_mem (s : State) (x : List Out) : (s.withOut x).mem = s.mem := rfl
@[simp] theorem State.withOut_tens (s : State) (x : List Out) : (s.withOut x).tens = s.tens := rfl
@[simp] theorem State.withOut_ledger (s : State) (x : List Out) : (s.withOut x).ledger = s.ledger := rfl
@[simp] theorem State.withOut_house (s : State) (x : List Out) : (s.withOut x).house = s.house := rfl
@[simp] theorem State.withOut_step (s : State) (x : List Out) : (s.withOut x).step = s.step := rfl
@[simp] theorem State.withOut_snap (s : State) (x : List Out) : (s.withOut x).snap = s.snap := rfl
@[simp] theorem State.withOut_site (s : State) (x : List Out) : (s.withOut x).site = s.site := rfl
@[simp] theorem State.withOut_out (s : State) (x : List Out) : (s.withOut x).out = x := rfl
@[simp] theorem State.withOut_free (s : State) (x : List Out) : (s.withOut x).free = s.free := rfl

/-! ### State.withFree -/

@[simp] theorem State.withFree_pending (s : State) (x : Nat) : (s.withFree x).pending = s.pending := rfl
@[simp] theorem State.withFree_mbx (s : State) (x : Nat) : (s.withFree x).mbx = s.mbx := rfl
@[simp] theorem State.withFree_bus (s : State) (x : Nat) : (s.withFree x).bus = s.bus := rfl
@[simp] theorem State.withFree_dev (s : State) (x : Nat) : (s.withFree x).dev = s.dev := rfl
@[simp] theorem State.withFree_awn (s : State) (x : Nat) : (s.withFree x).awn = s.awn := rfl
@[simp] theorem State.withFree_saf (s : State) (x : Nat) : (s.withFree x).saf = s.saf := rfl
@[simp] theorem State.withFree_log (s : State) (x : Nat) : (s.withFree x).log = s.log := rfl
@[simp] theorem State.withFree_tal (s : State) (x : Nat) : (s.withFree x).tal = s.tal := rfl
@[simp] theorem State.withFree_pwr (s : State) (x : Nat) : (s.withFree x).pwr = s.pwr := rfl
@[simp] theorem State.withFree_dbg (s : State) (x : Nat) : (s.withFree x).dbg = s.dbg := rfl
@[simp] theorem State.withFree_sec (s : State) (x : Nat) : (s.withFree x).sec = s.sec := rfl
@[simp] theorem State.withFree_fns (s : State) (x : Nat) : (s.withFree x).fns = s.fns := rfl
@[simp] theorem State.withFree_ports (s : State) (x : Nat) : (s.withFree x).ports = s.ports := rfl
@[simp] theorem State.withFree_slice (s : State) (x : Nat) : (s.withFree x).slice = s.slice := rfl
@[simp] theorem State.withFree_job (s : State) (x : Nat) : (s.withFree x).job = s.job := rfl
@[simp] theorem State.withFree_load (s : State) (x : Nat) : (s.withFree x).load = s.load := rfl
@[simp] theorem State.withFree_stalls (s : State) (x : Nat) : (s.withFree x).stalls = s.stalls := rfl
@[simp] theorem State.withFree_mem (s : State) (x : Nat) : (s.withFree x).mem = s.mem := rfl
@[simp] theorem State.withFree_tens (s : State) (x : Nat) : (s.withFree x).tens = s.tens := rfl
@[simp] theorem State.withFree_ledger (s : State) (x : Nat) : (s.withFree x).ledger = s.ledger := rfl
@[simp] theorem State.withFree_house (s : State) (x : Nat) : (s.withFree x).house = s.house := rfl
@[simp] theorem State.withFree_step (s : State) (x : Nat) : (s.withFree x).step = s.step := rfl
@[simp] theorem State.withFree_snap (s : State) (x : Nat) : (s.withFree x).snap = s.snap := rfl
@[simp] theorem State.withFree_site (s : State) (x : Nat) : (s.withFree x).site = s.site := rfl
@[simp] theorem State.withFree_out (s : State) (x : Nat) : (s.withFree x).out = s.out := rfl
@[simp] theorem State.withFree_free (s : State) (x : Nat) : (s.withFree x).free = x := rfl

/-! ### One part updated twice, and with its own value -/

@[simp] theorem State.withPending_withPending (s : State) (x y : List Instr) : (s.withPending x).withPending y = s.withPending y := rfl
@[simp] theorem State.withPending_self (s : State) : s.withPending s.pending = s := rfl
@[simp] theorem State.withMbx_withMbx (s : State) (x y : Mbx) : (s.withMbx x).withMbx y = s.withMbx y := rfl
@[simp] theorem State.withMbx_self (s : State) : s.withMbx s.mbx = s := rfl
@[simp] theorem State.withBus_withBus (s : State) (x y : Bus) : (s.withBus x).withBus y = s.withBus y := rfl
@[simp] theorem State.withBus_self (s : State) : s.withBus s.bus = s := rfl
@[simp] theorem State.withDev_withDev (s : State) (x y : Dev) : (s.withDev x).withDev y = s.withDev y := rfl
@[simp] theorem State.withDev_self (s : State) : s.withDev s.dev = s := rfl
@[simp] theorem State.withAwn_withAwn (s : State) (x y : Awn) : (s.withAwn x).withAwn y = s.withAwn y := rfl
@[simp] theorem State.withAwn_self (s : State) : s.withAwn s.awn = s := rfl
@[simp] theorem State.withSaf_withSaf (s : State) (x y : Saf) : (s.withSaf x).withSaf y = s.withSaf y := rfl
@[simp] theorem State.withSaf_self (s : State) : s.withSaf s.saf = s := rfl
@[simp] theorem State.withLog_withLog (s : State) (x y : Log) : (s.withLog x).withLog y = s.withLog y := rfl
@[simp] theorem State.withLog_self (s : State) : s.withLog s.log = s := rfl
@[simp] theorem State.withTal_withTal (s : State) (x y : Tal) : (s.withTal x).withTal y = s.withTal y := rfl
@[simp] theorem State.withTal_self (s : State) : s.withTal s.tal = s := rfl
@[simp] theorem State.withPwr_withPwr (s : State) (x y : Pwr) : (s.withPwr x).withPwr y = s.withPwr y := rfl
@[simp] theorem State.withPwr_self (s : State) : s.withPwr s.pwr = s := rfl
@[simp] theorem State.withDbg_withDbg (s : State) (x y : Dbg) : (s.withDbg x).withDbg y = s.withDbg y := rfl
@[simp] theorem State.withDbg_self (s : State) : s.withDbg s.dbg = s := rfl
@[simp] theorem State.withSec_withSec (s : State) (x y : Sec) : (s.withSec x).withSec y = s.withSec y := rfl
@[simp] theorem State.withSec_self (s : State) : s.withSec s.sec = s := rfl
@[simp] theorem State.withFns_withFns (s : State) (x y : Vector Fn 14) : (s.withFns x).withFns y = s.withFns y := rfl
@[simp] theorem State.withFns_self (s : State) : s.withFns s.fns = s := rfl
@[simp] theorem State.withPorts_withPorts (s : State) (x y : Vector TPort 6) : (s.withPorts x).withPorts y = s.withPorts y := rfl
@[simp] theorem State.withPorts_self (s : State) : s.withPorts s.ports = s := rfl
@[simp] theorem State.withSlice_withSlice (s : State) (x y : Slice) : (s.withSlice x).withSlice y = s.withSlice y := rfl
@[simp] theorem State.withSlice_self (s : State) : s.withSlice s.slice = s := rfl
@[simp] theorem State.withJob_withJob (s : State) (x y : Job) : (s.withJob x).withJob y = s.withJob y := rfl
@[simp] theorem State.withJob_self (s : State) : s.withJob s.job = s := rfl
@[simp] theorem State.withLoad_withLoad (s : State) (x y : Load) : (s.withLoad x).withLoad y = s.withLoad y := rfl
@[simp] theorem State.withLoad_self (s : State) : s.withLoad s.load = s := rfl
@[simp] theorem State.withStalls_withStalls (s : State) (x y : Sparse Stall) : (s.withStalls x).withStalls y = s.withStalls y := rfl
@[simp] theorem State.withStalls_self (s : State) : s.withStalls s.stalls = s := rfl
@[simp] theorem State.withMem_withMem (s : State) (x y : Mem) : (s.withMem x).withMem y = s.withMem y := rfl
@[simp] theorem State.withMem_self (s : State) : s.withMem s.mem = s := rfl
@[simp] theorem State.withTens_withTens (s : State) (x y : Tensors) : (s.withTens x).withTens y = s.withTens y := rfl
@[simp] theorem State.withTens_self (s : State) : s.withTens s.tens = s := rfl
@[simp] theorem State.withLedger_withLedger (s : State) (x y : Ledger) : (s.withLedger x).withLedger y = s.withLedger y := rfl
@[simp] theorem State.withLedger_self (s : State) : s.withLedger s.ledger = s := rfl
@[simp] theorem State.withHouse_withHouse (s : State) (x y : House) : (s.withHouse x).withHouse y = s.withHouse y := rfl
@[simp] theorem State.withHouse_self (s : State) : s.withHouse s.house = s := rfl
@[simp] theorem State.withStep_withStep (s : State) (x y : Step) : (s.withStep x).withStep y = s.withStep y := rfl
@[simp] theorem State.withStep_self (s : State) : s.withStep s.step = s := rfl
@[simp] theorem State.withSnap_withSnap (s : State) (x y : Snap) : (s.withSnap x).withSnap y = s.withSnap y := rfl
@[simp] theorem State.withSnap_self (s : State) : s.withSnap s.snap = s := rfl
@[simp] theorem State.withSite_withSite (s : State) (x y : Site) : (s.withSite x).withSite y = s.withSite y := rfl
@[simp] theorem State.withSite_self (s : State) : s.withSite s.site = s := rfl
@[simp] theorem State.withOut_withOut (s : State) (x y : List Out) : (s.withOut x).withOut y = s.withOut y := rfl
@[simp] theorem State.withOut_self (s : State) : s.withOut s.out = s := rfl
@[simp] theorem State.withFree_withFree (s : State) (x y : Nat) : (s.withFree x).withFree y = s.withFree y := rfl
@[simp] theorem State.withFree_self (s : State) : s.withFree s.free = s := rfl

/-- Two states with the same parts are the same. -/
theorem State.eq_of_parts {s t : State}
    (h0 : s.pending = t.pending)
    (h1 : s.mbx = t.mbx)
    (h2 : s.bus = t.bus)
    (h3 : s.dev = t.dev)
    (h4 : s.awn = t.awn)
    (h5 : s.saf = t.saf)
    (h6 : s.log = t.log)
    (h7 : s.tal = t.tal)
    (h8 : s.pwr = t.pwr)
    (h9 : s.dbg = t.dbg)
    (h10 : s.sec = t.sec)
    (h11 : s.fns = t.fns)
    (h12 : s.ports = t.ports)
    (h13 : s.slice = t.slice)
    (h14 : s.job = t.job)
    (h15 : s.load = t.load)
    (h16 : s.stalls = t.stalls)
    (h17 : s.mem = t.mem)
    (h18 : s.tens = t.tens)
    (h19 : s.ledger = t.ledger)
    (h20 : s.house = t.house)
    (h21 : s.step = t.step)
    (h22 : s.snap = t.snap)
    (h23 : s.site = t.site)
    (h24 : s.out = t.out)
    (h25 : s.free = t.free) : s = t := by
  cases s; cases t; simp_all

end Sys2Proof.Machine
end

