-- ==== Sys2Proof/Laws/Frames.lean ====
section
/-! SUPPORT. Which parts of State the shared operations leave alone: one simp lemma per operation and part. -/

namespace Sys2Proof.Machine

/-- A fold of steps that keep a part of the state keeps it. -/
theorem foldl_keeps {α β : Type} (p : State → β) (f : State → α → State) (h : ∀ s x, p (f s x) = p s) :
    ∀ (l : List α) (s : State), p (l.foldl f s) = p s
  | [], _ => rfl
  | x :: l, s => by rw [List.foldl_cons, foldl_keeps p f h l, h]

/-! ### emit -/

@[simp] theorem emit_pending (s : State) (o : Out) : (emit o s).pending = s.pending := by simp [emit]
@[simp] theorem emit_mbx (s : State) (o : Out) : (emit o s).mbx = s.mbx := by simp [emit]
@[simp] theorem emit_bus (s : State) (o : Out) : (emit o s).bus = s.bus := by simp [emit]
@[simp] theorem emit_dev (s : State) (o : Out) : (emit o s).dev = s.dev := by simp [emit]
@[simp] theorem emit_awn (s : State) (o : Out) : (emit o s).awn = s.awn := by simp [emit]
@[simp] theorem emit_saf (s : State) (o : Out) : (emit o s).saf = s.saf := by simp [emit]
@[simp] theorem emit_log (s : State) (o : Out) : (emit o s).log = s.log := by simp [emit]
@[simp] theorem emit_tal (s : State) (o : Out) : (emit o s).tal = s.tal := by simp [emit]
@[simp] theorem emit_pwr (s : State) (o : Out) : (emit o s).pwr = s.pwr := by simp [emit]
@[simp] theorem emit_dbg (s : State) (o : Out) : (emit o s).dbg = s.dbg := by simp [emit]
@[simp] theorem emit_sec (s : State) (o : Out) : (emit o s).sec = s.sec := by simp [emit]
@[simp] theorem emit_fns (s : State) (o : Out) : (emit o s).fns = s.fns := by simp [emit]
@[simp] theorem emit_ports (s : State) (o : Out) : (emit o s).ports = s.ports := by simp [emit]
@[simp] theorem emit_slice (s : State) (o : Out) : (emit o s).slice = s.slice := by simp [emit]
@[simp] theorem emit_job (s : State) (o : Out) : (emit o s).job = s.job := by simp [emit]
@[simp] theorem emit_load (s : State) (o : Out) : (emit o s).load = s.load := by simp [emit]
@[simp] theorem emit_stalls (s : State) (o : Out) : (emit o s).stalls = s.stalls := by simp [emit]
@[simp] theorem emit_mem (s : State) (o : Out) : (emit o s).mem = s.mem := by simp [emit]
@[simp] theorem emit_tens (s : State) (o : Out) : (emit o s).tens = s.tens := by simp [emit]
@[simp] theorem emit_ledger (s : State) (o : Out) : (emit o s).ledger = s.ledger := by simp [emit]
@[simp] theorem emit_house (s : State) (o : Out) : (emit o s).house = s.house := by simp [emit]
@[simp] theorem emit_step (s : State) (o : Out) : (emit o s).step = s.step := by simp [emit]
@[simp] theorem emit_snap (s : State) (o : Out) : (emit o s).snap = s.snap := by simp [emit]
@[simp] theorem emit_site (s : State) (o : Out) : (emit o s).site = s.site := by simp [emit]
@[simp] theorem emit_free (s : State) (o : Out) : (emit o s).free = s.free := by simp [emit]

/-! ### emits -/

@[simp] theorem emits_pending (s : State) (os : List Out) : (emits os s).pending = s.pending := by simp [emits]
@[simp] theorem emits_mbx (s : State) (os : List Out) : (emits os s).mbx = s.mbx := by simp [emits]
@[simp] theorem emits_bus (s : State) (os : List Out) : (emits os s).bus = s.bus := by simp [emits]
@[simp] theorem emits_dev (s : State) (os : List Out) : (emits os s).dev = s.dev := by simp [emits]
@[simp] theorem emits_awn (s : State) (os : List Out) : (emits os s).awn = s.awn := by simp [emits]
@[simp] theorem emits_saf (s : State) (os : List Out) : (emits os s).saf = s.saf := by simp [emits]
@[simp] theorem emits_log (s : State) (os : List Out) : (emits os s).log = s.log := by simp [emits]
@[simp] theorem emits_tal (s : State) (os : List Out) : (emits os s).tal = s.tal := by simp [emits]
@[simp] theorem emits_pwr (s : State) (os : List Out) : (emits os s).pwr = s.pwr := by simp [emits]
@[simp] theorem emits_dbg (s : State) (os : List Out) : (emits os s).dbg = s.dbg := by simp [emits]
@[simp] theorem emits_sec (s : State) (os : List Out) : (emits os s).sec = s.sec := by simp [emits]
@[simp] theorem emits_fns (s : State) (os : List Out) : (emits os s).fns = s.fns := by simp [emits]
@[simp] theorem emits_ports (s : State) (os : List Out) : (emits os s).ports = s.ports := by simp [emits]
@[simp] theorem emits_slice (s : State) (os : List Out) : (emits os s).slice = s.slice := by simp [emits]
@[simp] theorem emits_job (s : State) (os : List Out) : (emits os s).job = s.job := by simp [emits]
@[simp] theorem emits_load (s : State) (os : List Out) : (emits os s).load = s.load := by simp [emits]
@[simp] theorem emits_stalls (s : State) (os : List Out) : (emits os s).stalls = s.stalls := by simp [emits]
@[simp] theorem emits_mem (s : State) (os : List Out) : (emits os s).mem = s.mem := by simp [emits]
@[simp] theorem emits_tens (s : State) (os : List Out) : (emits os s).tens = s.tens := by simp [emits]
@[simp] theorem emits_ledger (s : State) (os : List Out) : (emits os s).ledger = s.ledger := by simp [emits]
@[simp] theorem emits_house (s : State) (os : List Out) : (emits os s).house = s.house := by simp [emits]
@[simp] theorem emits_step (s : State) (os : List Out) : (emits os s).step = s.step := by simp [emits]
@[simp] theorem emits_snap (s : State) (os : List Out) : (emits os s).snap = s.snap := by simp [emits]
@[simp] theorem emits_site (s : State) (os : List Out) : (emits os s).site = s.site := by simp [emits]
@[simp] theorem emits_free (s : State) (os : List Out) : (emits os s).free = s.free := by simp [emits]

/-! ### setStall -/

@[simp] theorem setStall_pending (s : State) (i : Fin 1024) (x : Stall) : (setStall s i x).pending = s.pending := by simp [setStall]
@[simp] theorem setStall_mbx (s : State) (i : Fin 1024) (x : Stall) : (setStall s i x).mbx = s.mbx := by simp [setStall]
@[simp] theorem setStall_bus (s : State) (i : Fin 1024) (x : Stall) : (setStall s i x).bus = s.bus := by simp [setStall]
@[simp] theorem setStall_dev (s : State) (i : Fin 1024) (x : Stall) : (setStall s i x).dev = s.dev := by simp [setStall]
@[simp] theorem setStall_awn (s : State) (i : Fin 1024) (x : Stall) : (setStall s i x).awn = s.awn := by simp [setStall]
@[simp] theorem setStall_saf (s : State) (i : Fin 1024) (x : Stall) : (setStall s i x).saf = s.saf := by simp [setStall]
@[simp] theorem setStall_log (s : State) (i : Fin 1024) (x : Stall) : (setStall s i x).log = s.log := by simp [setStall]
@[simp] theorem setStall_tal (s : State) (i : Fin 1024) (x : Stall) : (setStall s i x).tal = s.tal := by simp [setStall]
@[simp] theorem setStall_pwr (s : State) (i : Fin 1024) (x : Stall) : (setStall s i x).pwr = s.pwr := by simp [setStall]
@[simp] theorem setStall_dbg (s : State) (i : Fin 1024) (x : Stall) : (setStall s i x).dbg = s.dbg := by simp [setStall]
@[simp] theorem setStall_sec (s : State) (i : Fin 1024) (x : Stall) : (setStall s i x).sec = s.sec := by simp [setStall]
@[simp] theorem setStall_fns (s : State) (i : Fin 1024) (x : Stall) : (setStall s i x).fns = s.fns := by simp [setStall]
@[simp] theorem setStall_ports (s : State) (i : Fin 1024) (x : Stall) : (setStall s i x).ports = s.ports := by simp [setStall]
@[simp] theorem setStall_slice (s : State) (i : Fin 1024) (x : Stall) : (setStall s i x).slice = s.slice := by simp [setStall]
@[simp] theorem setStall_job (s : State) (i : Fin 1024) (x : Stall) : (setStall s i x).job = s.job := by simp [setStall]
@[simp] theorem setStall_load (s : State) (i : Fin 1024) (x : Stall) : (setStall s i x).load = s.load := by simp [setStall]
@[simp] theorem setStall_mem (s : State) (i : Fin 1024) (x : Stall) : (setStall s i x).mem = s.mem := by simp [setStall]
@[simp] theorem setStall_tens (s : State) (i : Fin 1024) (x : Stall) : (setStall s i x).tens = s.tens := by simp [setStall]
@[simp] theorem setStall_ledger (s : State) (i : Fin 1024) (x : Stall) : (setStall s i x).ledger = s.ledger := by simp [setStall]
@[simp] theorem setStall_house (s : State) (i : Fin 1024) (x : Stall) : (setStall s i x).house = s.house := by simp [setStall]
@[simp] theorem setStall_step (s : State) (i : Fin 1024) (x : Stall) : (setStall s i x).step = s.step := by simp [setStall]
@[simp] theorem setStall_snap (s : State) (i : Fin 1024) (x : Stall) : (setStall s i x).snap = s.snap := by simp [setStall]
@[simp] theorem setStall_site (s : State) (i : Fin 1024) (x : Stall) : (setStall s i x).site = s.site := by simp [setStall]
@[simp] theorem setStall_out (s : State) (i : Fin 1024) (x : Stall) : (setStall s i x).out = s.out := by simp [setStall]
@[simp] theorem setStall_free (s : State) (i : Fin 1024) (x : Stall) : (setStall s i x).free = s.free := by simp [setStall]

/-! ### setFn -/

@[simp] theorem setFn_pending (s : State) (f : Func) (x : Fn) : (setFn s f x).pending = s.pending := by simp [setFn]
@[simp] theorem setFn_mbx (s : State) (f : Func) (x : Fn) : (setFn s f x).mbx = s.mbx := by simp [setFn]
@[simp] theorem setFn_bus (s : State) (f : Func) (x : Fn) : (setFn s f x).bus = s.bus := by simp [setFn]
@[simp] theorem setFn_dev (s : State) (f : Func) (x : Fn) : (setFn s f x).dev = s.dev := by simp [setFn]
@[simp] theorem setFn_awn (s : State) (f : Func) (x : Fn) : (setFn s f x).awn = s.awn := by simp [setFn]
@[simp] theorem setFn_saf (s : State) (f : Func) (x : Fn) : (setFn s f x).saf = s.saf := by simp [setFn]
@[simp] theorem setFn_log (s : State) (f : Func) (x : Fn) : (setFn s f x).log = s.log := by simp [setFn]
@[simp] theorem setFn_tal (s : State) (f : Func) (x : Fn) : (setFn s f x).tal = s.tal := by simp [setFn]
@[simp] theorem setFn_pwr (s : State) (f : Func) (x : Fn) : (setFn s f x).pwr = s.pwr := by simp [setFn]
@[simp] theorem setFn_dbg (s : State) (f : Func) (x : Fn) : (setFn s f x).dbg = s.dbg := by simp [setFn]
@[simp] theorem setFn_sec (s : State) (f : Func) (x : Fn) : (setFn s f x).sec = s.sec := by simp [setFn]
@[simp] theorem setFn_ports (s : State) (f : Func) (x : Fn) : (setFn s f x).ports = s.ports := by simp [setFn]
@[simp] theorem setFn_slice (s : State) (f : Func) (x : Fn) : (setFn s f x).slice = s.slice := by simp [setFn]
@[simp] theorem setFn_job (s : State) (f : Func) (x : Fn) : (setFn s f x).job = s.job := by simp [setFn]
@[simp] theorem setFn_load (s : State) (f : Func) (x : Fn) : (setFn s f x).load = s.load := by simp [setFn]
@[simp] theorem setFn_stalls (s : State) (f : Func) (x : Fn) : (setFn s f x).stalls = s.stalls := by simp [setFn]
@[simp] theorem setFn_mem (s : State) (f : Func) (x : Fn) : (setFn s f x).mem = s.mem := by simp [setFn]
@[simp] theorem setFn_tens (s : State) (f : Func) (x : Fn) : (setFn s f x).tens = s.tens := by simp [setFn]
@[simp] theorem setFn_ledger (s : State) (f : Func) (x : Fn) : (setFn s f x).ledger = s.ledger := by simp [setFn]
@[simp] theorem setFn_house (s : State) (f : Func) (x : Fn) : (setFn s f x).house = s.house := by simp [setFn]
@[simp] theorem setFn_step (s : State) (f : Func) (x : Fn) : (setFn s f x).step = s.step := by simp [setFn]
@[simp] theorem setFn_snap (s : State) (f : Func) (x : Fn) : (setFn s f x).snap = s.snap := by simp [setFn]
@[simp] theorem setFn_site (s : State) (f : Func) (x : Fn) : (setFn s f x).site = s.site := by simp [setFn]
@[simp] theorem setFn_out (s : State) (f : Func) (x : Fn) : (setFn s f x).out = s.out := by simp [setFn]
@[simp] theorem setFn_free (s : State) (f : Func) (x : Fn) : (setFn s f x).free = s.free := by simp [setFn]

/-! ### setPort -/

@[simp] theorem setPort_pending (s : State) (p : Port) (x : TPort) : (setPort s p x).pending = s.pending := by simp [setPort]
@[simp] theorem setPort_mbx (s : State) (p : Port) (x : TPort) : (setPort s p x).mbx = s.mbx := by simp [setPort]
@[simp] theorem setPort_bus (s : State) (p : Port) (x : TPort) : (setPort s p x).bus = s.bus := by simp [setPort]
@[simp] theorem setPort_dev (s : State) (p : Port) (x : TPort) : (setPort s p x).dev = s.dev := by simp [setPort]
@[simp] theorem setPort_awn (s : State) (p : Port) (x : TPort) : (setPort s p x).awn = s.awn := by simp [setPort]
@[simp] theorem setPort_saf (s : State) (p : Port) (x : TPort) : (setPort s p x).saf = s.saf := by simp [setPort]
@[simp] theorem setPort_log (s : State) (p : Port) (x : TPort) : (setPort s p x).log = s.log := by simp [setPort]
@[simp] theorem setPort_tal (s : State) (p : Port) (x : TPort) : (setPort s p x).tal = s.tal := by simp [setPort]
@[simp] theorem setPort_pwr (s : State) (p : Port) (x : TPort) : (setPort s p x).pwr = s.pwr := by simp [setPort]
@[simp] theorem setPort_dbg (s : State) (p : Port) (x : TPort) : (setPort s p x).dbg = s.dbg := by simp [setPort]
@[simp] theorem setPort_sec (s : State) (p : Port) (x : TPort) : (setPort s p x).sec = s.sec := by simp [setPort]
@[simp] theorem setPort_fns (s : State) (p : Port) (x : TPort) : (setPort s p x).fns = s.fns := by simp [setPort]
@[simp] theorem setPort_slice (s : State) (p : Port) (x : TPort) : (setPort s p x).slice = s.slice := by simp [setPort]
@[simp] theorem setPort_job (s : State) (p : Port) (x : TPort) : (setPort s p x).job = s.job := by simp [setPort]
@[simp] theorem setPort_load (s : State) (p : Port) (x : TPort) : (setPort s p x).load = s.load := by simp [setPort]
@[simp] theorem setPort_stalls (s : State) (p : Port) (x : TPort) : (setPort s p x).stalls = s.stalls := by simp [setPort]
@[simp] theorem setPort_mem (s : State) (p : Port) (x : TPort) : (setPort s p x).mem = s.mem := by simp [setPort]
@[simp] theorem setPort_tens (s : State) (p : Port) (x : TPort) : (setPort s p x).tens = s.tens := by simp [setPort]
@[simp] theorem setPort_ledger (s : State) (p : Port) (x : TPort) : (setPort s p x).ledger = s.ledger := by simp [setPort]
@[simp] theorem setPort_house (s : State) (p : Port) (x : TPort) : (setPort s p x).house = s.house := by simp [setPort]
@[simp] theorem setPort_step (s : State) (p : Port) (x : TPort) : (setPort s p x).step = s.step := by simp [setPort]
@[simp] theorem setPort_snap (s : State) (p : Port) (x : TPort) : (setPort s p x).snap = s.snap := by simp [setPort]
@[simp] theorem setPort_site (s : State) (p : Port) (x : TPort) : (setPort s p x).site = s.site := by simp [setPort]
@[simp] theorem setPort_out (s : State) (p : Port) (x : TPort) : (setPort s p x).out = s.out := by simp [setPort]
@[simp] theorem setPort_free (s : State) (p : Port) (x : TPort) : (setPort s p x).free = s.free := by simp [setPort]

/-! ### settleAlert -/

@[simp] theorem settleAlert_pending (s : State) : (settleAlert s).pending = s.pending := by simp [settleAlert]
@[simp] theorem settleAlert_mbx (s : State) : (settleAlert s).mbx = s.mbx := by simp [settleAlert]
@[simp] theorem settleAlert_dev (s : State) : (settleAlert s).dev = s.dev := by simp [settleAlert]
@[simp] theorem settleAlert_awn (s : State) : (settleAlert s).awn = s.awn := by simp [settleAlert]
@[simp] theorem settleAlert_saf (s : State) : (settleAlert s).saf = s.saf := by simp [settleAlert]
@[simp] theorem settleAlert_log (s : State) : (settleAlert s).log = s.log := by simp [settleAlert]
@[simp] theorem settleAlert_tal (s : State) : (settleAlert s).tal = s.tal := by simp [settleAlert]
@[simp] theorem settleAlert_pwr (s : State) : (settleAlert s).pwr = s.pwr := by simp [settleAlert]
@[simp] theorem settleAlert_dbg (s : State) : (settleAlert s).dbg = s.dbg := by simp [settleAlert]
@[simp] theorem settleAlert_sec (s : State) : (settleAlert s).sec = s.sec := by simp [settleAlert]
@[simp] theorem settleAlert_fns (s : State) : (settleAlert s).fns = s.fns := by simp [settleAlert]
@[simp] theorem settleAlert_ports (s : State) : (settleAlert s).ports = s.ports := by simp [settleAlert]
@[simp] theorem settleAlert_slice (s : State) : (settleAlert s).slice = s.slice := by simp [settleAlert]
@[simp] theorem settleAlert_job (s : State) : (settleAlert s).job = s.job := by simp [settleAlert]
@[simp] theorem settleAlert_load (s : State) : (settleAlert s).load = s.load := by simp [settleAlert]
@[simp] theorem settleAlert_stalls (s : State) : (settleAlert s).stalls = s.stalls := by simp [settleAlert]
@[simp] theorem settleAlert_mem (s : State) : (settleAlert s).mem = s.mem := by simp [settleAlert]
@[simp] theorem settleAlert_tens (s : State) : (settleAlert s).tens = s.tens := by simp [settleAlert]
@[simp] theorem settleAlert_ledger (s : State) : (settleAlert s).ledger = s.ledger := by simp [settleAlert]
@[simp] theorem settleAlert_house (s : State) : (settleAlert s).house = s.house := by simp [settleAlert]
@[simp] theorem settleAlert_step (s : State) : (settleAlert s).step = s.step := by simp [settleAlert]
@[simp] theorem settleAlert_snap (s : State) : (settleAlert s).snap = s.snap := by simp [settleAlert]
@[simp] theorem settleAlert_site (s : State) : (settleAlert s).site = s.site := by simp [settleAlert]
@[simp] theorem settleAlert_out (s : State) : (settleAlert s).out = s.out := by simp [settleAlert]
@[simp] theorem settleAlert_free (s : State) : (settleAlert s).free = s.free := by simp [settleAlert]

/-! ### enterGroup -/

@[simp] theorem enterGroup_pending (s : State) (rs : List LogRec) : (enterGroup rs s).pending = s.pending := by simp [enterGroup]
@[simp] theorem enterGroup_mbx (s : State) (rs : List LogRec) : (enterGroup rs s).mbx = s.mbx := by simp [enterGroup]
@[simp] theorem enterGroup_dev (s : State) (rs : List LogRec) : (enterGroup rs s).dev = s.dev := by simp [enterGroup]
@[simp] theorem enterGroup_awn (s : State) (rs : List LogRec) : (enterGroup rs s).awn = s.awn := by simp [enterGroup]
@[simp] theorem enterGroup_tal (s : State) (rs : List LogRec) : (enterGroup rs s).tal = s.tal := by simp [enterGroup]
@[simp] theorem enterGroup_pwr (s : State) (rs : List LogRec) : (enterGroup rs s).pwr = s.pwr := by simp [enterGroup]
@[simp] theorem enterGroup_dbg (s : State) (rs : List LogRec) : (enterGroup rs s).dbg = s.dbg := by simp [enterGroup]
@[simp] theorem enterGroup_sec (s : State) (rs : List LogRec) : (enterGroup rs s).sec = s.sec := by simp [enterGroup]
@[simp] theorem enterGroup_fns (s : State) (rs : List LogRec) : (enterGroup rs s).fns = s.fns := by simp [enterGroup]
@[simp] theorem enterGroup_ports (s : State) (rs : List LogRec) : (enterGroup rs s).ports = s.ports := by simp [enterGroup]
@[simp] theorem enterGroup_slice (s : State) (rs : List LogRec) : (enterGroup rs s).slice = s.slice := by simp [enterGroup]
@[simp] theorem enterGroup_job (s : State) (rs : List LogRec) : (enterGroup rs s).job = s.job := by simp [enterGroup]
@[simp] theorem enterGroup_load (s : State) (rs : List LogRec) : (enterGroup rs s).load = s.load := by simp [enterGroup]
@[simp] theorem enterGroup_stalls (s : State) (rs : List LogRec) : (enterGroup rs s).stalls = s.stalls := by simp [enterGroup]
@[simp] theorem enterGroup_mem (s : State) (rs : List LogRec) : (enterGroup rs s).mem = s.mem := by simp [enterGroup]
@[simp] theorem enterGroup_tens (s : State) (rs : List LogRec) : (enterGroup rs s).tens = s.tens := by simp [enterGroup]
@[simp] theorem enterGroup_ledger (s : State) (rs : List LogRec) : (enterGroup rs s).ledger = s.ledger := by simp [enterGroup]
@[simp] theorem enterGroup_house (s : State) (rs : List LogRec) : (enterGroup rs s).house = s.house := by simp [enterGroup]
@[simp] theorem enterGroup_step (s : State) (rs : List LogRec) : (enterGroup rs s).step = s.step := by simp [enterGroup]
@[simp] theorem enterGroup_snap (s : State) (rs : List LogRec) : (enterGroup rs s).snap = s.snap := by simp [enterGroup]
@[simp] theorem enterGroup_site (s : State) (rs : List LogRec) : (enterGroup rs s).site = s.site := by simp [enterGroup]
@[simp] theorem enterGroup_out (s : State) (rs : List LogRec) : (enterGroup rs s).out = s.out := by simp [enterGroup]
@[simp] theorem enterGroup_free (s : State) (rs : List LogRec) : (enterGroup rs s).free = s.free := by simp [enterGroup]

/-! ### offerGroup -/

@[simp] theorem offerGroup_pending (s : State) (rs : List LogRec) : (offerGroup rs s).pending = s.pending := by
  unfold offerGroup
  (repeat' (first | split | (dsimp only; split))) <;> simp
@[simp] theorem offerGroup_mbx (s : State) (rs : List LogRec) : (offerGroup rs s).mbx = s.mbx := by
  unfold offerGroup
  (repeat' (first | split | (dsimp only; split))) <;> simp
@[simp] theorem offerGroup_dev (s : State) (rs : List LogRec) : (offerGroup rs s).dev = s.dev := by
  unfold offerGroup
  (repeat' (first | split | (dsimp only; split))) <;> simp
@[simp] theorem offerGroup_awn (s : State) (rs : List LogRec) : (offerGroup rs s).awn = s.awn := by
  unfold offerGroup
  (repeat' (first | split | (dsimp only; split))) <;> simp
@[simp] theorem offerGroup_tal (s : State) (rs : List LogRec) : (offerGroup rs s).tal = s.tal := by
  unfold offerGroup
  (repeat' (first | split | (dsimp only; split))) <;> simp
@[simp] theorem offerGroup_pwr (s : State) (rs : List LogRec) : (offerGroup rs s).pwr = s.pwr := by
  unfold offerGroup
  (repeat' (first | split | (dsimp only; split))) <;> simp
@[simp] theorem offerGroup_dbg (s : State) (rs : List LogRec) : (offerGroup rs s).dbg = s.dbg := by
  unfold offerGroup
  (repeat' (first | split | (dsimp only; split))) <;> simp
@[simp] theorem offerGroup_sec (s : State) (rs : List LogRec) : (offerGroup rs s).sec = s.sec := by
  unfold offerGroup
  (repeat' (first | split | (dsimp only; split))) <;> simp
@[simp] theorem offerGroup_fns (s : State) (rs : List LogRec) : (offerGroup rs s).fns = s.fns := by
  unfold offerGroup
  (repeat' (first | split | (dsimp only; split))) <;> simp
@[simp] theorem offerGroup_ports (s : State) (rs : List LogRec) : (offerGroup rs s).ports = s.ports := by
  unfold offerGroup
  (repeat' (first | split | (dsimp only; split))) <;> simp
@[simp] theorem offerGroup_slice (s : State) (rs : List LogRec) : (offerGroup rs s).slice = s.slice := by
  unfold offerGroup
  (repeat' (first | split | (dsimp only; split))) <;> simp
@[simp] theorem offerGroup_job (s : State) (rs : List LogRec) : (offerGroup rs s).job = s.job := by
  unfold offerGroup
  (repeat' (first | split | (dsimp only; split))) <;> simp
@[simp] theorem offerGroup_load (s : State) (rs : List LogRec) : (offerGroup rs s).load = s.load := by
  unfold offerGroup
  (repeat' (first | split | (dsimp only; split))) <;> simp
@[simp] theorem offerGroup_stalls (s : State) (rs : List LogRec) : (offerGroup rs s).stalls = s.stalls := by
  unfold offerGroup
  (repeat' (first | split | (dsimp only; split))) <;> simp
@[simp] theorem offerGroup_mem (s : State) (rs : List LogRec) : (offerGroup rs s).mem = s.mem := by
  unfold offerGroup
  (repeat' (first | split | (dsimp only; split))) <;> simp
@[simp] theorem offerGroup_tens (s : State) (rs : List LogRec) : (offerGroup rs s).tens = s.tens := by
  unfold offerGroup
  (repeat' (first | split | (dsimp only; split))) <;> simp
@[simp] theorem offerGroup_ledger (s : State) (rs : List LogRec) : (offerGroup rs s).ledger = s.ledger := by
  unfold offerGroup
  (repeat' (first | split | (dsimp only; split))) <;> simp
@[simp] theorem offerGroup_house (s : State) (rs : List LogRec) : (offerGroup rs s).house = s.house := by
  unfold offerGroup
  (repeat' (first | split | (dsimp only; split))) <;> simp
@[simp] theorem offerGroup_step (s : State) (rs : List LogRec) : (offerGroup rs s).step = s.step := by
  unfold offerGroup
  (repeat' (first | split | (dsimp only; split))) <;> simp
@[simp] theorem offerGroup_snap (s : State) (rs : List LogRec) : (offerGroup rs s).snap = s.snap := by
  unfold offerGroup
  (repeat' (first | split | (dsimp only; split))) <;> simp
@[simp] theorem offerGroup_site (s : State) (rs : List LogRec) : (offerGroup rs s).site = s.site := by
  unfold offerGroup
  (repeat' (first | split | (dsimp only; split))) <;> simp
@[simp] theorem offerGroup_out (s : State) (rs : List LogRec) : (offerGroup rs s).out = s.out := by
  unfold offerGroup
  (repeat' (first | split | (dsimp only; split))) <;> simp
@[simp] theorem offerGroup_free (s : State) (rs : List LogRec) : (offerGroup rs s).free = s.free := by
  unfold offerGroup
  (repeat' (first | split | (dsimp only; split))) <;> simp

/-! ### logEvent -/

@[simp] theorem logEvent_pending (s : State) (code : W16) (sev : BitVec 3) (unit : UnitId) (detail : Bytes) : (logEvent code sev unit detail s).pending = s.pending := by simp [logEvent]
@[simp] theorem logEvent_mbx (s : State) (code : W16) (sev : BitVec 3) (unit : UnitId) (detail : Bytes) : (logEvent code sev unit detail s).mbx = s.mbx := by simp [logEvent]
@[simp] theorem logEvent_dev (s : State) (code : W16) (sev : BitVec 3) (unit : UnitId) (detail : Bytes) : (logEvent code sev unit detail s).dev = s.dev := by simp [logEvent]
@[simp] theorem logEvent_awn (s : State) (code : W16) (sev : BitVec 3) (unit : UnitId) (detail : Bytes) : (logEvent code sev unit detail s).awn = s.awn := by simp [logEvent]
@[simp] theorem logEvent_tal (s : State) (code : W16) (sev : BitVec 3) (unit : UnitId) (detail : Bytes) : (logEvent code sev unit detail s).tal = s.tal := by simp [logEvent]
@[simp] theorem logEvent_pwr (s : State) (code : W16) (sev : BitVec 3) (unit : UnitId) (detail : Bytes) : (logEvent code sev unit detail s).pwr = s.pwr := by simp [logEvent]
@[simp] theorem logEvent_dbg (s : State) (code : W16) (sev : BitVec 3) (unit : UnitId) (detail : Bytes) : (logEvent code sev unit detail s).dbg = s.dbg := by simp [logEvent]
@[simp] theorem logEvent_sec (s : State) (code : W16) (sev : BitVec 3) (unit : UnitId) (detail : Bytes) : (logEvent code sev unit detail s).sec = s.sec := by simp [logEvent]
@[simp] theorem logEvent_fns (s : State) (code : W16) (sev : BitVec 3) (unit : UnitId) (detail : Bytes) : (logEvent code sev unit detail s).fns = s.fns := by simp [logEvent]
@[simp] theorem logEvent_ports (s : State) (code : W16) (sev : BitVec 3) (unit : UnitId) (detail : Bytes) : (logEvent code sev unit detail s).ports = s.ports := by simp [logEvent]
@[simp] theorem logEvent_slice (s : State) (code : W16) (sev : BitVec 3) (unit : UnitId) (detail : Bytes) : (logEvent code sev unit detail s).slice = s.slice := by simp [logEvent]
@[simp] theorem logEvent_job (s : State) (code : W16) (sev : BitVec 3) (unit : UnitId) (detail : Bytes) : (logEvent code sev unit detail s).job = s.job := by simp [logEvent]
@[simp] theorem logEvent_load (s : State) (code : W16) (sev : BitVec 3) (unit : UnitId) (detail : Bytes) : (logEvent code sev unit detail s).load = s.load := by simp [logEvent]
@[simp] theorem logEvent_stalls (s : State) (code : W16) (sev : BitVec 3) (unit : UnitId) (detail : Bytes) : (logEvent code sev unit detail s).stalls = s.stalls := by simp [logEvent]
@[simp] theorem logEvent_mem (s : State) (code : W16) (sev : BitVec 3) (unit : UnitId) (detail : Bytes) : (logEvent code sev unit detail s).mem = s.mem := by simp [logEvent]
@[simp] theorem logEvent_tens (s : State) (code : W16) (sev : BitVec 3) (unit : UnitId) (detail : Bytes) : (logEvent code sev unit detail s).tens = s.tens := by simp [logEvent]
@[simp] theorem logEvent_ledger (s : State) (code : W16) (sev : BitVec 3) (unit : UnitId) (detail : Bytes) : (logEvent code sev unit detail s).ledger = s.ledger := by simp [logEvent]
@[simp] theorem logEvent_house (s : State) (code : W16) (sev : BitVec 3) (unit : UnitId) (detail : Bytes) : (logEvent code sev unit detail s).house = s.house := by simp [logEvent]
@[simp] theorem logEvent_step (s : State) (code : W16) (sev : BitVec 3) (unit : UnitId) (detail : Bytes) : (logEvent code sev unit detail s).step = s.step := by simp [logEvent]
@[simp] theorem logEvent_snap (s : State) (code : W16) (sev : BitVec 3) (unit : UnitId) (detail : Bytes) : (logEvent code sev unit detail s).snap = s.snap := by simp [logEvent]
@[simp] theorem logEvent_site (s : State) (code : W16) (sev : BitVec 3) (unit : UnitId) (detail : Bytes) : (logEvent code sev unit detail s).site = s.site := by simp [logEvent]
@[simp] theorem logEvent_out (s : State) (code : W16) (sev : BitVec 3) (unit : UnitId) (detail : Bytes) : (logEvent code sev unit detail s).out = s.out := by simp [logEvent]
@[simp] theorem logEvent_free (s : State) (code : W16) (sev : BitVec 3) (unit : UnitId) (detail : Bytes) : (logEvent code sev unit detail s).free = s.free := by simp [logEvent]

/-! ### countDetection -/

@[simp] theorem countDetection_pending (s : State) (mech : Nat) (unit : UnitId) (location : W32) (observed expected : W64) : (countDetection mech unit location observed expected s).pending = s.pending := by simp [countDetection]
@[simp] theorem countDetection_mbx (s : State) (mech : Nat) (unit : UnitId) (location : W32) (observed expected : W64) : (countDetection mech unit location observed expected s).mbx = s.mbx := by simp [countDetection]
@[simp] theorem countDetection_dev (s : State) (mech : Nat) (unit : UnitId) (location : W32) (observed expected : W64) : (countDetection mech unit location observed expected s).dev = s.dev := by simp [countDetection]
@[simp] theorem countDetection_awn (s : State) (mech : Nat) (unit : UnitId) (location : W32) (observed expected : W64) : (countDetection mech unit location observed expected s).awn = s.awn := by simp [countDetection]
@[simp] theorem countDetection_tal (s : State) (mech : Nat) (unit : UnitId) (location : W32) (observed expected : W64) : (countDetection mech unit location observed expected s).tal = s.tal := by simp [countDetection]
@[simp] theorem countDetection_pwr (s : State) (mech : Nat) (unit : UnitId) (location : W32) (observed expected : W64) : (countDetection mech unit location observed expected s).pwr = s.pwr := by simp [countDetection]
@[simp] theorem countDetection_dbg (s : State) (mech : Nat) (unit : UnitId) (location : W32) (observed expected : W64) : (countDetection mech unit location observed expected s).dbg = s.dbg := by simp [countDetection]
@[simp] theorem countDetection_sec (s : State) (mech : Nat) (unit : UnitId) (location : W32) (observed expected : W64) : (countDetection mech unit location observed expected s).sec = s.sec := by simp [countDetection]
@[simp] theorem countDetection_fns (s : State) (mech : Nat) (unit : UnitId) (location : W32) (observed expected : W64) : (countDetection mech unit location observed expected s).fns = s.fns := by simp [countDetection]
@[simp] theorem countDetection_ports (s : State) (mech : Nat) (unit : UnitId) (location : W32) (observed expected : W64) : (countDetection mech unit location observed expected s).ports = s.ports := by simp [countDetection]
@[simp] theorem countDetection_slice (s : State) (mech : Nat) (unit : UnitId) (location : W32) (observed expected : W64) : (countDetection mech unit location observed expected s).slice = s.slice := by simp [countDetection]
@[simp] theorem countDetection_job (s : State) (mech : Nat) (unit : UnitId) (location : W32) (observed expected : W64) : (countDetection mech unit location observed expected s).job = s.job := by simp [countDetection]
@[simp] theorem countDetection_load (s : State) (mech : Nat) (unit : UnitId) (location : W32) (observed expected : W64) : (countDetection mech unit location observed expected s).load = s.load := by simp [countDetection]
@[simp] theorem countDetection_stalls (s : State) (mech : Nat) (unit : UnitId) (location : W32) (observed expected : W64) : (countDetection mech unit location observed expected s).stalls = s.stalls := by simp [countDetection]
@[simp] theorem countDetection_mem (s : State) (mech : Nat) (unit : UnitId) (location : W32) (observed expected : W64) : (countDetection mech unit location observed expected s).mem = s.mem := by simp [countDetection]
@[simp] theorem countDetection_tens (s : State) (mech : Nat) (unit : UnitId) (location : W32) (observed expected : W64) : (countDetection mech unit location observed expected s).tens = s.tens := by simp [countDetection]
@[simp] theorem countDetection_ledger (s : State) (mech : Nat) (unit : UnitId) (location : W32) (observed expected : W64) : (countDetection mech unit location observed expected s).ledger = s.ledger := by simp [countDetection]
@[simp] theorem countDetection_house (s : State) (mech : Nat) (unit : UnitId) (location : W32) (observed expected : W64) : (countDetection mech unit location observed expected s).house = s.house := by simp [countDetection]
@[simp] theorem countDetection_step (s : State) (mech : Nat) (unit : UnitId) (location : W32) (observed expected : W64) : (countDetection mech unit location observed expected s).step = s.step := by simp [countDetection]
@[simp] theorem countDetection_snap (s : State) (mech : Nat) (unit : UnitId) (location : W32) (observed expected : W64) : (countDetection mech unit location observed expected s).snap = s.snap := by simp [countDetection]
@[simp] theorem countDetection_site (s : State) (mech : Nat) (unit : UnitId) (location : W32) (observed expected : W64) : (countDetection mech unit location observed expected s).site = s.site := by simp [countDetection]
@[simp] theorem countDetection_out (s : State) (mech : Nat) (unit : UnitId) (location : W32) (observed expected : W64) : (countDetection mech unit location observed expected s).out = s.out := by simp [countDetection]
@[simp] theorem countDetection_free (s : State) (mech : Nat) (unit : UnitId) (location : W32) (observed expected : W64) : (countDetection mech unit location observed expected s).free = s.free := by simp [countDetection]

/-! ### countCorrection -/

@[simp] theorem countCorrection_pending (s : State) (mech : Nat) (unit : UnitId) (addr : Nat) : (countCorrection mech unit addr s).pending = s.pending := by simp [countCorrection]
@[simp] theorem countCorrection_mbx (s : State) (mech : Nat) (unit : UnitId) (addr : Nat) : (countCorrection mech unit addr s).mbx = s.mbx := by simp [countCorrection]
@[simp] theorem countCorrection_dev (s : State) (mech : Nat) (unit : UnitId) (addr : Nat) : (countCorrection mech unit addr s).dev = s.dev := by simp [countCorrection]
@[simp] theorem countCorrection_awn (s : State) (mech : Nat) (unit : UnitId) (addr : Nat) : (countCorrection mech unit addr s).awn = s.awn := by simp [countCorrection]
@[simp] theorem countCorrection_tal (s : State) (mech : Nat) (unit : UnitId) (addr : Nat) : (countCorrection mech unit addr s).tal = s.tal := by simp [countCorrection]
@[simp] theorem countCorrection_pwr (s : State) (mech : Nat) (unit : UnitId) (addr : Nat) : (countCorrection mech unit addr s).pwr = s.pwr := by simp [countCorrection]
@[simp] theorem countCorrection_dbg (s : State) (mech : Nat) (unit : UnitId) (addr : Nat) : (countCorrection mech unit addr s).dbg = s.dbg := by simp [countCorrection]
@[simp] theorem countCorrection_sec (s : State) (mech : Nat) (unit : UnitId) (addr : Nat) : (countCorrection mech unit addr s).sec = s.sec := by simp [countCorrection]
@[simp] theorem countCorrection_fns (s : State) (mech : Nat) (unit : UnitId) (addr : Nat) : (countCorrection mech unit addr s).fns = s.fns := by simp [countCorrection]
@[simp] theorem countCorrection_ports (s : State) (mech : Nat) (unit : UnitId) (addr : Nat) : (countCorrection mech unit addr s).ports = s.ports := by simp [countCorrection]
@[simp] theorem countCorrection_slice (s : State) (mech : Nat) (unit : UnitId) (addr : Nat) : (countCorrection mech unit addr s).slice = s.slice := by simp [countCorrection]
@[simp] theorem countCorrection_job (s : State) (mech : Nat) (unit : UnitId) (addr : Nat) : (countCorrection mech unit addr s).job = s.job := by simp [countCorrection]
@[simp] theorem countCorrection_load (s : State) (mech : Nat) (unit : UnitId) (addr : Nat) : (countCorrection mech unit addr s).load = s.load := by simp [countCorrection]
@[simp] theorem countCorrection_stalls (s : State) (mech : Nat) (unit : UnitId) (addr : Nat) : (countCorrection mech unit addr s).stalls = s.stalls := by simp [countCorrection]
@[simp] theorem countCorrection_mem (s : State) (mech : Nat) (unit : UnitId) (addr : Nat) : (countCorrection mech unit addr s).mem = s.mem := by simp [countCorrection]
@[simp] theorem countCorrection_tens (s : State) (mech : Nat) (unit : UnitId) (addr : Nat) : (countCorrection mech unit addr s).tens = s.tens := by simp [countCorrection]
@[simp] theorem countCorrection_ledger (s : State) (mech : Nat) (unit : UnitId) (addr : Nat) : (countCorrection mech unit addr s).ledger = s.ledger := by simp [countCorrection]
@[simp] theorem countCorrection_house (s : State) (mech : Nat) (unit : UnitId) (addr : Nat) : (countCorrection mech unit addr s).house = s.house := by simp [countCorrection]
@[simp] theorem countCorrection_step (s : State) (mech : Nat) (unit : UnitId) (addr : Nat) : (countCorrection mech unit addr s).step = s.step := by simp [countCorrection]
@[simp] theorem countCorrection_snap (s : State) (mech : Nat) (unit : UnitId) (addr : Nat) : (countCorrection mech unit addr s).snap = s.snap := by simp [countCorrection]
@[simp] theorem countCorrection_site (s : State) (mech : Nat) (unit : UnitId) (addr : Nat) : (countCorrection mech unit addr s).site = s.site := by simp [countCorrection]
@[simp] theorem countCorrection_out (s : State) (mech : Nat) (unit : UnitId) (addr : Nat) : (countCorrection mech unit addr s).out = s.out := by simp [countCorrection]
@[simp] theorem countCorrection_free (s : State) (mech : Nat) (unit : UnitId) (addr : Nat) : (countCorrection mech unit addr s).free = s.free := by simp [countCorrection]

/-! ### logSecurity -/

@[simp] theorem logSecurity_pending (s : State) (event : Nat) (rest : Bytes) : (logSecurity event rest s).pending = s.pending := by simp [logSecurity]
@[simp] theorem logSecurity_mbx (s : State) (event : Nat) (rest : Bytes) : (logSecurity event rest s).mbx = s.mbx := by simp [logSecurity]
@[simp] theorem logSecurity_dev (s : State) (event : Nat) (rest : Bytes) : (logSecurity event rest s).dev = s.dev := by simp [logSecurity]
@[simp] theorem logSecurity_awn (s : State) (event : Nat) (rest : Bytes) : (logSecurity event rest s).awn = s.awn := by simp [logSecurity]
@[simp] theorem logSecurity_tal (s : State) (event : Nat) (rest : Bytes) : (logSecurity event rest s).tal = s.tal := by simp [logSecurity]
@[simp] theorem logSecurity_pwr (s : State) (event : Nat) (rest : Bytes) : (logSecurity event rest s).pwr = s.pwr := by simp [logSecurity]
@[simp] theorem logSecurity_dbg (s : State) (event : Nat) (rest : Bytes) : (logSecurity event rest s).dbg = s.dbg := by simp [logSecurity]
@[simp] theorem logSecurity_sec (s : State) (event : Nat) (rest : Bytes) : (logSecurity event rest s).sec = s.sec := by simp [logSecurity]
@[simp] theorem logSecurity_fns (s : State) (event : Nat) (rest : Bytes) : (logSecurity event rest s).fns = s.fns := by simp [logSecurity]
@[simp] theorem logSecurity_ports (s : State) (event : Nat) (rest : Bytes) : (logSecurity event rest s).ports = s.ports := by simp [logSecurity]
@[simp] theorem logSecurity_slice (s : State) (event : Nat) (rest : Bytes) : (logSecurity event rest s).slice = s.slice := by simp [logSecurity]
@[simp] theorem logSecurity_job (s : State) (event : Nat) (rest : Bytes) : (logSecurity event rest s).job = s.job := by simp [logSecurity]
@[simp] theorem logSecurity_load (s : State) (event : Nat) (rest : Bytes) : (logSecurity event rest s).load = s.load := by simp [logSecurity]
@[simp] theorem logSecurity_stalls (s : State) (event : Nat) (rest : Bytes) : (logSecurity event rest s).stalls = s.stalls := by simp [logSecurity]
@[simp] theorem logSecurity_mem (s : State) (event : Nat) (rest : Bytes) : (logSecurity event rest s).mem = s.mem := by simp [logSecurity]
@[simp] theorem logSecurity_tens (s : State) (event : Nat) (rest : Bytes) : (logSecurity event rest s).tens = s.tens := by simp [logSecurity]
@[simp] theorem logSecurity_ledger (s : State) (event : Nat) (rest : Bytes) : (logSecurity event rest s).ledger = s.ledger := by simp [logSecurity]
@[simp] theorem logSecurity_house (s : State) (event : Nat) (rest : Bytes) : (logSecurity event rest s).house = s.house := by simp [logSecurity]
@[simp] theorem logSecurity_step (s : State) (event : Nat) (rest : Bytes) : (logSecurity event rest s).step = s.step := by simp [logSecurity]
@[simp] theorem logSecurity_snap (s : State) (event : Nat) (rest : Bytes) : (logSecurity event rest s).snap = s.snap := by simp [logSecurity]
@[simp] theorem logSecurity_site (s : State) (event : Nat) (rest : Bytes) : (logSecurity event rest s).site = s.site := by simp [logSecurity]
@[simp] theorem logSecurity_out (s : State) (event : Nat) (rest : Bytes) : (logSecurity event rest s).out = s.out := by simp [logSecurity]
@[simp] theorem logSecurity_free (s : State) (event : Nat) (rest : Bytes) : (logSecurity event rest s).free = s.free := by simp [logSecurity]

/-! ### logSite -/

@[simp] theorem logSite_pending (s : State) (event site round : Nat) (more : Bytes) : (logSite event site round more s).pending = s.pending := by simp [logSite]
@[simp] theorem logSite_mbx (s : State) (event site round : Nat) (more : Bytes) : (logSite event site round more s).mbx = s.mbx := by simp [logSite]
@[simp] theorem logSite_dev (s : State) (event site round : Nat) (more : Bytes) : (logSite event site round more s).dev = s.dev := by simp [logSite]
@[simp] theorem logSite_awn (s : State) (event site round : Nat) (more : Bytes) : (logSite event site round more s).awn = s.awn := by simp [logSite]
@[simp] theorem logSite_tal (s : State) (event site round : Nat) (more : Bytes) : (logSite event site round more s).tal = s.tal := by simp [logSite]
@[simp] theorem logSite_pwr (s : State) (event site round : Nat) (more : Bytes) : (logSite event site round more s).pwr = s.pwr := by simp [logSite]
@[simp] theorem logSite_dbg (s : State) (event site round : Nat) (more : Bytes) : (logSite event site round more s).dbg = s.dbg := by simp [logSite]
@[simp] theorem logSite_sec (s : State) (event site round : Nat) (more : Bytes) : (logSite event site round more s).sec = s.sec := by simp [logSite]
@[simp] theorem logSite_fns (s : State) (event site round : Nat) (more : Bytes) : (logSite event site round more s).fns = s.fns := by simp [logSite]
@[simp] theorem logSite_ports (s : State) (event site round : Nat) (more : Bytes) : (logSite event site round more s).ports = s.ports := by simp [logSite]
@[simp] theorem logSite_slice (s : State) (event site round : Nat) (more : Bytes) : (logSite event site round more s).slice = s.slice := by simp [logSite]
@[simp] theorem logSite_job (s : State) (event site round : Nat) (more : Bytes) : (logSite event site round more s).job = s.job := by simp [logSite]
@[simp] theorem logSite_load (s : State) (event site round : Nat) (more : Bytes) : (logSite event site round more s).load = s.load := by simp [logSite]
@[simp] theorem logSite_stalls (s : State) (event site round : Nat) (more : Bytes) : (logSite event site round more s).stalls = s.stalls := by simp [logSite]
@[simp] theorem logSite_mem (s : State) (event site round : Nat) (more : Bytes) : (logSite event site round more s).mem = s.mem := by simp [logSite]
@[simp] theorem logSite_tens (s : State) (event site round : Nat) (more : Bytes) : (logSite event site round more s).tens = s.tens := by simp [logSite]
@[simp] theorem logSite_ledger (s : State) (event site round : Nat) (more : Bytes) : (logSite event site round more s).ledger = s.ledger := by simp [logSite]
@[simp] theorem logSite_house (s : State) (event site round : Nat) (more : Bytes) : (logSite event site round more s).house = s.house := by simp [logSite]
@[simp] theorem logSite_step (s : State) (event site round : Nat) (more : Bytes) : (logSite event site round more s).step = s.step := by simp [logSite]
@[simp] theorem logSite_snap (s : State) (event site round : Nat) (more : Bytes) : (logSite event site round more s).snap = s.snap := by simp [logSite]
@[simp] theorem logSite_site (s : State) (event site round : Nat) (more : Bytes) : (logSite event site round more s).site = s.site := by simp [logSite]
@[simp] theorem logSite_out (s : State) (event site round : Nat) (more : Bytes) : (logSite event site round more s).out = s.out := by simp [logSite]
@[simp] theorem logSite_free (s : State) (event site round : Nat) (more : Bytes) : (logSite event site round more s).free = s.free := by simp [logSite]

/-! ### writeStatus -/

@[simp] theorem writeStatus_pending (s : State) (k : CmdRef) (w : W64) : (writeStatus k w s).pending = s.pending := by simp [writeStatus]
@[simp] theorem writeStatus_bus (s : State) (k : CmdRef) (w : W64) : (writeStatus k w s).bus = s.bus := by simp [writeStatus]
@[simp] theorem writeStatus_dev (s : State) (k : CmdRef) (w : W64) : (writeStatus k w s).dev = s.dev := by simp [writeStatus]
@[simp] theorem writeStatus_awn (s : State) (k : CmdRef) (w : W64) : (writeStatus k w s).awn = s.awn := by simp [writeStatus]
@[simp] theorem writeStatus_saf (s : State) (k : CmdRef) (w : W64) : (writeStatus k w s).saf = s.saf := by simp [writeStatus]
@[simp] theorem writeStatus_log (s : State) (k : CmdRef) (w : W64) : (writeStatus k w s).log = s.log := by simp [writeStatus]
@[simp] theorem writeStatus_tal (s : State) (k : CmdRef) (w : W64) : (writeStatus k w s).tal = s.tal := by simp [writeStatus]
@[simp] theorem writeStatus_pwr (s : State) (k : CmdRef) (w : W64) : (writeStatus k w s).pwr = s.pwr := by simp [writeStatus]
@[simp] theorem writeStatus_dbg (s : State) (k : CmdRef) (w : W64) : (writeStatus k w s).dbg = s.dbg := by simp [writeStatus]
@[simp] theorem writeStatus_sec (s : State) (k : CmdRef) (w : W64) : (writeStatus k w s).sec = s.sec := by simp [writeStatus]
@[simp] theorem writeStatus_fns (s : State) (k : CmdRef) (w : W64) : (writeStatus k w s).fns = s.fns := by simp [writeStatus]
@[simp] theorem writeStatus_ports (s : State) (k : CmdRef) (w : W64) : (writeStatus k w s).ports = s.ports := by simp [writeStatus]
@[simp] theorem writeStatus_slice (s : State) (k : CmdRef) (w : W64) : (writeStatus k w s).slice = s.slice := by simp [writeStatus]
@[simp] theorem writeStatus_job (s : State) (k : CmdRef) (w : W64) : (writeStatus k w s).job = s.job := by simp [writeStatus]
@[simp] theorem writeStatus_load (s : State) (k : CmdRef) (w : W64) : (writeStatus k w s).load = s.load := by simp [writeStatus]
@[simp] theorem writeStatus_stalls (s : State) (k : CmdRef) (w : W64) : (writeStatus k w s).stalls = s.stalls := by simp [writeStatus]
@[simp] theorem writeStatus_mem (s : State) (k : CmdRef) (w : W64) : (writeStatus k w s).mem = s.mem := by simp [writeStatus]
@[simp] theorem writeStatus_tens (s : State) (k : CmdRef) (w : W64) : (writeStatus k w s).tens = s.tens := by simp [writeStatus]
@[simp] theorem writeStatus_ledger (s : State) (k : CmdRef) (w : W64) : (writeStatus k w s).ledger = s.ledger := by simp [writeStatus]
@[simp] theorem writeStatus_house (s : State) (k : CmdRef) (w : W64) : (writeStatus k w s).house = s.house := by simp [writeStatus]
@[simp] theorem writeStatus_step (s : State) (k : CmdRef) (w : W64) : (writeStatus k w s).step = s.step := by simp [writeStatus]
@[simp] theorem writeStatus_snap (s : State) (k : CmdRef) (w : W64) : (writeStatus k w s).snap = s.snap := by simp [writeStatus]
@[simp] theorem writeStatus_site (s : State) (k : CmdRef) (w : W64) : (writeStatus k w s).site = s.site := by simp [writeStatus]
@[simp] theorem writeStatus_free (s : State) (k : CmdRef) (w : W64) : (writeStatus k w s).free = s.free := by simp [writeStatus]

/-! ### updCmd -/

@[simp] theorem updCmd_pending (s : State) (k : CmdRef) (f : Cmd → Cmd) : (updCmd k f s).pending = s.pending := by simp [updCmd]
@[simp] theorem updCmd_bus (s : State) (k : CmdRef) (f : Cmd → Cmd) : (updCmd k f s).bus = s.bus := by simp [updCmd]
@[simp] theorem updCmd_dev (s : State) (k : CmdRef) (f : Cmd → Cmd) : (updCmd k f s).dev = s.dev := by simp [updCmd]
@[simp] theorem updCmd_awn (s : State) (k : CmdRef) (f : Cmd → Cmd) : (updCmd k f s).awn = s.awn := by simp [updCmd]
@[simp] theorem updCmd_saf (s : State) (k : CmdRef) (f : Cmd → Cmd) : (updCmd k f s).saf = s.saf := by simp [updCmd]
@[simp] theorem updCmd_log (s : State) (k : CmdRef) (f : Cmd → Cmd) : (updCmd k f s).log = s.log := by simp [updCmd]
@[simp] theorem updCmd_tal (s : State) (k : CmdRef) (f : Cmd → Cmd) : (updCmd k f s).tal = s.tal := by simp [updCmd]
@[simp] theorem updCmd_pwr (s : State) (k : CmdRef) (f : Cmd → Cmd) : (updCmd k f s).pwr = s.pwr := by simp [updCmd]
@[simp] theorem updCmd_dbg (s : State) (k : CmdRef) (f : Cmd → Cmd) : (updCmd k f s).dbg = s.dbg := by simp [updCmd]
@[simp] theorem updCmd_sec (s : State) (k : CmdRef) (f : Cmd → Cmd) : (updCmd k f s).sec = s.sec := by simp [updCmd]
@[simp] theorem updCmd_fns (s : State) (k : CmdRef) (f : Cmd → Cmd) : (updCmd k f s).fns = s.fns := by simp [updCmd]
@[simp] theorem updCmd_ports (s : State) (k : CmdRef) (f : Cmd → Cmd) : (updCmd k f s).ports = s.ports := by simp [updCmd]
@[simp] theorem updCmd_slice (s : State) (k : CmdRef) (f : Cmd → Cmd) : (updCmd k f s).slice = s.slice := by simp [updCmd]
@[simp] theorem updCmd_job (s : State) (k : CmdRef) (f : Cmd → Cmd) : (updCmd k f s).job = s.job := by simp [updCmd]
@[simp] theorem updCmd_load (s : State) (k : CmdRef) (f : Cmd → Cmd) : (updCmd k f s).load = s.load := by simp [updCmd]
@[simp] theorem updCmd_stalls (s : State) (k : CmdRef) (f : Cmd → Cmd) : (updCmd k f s).stalls = s.stalls := by simp [updCmd]
@[simp] theorem updCmd_mem (s : State) (k : CmdRef) (f : Cmd → Cmd) : (updCmd k f s).mem = s.mem := by simp [updCmd]
@[simp] theorem updCmd_tens (s : State) (k : CmdRef) (f : Cmd → Cmd) : (updCmd k f s).tens = s.tens := by simp [updCmd]
@[simp] theorem updCmd_ledger (s : State) (k : CmdRef) (f : Cmd → Cmd) : (updCmd k f s).ledger = s.ledger := by simp [updCmd]
@[simp] theorem updCmd_house (s : State) (k : CmdRef) (f : Cmd → Cmd) : (updCmd k f s).house = s.house := by simp [updCmd]
@[simp] theorem updCmd_step (s : State) (k : CmdRef) (f : Cmd → Cmd) : (updCmd k f s).step = s.step := by simp [updCmd]
@[simp] theorem updCmd_snap (s : State) (k : CmdRef) (f : Cmd → Cmd) : (updCmd k f s).snap = s.snap := by simp [updCmd]
@[simp] theorem updCmd_site (s : State) (k : CmdRef) (f : Cmd → Cmd) : (updCmd k f s).site = s.site := by simp [updCmd]
@[simp] theorem updCmd_out (s : State) (k : CmdRef) (f : Cmd → Cmd) : (updCmd k f s).out = s.out := by simp [updCmd]
@[simp] theorem updCmd_free (s : State) (k : CmdRef) (f : Cmd → Cmd) : (updCmd k f s).free = s.free := by simp [updCmd]

/-! ### refreshStatus -/

@[simp] theorem refreshStatus_pending (s : State) (k : CmdRef) : (refreshStatus k s).pending = s.pending := by
  unfold refreshStatus
  (repeat' (first | split | (dsimp only; split))) <;> simp
@[simp] theorem refreshStatus_bus (s : State) (k : CmdRef) : (refreshStatus k s).bus = s.bus := by
  unfold refreshStatus
  (repeat' (first | split | (dsimp only; split))) <;> simp
@[simp] theorem refreshStatus_dev (s : State) (k : CmdRef) : (refreshStatus k s).dev = s.dev := by
  unfold refreshStatus
  (repeat' (first | split | (dsimp only; split))) <;> simp
@[simp] theorem refreshStatus_awn (s : State) (k : CmdRef) : (refreshStatus k s).awn = s.awn := by
  unfold refreshStatus
  (repeat' (first | split | (dsimp only; split))) <;> simp
@[simp] theorem refreshStatus_saf (s : State) (k : CmdRef) : (refreshStatus k s).saf = s.saf := by
  unfold refreshStatus
  (repeat' (first | split | (dsimp only; split))) <;> simp
@[simp] theorem refreshStatus_log (s : State) (k : CmdRef) : (refreshStatus k s).log = s.log := by
  unfold refreshStatus
  (repeat' (first | split | (dsimp only; split))) <;> simp
@[simp] theorem refreshStatus_tal (s : State) (k : CmdRef) : (refreshStatus k s).tal = s.tal := by
  unfold refreshStatus
  (repeat' (first | split | (dsimp only; split))) <;> simp
@[simp] theorem refreshStatus_pwr (s : State) (k : CmdRef) : (refreshStatus k s).pwr = s.pwr := by
  unfold refreshStatus
  (repeat' (first | split | (dsimp only; split))) <;> simp
@[simp] theorem refreshStatus_dbg (s : State) (k : CmdRef) : (refreshStatus k s).dbg = s.dbg := by
  unfold refreshStatus
  (repeat' (first | split | (dsimp only; split))) <;> simp
@[simp] theorem refreshStatus_sec (s : State) (k : CmdRef) : (refreshStatus k s).sec = s.sec := by
  unfold refreshStatus
  (repeat' (first | split | (dsimp only; split))) <;> simp
@[simp] theorem refreshStatus_fns (s : State) (k : CmdRef) : (refreshStatus k s).fns = s.fns := by
  unfold refreshStatus
  (repeat' (first | split | (dsimp only; split))) <;> simp
@[simp] theorem refreshStatus_ports (s : State) (k : CmdRef) : (refreshStatus k s).ports = s.ports := by
  unfold refreshStatus
  (repeat' (first | split | (dsimp only; split))) <;> simp
@[simp] theorem refreshStatus_slice (s : State) (k : CmdRef) : (refreshStatus k s).slice = s.slice := by
  unfold refreshStatus
  (repeat' (first | split | (dsimp only; split))) <;> simp
@[simp] theorem refreshStatus_job (s : State) (k : CmdRef) : (refreshStatus k s).job = s.job := by
  unfold refreshStatus
  (repeat' (first | split | (dsimp only; split))) <;> simp
@[simp] theorem refreshStatus_load (s : State) (k : CmdRef) : (refreshStatus k s).load = s.load := by
  unfold refreshStatus
  (repeat' (first | split | (dsimp only; split))) <;> simp
@[simp] theorem refreshStatus_stalls (s : State) (k : CmdRef) : (refreshStatus k s).stalls = s.stalls := by
  unfold refreshStatus
  (repeat' (first | split | (dsimp only; split))) <;> simp
@[simp] theorem refreshStatus_mem (s : State) (k : CmdRef) : (refreshStatus k s).mem = s.mem := by
  unfold refreshStatus
  (repeat' (first | split | (dsimp only; split))) <;> simp
@[simp] theorem refreshStatus_tens (s : State) (k : CmdRef) : (refreshStatus k s).tens = s.tens := by
  unfold refreshStatus
  (repeat' (first | split | (dsimp only; split))) <;> simp
@[simp] theorem refreshStatus_ledger (s : State) (k : CmdRef) : (refreshStatus k s).ledger = s.ledger := by
  unfold refreshStatus
  (repeat' (first | split | (dsimp only; split))) <;> simp
@[simp] theorem refreshStatus_house (s : State) (k : CmdRef) : (refreshStatus k s).house = s.house := by
  unfold refreshStatus
  (repeat' (first | split | (dsimp only; split))) <;> simp
@[simp] theorem refreshStatus_step (s : State) (k : CmdRef) : (refreshStatus k s).step = s.step := by
  unfold refreshStatus
  (repeat' (first | split | (dsimp only; split))) <;> simp
@[simp] theorem refreshStatus_snap (s : State) (k : CmdRef) : (refreshStatus k s).snap = s.snap := by
  unfold refreshStatus
  (repeat' (first | split | (dsimp only; split))) <;> simp
@[simp] theorem refreshStatus_site (s : State) (k : CmdRef) : (refreshStatus k s).site = s.site := by
  unfold refreshStatus
  (repeat' (first | split | (dsimp only; split))) <;> simp
@[simp] theorem refreshStatus_free (s : State) (k : CmdRef) : (refreshStatus k s).free = s.free := by
  unfold refreshStatus
  (repeat' (first | split | (dsimp only; split))) <;> simp

/-! ### setRunning -/

@[simp] theorem setRunning_pending (s : State) (k : CmdRef) : (setRunning k s).pending = s.pending := by simp [setRunning]
@[simp] theorem setRunning_bus (s : State) (k : CmdRef) : (setRunning k s).bus = s.bus := by simp [setRunning]
@[simp] theorem setRunning_dev (s : State) (k : CmdRef) : (setRunning k s).dev = s.dev := by simp [setRunning]
@[simp] theorem setRunning_awn (s : State) (k : CmdRef) : (setRunning k s).awn = s.awn := by simp [setRunning]
@[simp] theorem setRunning_saf (s : State) (k : CmdRef) : (setRunning k s).saf = s.saf := by simp [setRunning]
@[simp] theorem setRunning_log (s : State) (k : CmdRef) : (setRunning k s).log = s.log := by simp [setRunning]
@[simp] theorem setRunning_tal (s : State) (k : CmdRef) : (setRunning k s).tal = s.tal := by simp [setRunning]
@[simp] theorem setRunning_pwr (s : State) (k : CmdRef) : (setRunning k s).pwr = s.pwr := by simp [setRunning]
@[simp] theorem setRunning_dbg (s : State) (k : CmdRef) : (setRunning k s).dbg = s.dbg := by simp [setRunning]
@[simp] theorem setRunning_sec (s : State) (k : CmdRef) : (setRunning k s).sec = s.sec := by simp [setRunning]
@[simp] theorem setRunning_fns (s : State) (k : CmdRef) : (setRunning k s).fns = s.fns := by simp [setRunning]
@[simp] theorem setRunning_ports (s : State) (k : CmdRef) : (setRunning k s).ports = s.ports := by simp [setRunning]
@[simp] theorem setRunning_slice (s : State) (k : CmdRef) : (setRunning k s).slice = s.slice := by simp [setRunning]
@[simp] theorem setRunning_job (s : State) (k : CmdRef) : (setRunning k s).job = s.job := by simp [setRunning]
@[simp] theorem setRunning_load (s : State) (k : CmdRef) : (setRunning k s).load = s.load := by simp [setRunning]
@[simp] theorem setRunning_stalls (s : State) (k : CmdRef) : (setRunning k s).stalls = s.stalls := by simp [setRunning]
@[simp] theorem setRunning_mem (s : State) (k : CmdRef) : (setRunning k s).mem = s.mem := by simp [setRunning]
@[simp] theorem setRunning_tens (s : State) (k : CmdRef) : (setRunning k s).tens = s.tens := by simp [setRunning]
@[simp] theorem setRunning_ledger (s : State) (k : CmdRef) : (setRunning k s).ledger = s.ledger := by simp [setRunning]
@[simp] theorem setRunning_house (s : State) (k : CmdRef) : (setRunning k s).house = s.house := by simp [setRunning]
@[simp] theorem setRunning_step (s : State) (k : CmdRef) : (setRunning k s).step = s.step := by simp [setRunning]
@[simp] theorem setRunning_snap (s : State) (k : CmdRef) : (setRunning k s).snap = s.snap := by simp [setRunning]
@[simp] theorem setRunning_site (s : State) (k : CmdRef) : (setRunning k s).site = s.site := by simp [setRunning]
@[simp] theorem setRunning_free (s : State) (k : CmdRef) : (setRunning k s).free = s.free := by simp [setRunning]

/-! ### setProgress -/

@[simp] theorem setProgress_pending (s : State) (k : CmdRef) (n : Nat) : (setProgress k n s).pending = s.pending := by simp [setProgress]
@[simp] theorem setProgress_bus (s : State) (k : CmdRef) (n : Nat) : (setProgress k n s).bus = s.bus := by simp [setProgress]
@[simp] theorem setProgress_dev (s : State) (k : CmdRef) (n : Nat) : (setProgress k n s).dev = s.dev := by simp [setProgress]
@[simp] theorem setProgress_awn (s : State) (k : CmdRef) (n : Nat) : (setProgress k n s).awn = s.awn := by simp [setProgress]
@[simp] theorem setProgress_saf (s : State) (k : CmdRef) (n : Nat) : (setProgress k n s).saf = s.saf := by simp [setProgress]
@[simp] theorem setProgress_log (s : State) (k : CmdRef) (n : Nat) : (setProgress k n s).log = s.log := by simp [setProgress]
@[simp] theorem setProgress_tal (s : State) (k : CmdRef) (n : Nat) : (setProgress k n s).tal = s.tal := by simp [setProgress]
@[simp] theorem setProgress_pwr (s : State) (k : CmdRef) (n : Nat) : (setProgress k n s).pwr = s.pwr := by simp [setProgress]
@[simp] theorem setProgress_dbg (s : State) (k : CmdRef) (n : Nat) : (setProgress k n s).dbg = s.dbg := by simp [setProgress]
@[simp] theorem setProgress_sec (s : State) (k : CmdRef) (n : Nat) : (setProgress k n s).sec = s.sec := by simp [setProgress]
@[simp] theorem setProgress_fns (s : State) (k : CmdRef) (n : Nat) : (setProgress k n s).fns = s.fns := by simp [setProgress]
@[simp] theorem setProgress_ports (s : State) (k : CmdRef) (n : Nat) : (setProgress k n s).ports = s.ports := by simp [setProgress]
@[simp] theorem setProgress_slice (s : State) (k : CmdRef) (n : Nat) : (setProgress k n s).slice = s.slice := by simp [setProgress]
@[simp] theorem setProgress_job (s : State) (k : CmdRef) (n : Nat) : (setProgress k n s).job = s.job := by simp [setProgress]
@[simp] theorem setProgress_load (s : State) (k : CmdRef) (n : Nat) : (setProgress k n s).load = s.load := by simp [setProgress]
@[simp] theorem setProgress_stalls (s : State) (k : CmdRef) (n : Nat) : (setProgress k n s).stalls = s.stalls := by simp [setProgress]
@[simp] theorem setProgress_mem (s : State) (k : CmdRef) (n : Nat) : (setProgress k n s).mem = s.mem := by simp [setProgress]
@[simp] theorem setProgress_tens (s : State) (k : CmdRef) (n : Nat) : (setProgress k n s).tens = s.tens := by simp [setProgress]
@[simp] theorem setProgress_ledger (s : State) (k : CmdRef) (n : Nat) : (setProgress k n s).ledger = s.ledger := by simp [setProgress]
@[simp] theorem setProgress_house (s : State) (k : CmdRef) (n : Nat) : (setProgress k n s).house = s.house := by simp [setProgress]
@[simp] theorem setProgress_step (s : State) (k : CmdRef) (n : Nat) : (setProgress k n s).step = s.step := by simp [setProgress]
@[simp] theorem setProgress_snap (s : State) (k : CmdRef) (n : Nat) : (setProgress k n s).snap = s.snap := by simp [setProgress]
@[simp] theorem setProgress_site (s : State) (k : CmdRef) (n : Nat) : (setProgress k n s).site = s.site := by simp [setProgress]
@[simp] theorem setProgress_free (s : State) (k : CmdRef) (n : Nat) : (setProgress k n s).free = s.free := by simp [setProgress]

/-! ### placeRecord -/

@[simp] theorem placeRecord_pending (s : State) (c : Cmd) (n : Nat) (b : Bytes) : (placeRecord c n b s).pending = s.pending := by simp [placeRecord]
@[simp] theorem placeRecord_mbx (s : State) (c : Cmd) (n : Nat) (b : Bytes) : (placeRecord c n b s).mbx = s.mbx := by simp [placeRecord]
@[simp] theorem placeRecord_bus (s : State) (c : Cmd) (n : Nat) (b : Bytes) : (placeRecord c n b s).bus = s.bus := by simp [placeRecord]
@[simp] theorem placeRecord_dev (s : State) (c : Cmd) (n : Nat) (b : Bytes) : (placeRecord c n b s).dev = s.dev := by simp [placeRecord]
@[simp] theorem placeRecord_awn (s : State) (c : Cmd) (n : Nat) (b : Bytes) : (placeRecord c n b s).awn = s.awn := by simp [placeRecord]
@[simp] theorem placeRecord_saf (s : State) (c : Cmd) (n : Nat) (b : Bytes) : (placeRecord c n b s).saf = s.saf := by simp [placeRecord]
@[simp] theorem placeRecord_log (s : State) (c : Cmd) (n : Nat) (b : Bytes) : (placeRecord c n b s).log = s.log := by simp [placeRecord]
@[simp] theorem placeRecord_tal (s : State) (c : Cmd) (n : Nat) (b : Bytes) : (placeRecord c n b s).tal = s.tal := by simp [placeRecord]
@[simp] theorem placeRecord_pwr (s : State) (c : Cmd) (n : Nat) (b : Bytes) : (placeRecord c n b s).pwr = s.pwr := by simp [placeRecord]
@[simp] theorem placeRecord_dbg (s : State) (c : Cmd) (n : Nat) (b : Bytes) : (placeRecord c n b s).dbg = s.dbg := by simp [placeRecord]
@[simp] theorem placeRecord_sec (s : State) (c : Cmd) (n : Nat) (b : Bytes) : (placeRecord c n b s).sec = s.sec := by simp [placeRecord]
@[simp] theorem placeRecord_fns (s : State) (c : Cmd) (n : Nat) (b : Bytes) : (placeRecord c n b s).fns = s.fns := by simp [placeRecord]
@[simp] theorem placeRecord_ports (s : State) (c : Cmd) (n : Nat) (b : Bytes) : (placeRecord c n b s).ports = s.ports := by simp [placeRecord]
@[simp] theorem placeRecord_slice (s : State) (c : Cmd) (n : Nat) (b : Bytes) : (placeRecord c n b s).slice = s.slice := by simp [placeRecord]
@[simp] theorem placeRecord_job (s : State) (c : Cmd) (n : Nat) (b : Bytes) : (placeRecord c n b s).job = s.job := by simp [placeRecord]
@[simp] theorem placeRecord_load (s : State) (c : Cmd) (n : Nat) (b : Bytes) : (placeRecord c n b s).load = s.load := by simp [placeRecord]
@[simp] theorem placeRecord_stalls (s : State) (c : Cmd) (n : Nat) (b : Bytes) : (placeRecord c n b s).stalls = s.stalls := by simp [placeRecord]
@[simp] theorem placeRecord_tens (s : State) (c : Cmd) (n : Nat) (b : Bytes) : (placeRecord c n b s).tens = s.tens := by simp [placeRecord]
@[simp] theorem placeRecord_ledger (s : State) (c : Cmd) (n : Nat) (b : Bytes) : (placeRecord c n b s).ledger = s.ledger := by simp [placeRecord]
@[simp] theorem placeRecord_house (s : State) (c : Cmd) (n : Nat) (b : Bytes) : (placeRecord c n b s).house = s.house := by simp [placeRecord]
@[simp] theorem placeRecord_step (s : State) (c : Cmd) (n : Nat) (b : Bytes) : (placeRecord c n b s).step = s.step := by simp [placeRecord]
@[simp] theorem placeRecord_snap (s : State) (c : Cmd) (n : Nat) (b : Bytes) : (placeRecord c n b s).snap = s.snap := by simp [placeRecord]
@[simp] theorem placeRecord_site (s : State) (c : Cmd) (n : Nat) (b : Bytes) : (placeRecord c n b s).site = s.site := by simp [placeRecord]
@[simp] theorem placeRecord_out (s : State) (c : Cmd) (n : Nat) (b : Bytes) : (placeRecord c n b s).out = s.out := by simp [placeRecord]
@[simp] theorem placeRecord_free (s : State) (c : Cmd) (n : Nat) (b : Bytes) : (placeRecord c n b s).free = s.free := by simp [placeRecord]

/-! ### addRecord -/

@[simp] theorem addRecord_pending (s : State) (k : CmdRef) (b : Bytes) : (addRecord k b s).pending = s.pending := by
  unfold addRecord
  (repeat' (first | split | (dsimp only; split))) <;> simp
@[simp] theorem addRecord_bus (s : State) (k : CmdRef) (b : Bytes) : (addRecord k b s).bus = s.bus := by
  unfold addRecord
  (repeat' (first | split | (dsimp only; split))) <;> simp
@[simp] theorem addRecord_dev (s : State) (k : CmdRef) (b : Bytes) : (addRecord k b s).dev = s.dev := by
  unfold addRecord
  (repeat' (first | split | (dsimp only; split))) <;> simp
@[simp] theorem addRecord_awn (s : State) (k : CmdRef) (b : Bytes) : (addRecord k b s).awn = s.awn := by
  unfold addRecord
  (repeat' (first | split | (dsimp only; split))) <;> simp
@[simp] theorem addRecord_saf (s : State) (k : CmdRef) (b : Bytes) : (addRecord k b s).saf = s.saf := by
  unfold addRecord
  (repeat' (first | split | (dsimp only; split))) <;> simp
@[simp] theorem addRecord_log (s : State) (k : CmdRef) (b : Bytes) : (addRecord k b s).log = s.log := by
  unfold addRecord
  (repeat' (first | split | (dsimp only; split))) <;> simp
@[simp] theorem addRecord_tal (s : State) (k : CmdRef) (b : Bytes) : (addRecord k b s).tal = s.tal := by
  unfold addRecord
  (repeat' (first | split | (dsimp only; split))) <;> simp
@[simp] theorem addRecord_pwr (s : State) (k : CmdRef) (b : Bytes) : (addRecord k b s).pwr = s.pwr := by
  unfold addRecord
  (repeat' (first | split | (dsimp only; split))) <;> simp
@[simp] theorem addRecord_dbg (s : State) (k : CmdRef) (b : Bytes) : (addRecord k b s).dbg = s.dbg := by
  unfold addRecord
  (repeat' (first | split | (dsimp only; split))) <;> simp
@[simp] theorem addRecord_sec (s : State) (k : CmdRef) (b : Bytes) : (addRecord k b s).sec = s.sec := by
  unfold addRecord
  (repeat' (first | split | (dsimp only; split))) <;> simp
@[simp] theorem addRecord_fns (s : State) (k : CmdRef) (b : Bytes) : (addRecord k b s).fns = s.fns := by
  unfold addRecord
  (repeat' (first | split | (dsimp only; split))) <;> simp
@[simp] theorem addRecord_ports (s : State) (k : CmdRef) (b : Bytes) : (addRecord k b s).ports = s.ports := by
  unfold addRecord
  (repeat' (first | split | (dsimp only; split))) <;> simp
@[simp] theorem addRecord_slice (s : State) (k : CmdRef) (b : Bytes) : (addRecord k b s).slice = s.slice := by
  unfold addRecord
  (repeat' (first | split | (dsimp only; split))) <;> simp
@[simp] theorem addRecord_job (s : State) (k : CmdRef) (b : Bytes) : (addRecord k b s).job = s.job := by
  unfold addRecord
  (repeat' (first | split | (dsimp only; split))) <;> simp
@[simp] theorem addRecord_load (s : State) (k : CmdRef) (b : Bytes) : (addRecord k b s).load = s.load := by
  unfold addRecord
  (repeat' (first | split | (dsimp only; split))) <;> simp
@[simp] theorem addRecord_stalls (s : State) (k : CmdRef) (b : Bytes) : (addRecord k b s).stalls = s.stalls := by
  unfold addRecord
  (repeat' (first | split | (dsimp only; split))) <;> simp
@[simp] theorem addRecord_tens (s : State) (k : CmdRef) (b : Bytes) : (addRecord k b s).tens = s.tens := by
  unfold addRecord
  (repeat' (first | split | (dsimp only; split))) <;> simp
@[simp] theorem addRecord_ledger (s : State) (k : CmdRef) (b : Bytes) : (addRecord k b s).ledger = s.ledger := by
  unfold addRecord
  (repeat' (first | split | (dsimp only; split))) <;> simp
@[simp] theorem addRecord_house (s : State) (k : CmdRef) (b : Bytes) : (addRecord k b s).house = s.house := by
  unfold addRecord
  (repeat' (first | split | (dsimp only; split))) <;> simp
@[simp] theorem addRecord_step (s : State) (k : CmdRef) (b : Bytes) : (addRecord k b s).step = s.step := by
  unfold addRecord
  (repeat' (first | split | (dsimp only; split))) <;> simp
@[simp] theorem addRecord_snap (s : State) (k : CmdRef) (b : Bytes) : (addRecord k b s).snap = s.snap := by
  unfold addRecord
  (repeat' (first | split | (dsimp only; split))) <;> simp
@[simp] theorem addRecord_site (s : State) (k : CmdRef) (b : Bytes) : (addRecord k b s).site = s.site := by
  unfold addRecord
  (repeat' (first | split | (dsimp only; split))) <;> simp
@[simp] theorem addRecord_free (s : State) (k : CmdRef) (b : Bytes) : (addRecord k b s).free = s.free := by
  unfold addRecord
  (repeat' (first | split | (dsimp only; split))) <;> simp

/-! ### flushRecords -/

@[simp] theorem flushRecords_pending (s : State) (k : CmdRef) : (flushRecords k s).pending = s.pending := by
  unfold flushRecords
  (repeat' (first | split | (dsimp only; split))) <;> simp
@[simp] theorem flushRecords_bus (s : State) (k : CmdRef) : (flushRecords k s).bus = s.bus := by
  unfold flushRecords
  (repeat' (first | split | (dsimp only; split))) <;> simp
@[simp] theorem flushRecords_dev (s : State) (k : CmdRef) : (flushRecords k s).dev = s.dev := by
  unfold flushRecords
  (repeat' (first | split | (dsimp only; split))) <;> simp
@[simp] theorem flushRecords_awn (s : State) (k : CmdRef) : (flushRecords k s).awn = s.awn := by
  unfold flushRecords
  (repeat' (first | split | (dsimp only; split))) <;> simp
@[simp] theorem flushRecords_saf (s : State) (k : CmdRef) : (flushRecords k s).saf = s.saf := by
  unfold flushRecords
  (repeat' (first | split | (dsimp only; split))) <;> simp
@[simp] theorem flushRecords_log (s : State) (k : CmdRef) : (flushRecords k s).log = s.log := by
  unfold flushRecords
  (repeat' (first | split | (dsimp only; split))) <;> simp
@[simp] theorem flushRecords_tal (s : State) (k : CmdRef) : (flushRecords k s).tal = s.tal := by
  unfold flushRecords
  (repeat' (first | split | (dsimp only; split))) <;> simp
@[simp] theorem flushRecords_pwr (s : State) (k : CmdRef) : (flushRecords k s).pwr = s.pwr := by
  unfold flushRecords
  (repeat' (first | split | (dsimp only; split))) <;> simp
@[simp] theorem flushRecords_dbg (s : State) (k : CmdRef) : (flushRecords k s).dbg = s.dbg := by
  unfold flushRecords
  (repeat' (first | split | (dsimp only; split))) <;> simp
@[simp] theorem flushRecords_sec (s : State) (k : CmdRef) : (flushRecords k s).sec = s.sec := by
  unfold flushRecords
  (repeat' (first | split | (dsimp only; split))) <;> simp
@[simp] theorem flushRecords_fns (s : State) (k : CmdRef) : (flushRecords k s).fns = s.fns := by
  unfold flushRecords
  (repeat' (first | split | (dsimp only; split))) <;> simp
@[simp] theorem flushRecords_ports (s : State) (k : CmdRef) : (flushRecords k s).ports = s.ports := by
  unfold flushRecords
  (repeat' (first | split | (dsimp only; split))) <;> simp
@[simp] theorem flushRecords_slice (s : State) (k : CmdRef) : (flushRecords k s).slice = s.slice := by
  unfold flushRecords
  (repeat' (first | split | (dsimp only; split))) <;> simp
@[simp] theorem flushRecords_job (s : State) (k : CmdRef) : (flushRecords k s).job = s.job := by
  unfold flushRecords
  (repeat' (first | split | (dsimp only; split))) <;> simp
@[simp] theorem flushRecords_load (s : State) (k : CmdRef) : (flushRecords k s).load = s.load := by
  unfold flushRecords
  (repeat' (first | split | (dsimp only; split))) <;> simp
@[simp] theorem flushRecords_stalls (s : State) (k : CmdRef) : (flushRecords k s).stalls = s.stalls := by
  unfold flushRecords
  (repeat' (first | split | (dsimp only; split))) <;> simp
@[simp] theorem flushRecords_tens (s : State) (k : CmdRef) : (flushRecords k s).tens = s.tens := by
  unfold flushRecords
  (repeat' (first | split | (dsimp only; split))) <;> simp
@[simp] theorem flushRecords_ledger (s : State) (k : CmdRef) : (flushRecords k s).ledger = s.ledger := by
  unfold flushRecords
  (repeat' (first | split | (dsimp only; split))) <;> simp
@[simp] theorem flushRecords_house (s : State) (k : CmdRef) : (flushRecords k s).house = s.house := by
  unfold flushRecords
  (repeat' (first | split | (dsimp only; split))) <;> simp
@[simp] theorem flushRecords_step (s : State) (k : CmdRef) : (flushRecords k s).step = s.step := by
  unfold flushRecords
  (repeat' (first | split | (dsimp only; split))) <;> simp
@[simp] theorem flushRecords_snap (s : State) (k : CmdRef) : (flushRecords k s).snap = s.snap := by
  unfold flushRecords
  (repeat' (first | split | (dsimp only; split))) <;> simp
@[simp] theorem flushRecords_site (s : State) (k : CmdRef) : (flushRecords k s).site = s.site := by
  unfold flushRecords
  (repeat' (first | split | (dsimp only; split))) <;> simp
@[simp] theorem flushRecords_free (s : State) (k : CmdRef) : (flushRecords k s).free = s.free := by
  unfold flushRecords
  (repeat' (first | split | (dsimp only; split))) <;> simp

/-! ### endRepeats -/

@[simp] theorem endRepeats_pending (s : State) (ch : Fin 16) (token w : W64) : (endRepeats ch token w s).pending = s.pending := by
  unfold endRepeats
  simp only []
  rw [foldl_keeps (fun (t : State) => t.pending) _ (by intro s c; simp)]
  simp
@[simp] theorem endRepeats_bus (s : State) (ch : Fin 16) (token w : W64) : (endRepeats ch token w s).bus = s.bus := by
  unfold endRepeats
  simp only []
  rw [foldl_keeps (fun (t : State) => t.bus) _ (by intro s c; simp)]
  simp
@[simp] theorem endRepeats_dev (s : State) (ch : Fin 16) (token w : W64) : (endRepeats ch token w s).dev = s.dev := by
  unfold endRepeats
  simp only []
  rw [foldl_keeps (fun (t : State) => t.dev) _ (by intro s c; simp)]
  simp
@[simp] theorem endRepeats_awn (s : State) (ch : Fin 16) (token w : W64) : (endRepeats ch token w s).awn = s.awn := by
  unfold endRepeats
  simp only []
  rw [foldl_keeps (fun (t : State) => t.awn) _ (by intro s c; simp)]
  simp
@[simp] theorem endRepeats_saf (s : State) (ch : Fin 16) (token w : W64) : (endRepeats ch token w s).saf = s.saf := by
  unfold endRepeats
  simp only []
  rw [foldl_keeps (fun (t : State) => t.saf) _ (by intro s c; simp)]
  simp
@[simp] theorem endRepeats_log (s : State) (ch : Fin 16) (token w : W64) : (endRepeats ch token w s).log = s.log := by
  unfold endRepeats
  simp only []
  rw [foldl_keeps (fun (t : State) => t.log) _ (by intro s c; simp)]
  simp
@[simp] theorem endRepeats_tal (s : State) (ch : Fin 16) (token w : W64) : (endRepeats ch token w s).tal = s.tal := by
  unfold endRepeats
  simp only []
  rw [foldl_keeps (fun (t : State) => t.tal) _ (by intro s c; simp)]
  simp
@[simp] theorem endRepeats_pwr (s : State) (ch : Fin 16) (token w : W64) : (endRepeats ch token w s).pwr = s.pwr := by
  unfold endRepeats
  simp only []
  rw [foldl_keeps (fun (t : State) => t.pwr) _ (by intro s c; simp)]
  simp
@[simp] theorem endRepeats_dbg (s : State) (ch : Fin 16) (token w : W64) : (endRepeats ch token w s).dbg = s.dbg := by
  unfold endRepeats
  simp only []
  rw [foldl_keeps (fun (t : State) => t.dbg) _ (by intro s c; simp)]
  simp
@[simp] theorem endRepeats_sec (s : State) (ch : Fin 16) (token w : W64) : (endRepeats ch token w s).sec = s.sec := by
  unfold endRepeats
  simp only []
  rw [foldl_keeps (fun (t : State) => t.sec) _ (by intro s c; simp)]
  simp
@[simp] theorem endRepeats_fns (s : State) (ch : Fin 16) (token w : W64) : (endRepeats ch token w s).fns = s.fns := by
  unfold endRepeats
  simp only []
  rw [foldl_keeps (fun (t : State) => t.fns) _ (by intro s c; simp)]
  simp
@[simp] theorem endRepeats_ports (s : State) (ch : Fin 16) (token w : W64) : (endRepeats ch token w s).ports = s.ports := by
  unfold endRepeats
  simp only []
  rw [foldl_keeps (fun (t : State) => t.ports) _ (by intro s c; simp)]
  simp
@[simp] theorem endRepeats_slice (s : State) (ch : Fin 16) (token w : W64) : (endRepeats ch token w s).slice = s.slice := by
  unfold endRepeats
  simp only []
  rw [foldl_keeps (fun (t : State) => t.slice) _ (by intro s c; simp)]
  simp
@[simp] theorem endRepeats_job (s : State) (ch : Fin 16) (token w : W64) : (endRepeats ch token w s).job = s.job := by
  unfold endRepeats
  simp only []
  rw [foldl_keeps (fun (t : State) => t.job) _ (by intro s c; simp)]
  simp
@[simp] theorem endRepeats_load (s : State) (ch : Fin 16) (token w : W64) : (endRepeats ch token w s).load = s.load := by
  unfold endRepeats
  simp only []
  rw [foldl_keeps (fun (t : State) => t.load) _ (by intro s c; simp)]
  simp
@[simp] theorem endRepeats_stalls (s : State) (ch : Fin 16) (token w : W64) : (endRepeats ch token w s).stalls = s.stalls := by
  unfold endRepeats
  simp only []
  rw [foldl_keeps (fun (t : State) => t.stalls) _ (by intro s c; simp)]
  simp
@[simp] theorem endRepeats_mem (s : State) (ch : Fin 16) (token w : W64) : (endRepeats ch token w s).mem = s.mem := by
  unfold endRepeats
  simp only []
  rw [foldl_keeps (fun (t : State) => t.mem) _ (by intro s c; simp)]
  simp
@[simp] theorem endRepeats_tens (s : State) (ch : Fin 16) (token w : W64) : (endRepeats ch token w s).tens = s.tens := by
  unfold endRepeats
  simp only []
  rw [foldl_keeps (fun (t : State) => t.tens) _ (by intro s c; simp)]
  simp
@[simp] theorem endRepeats_ledger (s : State) (ch : Fin 16) (token w : W64) : (endRepeats ch token w s).ledger = s.ledger := by
  unfold endRepeats
  simp only []
  rw [foldl_keeps (fun (t : State) => t.ledger) _ (by intro s c; simp)]
  simp
@[simp] theorem endRepeats_house (s : State) (ch : Fin 16) (token w : W64) : (endRepeats ch token w s).house = s.house := by
  unfold endRepeats
  simp only []
  rw [foldl_keeps (fun (t : State) => t.house) _ (by intro s c; simp)]
  simp
@[simp] theorem endRepeats_step (s : State) (ch : Fin 16) (token w : W64) : (endRepeats ch token w s).step = s.step := by
  unfold endRepeats
  simp only []
  rw [foldl_keeps (fun (t : State) => t.step) _ (by intro s c; simp)]
  simp
@[simp] theorem endRepeats_snap (s : State) (ch : Fin 16) (token w : W64) : (endRepeats ch token w s).snap = s.snap := by
  unfold endRepeats
  simp only []
  rw [foldl_keeps (fun (t : State) => t.snap) _ (by intro s c; simp)]
  simp
@[simp] theorem endRepeats_site (s : State) (ch : Fin 16) (token w : W64) : (endRepeats ch token w s).site = s.site := by
  unfold endRepeats
  simp only []
  rw [foldl_keeps (fun (t : State) => t.site) _ (by intro s c; simp)]
  simp
@[simp] theorem endRepeats_free (s : State) (ch : Fin 16) (token w : W64) : (endRepeats ch token w s).free = s.free := by
  unfold endRepeats
  simp only []
  rw [foldl_keeps (fun (t : State) => t.free) _ (by intro s c; simp)]
  simp

/-! ### finishWith -/

@[simp] theorem finishWith_pending (s : State) (k : CmdRef) (result : Nat) (x : Cause) : (finishWith k result x s).pending = s.pending := by
  unfold finishWith
  (repeat' (first | split | (dsimp only; split))) <;> simp
@[simp] theorem finishWith_bus (s : State) (k : CmdRef) (result : Nat) (x : Cause) : (finishWith k result x s).bus = s.bus := by
  unfold finishWith
  (repeat' (first | split | (dsimp only; split))) <;> simp
@[simp] theorem finishWith_dev (s : State) (k : CmdRef) (result : Nat) (x : Cause) : (finishWith k result x s).dev = s.dev := by
  unfold finishWith
  (repeat' (first | split | (dsimp only; split))) <;> simp
@[simp] theorem finishWith_awn (s : State) (k : CmdRef) (result : Nat) (x : Cause) : (finishWith k result x s).awn = s.awn := by
  unfold finishWith
  (repeat' (first | split | (dsimp only; split))) <;> simp
@[simp] theorem finishWith_saf (s : State) (k : CmdRef) (result : Nat) (x : Cause) : (finishWith k result x s).saf = s.saf := by
  unfold finishWith
  (repeat' (first | split | (dsimp only; split))) <;> simp
@[simp] theorem finishWith_log (s : State) (k : CmdRef) (result : Nat) (x : Cause) : (finishWith k result x s).log = s.log := by
  unfold finishWith
  (repeat' (first | split | (dsimp only; split))) <;> simp
@[simp] theorem finishWith_tal (s : State) (k : CmdRef) (result : Nat) (x : Cause) : (finishWith k result x s).tal = s.tal := by
  unfold finishWith
  (repeat' (first | split | (dsimp only; split))) <;> simp
@[simp] theorem finishWith_pwr (s : State) (k : CmdRef) (result : Nat) (x : Cause) : (finishWith k result x s).pwr = s.pwr := by
  unfold finishWith
  (repeat' (first | split | (dsimp only; split))) <;> simp
@[simp] theorem finishWith_dbg (s : State) (k : CmdRef) (result : Nat) (x : Cause) : (finishWith k result x s).dbg = s.dbg := by
  unfold finishWith
  (repeat' (first | split | (dsimp only; split))) <;> simp
@[simp] theorem finishWith_sec (s : State) (k : CmdRef) (result : Nat) (x : Cause) : (finishWith k result x s).sec = s.sec := by
  unfold finishWith
  (repeat' (first | split | (dsimp only; split))) <;> simp
@[simp] theorem finishWith_fns (s : State) (k : CmdRef) (result : Nat) (x : Cause) : (finishWith k result x s).fns = s.fns := by
  unfold finishWith
  (repeat' (first | split | (dsimp only; split))) <;> simp
@[simp] theorem finishWith_ports (s : State) (k : CmdRef) (result : Nat) (x : Cause) : (finishWith k result x s).ports = s.ports := by
  unfold finishWith
  (repeat' (first | split | (dsimp only; split))) <;> simp
@[simp] theorem finishWith_slice (s : State) (k : CmdRef) (result : Nat) (x : Cause) : (finishWith k result x s).slice = s.slice := by
  unfold finishWith
  (repeat' (first | split | (dsimp only; split))) <;> simp
@[simp] theorem finishWith_job (s : State) (k : CmdRef) (result : Nat) (x : Cause) : (finishWith k result x s).job = s.job := by
  unfold finishWith
  (repeat' (first | split | (dsimp only; split))) <;> simp
@[simp] theorem finishWith_load (s : State) (k : CmdRef) (result : Nat) (x : Cause) : (finishWith k result x s).load = s.load := by
  unfold finishWith
  (repeat' (first | split | (dsimp only; split))) <;> simp
@[simp] theorem finishWith_stalls (s : State) (k : CmdRef) (result : Nat) (x : Cause) : (finishWith k result x s).stalls = s.stalls := by
  unfold finishWith
  (repeat' (first | split | (dsimp only; split))) <;> simp
@[simp] theorem finishWith_tens (s : State) (k : CmdRef) (result : Nat) (x : Cause) : (finishWith k result x s).tens = s.tens := by
  unfold finishWith
  (repeat' (first | split | (dsimp only; split))) <;> simp
@[simp] theorem finishWith_ledger (s : State) (k : CmdRef) (result : Nat) (x : Cause) : (finishWith k result x s).ledger = s.ledger := by
  unfold finishWith
  (repeat' (first | split | (dsimp only; split))) <;> simp
@[simp] theorem finishWith_house (s : State) (k : CmdRef) (result : Nat) (x : Cause) : (finishWith k result x s).house = s.house := by
  unfold finishWith
  (repeat' (first | split | (dsimp only; split))) <;> simp
@[simp] theorem finishWith_step (s : State) (k : CmdRef) (result : Nat) (x : Cause) : (finishWith k result x s).step = s.step := by
  unfold finishWith
  (repeat' (first | split | (dsimp only; split))) <;> simp
@[simp] theorem finishWith_snap (s : State) (k : CmdRef) (result : Nat) (x : Cause) : (finishWith k result x s).snap = s.snap := by
  unfold finishWith
  (repeat' (first | split | (dsimp only; split))) <;> simp
@[simp] theorem finishWith_site (s : State) (k : CmdRef) (result : Nat) (x : Cause) : (finishWith k result x s).site = s.site := by
  unfold finishWith
  (repeat' (first | split | (dsimp only; split))) <;> simp
@[simp] theorem finishWith_free (s : State) (k : CmdRef) (result : Nat) (x : Cause) : (finishWith k result x s).free = s.free := by
  unfold finishWith
  (repeat' (first | split | (dsimp only; split))) <;> simp

/-! ### finish -/

@[simp] theorem finish_pending (s : State) (k : CmdRef) (result : Nat) : (finish k result s).pending = s.pending := by simp [finish]
@[simp] theorem finish_bus (s : State) (k : CmdRef) (result : Nat) : (finish k result s).bus = s.bus := by simp [finish]
@[simp] theorem finish_dev (s : State) (k : CmdRef) (result : Nat) : (finish k result s).dev = s.dev := by simp [finish]
@[simp] theorem finish_awn (s : State) (k : CmdRef) (result : Nat) : (finish k result s).awn = s.awn := by simp [finish]
@[simp] theorem finish_saf (s : State) (k : CmdRef) (result : Nat) : (finish k result s).saf = s.saf := by simp [finish]
@[simp] theorem finish_log (s : State) (k : CmdRef) (result : Nat) : (finish k result s).log = s.log := by simp [finish]
@[simp] theorem finish_tal (s : State) (k : CmdRef) (result : Nat) : (finish k result s).tal = s.tal := by simp [finish]
@[simp] theorem finish_pwr (s : State) (k : CmdRef) (result : Nat) : (finish k result s).pwr = s.pwr := by simp [finish]
@[simp] theorem finish_dbg (s : State) (k : CmdRef) (result : Nat) : (finish k result s).dbg = s.dbg := by simp [finish]
@[simp] theorem finish_sec (s : State) (k : CmdRef) (result : Nat) : (finish k result s).sec = s.sec := by simp [finish]
@[simp] theorem finish_fns (s : State) (k : CmdRef) (result : Nat) : (finish k result s).fns = s.fns := by simp [finish]
@[simp] theorem finish_ports (s : State) (k : CmdRef) (result : Nat) : (finish k result s).ports = s.ports := by simp [finish]
@[simp] theorem finish_slice (s : State) (k : CmdRef) (result : Nat) : (finish k result s).slice = s.slice := by simp [finish]
@[simp] theorem finish_job (s : State) (k : CmdRef) (result : Nat) : (finish k result s).job = s.job := by simp [finish]
@[simp] theorem finish_load (s : State) (k : CmdRef) (result : Nat) : (finish k result s).load = s.load := by simp [finish]
@[simp] theorem finish_stalls (s : State) (k : CmdRef) (result : Nat) : (finish k result s).stalls = s.stalls := by simp [finish]
@[simp] theorem finish_tens (s : State) (k : CmdRef) (result : Nat) : (finish k result s).tens = s.tens := by simp [finish]
@[simp] theorem finish_ledger (s : State) (k : CmdRef) (result : Nat) : (finish k result s).ledger = s.ledger := by simp [finish]
@[simp] theorem finish_house (s : State) (k : CmdRef) (result : Nat) : (finish k result s).house = s.house := by simp [finish]
@[simp] theorem finish_step (s : State) (k : CmdRef) (result : Nat) : (finish k result s).step = s.step := by simp [finish]
@[simp] theorem finish_snap (s : State) (k : CmdRef) (result : Nat) : (finish k result s).snap = s.snap := by simp [finish]
@[simp] theorem finish_site (s : State) (k : CmdRef) (result : Nat) : (finish k result s).site = s.site := by simp [finish]
@[simp] theorem finish_free (s : State) (k : CmdRef) (result : Nat) : (finish k result s).free = s.free := by simp [finish]

/-! ### siteCount -/

@[simp] theorem siteCount_pending (s : State) (i : Nat) (f : SiteTotal → SiteTotal) : (siteCount i f s).pending = s.pending := by simp [siteCount]
@[simp] theorem siteCount_mbx (s : State) (i : Nat) (f : SiteTotal → SiteTotal) : (siteCount i f s).mbx = s.mbx := by simp [siteCount]
@[simp] theorem siteCount_bus (s : State) (i : Nat) (f : SiteTotal → SiteTotal) : (siteCount i f s).bus = s.bus := by simp [siteCount]
@[simp] theorem siteCount_dev (s : State) (i : Nat) (f : SiteTotal → SiteTotal) : (siteCount i f s).dev = s.dev := by simp [siteCount]
@[simp] theorem siteCount_awn (s : State) (i : Nat) (f : SiteTotal → SiteTotal) : (siteCount i f s).awn = s.awn := by simp [siteCount]
@[simp] theorem siteCount_saf (s : State) (i : Nat) (f : SiteTotal → SiteTotal) : (siteCount i f s).saf = s.saf := by simp [siteCount]
@[simp] theorem siteCount_log (s : State) (i : Nat) (f : SiteTotal → SiteTotal) : (siteCount i f s).log = s.log := by simp [siteCount]
@[simp] theorem siteCount_tal (s : State) (i : Nat) (f : SiteTotal → SiteTotal) : (siteCount i f s).tal = s.tal := by simp [siteCount]
@[simp] theorem siteCount_pwr (s : State) (i : Nat) (f : SiteTotal → SiteTotal) : (siteCount i f s).pwr = s.pwr := by simp [siteCount]
@[simp] theorem siteCount_dbg (s : State) (i : Nat) (f : SiteTotal → SiteTotal) : (siteCount i f s).dbg = s.dbg := by simp [siteCount]
@[simp] theorem siteCount_sec (s : State) (i : Nat) (f : SiteTotal → SiteTotal) : (siteCount i f s).sec = s.sec := by simp [siteCount]
@[simp] theorem siteCount_fns (s : State) (i : Nat) (f : SiteTotal → SiteTotal) : (siteCount i f s).fns = s.fns := by simp [siteCount]
@[simp] theorem siteCount_ports (s : State) (i : Nat) (f : SiteTotal → SiteTotal) : (siteCount i f s).ports = s.ports := by simp [siteCount]
@[simp] theorem siteCount_slice (s : State) (i : Nat) (f : SiteTotal → SiteTotal) : (siteCount i f s).slice = s.slice := by simp [siteCount]
@[simp] theorem siteCount_job (s : State) (i : Nat) (f : SiteTotal → SiteTotal) : (siteCount i f s).job = s.job := by simp [siteCount]
@[simp] theorem siteCount_load (s : State) (i : Nat) (f : SiteTotal → SiteTotal) : (siteCount i f s).load = s.load := by simp [siteCount]
@[simp] theorem siteCount_stalls (s : State) (i : Nat) (f : SiteTotal → SiteTotal) : (siteCount i f s).stalls = s.stalls := by simp [siteCount]
@[simp] theorem siteCount_mem (s : State) (i : Nat) (f : SiteTotal → SiteTotal) : (siteCount i f s).mem = s.mem := by simp [siteCount]
@[simp] theorem siteCount_tens (s : State) (i : Nat) (f : SiteTotal → SiteTotal) : (siteCount i f s).tens = s.tens := by simp [siteCount]
@[simp] theorem siteCount_ledger (s : State) (i : Nat) (f : SiteTotal → SiteTotal) : (siteCount i f s).ledger = s.ledger := by simp [siteCount]
@[simp] theorem siteCount_house (s : State) (i : Nat) (f : SiteTotal → SiteTotal) : (siteCount i f s).house = s.house := by simp [siteCount]
@[simp] theorem siteCount_step (s : State) (i : Nat) (f : SiteTotal → SiteTotal) : (siteCount i f s).step = s.step := by simp [siteCount]
@[simp] theorem siteCount_snap (s : State) (i : Nat) (f : SiteTotal → SiteTotal) : (siteCount i f s).snap = s.snap := by simp [siteCount]
@[simp] theorem siteCount_out (s : State) (i : Nat) (f : SiteTotal → SiteTotal) : (siteCount i f s).out = s.out := by simp [siteCount]
@[simp] theorem siteCount_free (s : State) (i : Nat) (f : SiteTotal → SiteTotal) : (siteCount i f s).free = s.free := by simp [siteCount]

/-! ### updSess -/

@[simp] theorem updSess_pending (s : State) (site shard : Nat) (f : Session → Session) : (updSess site shard f s).pending = s.pending := by simp [updSess]
@[simp] theorem updSess_mbx (s : State) (site shard : Nat) (f : Session → Session) : (updSess site shard f s).mbx = s.mbx := by simp [updSess]
@[simp] theorem updSess_bus (s : State) (site shard : Nat) (f : Session → Session) : (updSess site shard f s).bus = s.bus := by simp [updSess]
@[simp] theorem updSess_dev (s : State) (site shard : Nat) (f : Session → Session) : (updSess site shard f s).dev = s.dev := by simp [updSess]
@[simp] theorem updSess_awn (s : State) (site shard : Nat) (f : Session → Session) : (updSess site shard f s).awn = s.awn := by simp [updSess]
@[simp] theorem updSess_saf (s : State) (site shard : Nat) (f : Session → Session) : (updSess site shard f s).saf = s.saf := by simp [updSess]
@[simp] theorem updSess_log (s : State) (site shard : Nat) (f : Session → Session) : (updSess site shard f s).log = s.log := by simp [updSess]
@[simp] theorem updSess_tal (s : State) (site shard : Nat) (f : Session → Session) : (updSess site shard f s).tal = s.tal := by simp [updSess]
@[simp] theorem updSess_pwr (s : State) (site shard : Nat) (f : Session → Session) : (updSess site shard f s).pwr = s.pwr := by simp [updSess]
@[simp] theorem updSess_dbg (s : State) (site shard : Nat) (f : Session → Session) : (updSess site shard f s).dbg = s.dbg := by simp [updSess]
@[simp] theorem updSess_sec (s : State) (site shard : Nat) (f : Session → Session) : (updSess site shard f s).sec = s.sec := by simp [updSess]
@[simp] theorem updSess_fns (s : State) (site shard : Nat) (f : Session → Session) : (updSess site shard f s).fns = s.fns := by simp [updSess]
@[simp] theorem updSess_ports (s : State) (site shard : Nat) (f : Session → Session) : (updSess site shard f s).ports = s.ports := by simp [updSess]
@[simp] theorem updSess_slice (s : State) (site shard : Nat) (f : Session → Session) : (updSess site shard f s).slice = s.slice := by simp [updSess]
@[simp] theorem updSess_job (s : State) (site shard : Nat) (f : Session → Session) : (updSess site shard f s).job = s.job := by simp [updSess]
@[simp] theorem updSess_load (s : State) (site shard : Nat) (f : Session → Session) : (updSess site shard f s).load = s.load := by simp [updSess]
@[simp] theorem updSess_stalls (s : State) (site shard : Nat) (f : Session → Session) : (updSess site shard f s).stalls = s.stalls := by simp [updSess]
@[simp] theorem updSess_mem (s : State) (site shard : Nat) (f : Session → Session) : (updSess site shard f s).mem = s.mem := by simp [updSess]
@[simp] theorem updSess_tens (s : State) (site shard : Nat) (f : Session → Session) : (updSess site shard f s).tens = s.tens := by simp [updSess]
@[simp] theorem updSess_ledger (s : State) (site shard : Nat) (f : Session → Session) : (updSess site shard f s).ledger = s.ledger := by simp [updSess]
@[simp] theorem updSess_house (s : State) (site shard : Nat) (f : Session → Session) : (updSess site shard f s).house = s.house := by simp [updSess]
@[simp] theorem updSess_step (s : State) (site shard : Nat) (f : Session → Session) : (updSess site shard f s).step = s.step := by simp [updSess]
@[simp] theorem updSess_snap (s : State) (site shard : Nat) (f : Session → Session) : (updSess site shard f s).snap = s.snap := by simp [updSess]
@[simp] theorem updSess_out (s : State) (site shard : Nat) (f : Session → Session) : (updSess site shard f s).out = s.out := by simp [updSess]
@[simp] theorem updSess_free (s : State) (site shard : Nat) (f : Session → Session) : (updSess site shard f s).free = s.free := by simp [updSess]

/-! ### putFrame -/

@[simp] theorem putFrame_pending (s : State) (x : Session) (epoch : Nat) (seq : W64) (f : ToSend) : (putFrame x epoch seq f s).pending = s.pending := by simp [putFrame]
@[simp] theorem putFrame_mbx (s : State) (x : Session) (epoch : Nat) (seq : W64) (f : ToSend) : (putFrame x epoch seq f s).mbx = s.mbx := by simp [putFrame]
@[simp] theorem putFrame_bus (s : State) (x : Session) (epoch : Nat) (seq : W64) (f : ToSend) : (putFrame x epoch seq f s).bus = s.bus := by simp [putFrame]
@[simp] theorem putFrame_dev (s : State) (x : Session) (epoch : Nat) (seq : W64) (f : ToSend) : (putFrame x epoch seq f s).dev = s.dev := by simp [putFrame]
@[simp] theorem putFrame_awn (s : State) (x : Session) (epoch : Nat) (seq : W64) (f : ToSend) : (putFrame x epoch seq f s).awn = s.awn := by simp [putFrame]
@[simp] theorem putFrame_saf (s : State) (x : Session) (epoch : Nat) (seq : W64) (f : ToSend) : (putFrame x epoch seq f s).saf = s.saf := by simp [putFrame]
@[simp] theorem putFrame_log (s : State) (x : Session) (epoch : Nat) (seq : W64) (f : ToSend) : (putFrame x epoch seq f s).log = s.log := by simp [putFrame]
@[simp] theorem putFrame_tal (s : State) (x : Session) (epoch : Nat) (seq : W64) (f : ToSend) : (putFrame x epoch seq f s).tal = s.tal := by simp [putFrame]
@[simp] theorem putFrame_pwr (s : State) (x : Session) (epoch : Nat) (seq : W64) (f : ToSend) : (putFrame x epoch seq f s).pwr = s.pwr := by simp [putFrame]
@[simp] theorem putFrame_dbg (s : State) (x : Session) (epoch : Nat) (seq : W64) (f : ToSend) : (putFrame x epoch seq f s).dbg = s.dbg := by simp [putFrame]
@[simp] theorem putFrame_sec (s : State) (x : Session) (epoch : Nat) (seq : W64) (f : ToSend) : (putFrame x epoch seq f s).sec = s.sec := by simp [putFrame]
@[simp] theorem putFrame_fns (s : State) (x : Session) (epoch : Nat) (seq : W64) (f : ToSend) : (putFrame x epoch seq f s).fns = s.fns := by simp [putFrame]
@[simp] theorem putFrame_ports (s : State) (x : Session) (epoch : Nat) (seq : W64) (f : ToSend) : (putFrame x epoch seq f s).ports = s.ports := by simp [putFrame]
@[simp] theorem putFrame_slice (s : State) (x : Session) (epoch : Nat) (seq : W64) (f : ToSend) : (putFrame x epoch seq f s).slice = s.slice := by simp [putFrame]
@[simp] theorem putFrame_job (s : State) (x : Session) (epoch : Nat) (seq : W64) (f : ToSend) : (putFrame x epoch seq f s).job = s.job := by simp [putFrame]
@[simp] theorem putFrame_load (s : State) (x : Session) (epoch : Nat) (seq : W64) (f : ToSend) : (putFrame x epoch seq f s).load = s.load := by simp [putFrame]
@[simp] theorem putFrame_stalls (s : State) (x : Session) (epoch : Nat) (seq : W64) (f : ToSend) : (putFrame x epoch seq f s).stalls = s.stalls := by simp [putFrame]
@[simp] theorem putFrame_mem (s : State) (x : Session) (epoch : Nat) (seq : W64) (f : ToSend) : (putFrame x epoch seq f s).mem = s.mem := by simp [putFrame]
@[simp] theorem putFrame_tens (s : State) (x : Session) (epoch : Nat) (seq : W64) (f : ToSend) : (putFrame x epoch seq f s).tens = s.tens := by simp [putFrame]
@[simp] theorem putFrame_ledger (s : State) (x : Session) (epoch : Nat) (seq : W64) (f : ToSend) : (putFrame x epoch seq f s).ledger = s.ledger := by simp [putFrame]
@[simp] theorem putFrame_house (s : State) (x : Session) (epoch : Nat) (seq : W64) (f : ToSend) : (putFrame x epoch seq f s).house = s.house := by simp [putFrame]
@[simp] theorem putFrame_step (s : State) (x : Session) (epoch : Nat) (seq : W64) (f : ToSend) : (putFrame x epoch seq f s).step = s.step := by simp [putFrame]
@[simp] theorem putFrame_snap (s : State) (x : Session) (epoch : Nat) (seq : W64) (f : ToSend) : (putFrame x epoch seq f s).snap = s.snap := by simp [putFrame]
@[simp] theorem putFrame_free (s : State) (x : Session) (epoch : Nat) (seq : W64) (f : ToSend) : (putFrame x epoch seq f s).free = s.free := by simp [putFrame]

/-! ### sendNow -/

@[simp] theorem sendNow_pending (s : State) (site shard : Nat) (f : ToSend) : (sendNow site shard f s).pending = s.pending := by
  unfold sendNow
  (repeat' (first | split | (dsimp only; split))) <;> simp
@[simp] theorem sendNow_mbx (s : State) (site shard : Nat) (f : ToSend) : (sendNow site shard f s).mbx = s.mbx := by
  unfold sendNow
  (repeat' (first | split | (dsimp only; split))) <;> simp
@[simp] theorem sendNow_bus (s : State) (site shard : Nat) (f : ToSend) : (sendNow site shard f s).bus = s.bus := by
  unfold sendNow
  (repeat' (first | split | (dsimp only; split))) <;> simp
@[simp] theorem sendNow_dev (s : State) (site shard : Nat) (f : ToSend) : (sendNow site shard f s).dev = s.dev := by
  unfold sendNow
  (repeat' (first | split | (dsimp only; split))) <;> simp
@[simp] theorem sendNow_awn (s : State) (site shard : Nat) (f : ToSend) : (sendNow site shard f s).awn = s.awn := by
  unfold sendNow
  (repeat' (first | split | (dsimp only; split))) <;> simp
@[simp] theorem sendNow_saf (s : State) (site shard : Nat) (f : ToSend) : (sendNow site shard f s).saf = s.saf := by
  unfold sendNow
  (repeat' (first | split | (dsimp only; split))) <;> simp
@[simp] theorem sendNow_log (s : State) (site shard : Nat) (f : ToSend) : (sendNow site shard f s).log = s.log := by
  unfold sendNow
  (repeat' (first | split | (dsimp only; split))) <;> simp
@[simp] theorem sendNow_tal (s : State) (site shard : Nat) (f : ToSend) : (sendNow site shard f s).tal = s.tal := by
  unfold sendNow
  (repeat' (first | split | (dsimp only; split))) <;> simp
@[simp] theorem sendNow_pwr (s : State) (site shard : Nat) (f : ToSend) : (sendNow site shard f s).pwr = s.pwr := by
  unfold sendNow
  (repeat' (first | split | (dsimp only; split))) <;> simp
@[simp] theorem sendNow_dbg (s : State) (site shard : Nat) (f : ToSend) : (sendNow site shard f s).dbg = s.dbg := by
  unfold sendNow
  (repeat' (first | split | (dsimp only; split))) <;> simp
@[simp] theorem sendNow_sec (s : State) (site shard : Nat) (f : ToSend) : (sendNow site shard f s).sec = s.sec := by
  unfold sendNow
  (repeat' (first | split | (dsimp only; split))) <;> simp
@[simp] theorem sendNow_fns (s : State) (site shard : Nat) (f : ToSend) : (sendNow site shard f s).fns = s.fns := by
  unfold sendNow
  (repeat' (first | split | (dsimp only; split))) <;> simp
@[simp] theorem sendNow_ports (s : State) (site shard : Nat) (f : ToSend) : (sendNow site shard f s).ports = s.ports := by
  unfold sendNow
  (repeat' (first | split | (dsimp only; split))) <;> simp
@[simp] theorem sendNow_slice (s : State) (site shard : Nat) (f : ToSend) : (sendNow site shard f s).slice = s.slice := by
  unfold sendNow
  (repeat' (first | split | (dsimp only; split))) <;> simp
@[simp] theorem sendNow_job (s : State) (site shard : Nat) (f : ToSend) : (sendNow site shard f s).job = s.job := by
  unfold sendNow
  (repeat' (first | split | (dsimp only; split))) <;> simp
@[simp] theorem sendNow_load (s : State) (site shard : Nat) (f : ToSend) : (sendNow site shard f s).load = s.load := by
  unfold sendNow
  (repeat' (first | split | (dsimp only; split))) <;> simp
@[simp] theorem sendNow_stalls (s : State) (site shard : Nat) (f : ToSend) : (sendNow site shard f s).stalls = s.stalls := by
  unfold sendNow
  (repeat' (first | split | (dsimp only; split))) <;> simp
@[simp] theorem sendNow_mem (s : State) (site shard : Nat) (f : ToSend) : (sendNow site shard f s).mem = s.mem := by
  unfold sendNow
  (repeat' (first | split | (dsimp only; split))) <;> simp
@[simp] theorem sendNow_tens (s : State) (site shard : Nat) (f : ToSend) : (sendNow site shard f s).tens = s.tens := by
  unfold sendNow
  (repeat' (first | split | (dsimp only; split))) <;> simp
@[simp] theorem sendNow_ledger (s : State) (site shard : Nat) (f : ToSend) : (sendNow site shard f s).ledger = s.ledger := by
  unfold sendNow
  (repeat' (first | split | (dsimp only; split))) <;> simp
@[simp] theorem sendNow_house (s : State) (site shard : Nat) (f : ToSend) : (sendNow site shard f s).house = s.house := by
  unfold sendNow
  (repeat' (first | split | (dsimp only; split))) <;> simp
@[simp] theorem sendNow_step (s : State) (site shard : Nat) (f : ToSend) : (sendNow site shard f s).step = s.step := by
  unfold sendNow
  (repeat' (first | split | (dsimp only; split))) <;> simp
@[simp] theorem sendNow_snap (s : State) (site shard : Nat) (f : ToSend) : (sendNow site shard f s).snap = s.snap := by
  unfold sendNow
  (repeat' (first | split | (dsimp only; split))) <;> simp
@[simp] theorem sendNow_free (s : State) (site shard : Nat) (f : ToSend) : (sendNow site shard f s).free = s.free := by
  unfold sendNow
  (repeat' (first | split | (dsimp only; split))) <;> simp

/-! ### sendFrame -/

@[simp] theorem sendFrame_pending (s : State) (site shard : Nat) (f : ToSend) : (sendFrame site shard f s).pending = s.pending := by
  unfold sendFrame
  (repeat' (first | split | (dsimp only; split))) <;> simp
@[simp] theorem sendFrame_mbx (s : State) (site shard : Nat) (f : ToSend) : (sendFrame site shard f s).mbx = s.mbx := by
  unfold sendFrame
  (repeat' (first | split | (dsimp only; split))) <;> simp
@[simp] theorem sendFrame_bus (s : State) (site shard : Nat) (f : ToSend) : (sendFrame site shard f s).bus = s.bus := by
  unfold sendFrame
  (repeat' (first | split | (dsimp only; split))) <;> simp
@[simp] theorem sendFrame_dev (s : State) (site shard : Nat) (f : ToSend) : (sendFrame site shard f s).dev = s.dev := by
  unfold sendFrame
  (repeat' (first | split | (dsimp only; split))) <;> simp
@[simp] theorem sendFrame_awn (s : State) (site shard : Nat) (f : ToSend) : (sendFrame site shard f s).awn = s.awn := by
  unfold sendFrame
  (repeat' (first | split | (dsimp only; split))) <;> simp
@[simp] theorem sendFrame_saf (s : State) (site shard : Nat) (f : ToSend) : (sendFrame site shard f s).saf = s.saf := by
  unfold sendFrame
  (repeat' (first | split | (dsimp only; split))) <;> simp
@[simp] theorem sendFrame_log (s : State) (site shard : Nat) (f : ToSend) : (sendFrame site shard f s).log = s.log := by
  unfold sendFrame
  (repeat' (first | split | (dsimp only; split))) <;> simp
@[simp] theorem sendFrame_tal (s : State) (site shard : Nat) (f : ToSend) : (sendFrame site shard f s).tal = s.tal := by
  unfold sendFrame
  (repeat' (first | split | (dsimp only; split))) <;> simp
@[simp] theorem sendFrame_pwr (s : State) (site shard : Nat) (f : ToSend) : (sendFrame site shard f s).pwr = s.pwr := by
  unfold sendFrame
  (repeat' (first | split | (dsimp only; split))) <;> simp
@[simp] theorem sendFrame_dbg (s : State) (site shard : Nat) (f : ToSend) : (sendFrame site shard f s).dbg = s.dbg := by
  unfold sendFrame
  (repeat' (first | split | (dsimp only; split))) <;> simp
@[simp] theorem sendFrame_sec (s : State) (site shard : Nat) (f : ToSend) : (sendFrame site shard f s).sec = s.sec := by
  unfold sendFrame
  (repeat' (first | split | (dsimp only; split))) <;> simp
@[simp] theorem sendFrame_fns (s : State) (site shard : Nat) (f : ToSend) : (sendFrame site shard f s).fns = s.fns := by
  unfold sendFrame
  (repeat' (first | split | (dsimp only; split))) <;> simp
@[simp] theorem sendFrame_ports (s : State) (site shard : Nat) (f : ToSend) : (sendFrame site shard f s).ports = s.ports := by
  unfold sendFrame
  (repeat' (first | split | (dsimp only; split))) <;> simp
@[simp] theorem sendFrame_slice (s : State) (site shard : Nat) (f : ToSend) : (sendFrame site shard f s).slice = s.slice := by
  unfold sendFrame
  (repeat' (first | split | (dsimp only; split))) <;> simp
@[simp] theorem sendFrame_job (s : State) (site shard : Nat) (f : ToSend) : (sendFrame site shard f s).job = s.job := by
  unfold sendFrame
  (repeat' (first | split | (dsimp only; split))) <;> simp
@[simp] theorem sendFrame_load (s : State) (site shard : Nat) (f : ToSend) : (sendFrame site shard f s).load = s.load := by
  unfold sendFrame
  (repeat' (first | split | (dsimp only; split))) <;> simp
@[simp] theorem sendFrame_stalls (s : State) (site shard : Nat) (f : ToSend) : (sendFrame site shard f s).stalls = s.stalls := by
  unfold sendFrame
  (repeat' (first | split | (dsimp only; split))) <;> simp
@[simp] theorem sendFrame_mem (s : State) (site shard : Nat) (f : ToSend) : (sendFrame site shard f s).mem = s.mem := by
  unfold sendFrame
  (repeat' (first | split | (dsimp only; split))) <;> simp
@[simp] theorem sendFrame_tens (s : State) (site shard : Nat) (f : ToSend) : (sendFrame site shard f s).tens = s.tens := by
  unfold sendFrame
  (repeat' (first | split | (dsimp only; split))) <;> simp
@[simp] theorem sendFrame_ledger (s : State) (site shard : Nat) (f : ToSend) : (sendFrame site shard f s).ledger = s.ledger := by
  unfold sendFrame
  (repeat' (first | split | (dsimp only; split))) <;> simp
@[simp] theorem sendFrame_house (s : State) (site shard : Nat) (f : ToSend) : (sendFrame site shard f s).house = s.house := by
  unfold sendFrame
  (repeat' (first | split | (dsimp only; split))) <;> simp
@[simp] theorem sendFrame_step (s : State) (site shard : Nat) (f : ToSend) : (sendFrame site shard f s).step = s.step := by
  unfold sendFrame
  (repeat' (first | split | (dsimp only; split))) <;> simp
@[simp] theorem sendFrame_snap (s : State) (site shard : Nat) (f : ToSend) : (sendFrame site shard f s).snap = s.snap := by
  unfold sendFrame
  (repeat' (first | split | (dsimp only; split))) <;> simp
@[simp] theorem sendFrame_free (s : State) (site shard : Nat) (f : ToSend) : (sendFrame site shard f s).free = s.free := by
  unfold sendFrame
  (repeat' (first | split | (dsimp only; split))) <;> simp

/-! ### The parts of the mailbox that status words, records and the end of a command leave alone -/

@[simp] theorem writeStatus_mbx_job (s : State) (k : CmdRef) (w : W64) : (writeStatus k w s).mbx.job = s.mbx.job := by simp [writeStatus]
@[simp] theorem writeStatus_mbx_ready (s : State) (k : CmdRef) (w : W64) : (writeStatus k w s).mbx.ready = s.mbx.ready := by simp [writeStatus]
@[simp] theorem writeStatus_mbx_rings (s : State) (k : CmdRef) (w : W64) : (writeStatus k w s).mbx.rings = s.mbx.rings := by simp [writeStatus]
@[simp] theorem writeStatus_mbx_posted (s : State) (k : CmdRef) (w : W64) : (writeStatus k w s).mbx.posted = s.mbx.posted := by simp [writeStatus]
@[simp] theorem writeStatus_mbx_takes (s : State) (k : CmdRef) (w : W64) : (writeStatus k w s).mbx.takes = s.mbx.takes := by simp [writeStatus]
@[simp] theorem writeStatus_mbx_overrun (s : State) (k : CmdRef) (w : W64) : (writeStatus k w s).mbx.overrun = s.mbx.overrun := by simp [writeStatus]

@[simp] theorem updCmd_mbx_job (s : State) (k : CmdRef) (f : Cmd → Cmd) : (updCmd k f s).mbx.job = s.mbx.job := by simp [updCmd]
@[simp] theorem updCmd_mbx_ready (s : State) (k : CmdRef) (f : Cmd → Cmd) : (updCmd k f s).mbx.ready = s.mbx.ready := by simp [updCmd]
@[simp] theorem updCmd_mbx_rings (s : State) (k : CmdRef) (f : Cmd → Cmd) : (updCmd k f s).mbx.rings = s.mbx.rings := by simp [updCmd]
@[simp] theorem updCmd_mbx_posted (s : State) (k : CmdRef) (f : Cmd → Cmd) : (updCmd k f s).mbx.posted = s.mbx.posted := by simp [updCmd]
@[simp] theorem updCmd_mbx_takes (s : State) (k : CmdRef) (f : Cmd → Cmd) : (updCmd k f s).mbx.takes = s.mbx.takes := by simp [updCmd]
@[simp] theorem updCmd_mbx_overrun (s : State) (k : CmdRef) (f : Cmd → Cmd) : (updCmd k f s).mbx.overrun = s.mbx.overrun := by simp [updCmd]

@[simp] theorem refreshStatus_mbx_job (s : State) (k : CmdRef) : (refreshStatus k s).mbx.job = s.mbx.job := by
  unfold refreshStatus
  (repeat' (first | split | (dsimp only; split))) <;> simp
@[simp] theorem refreshStatus_mbx_ready (s : State) (k : CmdRef) : (refreshStatus k s).mbx.ready = s.mbx.ready := by
  unfold refreshStatus
  (repeat' (first | split | (dsimp only; split))) <;> simp
@[simp] theorem refreshStatus_mbx_rings (s : State) (k : CmdRef) : (refreshStatus k s).mbx.rings = s.mbx.rings := by
  unfold refreshStatus
  (repeat' (first | split | (dsimp only; split))) <;> simp
@[simp] theorem refreshStatus_mbx_posted (s : State) (k : CmdRef) : (refreshStatus k s).mbx.posted = s.mbx.posted := by
  unfold refreshStatus
  (repeat' (first | split | (dsimp only; split))) <;> simp
@[simp] theorem refreshStatus_mbx_takes (s : State) (k : CmdRef) : (refreshStatus k s).mbx.takes = s.mbx.takes := by
  unfold refreshStatus
  (repeat' (first | split | (dsimp only; split))) <;> simp
@[simp] theorem refreshStatus_mbx_overrun (s : State) (k : CmdRef) : (refreshStatus k s).mbx.overrun = s.mbx.overrun := by
  unfold refreshStatus
  (repeat' (first | split | (dsimp only; split))) <;> simp

@[simp] theorem setRunning_mbx_job (s : State) (k : CmdRef) : (setRunning k s).mbx.job = s.mbx.job := by simp [setRunning]
@[simp] theorem setRunning_mbx_ready (s : State) (k : CmdRef) : (setRunning k s).mbx.ready = s.mbx.ready := by simp [setRunning]
@[simp] theorem setRunning_mbx_rings (s : State) (k : CmdRef) : (setRunning k s).mbx.rings = s.mbx.rings := by simp [setRunning]
@[simp] theorem setRunning_mbx_posted (s : State) (k : CmdRef) : (setRunning k s).mbx.posted = s.mbx.posted := by simp [setRunning]
@[simp] theorem setRunning_mbx_takes (s : State) (k : CmdRef) : (setRunning k s).mbx.takes = s.mbx.takes := by simp [setRunning]
@[simp] theorem setRunning_mbx_overrun (s : State) (k : CmdRef) : (setRunning k s).mbx.overrun = s.mbx.overrun := by simp [setRunning]

@[simp] theorem setProgress_mbx_job (s : State) (k : CmdRef) (n : Nat) : (setProgress k n s).mbx.job = s.mbx.job := by simp [setProgress]
@[simp] theorem setProgress_mbx_ready (s : State) (k : CmdRef) (n : Nat) : (setProgress k n s).mbx.ready = s.mbx.ready := by simp [setProgress]
@[simp] theorem setProgress_mbx_rings (s : State) (k : CmdRef) (n : Nat) : (setProgress k n s).mbx.rings = s.mbx.rings := by simp [setProgress]
@[simp] theorem setProgress_mbx_posted (s : State) (k : CmdRef) (n : Nat) : (setProgress k n s).mbx.posted = s.mbx.posted := by simp [setProgress]
@[simp] theorem setProgress_mbx_takes (s : State) (k : CmdRef) (n : Nat) : (setProgress k n s).mbx.takes = s.mbx.takes := by simp [setProgress]
@[simp] theorem setProgress_mbx_overrun (s : State) (k : CmdRef) (n : Nat) : (setProgress k n s).mbx.overrun = s.mbx.overrun := by simp [setProgress]

@[simp] theorem addRecord_mbx_job (s : State) (k : CmdRef) (b : Bytes) : (addRecord k b s).mbx.job = s.mbx.job := by
  unfold addRecord
  (repeat' (first | split | (dsimp only; split))) <;> simp
@[simp] theorem addRecord_mbx_ready (s : State) (k : CmdRef) (b : Bytes) : (addRecord k b s).mbx.ready = s.mbx.ready := by
  unfold addRecord
  (repeat' (first | split | (dsimp only; split))) <;> simp
@[simp] theorem addRecord_mbx_rings (s : State) (k : CmdRef) (b : Bytes) : (addRecord k b s).mbx.rings = s.mbx.rings := by
  unfold addRecord
  (repeat' (first | split | (dsimp only; split))) <;> simp
@[simp] theorem addRecord_mbx_posted (s : State) (k : CmdRef) (b : Bytes) : (addRecord k b s).mbx.posted = s.mbx.posted := by
  unfold addRecord
  (repeat' (first | split | (dsimp only; split))) <;> simp
@[simp] theorem addRecord_mbx_takes (s : State) (k : CmdRef) (b : Bytes) : (addRecord k b s).mbx.takes = s.mbx.takes := by
  unfold addRecord
  (repeat' (first | split | (dsimp only; split))) <;> simp
@[simp] theorem addRecord_mbx_overrun (s : State) (k : CmdRef) (b : Bytes) : (addRecord k b s).mbx.overrun = s.mbx.overrun := by
  unfold addRecord
  (repeat' (first | split | (dsimp only; split))) <;> simp

@[simp] theorem flushRecords_mbx_job (s : State) (k : CmdRef) : (flushRecords k s).mbx.job = s.mbx.job := by
  unfold flushRecords
  (repeat' (first | split | (dsimp only; split))) <;> simp
@[simp] theorem flushRecords_mbx_ready (s : State) (k : CmdRef) : (flushRecords k s).mbx.ready = s.mbx.ready := by
  unfold flushRecords
  (repeat' (first | split | (dsimp only; split))) <;> simp
@[simp] theorem flushRecords_mbx_rings (s : State) (k : CmdRef) : (flushRecords k s).mbx.rings = s.mbx.rings := by
  unfold flushRecords
  (repeat' (first | split | (dsimp only; split))) <;> simp
@[simp] theorem flushRecords_mbx_posted (s : State) (k : CmdRef) : (flushRecords k s).mbx.posted = s.mbx.posted := by
  unfold flushRecords
  (repeat' (first | split | (dsimp only; split))) <;> simp
@[simp] theorem flushRecords_mbx_takes (s : State) (k : CmdRef) : (flushRecords k s).mbx.takes = s.mbx.takes := by
  unfold flushRecords
  (repeat' (first | split | (dsimp only; split))) <;> simp
@[simp] theorem flushRecords_mbx_overrun (s : State) (k : CmdRef) : (flushRecords k s).mbx.overrun = s.mbx.overrun := by
  unfold flushRecords
  (repeat' (first | split | (dsimp only; split))) <;> simp

@[simp] theorem endRepeats_mbx_job (s : State) (ch : Fin 16) (token w : W64) : (endRepeats ch token w s).mbx.job = s.mbx.job := by
  unfold endRepeats
  simp only []
  rw [foldl_keeps (fun (t : State) => t.mbx.job) _ (by intro s c; simp)]
  simp
@[simp] theorem endRepeats_mbx_ready (s : State) (ch : Fin 16) (token w : W64) : (endRepeats ch token w s).mbx.ready = s.mbx.ready := by
  unfold endRepeats
  simp only []
  rw [foldl_keeps (fun (t : State) => t.mbx.ready) _ (by intro s c; simp)]
  simp
@[simp] theorem endRepeats_mbx_rings (s : State) (ch : Fin 16) (token w : W64) : (endRepeats ch token w s).mbx.rings = s.mbx.rings := by
  unfold endRepeats
  simp only []
  rw [foldl_keeps (fun (t : State) => t.mbx.rings) _ (by intro s c; simp)]
  simp
@[simp] theorem endRepeats_mbx_posted (s : State) (ch : Fin 16) (token w : W64) : (endRepeats ch token w s).mbx.posted = s.mbx.posted := by
  unfold endRepeats
  simp only []
  rw [foldl_keeps (fun (t : State) => t.mbx.posted) _ (by intro s c; simp)]
  simp
@[simp] theorem endRepeats_mbx_takes (s : State) (ch : Fin 16) (token w : W64) : (endRepeats ch token w s).mbx.takes = s.mbx.takes := by
  unfold endRepeats
  simp only []
  rw [foldl_keeps (fun (t : State) => t.mbx.takes) _ (by intro s c; simp)]
  simp
@[simp] theorem endRepeats_mbx_overrun (s : State) (ch : Fin 16) (token w : W64) : (endRepeats ch token w s).mbx.overrun = s.mbx.overrun := by
  unfold endRepeats
  simp only []
  rw [foldl_keeps (fun (t : State) => t.mbx.overrun) _ (by intro s c; simp)]
  simp

@[simp] theorem finishWith_mbx_job (s : State) (k : CmdRef) (result : Nat) (x : Cause) : (finishWith k result x s).mbx.job = s.mbx.job := by
  unfold finishWith
  (repeat' (first | split | (dsimp only; split))) <;> simp
@[simp] theorem finishWith_mbx_ready (s : State) (k : CmdRef) (result : Nat) (x : Cause) : (finishWith k result x s).mbx.ready = s.mbx.ready := by
  unfold finishWith
  (repeat' (first | split | (dsimp only; split))) <;> simp
@[simp] theorem finishWith_mbx_rings (s : State) (k : CmdRef) (result : Nat) (x : Cause) : (finishWith k result x s).mbx.rings = s.mbx.rings := by
  unfold finishWith
  (repeat' (first | split | (dsimp only; split))) <;> simp
@[simp] theorem finishWith_mbx_posted (s : State) (k : CmdRef) (result : Nat) (x : Cause) : (finishWith k result x s).mbx.posted = s.mbx.posted := by
  unfold finishWith
  (repeat' (first | split | (dsimp only; split))) <;> simp
@[simp] theorem finishWith_mbx_takes (s : State) (k : CmdRef) (result : Nat) (x : Cause) : (finishWith k result x s).mbx.takes = s.mbx.takes := by
  unfold finishWith
  (repeat' (first | split | (dsimp only; split))) <;> simp
@[simp] theorem finishWith_mbx_overrun (s : State) (k : CmdRef) (result : Nat) (x : Cause) : (finishWith k result x s).mbx.overrun = s.mbx.overrun := by
  unfold finishWith
  (repeat' (first | split | (dsimp only; split))) <;> simp

@[simp] theorem finish_mbx_job (s : State) (k : CmdRef) (result : Nat) : (finish k result s).mbx.job = s.mbx.job := by simp [finish]
@[simp] theorem finish_mbx_ready (s : State) (k : CmdRef) (result : Nat) : (finish k result s).mbx.ready = s.mbx.ready := by simp [finish]
@[simp] theorem finish_mbx_rings (s : State) (k : CmdRef) (result : Nat) : (finish k result s).mbx.rings = s.mbx.rings := by simp [finish]
@[simp] theorem finish_mbx_posted (s : State) (k : CmdRef) (result : Nat) : (finish k result s).mbx.posted = s.mbx.posted := by simp [finish]
@[simp] theorem finish_mbx_takes (s : State) (k : CmdRef) (result : Nat) : (finish k result s).mbx.takes = s.mbx.takes := by simp [finish]
@[simp] theorem finish_mbx_overrun (s : State) (k : CmdRef) (result : Nat) : (finish k result s).mbx.overrun = s.mbx.overrun := by simp [finish]

end Sys2Proof.Machine
end

