-- ==== Sys2Proof/Laws/Keeps.lean ====
section
/-! SUPPORT. What the commands keep: the memories, the states of the partner slots and the queue. Every operation that is not
named among the writers leaves them as they are. -/

namespace Sys2Proof.Machine

/-- The parts of State that the invariants of a step speak of. -/
structure Kept where
  near : List Host.Cell
  far : List Host.Cell
  host : List Host.Cell
  ringMem : List Host.Cell
  nor : List Host.Cell
  slotA : SlotState
  slotB : SlotState
  pending : List Instr

/-- Those parts of a state. -/
def State.kept (s : State) : Kept :=
  { near := s.mem.near, far := s.mem.far, host := s.mem.host, ringMem := s.mbx.ringMem, nor := s.sec.nor,
    slotA := s.snap.slotA.state, slotB := s.snap.slotB.state, pending := s.pending }

/-- An outcome that keeps them, if it is a next state. -/
def KeepsKept (r : Result) (s : State) : Prop := ∀ t, r = .next t → t.kept = s.kept

@[simp] theorem keepsKept_next (t s : State) : KeepsKept (.next t) s ↔ t.kept = s.kept := by
  constructor
  · intro h; exact h t rfl
  · intro h u e; cases e; exact h
@[simp] theorem keepsKept_fault (f : Fault) (s : State) : KeepsKept (.fault f) s := by intro t e; cases e
@[simp] theorem keepsKept_refused (f : Refusal) (s : State) : KeepsKept (.refused f) s := by intro t e; cases e

/-- The invariant of a step over those parts: the memories are canonical, the partner slots differ in state, and the
queue is p. -/
def Ok (p : List Instr) (k : Kept) : Prop :=
  Memory.wf k.near = true ∧ Memory.wf k.far = true ∧ Memory.wf k.host = true ∧ Memory.wf k.ringMem = true ∧
  Memory.wf k.nor = true ∧ k.slotA ≠ k.slotB ∧ k.pending = p

/-- An outcome that satisfies it, if it is a next state. -/
def OkNext (p : List Instr) (r : Result) : Prop := ∀ t, r = .next t → Ok p t.kept

@[simp] theorem okNext_next (p : List Instr) (t : State) : OkNext p (.next t) ↔ Ok p t.kept := by
  constructor
  · intro h; exact h t rfl
  · intro h u e; cases e; exact h
@[simp] theorem okNext_fault (p : List Instr) (f : Fault) : OkNext p (.fault f) := by intro t e; cases e
@[simp] theorem okNext_refused (p : List Instr) (f : Refusal) : OkNext p (.refused f) := by intro t e; cases e
theorem keepsKept_ok (p : List Instr) (r : Result) (s : State) (h : KeepsKept r s) (hs : Ok p s.kept) : OkNext p r := by
  intro t e; rw [h t e]; exact hs
@[simp] theorem ok_foldl {α : Type} (p : List Instr) (f : State → α → State) (h : ∀ s a, Ok p s.kept → Ok p (f s a).kept) :
    ∀ (l : List α) (s : State), Ok p s.kept → Ok p (l.foldl f s).kept
  | [], _, hs => hs
  | a :: t, s, hs => by rw [List.foldl_cons]; exact ok_foldl p f h t _ (h s a hs)
@[simp] theorem ok_ite (p : List Instr) (c : Prop) [Decidable c] (a b : Kept) (ha : Ok p a) (hb : Ok p b) : Ok p (if c then a else b) := by
  split <;> assumption
@[simp] theorem ok_near (p : List Instr) (k : Kept) (m : List Host.Cell) (h : Ok p k) (hm : Memory.wf m = true) : Ok p { k with near := m } :=
  ⟨hm, h.2⟩
@[simp] theorem ok_far (p : List Instr) (k : Kept) (m : List Host.Cell) (h : Ok p k) (hm : Memory.wf m = true) : Ok p { k with far := m } :=
  ⟨h.1, hm, h.2.2⟩
@[simp] theorem ok_host (p : List Instr) (k : Kept) (m : List Host.Cell) (h : Ok p k) (hm : Memory.wf m = true) : Ok p { k with host := m } :=
  ⟨h.1, h.2.1, hm, h.2.2.2⟩
@[simp] theorem ok_ringMem (p : List Instr) (k : Kept) (m : List Host.Cell) (h : Ok p k) (hm : Memory.wf m = true) : Ok p { k with ringMem := m } :=
  ⟨h.1, h.2.1, h.2.2.1, hm, h.2.2.2.2⟩
@[simp] theorem ok_nor (p : List Instr) (k : Kept) (m : List Host.Cell) (h : Ok p k) (hm : Memory.wf m = true) : Ok p { k with nor := m } :=
  ⟨h.1, h.2.1, h.2.2.1, h.2.2.2.1, hm, h.2.2.2.2.2⟩
@[simp] theorem kept_eta (k : Kept) : Kept.mk k.near k.far k.host k.ringMem k.nor k.slotA k.slotB k.pending = k := (rfl)
theorem ok_slots (p : List Instr) (k : Kept) (a b : SlotState) (h : Ok p k) (hab : a ≠ b) : Ok p { k with slotA := a, slotB := b } :=
  ⟨h.1, h.2.1, h.2.2.1, h.2.2.2.1, h.2.2.2.2.1, hab, h.2.2.2.2.2.2⟩
theorem slots_of (a b : SlotState) (h : a ≠ b) (ha : a ≠ .complete) : a = .filling ∧ b = .complete := by
  cases a <;> cases b <;> simp_all

@[simp] theorem kept_foldl {α : Type} (f : State → α → State) (h : ∀ s a, (f s a).kept = s.kept) :
    ∀ (l : List α) (s : State), (l.foldl f s).kept = s.kept
  | [], _ => rfl
  | a :: t, s => by rw [List.foldl_cons, kept_foldl f h t, h]
@[simp] theorem kept_foldl_snd {α β : Type} (f : β × State → α → β × State) (h : ∀ x a, (f x a).2.kept = x.2.kept) :
    ∀ (l : List α) (x : β × State), (l.foldl f x).2.kept = x.2.kept
  | [], _ => rfl
  | a :: t, x => by rw [List.foldl_cons, kept_foldl_snd f h t, h]
theorem kept_foldl_fst {α β : Type} (f : State × β → α → State × β) (h : ∀ x a, (f x a).1.kept = x.1.kept) :
    ∀ (l : List α) (x : State × β), (l.foldl f x).1.kept = x.1.kept
  | [], _ => rfl
  | a :: t, x => by rw [List.foldl_cons, kept_foldl_fst f h t, h]
theorem ok_foldl_fst {α β : Type} (p : List Instr) (f : State × β → α → State × β)
    (h : ∀ x a, Ok p x.1.kept → Ok p (f x a).1.kept) : ∀ (l : List α) (x : State × β), Ok p x.1.kept → Ok p (l.foldl f x).1.kept
  | [], _, hs => hs
  | a :: t, x, hs => by rw [List.foldl_cons]; exact ok_foldl_fst p f h t _ (h x a hs)
theorem wf_nil : Memory.wf [] = true := (rfl)
theorem wf_filter (f : Host.Cell → Bool) (m : List Host.Cell) (h : Memory.wf m = true) : Memory.wf (m.filter f) = true := by
  unfold Memory.wf at *; exact swfFrom_filter _ f m 0 h
@[simp] theorem kept_ite (c : Prop) [Decidable c] (a b : State) : (if c then a else b).kept = if c then a.kept else b.kept := by
  split <;> rfl
@[simp] theorem kept_near (s : State) : s.mem.near = s.kept.near := (rfl)
@[simp] theorem kept_far (s : State) : s.mem.far = s.kept.far := (rfl)
@[simp] theorem kept_host (s : State) : s.mem.host = s.kept.host := (rfl)
@[simp] theorem kept_ringMem (s : State) : s.mbx.ringMem = s.kept.ringMem := (rfl)
@[simp] theorem kept_nor (s : State) : s.sec.nor = s.kept.nor := (rfl)
@[simp] theorem kept_slotA (s : State) : s.snap.slotA.state = s.kept.slotA := (rfl)
@[simp] theorem kept_slotB (s : State) : s.snap.slotB.state = s.kept.slotB := (rfl)

@[simp] theorem withPending_kept (s : State) (x : List Instr) : (s.withPending x).kept = { s.kept with pending := x } := (rfl)
@[simp] theorem withMbx_kept (s : State) (x : Mbx) : (s.withMbx x).kept = { s.kept with ringMem := x.ringMem } := (rfl)
@[simp] theorem withBus_kept (s : State) (x : Bus) : (s.withBus x).kept = s.kept := (rfl)
@[simp] theorem withDev_kept (s : State) (x : Dev) : (s.withDev x).kept = s.kept := (rfl)
@[simp] theorem withAwn_kept (s : State) (x : Awn) : (s.withAwn x).kept = s.kept := (rfl)
@[simp] theorem withSaf_kept (s : State) (x : Saf) : (s.withSaf x).kept = s.kept := (rfl)
@[simp] theorem withLog_kept (s : State) (x : Log) : (s.withLog x).kept = s.kept := (rfl)
@[simp] theorem withTal_kept (s : State) (x : Tal) : (s.withTal x).kept = s.kept := (rfl)
@[simp] theorem withPwr_kept (s : State) (x : Pwr) : (s.withPwr x).kept = s.kept := (rfl)
@[simp] theorem withDbg_kept (s : State) (x : Dbg) : (s.withDbg x).kept = s.kept := (rfl)
@[simp] theorem withSec_kept (s : State) (x : Sec) : (s.withSec x).kept = { s.kept with nor := x.nor } := (rfl)
@[simp] theorem withFns_kept (s : State) (x : Vector Fn 14) : (s.withFns x).kept = s.kept := (rfl)
@[simp] theorem withPorts_kept (s : State) (x : Vector TPort 6) : (s.withPorts x).kept = s.kept := (rfl)
@[simp] theorem withSlice_kept (s : State) (x : Slice) : (s.withSlice x).kept = s.kept := (rfl)
@[simp] theorem withJob_kept (s : State) (x : Job) : (s.withJob x).kept = s.kept := (rfl)
@[simp] theorem withLoad_kept (s : State) (x : Load) : (s.withLoad x).kept = s.kept := (rfl)
@[simp] theorem withStalls_kept (s : State) (x : Sparse Stall) : (s.withStalls x).kept = s.kept := (rfl)
@[simp] theorem withMem_kept (s : State) (x : Mem) : (s.withMem x).kept = { s.kept with near := x.near, far := x.far, host := x.host } := (rfl)
@[simp] theorem withTens_kept (s : State) (x : Tensors) : (s.withTens x).kept = s.kept := (rfl)
@[simp] theorem withLedger_kept (s : State) (x : Ledger) : (s.withLedger x).kept = s.kept := (rfl)
@[simp] theorem withHouse_kept (s : State) (x : House) : (s.withHouse x).kept = s.kept := (rfl)
@[simp] theorem withStep_kept (s : State) (x : Step) : (s.withStep x).kept = s.kept := (rfl)
@[simp] theorem withSnap_kept (s : State) (x : Snap) : (s.withSnap x).kept = { s.kept with slotA := x.slotA.state, slotB := x.slotB.state } := (rfl)
@[simp] theorem withSite_kept (s : State) (x : Site) : (s.withSite x).kept = s.kept := (rfl)
@[simp] theorem withOut_kept (s : State) (x : List Out) : (s.withOut x).kept = s.kept := (rfl)
@[simp] theorem withFree_kept (s : State) (x : Nat) : (s.withFree x).kept = s.kept := (rfl)

/-! ### Ops -/

@[simp] theorem emit_kept (o : Out) (s : State) : (emit o s).kept = s.kept := by
  unfold emit; simp
@[simp] theorem emits_kept (os : List Out) (s : State) : (emits os s).kept = s.kept := by
  unfold emits; simp
@[simp] theorem takeFree_ok (pq : List Instr) (w : Nat) (s : State) (hOk : Ok pq s.kept) : Ok pq (takeFree w s).2.kept := by
  unfold takeFree; simp (maxDischargeDepth := 30) [*]
@[simp] theorem setStall_kept (s : State) (i : Fin 1024) (x : Stall) : (setStall s i x).kept = s.kept := by
  unfold setStall; simp
@[simp] theorem setFn_kept (s : State) (f : Func) (x : Fn) : (setFn s f x).kept = s.kept := by
  unfold setFn; simp
@[simp] theorem setPort_kept (s : State) (p : Port) (x : TPort) : (setPort s p x).kept = s.kept := by
  unfold setPort; simp
@[simp] theorem settleAlert_kept (s : State) : (settleAlert s).kept = s.kept := by
  unfold settleAlert; simp
@[simp] theorem setCommitted_kept (s : State) (l : List Section) : (setCommitted s l).kept = s.kept := by
  unfold setCommitted; simp
@[simp] theorem setShadow_kept (s : State) (l : List Section) : (setShadow s l).kept = s.kept := by
  unfold setShadow; simp

/-! ### Aisle -/

@[simp] theorem routeFlit_kept (cur : Fin 1024) (f : AisleFlit) (s : State) : (routeFlit cur f s).kept = s.kept := by
  unfold routeFlit; simp
@[simp] theorem crossLink_kept (cur : Fin 1024) (d : AisleDir) (f : AisleFlit) (s : State) : (crossLink cur d f s).kept = s.kept := by
  unfold crossLink; simp
@[simp] theorem aisleRound_kept (s : State) : (aisleRound s).kept = s.kept := by
  unfold aisleRound; simp
@[simp] theorem aisleSend_kept (src : Fin 1024) (vc : AisleVC) (load : AisleLoad) (dsts : List Nat) (s : State) :
    (aisleSend src vc load dsts s).kept = s.kept := by
  unfold aisleSend; exact kept_foldl _ (fun s a => by split <;> simp) _ _

/-! ### Logbook -/

@[simp] theorem enterGroup_kept (rs : List LogRec) (s : State) : (enterGroup rs s).kept = s.kept := by
  unfold enterGroup; simp
@[simp] theorem offerGroup_kept (rs : List LogRec) (s : State) : (offerGroup rs s).kept = s.kept := by
  unfold offerGroup; (repeat' (first | split | (dsimp only; split))) <;> simp
@[simp] theorem logEvent_kept (code : W16) (sev : BitVec 3) (unit : UnitId) (detail : Bytes) (s : State) : (logEvent code sev unit detail s).kept = s.kept := by
  unfold logEvent; simp
@[simp] theorem freezeSegment_kept (q : Nat) (s : State) : (freezeSegment q s).kept = s.kept := by
  unfold freezeSegment; simp
@[simp] theorem fatalWritten_kept (i : Nat) (s : State) : (fatalWritten i s).kept = s.kept := by
  unfold fatalWritten; (repeat' (first | split | (dsimp only; split))) <;> simp
@[simp] theorem endSegment_kept (s : State) : (endSegment s).kept = s.kept := by
  unfold endSegment; simp
@[simp] theorem admitWaiting_kept : ∀ (n : Nat) (s : State), (admitWaiting n s).kept = s.kept
  | 0, _ => rfl
  | n + 1, s => by unfold admitWaiting; (repeat' split) <;> simp [admitWaiting_kept n]
@[simp] theorem reportLost_kept (s : State) : (reportLost s).kept = s.kept := by
  unfold reportLost; simp
@[simp] theorem mramWrite_kept (s : State) : (mramWrite s).kept = s.kept := by
  unfold mramWrite; (repeat' (first | split | (dsimp only; split))) <;> simp
@[simp] theorem drainQueue_kept : ∀ (n : Nat) (s : State), (drainQueue n s).kept = s.kept
  | 0, _ => rfl
  | n + 1, s => by unfold drainQueue; (repeat' split) <;> simp [drainQueue_kept n]
@[simp] theorem completeFreezes_kept (s : State) : (completeFreezes s).kept = s.kept := by
  unfold completeFreezes; simp
@[simp] theorem countCorrection_kept (mech : Nat) (unit : UnitId) (addr : Nat) (s : State) : (countCorrection mech unit addr s).kept = s.kept := by
  unfold countCorrection; simp
@[simp] theorem countDetection_kept (mech : Nat) (unit : UnitId) (location : W32) (observed : W64) (expected : W64) (s : State) : (countDetection mech unit location observed expected s).kept = s.kept := by
  unfold countDetection; simp
@[simp] theorem logSecurity_kept (event : Nat) (rest : Bytes) (s : State) : (logSecurity event rest s).kept = s.kept := by
  unfold logSecurity; simp
@[simp] theorem extend_ok (pq : List Instr) (reg : Fin 8) (d : Bytes) (s : State) (hOk : Ok pq s.kept) : Ok pq (extend reg d s).kept := by
  unfold extend; simp (maxDischargeDepth := 30) [*]

/-! ### Flags -/

@[simp] theorem setDrawCounter_kept (s : State) (i : W32) (c : W64) : (setDrawCounter s i c).kept = s.kept := by
  unfold setDrawCounter; simp
@[simp] theorem recordTotal_kept (tid : W64) (r : WriteRecord) (s : State) : (recordTotal tid r s).kept = s.kept := by
  unfold recordTotal; simp
@[simp] theorem verbTotal_kept (verb : Nat) (k : Sticky) (s : State) : (verbTotal verb k s).kept = s.kept := by
  unfold verbTotal; simp
@[simp] theorem storeSection_kept (t : TensorDecl) (x : Section) (s : State) : (storeSection t x s).kept = s.kept := by
  unfold storeSection; simp
@[simp] theorem passRange_kept (s : State) (id : W32) (e : W64) : (passRange s id e).kept = s.kept := by
  unfold passRange; simp
@[simp] theorem endWrite_kept (tid : W64) (elems : Nat) (w : TensorWrite) (s : State) : (endWrite tid elems w s).kept = s.kept := by
  unfold endWrite; (repeat' (first | split | (dsimp only; split))) <;> simp
@[simp] theorem keepWrite_kept (tid : W64) (elems : Nat) (w : TensorWrite) (s : State) : (keepWrite tid elems w s).kept = s.kept := by
  unfold keepWrite; simp
@[simp] theorem writeBuf_ok (p : List Instr) (r : BufRef) (off : Nat) (b : Bytes) (s : State) (h : Ok p s.kept) :
    Ok p (writeBuf r off b s).kept := by
  unfold writeBuf; split <;> simp (maxDischargeDepth := 30) [h, wf_writeBytes, h.2.1, h.2.2.1]
@[simp] theorem writeStatus_ok (p : List Instr) (k : CmdRef) (w : W64) (s : State) (h : Ok p s.kept) :
    Ok p (writeStatus k w s).kept := by
  unfold writeStatus; simp [h, wf_writeBytes, h.2.2.2.1]

/-! ### Mailbox -/

@[simp] theorem updCmd_kept (k : CmdRef) (f : Cmd → Cmd) (s : State) : (updCmd k f s).kept = s.kept := by
  unfold updCmd; simp
@[simp] theorem refreshStatus_ok (pq : List Instr) (k : CmdRef) (s : State) (hOk : Ok pq s.kept) : Ok pq (refreshStatus k s).kept := by
  unfold refreshStatus; (repeat' (first | split | (dsimp only; split))) <;> simp (maxDischargeDepth := 30) [*]
@[simp] theorem setRunning_ok (pq : List Instr) (k : CmdRef) (s : State) (hOk : Ok pq s.kept) : Ok pq (setRunning k s).kept := by
  unfold setRunning; simp (maxDischargeDepth := 30) [*]
@[simp] theorem setProgress_ok (pq : List Instr) (k : CmdRef) (n : Nat) (s : State) (hOk : Ok pq s.kept) : Ok pq (setProgress k n s).kept := by
  unfold setProgress; simp (maxDischargeDepth := 30) [*]
@[simp] theorem placeRecord_ok (p : List Instr) (c : Cmd) (n : Nat) (b : Bytes) (s : State) (h : Ok p s.kept) :
    Ok p (placeRecord c n b s).kept := by
  unfold placeRecord; simp [h, wf_writeBytes, h.2.2.1]
@[simp] theorem addRecord_ok (pq : List Instr) (k : CmdRef) (b : Bytes) (s : State) (hOk : Ok pq s.kept) : Ok pq (addRecord k b s).kept := by
  unfold addRecord; (repeat' (first | split | (dsimp only; split))) <;> simp (maxDischargeDepth := 30) [*]
@[simp] theorem flushRecords_ok (pq : List Instr) (k : CmdRef) (s : State) (hOk : Ok pq s.kept) : Ok pq (flushRecords k s).kept := by
  unfold flushRecords; (repeat' (first | split | (dsimp only; split))) <;> simp (maxDischargeDepth := 30) [*]
@[simp] theorem endRepeats_ok (pq : List Instr) (ch : Fin 16) (token : W64) (w : W64) (s : State) (hOk : Ok pq s.kept) : Ok pq (endRepeats ch token w s).kept := by
  unfold endRepeats; simp (maxDischargeDepth := 30) +contextual [*]
@[simp] theorem finishWith_ok (pq : List Instr) (k : CmdRef) (result : Nat) (x : Cause) (s : State) (hOk : Ok pq s.kept) : Ok pq (finishWith k result x s).kept := by
  unfold finishWith; (repeat' (first | split | (dsimp only; split))) <;> simp (maxDischargeDepth := 30) [*]
@[simp] theorem finish_ok (pq : List Instr) (k : CmdRef) (result : Nat) (s : State) (hOk : Ok pq s.kept) : Ok pq (finish k result s).kept := by
  unfold finish; simp (maxDischargeDepth := 30) [*]
@[simp] theorem doorbell_kept (v : W32) (s : State) : (doorbell v s).kept = s.kept := by
  unfold doorbell; simp
@[simp] theorem execMbxDoorbell_kept (v : W32) (s : State) : KeepsKept (execMbxDoorbell v s) s := by
  unfold execMbxDoorbell; simp
@[simp] theorem takeDescriptor_ok (pq : List Instr) (k : CmdRef) (bytes : Bytes) (s : State) (hOk : Ok pq s.kept) : Ok pq (takeDescriptor k bytes s).kept := by
  unfold takeDescriptor; (repeat' (first | split | (dsimp only; split))) <;> simp (maxDischargeDepth := 30) [*]
@[simp] theorem readDescriptor_ok (pq : List Instr) (s : State) (hOk : Ok pq s.kept) : Ok pq (readDescriptor s).kept := by
  unfold readDescriptor; (repeat' (first | split | (dsimp only; split))) <;> simp (maxDischargeDepth := 30) [*]
@[simp] theorem execDescriptorRead_ok (pq : List Instr) (s : State) (hOk : Ok pq s.kept) : OkNext pq (execDescriptorRead s) := by
  unfold execDescriptorRead; simp (maxDischargeDepth := 30) [*]
@[simp] theorem reportCommand_kept (c : Cmd) (s : State) : (reportCommand c s).kept = s.kept := by
  unfold reportCommand; simp
@[simp] theorem startQueueCommand_ok (pq : List Instr) (s : State) (hOk : Ok pq s.kept) : Ok pq (startQueueCommand s).kept := by
  unfold startQueueCommand; (repeat' (first | split | (dsimp only; split))) <;> simp (maxDischargeDepth := 30) [*]
@[simp] theorem execQueueCommandStart_ok (pq : List Instr) (s : State) (hOk : Ok pq s.kept) : OkNext pq (execQueueCommandStart s) := by
  unfold execQueueCommandStart; simp (maxDischargeDepth := 30) [*]
@[simp] theorem transferDetections_kept (n : Nat) (s : State) : (transferDetections n s).kept = s.kept := by
  unfold transferDetections; simp
@[simp] theorem sliceAgreement_ok (pq : List Instr) (k : CmdRef) (reports : List AgreeReport) (s : State) (hOk : Ok pq s.kept) : Ok pq (sliceAgreement k reports s).kept := by
  unfold sliceAgreement; (repeat' (first | split | (dsimp only; split))) <;> simp (maxDischargeDepth := 30) [*]
@[simp] theorem execSliceCommandAgreement_ok (pq : List Instr) (k : CmdRef) (reports : List AgreeReport) (s : State) (hOk : Ok pq s.kept) : OkNext pq (execSliceCommandAgreement k reports s) := by
  unfold execSliceCommandAgreement; simp (maxDischargeDepth := 30) [*]
@[simp] theorem cmdAbsent_ok (pq : List Instr) (k : CmdRef) (absent : Nat) (s : State) (hOk : Ok pq s.kept) : Ok pq (cmdAbsent k absent s).kept := by
  unfold cmdAbsent; (repeat' (first | split | (dsimp only; split))) <;> simp (maxDischargeDepth := 30) [*]
@[simp] theorem execCmdAbsent_ok (pq : List Instr) (k : CmdRef) (absent : Nat) (s : State) (hOk : Ok pq s.kept) : OkNext pq (execCmdAbsent k absent s) := by
  unfold execCmdAbsent; simp (maxDischargeDepth := 30) [*]
@[simp] theorem sendIdents_kept (s : State) : (sendIdents s).kept = s.kept := by
  unfold sendIdents; simp
@[simp] theorem hello_ok (pq : List Instr) (k : CmdRef) (s : State) (hOk : Ok pq s.kept) : Ok pq (hello k s).kept := by
  unfold hello; (repeat' (first | split | (dsimp only; split))) <;> simp (maxDischargeDepth := 30) [*]
@[simp] theorem execHello_ok (pq : List Instr) (k : CmdRef) (s : State) (hOk : Ok pq s.kept) : OkNext pq (execHello k s) := by
  unfold execHello; simp (maxDischargeDepth := 30) [*]
@[simp] theorem jobOpen_ok (pq : List Instr) (k : CmdRef) (s : State) (hOk : Ok pq s.kept) : Ok pq (jobOpen k s).kept := by
  unfold jobOpen; (repeat' (first | split | (dsimp only; split))) <;> simp (maxDischargeDepth := 30) [*]
@[simp] theorem execJobOpen_ok (pq : List Instr) (k : CmdRef) (s : State) (hOk : Ok pq s.kept) : OkNext pq (execJobOpen k s) := by
  unfold execJobOpen; simp (maxDischargeDepth := 30) [*]
@[simp] theorem discardJob_ok (p : List Instr) (s : State) (h : Ok p s.kept) : Ok p (discardJob s).kept := by
  unfold discardJob
  simp only [withJob_kept, withLoad_kept, withSlice_kept, withTens_kept, withLedger_kept, withHouse_kept, withStep_kept, withSnap_kept,
    withSite_kept, withStalls_kept]
  exact ok_slots p s.kept _ _ h (by decide)
@[simp] theorem jobClose_ok (pq : List Instr) (k : CmdRef) (s : State) (hOk : Ok pq s.kept) : Ok pq (jobClose k s).kept := by
  unfold jobClose; (repeat' (first | split | (dsimp only; split))) <;> simp (maxDischargeDepth := 30) [*]
@[simp] theorem execJobClose_ok (pq : List Instr) (k : CmdRef) (s : State) (hOk : Ok pq s.kept) : OkNext pq (execJobClose k s) := by
  unfold execJobClose; simp (maxDischargeDepth := 30) [*]
@[simp] theorem sliceJoin_ok (pq : List Instr) (k : CmdRef) (s : State) (hOk : Ok pq s.kept) : Ok pq (sliceJoin k s).kept := by
  unfold sliceJoin; (repeat' (first | split | (dsimp only; split))) <;> simp (maxDischargeDepth := 30) [*]
@[simp] theorem execSliceJoin_ok (pq : List Instr) (k : CmdRef) (s : State) (hOk : Ok pq s.kept) : OkNext pq (execSliceJoin k s) := by
  unfold execSliceJoin; simp (maxDischargeDepth := 30) [*]

/-! ### Operands -/

@[simp] theorem stallWaits_kept (i : Fin 1024) (cause : Fin 14) (s : State) : (stallWaits i cause s).kept = s.kept := by
  unfold stallWaits; simp
@[simp] theorem endWait_kept (i : Fin 1024) (w : Fin 14) (s : State) : (endWait i w s).kept = s.kept := by
  unfold endWait; simp

/-! ### React -/

@[simp] theorem endRun_ok (pq : List Instr) (result : Nat) (x : Cause) (s : State) (hOk : Ok pq s.kept) : Ok pq (endRun result x s).kept := by
  unfold endRun; (repeat' (first | split | (dsimp only; split))) <;> simp (maxDischargeDepth := 30) [*]
@[simp] theorem failModule_kept (reason : Nat) (s : State) : (failModule reason s).kept = s.kept := by
  unfold failModule; simp
@[simp] theorem loseHall_kept (h : Fin 4) (s : State) : (loseHall h s).kept = s.kept := by
  unfold loseHall; simp
@[simp] theorem logFence_kept (unit : UnitId) (st : FenceState) (cause : W64) (s : State) : (logFence unit st cause s).kept = s.kept := by
  unfold logFence; simp
@[simp] theorem fenceStall_kept (i : Fin 1024) (cause : W64) (s : State) : (fenceStall i cause s).kept = s.kept := by
  unfold fenceStall; simp
@[simp] theorem fenceCellar_kept (i : Fin 1024) (cause : W64) (s : State) : (fenceCellar i cause s).kept = s.kept := by
  unfold fenceCellar; simp
@[simp] theorem fencePipe_kept (p : Fin 16) (cause : W64) (s : State) : (fencePipe p cause s).kept = s.kept := by
  unfold fencePipe; simp
@[simp] theorem fenceClerk_kept (p : Fin 2) (cause : W64) (s : State) : (fenceClerk p cause s).kept = s.kept := by
  unfold fenceClerk; simp
@[simp] theorem logLink_kept (p : Port) (lane : Nat) (event : Nat) (more : Bytes) (s : State) : (logLink p lane event more s).kept = s.kept := by
  unfold logLink; simp
@[simp] theorem reportPortDown_kept (p : Port) (s : State) : (reportPortDown p s).kept = s.kept := by
  unfold reportPortDown; simp
@[simp] theorem portDown_kept (p : Port) (s : State) : (portDown p s).kept = s.kept := by
  unfold portDown; simp
@[simp] theorem pipeFailure_kept (p : Fin 16) (cause : W64) (s : State) : (pipeFailure p cause s).kept = s.kept := by
  unfold pipeFailure; simp
@[simp] theorem softFailure_kept (unit : UnitId) (cause : W64) (s : State) : (softFailure unit cause s).kept = s.kept := by
  unfold softFailure; (repeat' (first | split | (dsimp only; split))) <;> simp
@[simp] theorem dupLogicFailure_kept (s : State) : (dupLogicFailure s).kept = s.kept := by
  unfold dupLogicFailure; simp
@[simp] theorem retireNear_kept (page : Nat) (s : State) : (retireNear page s).kept = s.kept := by
  unfold retireNear; simp
@[simp] theorem retireFar_kept (unit : Nat) (s : State) : (retireFar unit s).kept = s.kept := by
  unfold retireFar; simp
@[simp] theorem fenceFor_kept (d : Detection) (cause : W64) (s : State) : (fenceFor d cause s).kept = s.kept := by
  unfold fenceFor; (repeat' (first | split | (dsimp only; split))) <;> simp
@[simp] theorem replayLimit_ok (pq : List Instr) (s : State) (hOk : Ok pq s.kept) : Ok pq (replayLimit s).kept := by
  unfold replayLimit; simp (maxDischargeDepth := 30) [*]
@[simp] theorem setEvalDraws_kept (base : W64) (s : State) : (setEvalDraws base s).kept = s.kept := by
  unfold setEvalDraws; (repeat' (first | split | (dsimp only; split))) <;> simp
@[simp] theorem freeShadowWaits_kept (s : State) : (freeShadowWaits s).kept = s.kept := by
  unfold freeShadowWaits; simp
@[simp] theorem restartEval_kept (attempt : Byte) (s : State) : (restartEval attempt s).kept = s.kept := by
  unfold restartEval; (repeat' (first | split | (dsimp only; split))) <;> simp
@[simp] theorem markSuspect_ok (pq : List Instr) (unit : UnitId) (seq : W64) (s : State) (hOk : Ok pq s.kept) : Ok pq (markSuspect unit seq s).kept := by
  unfold markSuspect; (repeat' (first | split | (dsimp only; split))) <;> simp (maxDischargeDepth := 30) [*]
@[simp] theorem restartPlacement_kept (s : State) : (restartPlacement s).kept = s.kept := by
  unfold restartPlacement; (repeat' (first | split | (dsimp only; split))) <;> simp
@[simp] theorem detect_ok (pq : List Instr) (d : Detection) (s : State) (hOk : Ok pq s.kept) : Ok pq (detect d s).kept := by
  unfold detect; simp (maxDischargeDepth := 30) [*]
@[simp] theorem execDetect_ok (pq : List Instr) (d : Detection) (s : State) (hOk : Ok pq s.kept) : OkNext pq (execDetect d s) := by
  unfold execDetect; simp (maxDischargeDepth := 30) [*]
@[simp] theorem suspectAtLead_ok (pq : List Instr) (m : SuspectMsg) (s : State) (hOk : Ok pq s.kept) : Ok pq (suspectAtLead m s).kept := by
  unfold suspectAtLead; simp (maxDischargeDepth := 30) [*]
@[simp] theorem execSuspect_ok (pq : List Instr) (m : SuspectMsg) (s : State) (hOk : Ok pq s.kept) : OkNext pq (execSuspect m s) := by
  unfold execSuspect; simp (maxDischargeDepth := 30) [*]
@[simp] theorem sealFailure_ok (pq : List Instr) (consumer : UnitId) (producer : UnitId) (tid : W64) (sec : W16) (carried : W64) (computed : W64) (s : State) (hOk : Ok pq s.kept) : Ok pq (sealFailure consumer producer tid sec carried computed s).kept := by
  unfold sealFailure; simp (maxDischargeDepth := 30) [*]
@[simp] theorem unsoundFailure_ok (pq : List Instr) (consumer : UnitId) (l : List Section) (s : State) (hOk : Ok pq s.kept) : Ok pq (unsoundFailure consumer l s).kept := by
  unfold unsoundFailure; (repeat' (first | split | (dsimp only; split))) <;> simp (maxDischargeDepth := 30) [*]
@[simp] theorem fillThin_kept (s : State) : (fillThin s).kept = s.kept := by
  unfold fillThin
  split
  · rfl
  · exact kept_foldl _ (fun s a => by split <;> simp) _ _
@[simp] theorem placeStalls_kept (m : PhysMap) (s : State) : (placeStalls m s).kept = s.kept := by
  unfold placeStalls; simp
@[simp] theorem moveRole_kept (r : RolePlace) (x : State × Bool) : (moveRole r x).1.kept = x.1.kept := by
  unfold moveRole; (repeat' (first | split | (dsimp only; split))) <;> simp_all
@[simp] theorem moveRoles_kept (s : State) : (moveRoles s).1.kept = s.kept := by
  have e : ∀ l : List RolePlace, (l.foldl (fun (x : State × Bool) r => moveRole r x) (s, true)).1.kept = s.kept :=
    fun l => kept_foldl_fst _ (fun x a => moveRole_kept a x) l (s, true)
  unfold moveRoles
  split
  · rfl
  · split
    · rfl
    · split
      rename_i u ok hu
      have e' := congrArg (fun x => x.1.kept) hu
      dsimp only at e' ⊢
      rw [e] at e'
      split <;> simp [e']
@[simp] theorem abandonAttempt_kept (attempt : Byte) (s : State) : (abandonAttempt attempt s).kept = s.kept := by
  unfold abandonAttempt; simp
@[simp] theorem selfTestFail_kept (row : Nat) (unit : UnitId) (pattern : W32) (location : W32) (s : State) : (selfTestFail row unit pattern location s).kept = s.kept := by
  unfold selfTestFail; simp
@[simp] theorem latentWindow_kept (i : Fin 1024) (s : State) : (latentWindow i s).kept = s.kept := by
  unfold latentWindow; simp
@[simp] theorem beginTest_kept (i : Fin 1024) (s : State) : (beginTest i s).kept = s.kept := by
  unfold beginTest; simp
@[simp] theorem stallSelfTest_ok (pq : List Instr) (i : Fin 1024) (t : SelfTest) (s : State) (hOk : Ok pq s.kept) : Ok pq (stallSelfTest i t s).kept := by
  unfold stallSelfTest; (repeat' (first | split | (dsimp only; split))) <;> simp (maxDischargeDepth := 30) [*]
@[simp] theorem execStallSelfTest_ok (pq : List Instr) (i : Fin 1024) (t : SelfTest) (s : State) (hOk : Ok pq s.kept) : OkNext pq (execStallSelfTest i t s) := by
  unfold execStallSelfTest; simp (maxDischargeDepth := 30) [*]
@[simp] theorem unitSelfTest_kept (row : Nat) (unit : UnitId) (pass : Bool) (s : State) : (unitSelfTest row unit pass s).kept = s.kept := by
  unfold unitSelfTest; (repeat' (first | split | (dsimp only; split))) <;> simp
@[simp] theorem execUnitSelfTest_kept (row : Nat) (unit : UnitId) (pass : Bool) (s : State) : KeepsKept (execUnitSelfTest row unit pass s) s := by
  unfold execUnitSelfTest; simp
@[simp] theorem fencedRetest_kept (cellar : Bool) (i : Fin 1024) (pass : Bool) (s : State) : (fencedRetest cellar i pass s).kept = s.kept := by
  unfold fencedRetest; simp
@[simp] theorem execFencedRetest_kept (cellar : Bool) (i : Fin 1024) (pass : Bool) (s : State) : KeepsKept (execFencedRetest cellar i pass s) s := by
  unfold execFencedRetest; simp
@[simp] theorem execLogbookQueueRoom_kept (s : State) : KeepsKept (execLogbookQueueRoom s) s := by
  unfold execLogbookQueueRoom; simp
@[simp] theorem execLogbookMramWrite_kept (s : State) : KeepsKept (execLogbookMramWrite s) s := by
  unfold execLogbookMramWrite; simp

/-! ### Memory -/

@[simp] theorem correctNear_kept (c : Fin 1024) (addr : Nat) (s : State) : (correctNear c addr s).kept = s.kept := by
  unfold correctNear; simp
@[simp] theorem correctFar_kept (addr : Nat) (s : State) : (correctFar addr s).kept = s.kept := by
  unfold correctFar; simp
@[simp] theorem abandonDrain_kept (s : State) : (abandonDrain s).kept = s.kept := by
  unfold abandonDrain; simp
@[simp] theorem lostLine_ok (pq : List Instr) (unit : UnitId) (seq : W64) (holds : Option SectionRef) (s : State) (hOk : Ok pq s.kept) : Ok pq (lostLine unit seq holds s).kept := by
  unfold lostLine; (repeat' (first | split | (dsimp only; split))) <;> simp (maxDischargeDepth := 30) [*]
@[simp] theorem uncorrectableNear_ok (pq : List Instr) (c : Fin 1024) (addr : Nat) (holds : Option SectionRef) (s : State) (hOk : Ok pq s.kept) : Ok pq (uncorrectableNear c addr holds s).kept := by
  unfold uncorrectableNear; simp (maxDischargeDepth := 30) [*]
@[simp] theorem recordFarLoss_kept (addr : Nat) (s : State) : (recordFarLoss addr s).kept = s.kept := by
  unfold recordFarLoss; simp
@[simp] theorem uncorrectableFar_ok (pq : List Instr) (addr : Nat) (holds : Option SectionRef) (s : State) (hOk : Ok pq s.kept) : Ok pq (uncorrectableFar addr holds s).kept := by
  unfold uncorrectableFar; simp (maxDischargeDepth := 30) [*]
@[simp] theorem moveCellar_ok (p : List Instr) (c : Fin 1024) (x : CellarXfer) (s : State) (h : Ok p s.kept) :
    Ok p (moveCellar c x s).kept := by
  unfold moveCellar; dsimp only; split <;> simp (maxDischargeDepth := 30) [h, wf_writeBytes, h.1]
@[simp] theorem cellarQueue_kept (c : Fin 1024) (x : CellarXfer) (s : State) : (cellarQueue c x s).kept = s.kept := by
  unfold cellarQueue; simp
@[simp] theorem cellarTurn_kept (c : Fin 1024) (x : CellarXfer) (s : State) : (cellarTurn c x s).kept = s.kept := by
  unfold cellarTurn; simp
@[simp] theorem servedTransfer_ok (pq : List Instr) (c : Fin 1024) (x : CellarXfer) (s : State) (hOk : Ok pq s.kept) : Ok pq (servedTransfer c x s).kept := by
  unfold servedTransfer; (repeat' (first | split | (dsimp only; split))) <;> simp (maxDischargeDepth := 30) [*]
@[simp] theorem cellarTransfer_ok (pq : List Instr) (c : Fin 1024) (x : CellarXfer) (s : State) (hOk : Ok pq s.kept) : Ok pq (cellarTransfer c x s).kept := by
  unfold cellarTransfer; simp (maxDischargeDepth := 30) [*]
@[simp] theorem execCellarTransfer_ok (pq : List Instr) (c : Fin 1024) (x : CellarXfer) (s : State) (hOk : Ok pq s.kept) : OkNext pq (execCellarTransfer c x s) := by
  unfold execCellarTransfer; simp (maxDischargeDepth := 30) [*]
@[simp] theorem refreshChange_kept (c : Fin 1024) (s : State) : (refreshChange c s).kept = s.kept := by
  unfold refreshChange; simp
@[simp] theorem execRefreshRateChange_kept (c : Fin 1024) (s : State) : KeepsKept (execRefreshRateChange c s) s := by
  unfold execRefreshRateChange; simp
@[simp] theorem farTierRead_ok (pq : List Instr) (addr : Nat) (ecc : EccOutcome) (holds : Option SectionRef) (s : State) (hOk : Ok pq s.kept) : Ok pq (farTierRead addr ecc holds s).kept := by
  unfold farTierRead; (repeat' (first | split | (dsimp only; split))) <;> simp (maxDischargeDepth := 30) [*]
@[simp] theorem execFarTierRead_ok (pq : List Instr) (addr : Nat) (ecc : EccOutcome) (holds : Option SectionRef) (s : State) (hOk : Ok pq s.kept) : OkNext pq (execFarTierRead addr ecc holds s) := by
  unfold execFarTierRead; (repeat' (first | split | (dsimp only; split))) <;> simp (maxDischargeDepth := 30) [*]
@[simp] theorem scrub_ok (pq : List Instr) (far : Bool) (ecc : EccOutcome) (holds : Option SectionRef) (s : State) (hOk : Ok pq s.kept) : Ok pq (scrub far ecc holds s).kept := by
  unfold scrub; (repeat' (first | split | (dsimp only; split))) <;> simp (maxDischargeDepth := 30) [*]
@[simp] theorem execScrub_ok (pq : List Instr) (far : Bool) (ecc : EccOutcome) (holds : Option SectionRef) (s : State) (hOk : Ok pq s.kept) : OkNext pq (execScrub far ecc holds s) := by
  unfold execScrub; simp (maxDischargeDepth := 30) [*]
@[simp] theorem cxlRead_ok (p : List Instr) (line : BitVec 30) (ecc : EccOutcome) (s : State) (h : Ok p s.kept) :
    Ok p (cxlRead line ecc s).kept := by
  unfold cxlRead takeFree
  dsimp only
  (repeat' split) <;> simp (maxDischargeDepth := 30) [h]
@[simp] theorem execCxlMemRead_ok (pq : List Instr) (line : BitVec 30) (ecc : EccOutcome) (s : State) (hOk : Ok pq s.kept) : OkNext pq (execCxlMemRead line ecc s) := by
  unfold execCxlMemRead; simp (maxDischargeDepth := 30) [*]
@[simp] theorem cxlWrite_ok (p : List Instr) (line : BitVec 30) (b : Bytes) (s : State) (h : Ok p s.kept) :
    Ok p (cxlWrite line b s).kept := by
  unfold cxlWrite; split <;> simp (maxDischargeDepth := 30) [h, wf_writeBytes, h.2.1]
@[simp] theorem execCxlMemWrite_ok (pq : List Instr) (line : BitVec 30) (b : Bytes) (s : State) (hOk : Ok pq s.kept) : OkNext pq (execCxlMemWrite line b s) := by
  unfold execCxlMemWrite; simp (maxDischargeDepth := 30) [*]
@[simp] theorem execIdentifyMemoryDevice_kept (s : State) : KeepsKept (execIdentifyMemoryDevice s) s := by
  unfold execIdentifyMemoryDevice; simp
@[simp] theorem getEvents_kept (n : Nat) (s : State) : (getEvents n s).kept = s.kept := by
  unfold getEvents; simp
@[simp] theorem execGetEventRecords_kept (max : Nat) (s : State) : KeepsKept (execGetEventRecords max s) s := by
  unfold execGetEventRecords; simp
@[simp] theorem clearEvents_kept (n : Nat) (s : State) : (clearEvents n s).kept = s.kept := by
  unfold clearEvents; simp
@[simp] theorem execClearEventRecords_kept (count : Nat) (s : State) : KeepsKept (execClearEventRecords count s) s := by
  unfold execClearEventRecords; simp
@[simp] theorem execCxlMailboxUnsupported_kept (opcode : W16) (s : State) : KeepsKept (execCxlMailboxUnsupported opcode s) s := by
  unfold execCxlMailboxUnsupported; simp

/-! ### Power -/

@[simp] theorem logPower_kept (event : Nat) (rail : Nat) (sev : BitVec 3) (s : State) : (logPower event rail sev s).kept = s.kept := by
  unfold logPower; simp
@[simp] theorem sidebandPin_kept (name : String) (level : Bool) (s : State) : (sidebandPin name level s).kept = s.kept := by
  unfold sidebandPin; simp
@[simp] theorem drivePg_kept (v : Bool) (s : State) : (drivePg v s).kept = s.kept := by
  unfold drivePg; simp
@[simp] theorem driveTherm_kept (v : Bool) (s : State) : (driveTherm v s).kept = s.kept := by
  unfold driveTherm; simp
@[simp] theorem losePower_ok (p : List Instr) (s : State) (h : Ok p s.kept) : Ok p (losePower s).kept := by
  unfold losePower
  simp only [withMbx_kept, withBus_kept, withDev_kept, withTal_kept, withFns_kept, withPorts_kept, withMem_kept, withJob_kept,
    withLoad_kept, withSlice_kept, withTens_kept, withLedger_kept, withHouse_kept, withStep_kept, withSnap_kept, withSite_kept,
    withStalls_kept]
  exact ⟨rfl, rfl, h.2.2.1, rfl, h.2.2.2.2.1, (show SlotState.complete ≠ .filling by decide), h.2.2.2.2.2.2⟩
@[simp] theorem enterPhase_kept (ph : StartPhase) (s : State) : (enterPhase ph s).kept = s.kept := by
  unfold enterPhase; simp
@[simp] theorem beginRails_ok (pq : List Instr) (s : State) (hOk : Ok pq s.kept) : Ok pq (beginRails s).kept := by
  unfold beginRails; simp (maxDischargeDepth := 30) [*]
@[simp] theorem tryStart_ok (pq : List Instr) (s : State) (hOk : Ok pq s.kept) : Ok pq (tryStart s).kept := by
  unfold tryStart; simp (maxDischargeDepth := 30) [*]
@[simp] theorem latchOff_ok (pq : List Instr) (s : State) (hOk : Ok pq s.kept) : Ok pq (latchOff s).kept := by
  unfold latchOff; simp (maxDischargeDepth := 30) [*]
@[simp] theorem startupFailure_ok (pq : List Instr) (s : State) (hOk : Ok pq s.kept) : Ok pq (startupFailure s).kept := by
  unfold startupFailure; simp (maxDischargeDepth := 30) [*]
@[simp] theorem awningUp_ok (pq : List Instr) (mv : Nat) (s : State) (hOk : Ok pq s.kept) : Ok pq (awningUp mv s).kept := by
  unfold awningUp; simp (maxDischargeDepth := 30) [*]
@[simp] theorem execAwningPowerUp_ok (pq : List Instr) (mv : Nat) (s : State) (hOk : Ok pq s.kept) : OkNext pq (execAwningPowerUp mv s) := by
  unfold execAwningPowerUp; simp (maxDischargeDepth := 30) [*]
@[simp] theorem awningOff_ok (pq : List Instr) (mv : Nat) (s : State) (hOk : Ok pq s.kept) : Ok pq (awningOff mv s).kept := by
  unfold awningOff; simp (maxDischargeDepth := 30) [*]
@[simp] theorem execAwningPowerOff_ok (pq : List Instr) (mv : Nat) (s : State) (hOk : Ok pq s.kept) : OkNext pq (execAwningPowerOff mv s) := by
  unfold execAwningPowerOff; simp (maxDischargeDepth := 30) [*]
@[simp] theorem inputOut_kept (mv : Nat) (s : State) : (inputOut mv s).kept = s.kept := by
  unfold inputOut; simp
@[simp] theorem execInputOutOfRange_kept (mv : Nat) (s : State) : KeepsKept (execInputOutOfRange mv s) s := by
  unfold execInputOutOfRange; simp
@[simp] theorem inputIn_ok (pq : List Instr) (mv : Nat) (s : State) (hOk : Ok pq s.kept) : Ok pq (inputIn mv s).kept := by
  unfold inputIn; simp (maxDischargeDepth := 30) [*]
@[simp] theorem execInputInRange_ok (pq : List Instr) (mv : Nat) (s : State) (hOk : Ok pq s.kept) : OkNext pq (execInputInRange mv s) := by
  unfold execInputInRange; simp (maxDischargeDepth := 30) [*]
@[simp] theorem beginShutdown_kept (event : Nat) (rangeLoss : Bool) (s : State) : (beginShutdown event rangeLoss s).kept = s.kept := by
  unfold beginShutdown; simp
@[simp] theorem rangeTimeout_kept (s : State) : (rangeTimeout s).kept = s.kept := by
  unfold rangeTimeout; simp
@[simp] theorem execInputRangeTimeout_kept (s : State) : KeepsKept (execInputRangeTimeout s) s := by
  unfold execInputRangeTimeout; simp
@[simp] theorem pwrEnAssert_ok (pq : List Instr) (held : Bool) (s : State) (hOk : Ok pq s.kept) : Ok pq (pwrEnAssert held s).kept := by
  unfold pwrEnAssert; (repeat' (first | split | (dsimp only; split))) <;> simp (maxDischargeDepth := 30) [*]
@[simp] theorem execPwrEnAssert_ok (pq : List Instr) (held : Bool) (s : State) (hOk : Ok pq s.kept) : OkNext pq (execPwrEnAssert held s) := by
  unfold execPwrEnAssert; simp (maxDischargeDepth := 30) [*]
@[simp] theorem pwrEnDeassert_kept (held : Bool) (s : State) : (pwrEnDeassert held s).kept = s.kept := by
  unfold pwrEnDeassert; simp
@[simp] theorem execPwrEnDeassert_kept (held : Bool) (s : State) : KeepsKept (execPwrEnDeassert held s) s := by
  unfold execPwrEnDeassert; simp
@[simp] theorem shutdownDone_ok (pq : List Instr) (s : State) (hOk : Ok pq s.kept) : Ok pq (shutdownDone s).kept := by
  unfold shutdownDone; simp (maxDischargeDepth := 30) [*]
@[simp] theorem execShutdownDone_ok (pq : List Instr) (s : State) (hOk : Ok pq s.kept) : OkNext pq (execShutdownDone s) := by
  unfold execShutdownDone; simp (maxDischargeDepth := 30) [*]
@[simp] theorem pgDeassert_kept (s : State) : (pgDeassert s).kept = s.kept := by
  unfold pgDeassert; simp
@[simp] theorem execPgDeassert_kept (s : State) : KeepsKept (execPgDeassert s) s := by
  unfold execPgDeassert; simp
@[simp] theorem execSleepTimeout_kept (s : State) : KeepsKept (execSleepTimeout s) s := by
  unfold execSleepTimeout; simp
@[simp] theorem restTick_kept (s : State) : (restTick s).kept = s.kept := by
  unfold restTick; simp
@[simp] theorem execIdleEntry_kept (s : State) : KeepsKept (execIdleEntry s) s := by
  unfold execIdleEntry; simp
@[simp] theorem execIdleExit_kept (s : State) : KeepsKept (execIdleExit s) s := by
  unfold execIdleExit; simp
@[simp] theorem writeCap_kept (v : W32) (s : State) : (writeCap v s).kept = s.kept := by
  unfold writeCap; simp
@[simp] theorem writeRequested_kept (v : W32) (s : State) : (writeRequested v s).kept = s.kept := by
  unfold writeRequested; simp
@[simp] theorem powerCapChange_kept (cap : Bool) (v : W32) (s : State) : (powerCapChange cap v s).kept = s.kept := by
  unfold powerCapChange; simp
@[simp] theorem execPowerCapChange_kept (cap : Bool) (v : W32) (s : State) : KeepsKept (execPowerCapChange cap v s) s := by
  unfold execPowerCapChange; simp
@[simp] theorem throttleInterval_kept (inputW : Nat) (hallW : List Nat) (s : State) : (throttleInterval inputW hallW s).kept = s.kept := by
  unfold throttleInterval; simp
@[simp] theorem execThrottleInterval_kept (inputW : Nat) (hallW : List Nat) (s : State) : KeepsKept (execThrottleInterval inputW hallW s) s := by
  unfold execThrottleInterval; simp
@[simp] theorem execCurrentGating_kept (ma : Nat) (s : State) : KeepsKept (execCurrentGating ma s) s := by
  unfold execCurrentGating; simp
@[simp] theorem execCurrentGatingRelease_kept (ma : Nat) (s : State) : KeepsKept (execCurrentGatingRelease ma s) s := by
  unfold execCurrentGatingRelease; simp
@[simp] theorem hallRailsOff_ok (p : List Instr) (x : Fin 4) (s : State) (h : Ok p s.kept) : Ok p (hallRailsOff x s).kept := by
  unfold hallRailsOff; simp [h, wf_filter, h.1]
@[simp] theorem loseHallControl_ok (pq : List Instr) (h : Fin 4) (s : State) (hOk : Ok pq s.kept) : Ok pq (loseHallControl h s).kept := by
  unfold loseHallControl; simp (maxDischargeDepth := 30) [*]
@[simp] theorem loseModuleControl_ok (pq : List Instr) (s : State) (hOk : Ok pq s.kept) : Ok pq (loseModuleControl s).kept := by
  unfold loseModuleControl; simp (maxDischargeDepth := 30) [*]
@[simp] theorem logThermal_kept (sensor : Sensor) (response : Nat) (t : Int) (s : State) : (logThermal sensor response t s).kept = s.kept := by
  unfold logThermal; simp
@[simp] theorem lossOfControl_ok (pq : List Instr) (c : ControlLoss) (s : State) (hOk : Ok pq s.kept) : Ok pq (lossOfControl c s).kept := by
  unfold lossOfControl; (repeat' (first | split | (dsimp only; split))) <;> simp (maxDischargeDepth := 30) [*]
@[simp] theorem execLossOfControl_ok (pq : List Instr) (c : ControlLoss) (s : State) (hOk : Ok pq s.kept) : OkNext pq (execLossOfControl c s) := by
  unfold execLossOfControl; simp (maxDischargeDepth := 30) [*]
@[simp] theorem settleThermal_kept (s : State) : (settleThermal s).kept = s.kept := by
  unfold settleThermal; simp
@[simp] theorem settleReadings_kept (s : State) : (settleReadings s).kept = s.kept := by
  unfold settleReadings; simp
@[simp] theorem sensorLost_ok (pq : List Instr) (sensor : Sensor) (s : State) (hOk : Ok pq s.kept) : Ok pq (sensorLost sensor s).kept := by
  unfold sensorLost; (repeat' (first | split | (dsimp only; split))) <;> simp (maxDischargeDepth := 30) [*]
@[simp] theorem enterReading_kept (sensor : Sensor) (t : Int) (s : State) : (enterReading sensor t s).kept = s.kept := by
  unfold enterReading; simp
@[simp] theorem levelRecord_kept (sensor : Sensor) (old : Nat) (new : Nat) (base : Nat) (t : Int) (s : State) : (levelRecord sensor old new base t s).kept = s.kept := by
  unfold levelRecord; simp
@[simp] theorem cellarTemp_ok (pq : List Instr) (c : Fin 1024) (t : Int) (s : State) (hOk : Ok pq s.kept) : Ok pq (cellarTemp c t s).kept := by
  unfold cellarTemp; simp (maxDischargeDepth := 30) [*]
@[simp] theorem execCellarTemperatureSample_ok (pq : List Instr) (c : Fin 1024) (base : Int) (top : Int) (s : State) (hOk : Ok pq s.kept) : OkNext pq (execCellarTemperatureSample c base top s) := by
  unfold execCellarTemperatureSample; simp (maxDischargeDepth := 30) [*]
@[simp] theorem thermalLevel_ok (pq : List Instr) (sensor : Sensor) (t : Int) (s : State) (hOk : Ok pq s.kept) : Ok pq (thermalLevel sensor t s).kept := by
  unfold thermalLevel; (repeat' (first | split | (dsimp only; split))) <;> simp (maxDischargeDepth := 30) [*]
@[simp] theorem execThermalLevel_ok (pq : List Instr) (sensor : Sensor) (t : Int) (s : State) (hOk : Ok pq s.kept) : OkNext pq (execThermalLevel sensor t s) := by
  unfold execThermalLevel; simp (maxDischargeDepth := 30) [*]
@[simp] theorem thermalLimit_ok (pq : List Instr) (s : State) (hOk : Ok pq s.kept) : Ok pq (thermalLimit s).kept := by
  unfold thermalLimit; simp (maxDischargeDepth := 30) [*]
@[simp] theorem execThermalLimit_ok (pq : List Instr) (s : State) (hOk : Ok pq s.kept) : OkNext pq (execThermalLimit s) := by
  unfold execThermalLimit; simp (maxDischargeDepth := 30) [*]
@[simp] theorem railsUp_kept (halls : BitVec 4) (s : State) : (railsUp halls s).kept = s.kept := by
  unfold railsUp; (repeat' (first | split | (dsimp only; split))) <;> simp
@[simp] theorem execRailsUp_kept (halls : BitVec 4) (s : State) : KeepsKept (execRailsUp halls s) s := by
  unfold execRailsUp; simp
@[simp] theorem startFunctions_kept (s : State) : (startFunctions s).kept = s.kept := by
  unfold startFunctions; simp
@[simp] theorem parallelEnd_kept (s : State) : (parallelEnd s).kept = s.kept := by
  unfold parallelEnd; simp
@[simp] theorem farTraining_ok (p : List Instr) (failed : BitVec 24) (s : State) (h : Ok p s.kept) :
    Ok p (farTraining failed s).kept := by
  have e : Ok p { s.kept with far := [] } := ok_far p s.kept [] h rfl
  unfold farTraining; (repeat' split) <;> simp (maxDischargeDepth := 30) [h, e]
@[simp] theorem execFarTierTraining_ok (pq : List Instr) (failed : BitVec 24) (s : State) (hOk : Ok pq s.kept) : OkNext pq (execFarTierTraining failed s) := by
  unfold execFarTierTraining; simp (maxDischargeDepth := 30) [*]
@[simp] theorem hallStarted_kept (h : Fin 4) (s : State) : (hallStarted h s).kept = s.kept := by
  unfold hallStarted; simp
@[simp] theorem startupSelfTest_ok (p : List Instr) (failed : List (Fin 1024)) (s : State) (h : Ok p s.kept) :
    Ok p (startupSelfTest failed s).kept := by
  have e : Ok p { s.kept with near := [] } := ok_near p s.kept [] h rfl
  unfold startupSelfTest; split <;> simp (maxDischargeDepth := 30) [h, e]
@[simp] theorem execStartupSelfTest_ok (pq : List Instr) (failed : List (Fin 1024)) (s : State) (hOk : Ok pq s.kept) : OkNext pq (execStartupSelfTest failed s) := by
  unfold execStartupSelfTest; simp (maxDischargeDepth := 30) [*]
@[simp] theorem fnStarted_kept (f : Func) (s : State) : (fnStarted f s).kept = s.kept := by
  unfold fnStarted; simp
@[simp] theorem startupLinks_kept (s : State) : (startupLinks s).kept = s.kept := by
  unfold startupLinks; simp
@[simp] theorem execStartupLinks_kept (s : State) : KeepsKept (execStartupLinks s) s := by
  unfold execStartupLinks; simp
@[simp] theorem phaseTimeout_ok (pq : List Instr) (ph : StartPhase) (s : State) (hOk : Ok pq s.kept) : Ok pq (phaseTimeout ph s).kept := by
  unfold phaseTimeout; simp (maxDischargeDepth := 30) [*]
@[simp] theorem execStartupPhaseTimeout_ok (pq : List Instr) (ph : StartPhase) (s : State) (hOk : Ok pq s.kept) : OkNext pq (execStartupPhaseTimeout ph s) := by
  unfold execStartupPhaseTimeout; simp (maxDischargeDepth := 30) [*]
@[simp] theorem resetRegisters_kept (s : State) : (resetRegisters s).kept = s.kept := by
  unfold resetRegisters; simp
@[simp] theorem perstAssert_kept (held : Bool) (s : State) : (perstAssert held s).kept = s.kept := by
  unfold perstAssert; simp
@[simp] theorem execPerstNAssert_kept (held : Bool) (s : State) : KeepsKept (execPerstNAssert held s) s := by
  unfold execPerstNAssert; simp
@[simp] theorem perstDeassert_kept (held : Bool) (s : State) : (perstDeassert held s).kept = s.kept := by
  unfold perstDeassert; simp
@[simp] theorem execPerstNDeassert_kept (held : Bool) (s : State) : KeepsKept (execPerstNDeassert held s) s := by
  unfold execPerstNDeassert; simp
@[simp] theorem hostTrained_kept (lanes : Nat) (gts : Nat) (s : State) : (hostTrained lanes gts s).kept = s.kept := by
  unfold hostTrained; simp
@[simp] theorem execHostLinkTrained_kept (lanes : Nat) (gts : Nat) (s : State) : KeepsKept (execHostLinkTrained lanes gts s) s := by
  unfold execHostLinkTrained; simp
@[simp] theorem execHostRetrainTimer_kept (s : State) : KeepsKept (execHostRetrainTimer s) s := by
  unfold execHostRetrainTimer; simp
@[simp] theorem execHostLinkDown_kept (s : State) : KeepsKept (execHostLinkDown s) s := by
  unfold execHostLinkDown; simp
@[simp] theorem execBusMasterEnableSet_kept (s : State) : KeepsKept (execBusMasterEnableSet s) s := by
  unfold execBusMasterEnableSet; simp
@[simp] theorem execBusMasterEnableClear_kept (s : State) : KeepsKept (execBusMasterEnableClear s) s := by
  unfold execBusMasterEnableClear; simp

/-! ### Awning -/

@[simp] theorem logTime_kept (event : Nat) (old : TimeState) (new : TimeState) (before : W64) (after : W64) (s : State) : (logTime event old new before after s).kept = s.kept := by
  unfold logTime; simp
@[simp] theorem setTimeState_kept (x : TimeState) (s : State) : (setTimeState x s).kept = s.kept := by
  unfold setTimeState; simp
@[simp] theorem stepTime_kept (at256 : Nat) (s : State) : (stepTime at256 s).kept = s.kept := by
  unfold stepTime; simp
@[simp] theorem becomeRoot_kept (own : W64) (s : State) : (elect.becomeRoot own s).kept = s.kept := by
  unfold elect.becomeRoot; dsimp only; (repeat' split) <;> simp
@[simp] theorem elect_kept (s : State) : (elect s).kept = s.kept := by
  unfold elect; (repeat' (first | split | (dsimp only; split))) <;> simp
@[simp] theorem timeExchange_kept (p : Port) (s : State) : (timeExchange p s).kept = s.kept := by
  unfold timeExchange; simp
@[simp] theorem execTimeExchange_kept (p : Port) (s : State) : KeepsKept (execTimeExchange p s) s := by
  unfold execTimeExchange; simp
@[simp] theorem afterExchange_kept (theta : Int) (t4 : Nat) (s : State) : (afterExchange theta t4 s).kept = s.kept := by
  unfold afterExchange; (repeat' (first | split | (dsimp only; split))) <;> simp
@[simp] theorem exchange_kept (p : Port) (f : TimeFlit) (rx : Nat) (s : State) : (exchange p f rx s).kept = s.kept := by
  unfold exchange; simp
@[simp] theorem timeFlit_kept (p : Port) (f : TimeFlit) (rx : Nat) (s : State) : (timeFlit p f rx s).kept = s.kept := by
  unfold timeFlit; simp
@[simp] theorem execTimeFlit_kept (p : Port) (f : TimeFlit) (rx : Nat) (s : State) : KeepsKept (execTimeFlit p f rx s) s := by
  unfold execTimeFlit; simp
@[simp] theorem expireAdvert_kept (p : Port) (s : State) : (expireAdvert p s).kept = s.kept := by
  unfold expireAdvert; simp
@[simp] theorem execAdvertisementExpiry_kept (p : Port) (s : State) : KeepsKept (execAdvertisementExpiry p s) s := by
  unfold execAdvertisementExpiry; simp
@[simp] theorem execRackclkLoss_kept (s : State) : KeepsKept (execRackclkLoss s) s := by
  unfold execRackclkLoss; simp
@[simp] theorem rackReturn_kept (s : State) : (rackReturn s).kept = s.kept := by
  unfold rackReturn; simp
@[simp] theorem execRackclkReturn_kept (s : State) : KeepsKept (execRackclkReturn s) s := by
  unfold execRackclkReturn; simp
@[simp] theorem armedEdge_kept (s : State) : (armedEdge s).kept = s.kept := by
  unfold armedEdge; simp
@[simp] theorem ftSyncEdge_kept (s : State) : (ftSyncEdge s).kept = s.kept := by
  unfold ftSyncEdge; simp
@[simp] theorem execFtSyncEdge_kept (s : State) : KeepsKept (execFtSyncEdge s) s := by
  unfold execFtSyncEdge; simp
@[simp] theorem fireCmp_kept (n : Fin 16) (s : State) : (fireCmp n s).kept = s.kept := by
  unfold fireCmp; simp
@[simp] theorem execComparatorFire_kept (n : Fin 16) (s : State) : KeepsKept (execComparatorFire n s) s := by
  unfold execComparatorFire; simp
@[simp] theorem putHalf_kept (off : Nat) (v : W32) (s : State) : (putHalf off v s).kept = s.kept := by
  unfold putHalf; simp
@[simp] theorem dropHalf_kept (off : Nat) (s : State) : (dropHalf off s).kept = s.kept := by
  unfold dropHalf; simp
@[simp] theorem cmpTargetWrite_kept (n : Fin 16) (hi : Bool) (v : W32) (s : State) : (cmpTargetWrite n hi v s).kept = s.kept := by
  unfold cmpTargetWrite; simp
@[simp] theorem execCmpTargetWrite_kept (n : Fin 16) (hi : Bool) (v : W32) (s : State) : KeepsKept (execCmpTargetWrite n hi v s) s := by
  unfold execCmpTargetWrite; simp
@[simp] theorem cmpControlWrite_kept (n : Fin 16) (v : W32) (s : State) : (cmpControlWrite n v s).kept = s.kept := by
  unfold cmpControlWrite; simp
@[simp] theorem execCmpControlWrite_kept (n : Fin 16) (v : W32) (s : State) : KeepsKept (execCmpControlWrite n v s) s := by
  unfold execCmpControlWrite; simp
@[simp] theorem rootPriorityWrite_kept (v : W32) (s : State) : (rootPriorityWrite v s).kept = s.kept := by
  unfold rootPriorityWrite; simp
@[simp] theorem execAwnRootPriority_kept (v : W32) (s : State) : KeepsKept (execAwnRootPriority v s) s := by
  unfold execAwnRootPriority; simp

/-! ### Ring -/

@[simp] theorem passBlock_kept (r : ClauseRing) (j : Nat) (b : KvBlock) (s : State) : (passBlock r j b s).kept = s.kept := by
  unfold passBlock; simp
@[simp] theorem useBlock_kept (r : ClauseRing) (a : AttnRing) (b : KvBlock) (s : State) : (useBlock r a b s).kept = s.kept := by
  unfold useBlock; simp
@[simp] theorem nextStep_kept (r : ClauseRing) (a : AttnRing) (b : KvBlock) (s : State) : (nextStep r a b s).kept = s.kept := by
  unfold nextStep; (repeat' (first | split | (dsimp only; split))) <;> simp
@[simp] theorem skipSteps_kept : ∀ (n : Nat) (r : ClauseRing) (s : State), (skipSteps n r s).kept = s.kept
  | 0, _, _ => rfl
  | n + 1, r, s => by unfold skipSteps; (repeat' split) <;> simp [skipSteps_kept n]
@[simp] theorem startRing_kept (clause : Nat) (r : ClauseRing) (s : State) : (startRing clause r s).kept = s.kept := by
  unfold startRing; simp
@[simp] theorem openRing_kept (clause : Nat) (s : State) : (openRing clause s).kept = s.kept := by
  unfold openRing; (repeat' (first | split | (dsimp only; split))) <;> simp
@[simp] theorem ringStep_kept (clause : Nat) (s : State) : (ringStep clause s).kept = s.kept := by
  unfold ringStep; (repeat' (first | split | (dsimp only; split))) <;> simp
@[simp] theorem blockArrives_kept (r : ClauseRing) (a : AttnRing) (b : KvBlock) (s : State) : (blockArrives r a b s).kept = s.kept := by
  unfold blockArrives; simp
@[simp] theorem ringBytes_kept (n : Nat) (bytes : Bytes) (s : State) : (ringBytes n bytes s).kept = s.kept := by
  unfold ringBytes; (repeat' (first | split | (dsimp only; split))) <;> simp

/-! ### Verb -/

@[simp] theorem returnCredit_kept (i : Fin 1024) (c : Nat × Nat) (s : State) : (returnCredit i c s).kept = s.kept := by
  unfold returnCredit; simp
@[simp] theorem passDraws_kept (sp : Span) (s : State) : (passDraws sp s).kept = s.kept := by
  unfold passDraws; exact kept_foldl _ (fun s a => by split <;> simp) _ _
@[simp] theorem endVerb_kept (i : Fin 1024) (sp : Span) (s : State) : (endVerb i sp s).kept = s.kept := by
  unfold endVerb; dsimp only; simp
@[simp] theorem endSpan_kept (i : Fin 1024) (sp : Span) (s : State) : (endSpan i sp s).kept = s.kept := by
  unfold endSpan; simp
@[simp] theorem endInstr_kept (i : Fin 1024) (sp : Span) (srcs : List (BitVec 6)) (regs : List (Vector W32 32)) (inv : Nat) (ovf : Nat) (nf : Nat) (s : State) : (endInstr i sp srcs regs inv ovf nf s).kept = s.kept := by
  unfold endInstr; simp
@[simp] theorem instrWaits_kept (i : Fin 1024) (sp : Span) (srcs : List (BitVec 6)) (cause : Fin 14) (s : State) : (instrWaits i sp srcs cause s).kept = s.kept := by
  unfold instrWaits; simp
@[simp] theorem runInstr_kept (i : Fin 1024) (w : W64) (srcs : List (BitVec 6)) (f : Stall → Span → State → State) (s : State)
    (h : ∀ st sp u, (f st sp u).kept = u.kept) : (runInstr i w srcs f s).kept = s.kept := by
  unfold runInstr; (repeat' (first | split | (dsimp only; split))) <;> simp [h]
@[simp] theorem aluInstr_kept (i : Fin 1024) (w : W64) (d : BitVec 5) (srcs : List (BitVec 6)) (f : Nat → List W32 → LaneOut) (s : State) : (aluInstr i w d srcs f s).kept = s.kept := by
  unfold aluInstr; simp
@[simp] theorem startSpan_kept (i : Fin 1024) (v : SpanInit) (s : State) : (startSpan i v s).kept = s.kept := by
  unfold startSpan; (repeat' (first | split | (dsimp only; split))) <;> simp
@[simp] theorem execSpanStart_kept (i : Fin 1024) (v : SpanInit) (s : State) : KeepsKept (execSpanStart i v s) s := by
  unfold execSpanStart; simp
@[simp] theorem execFadd_kept (i : Fin 1024) (d : BitVec 5) (a : BitVec 6) (b : BitVec 6) (s : State) : KeepsKept (execFadd i d a b s) s := by
  unfold execFadd; simp
@[simp] theorem execFsub_kept (i : Fin 1024) (d : BitVec 5) (a : BitVec 6) (b : BitVec 6) (s : State) : KeepsKept (execFsub i d a b s) s := by
  unfold execFsub; simp
@[simp] theorem execFmul_kept (i : Fin 1024) (d : BitVec 5) (a : BitVec 6) (b : BitVec 6) (s : State) : KeepsKept (execFmul i d a b s) s := by
  unfold execFmul; simp
@[simp] theorem execFma_kept (i : Fin 1024) (d : BitVec 5) (a : BitVec 6) (b : BitVec 6) (c : BitVec 6) (s : State) : KeepsKept (execFma i d a b c s) s := by
  unfold execFma; simp
@[simp] theorem execFmax_kept (i : Fin 1024) (d : BitVec 5) (a : BitVec 6) (b : BitVec 6) (s : State) : KeepsKept (execFmax i d a b s) s := by
  unfold execFmax; simp
@[simp] theorem execFmin_kept (i : Fin 1024) (d : BitVec 5) (a : BitVec 6) (b : BitVec 6) (s : State) : KeepsKept (execFmin i d a b s) s := by
  unfold execFmin; simp
@[simp] theorem execFabs_kept (i : Fin 1024) (d : BitVec 5) (a : BitVec 6) (s : State) : KeepsKept (execFabs i d a s) s := by
  unfold execFabs; simp
@[simp] theorem execFneg_kept (i : Fin 1024) (d : BitVec 5) (a : BitVec 6) (s : State) : KeepsKept (execFneg i d a s) s := by
  unfold execFneg; simp
@[simp] theorem execFcmp_kept (i : Fin 1024) (d : BitVec 5) (c : Cond) (a : BitVec 6) (b : BitVec 6) (s : State) : KeepsKept (execFcmp i d c a b s) s := by
  unfold execFcmp; simp
@[simp] theorem execSel_kept (i : Fin 1024) (d : BitVec 5) (a : BitVec 6) (b : BitVec 6) (c : BitVec 6) (s : State) : KeepsKept (execSel i d a b c s) s := by
  unfold execSel; simp
@[simp] theorem execMov_kept (i : Fin 1024) (d : BitVec 5) (a : BitVec 6) (s : State) : KeepsKept (execMov i d a s) s := by
  unfold execMov; simp
@[simp] theorem execRcp_kept (i : Fin 1024) (d : BitVec 5) (a : BitVec 6) (s : State) : KeepsKept (execRcp i d a s) s := by
  unfold execRcp; simp
@[simp] theorem execRsqrt_kept (i : Fin 1024) (d : BitVec 5) (a : BitVec 6) (s : State) : KeepsKept (execRsqrt i d a s) s := by
  unfold execRsqrt; simp
@[simp] theorem execSqrt_kept (i : Fin 1024) (d : BitVec 5) (a : BitVec 6) (s : State) : KeepsKept (execSqrt i d a s) s := by
  unfold execSqrt; simp
@[simp] theorem execDiv_kept (i : Fin 1024) (d : BitVec 5) (a : BitVec 6) (b : BitVec 6) (s : State) : KeepsKept (execDiv i d a b s) s := by
  unfold execDiv; simp
@[simp] theorem execExp2_kept (i : Fin 1024) (d : BitVec 5) (a : BitVec 6) (s : State) : KeepsKept (execExp2 i d a s) s := by
  unfold execExp2; simp
@[simp] theorem execLog2_kept (i : Fin 1024) (d : BitVec 5) (a : BitVec 6) (s : State) : KeepsKept (execLog2 i d a s) s := by
  unfold execLog2; simp
@[simp] theorem execIadd_kept (i : Fin 1024) (d : BitVec 5) (a : BitVec 6) (b : BitVec 6) (s : State) : KeepsKept (execIadd i d a b s) s := by
  unfold execIadd; simp
@[simp] theorem execIsub_kept (i : Fin 1024) (d : BitVec 5) (a : BitVec 6) (b : BitVec 6) (s : State) : KeepsKept (execIsub i d a b s) s := by
  unfold execIsub; simp
@[simp] theorem execImul_kept (i : Fin 1024) (d : BitVec 5) (a : BitVec 6) (b : BitVec 6) (s : State) : KeepsKept (execImul i d a b s) s := by
  unfold execImul; simp
@[simp] theorem execAnd_kept (i : Fin 1024) (d : BitVec 5) (a : BitVec 6) (b : BitVec 6) (s : State) : KeepsKept (execAnd i d a b s) s := by
  unfold execAnd; simp
@[simp] theorem execOr_kept (i : Fin 1024) (d : BitVec 5) (a : BitVec 6) (b : BitVec 6) (s : State) : KeepsKept (execOr i d a b s) s := by
  unfold execOr; simp
@[simp] theorem execXor_kept (i : Fin 1024) (d : BitVec 5) (a : BitVec 6) (b : BitVec 6) (s : State) : KeepsKept (execXor i d a b s) s := by
  unfold execXor; simp
@[simp] theorem execShl_kept (i : Fin 1024) (d : BitVec 5) (a : BitVec 6) (b : BitVec 6) (s : State) : KeepsKept (execShl i d a b s) s := by
  unfold execShl; simp
@[simp] theorem execShr_kept (i : Fin 1024) (d : BitVec 5) (a : BitVec 6) (b : BitVec 6) (s : State) : KeepsKept (execShr i d a b s) s := by
  unfold execShr; simp
@[simp] theorem execSar_kept (i : Fin 1024) (d : BitVec 5) (a : BitVec 6) (b : BitVec 6) (s : State) : KeepsKept (execSar i d a b s) s := by
  unfold execSar; simp
@[simp] theorem execIcmp_kept (i : Fin 1024) (d : BitVec 5) (c : Cond) (a : BitVec 6) (b : BitVec 6) (s : State) : KeepsKept (execIcmp i d c a b s) s := by
  unfold execIcmp; simp
@[simp] theorem execItof_kept (i : Fin 1024) (d : BitVec 5) (a : BitVec 6) (s : State) : KeepsKept (execItof i d a s) s := by
  unfold execItof; simp
@[simp] theorem execFtoi_kept (i : Fin 1024) (d : BitVec 5) (rm : RMode) (a : BitVec 6) (s : State) : KeepsKept (execFtoi i d rm a s) s := by
  unfold execFtoi; simp
@[simp] theorem qntSpan_kept (i : Fin 1024) (d : BitVec 5) (f : Fmt) (rm : RMode) (srcs : List (BitVec 6)) (st : Stall) (sp : Span) (s : State) : (qntSpan i d f rm srcs st sp s).kept = s.kept := by
  unfold qntSpan; simp
@[simp] theorem execQnt_kept (i : Fin 1024) (d : BitVec 5) (f : Fmt) (rm : RMode) (a : BitVec 6) (b : BitVec 6) (s : State) : KeepsKept (execQnt i d f rm a b s) s := by
  unfold execQnt; simp
@[simp] theorem execDraw_kept (i : Fin 1024) (d : BitVec 5) (slot : Fin 4) (s : State) : KeepsKept (execDraw i d slot s) s := by
  unfold execDraw; simp
@[simp] theorem flushStream_kept (i : Fin 1024) (id : Nat) : ∀ (n : Nat) (s : State), (flushStream i id n s).kept = s.kept
  | 0, _ => rfl
  | n + 1, s => by unfold flushStream; (repeat' (first | split | (dsimp only; split))) <;> simp [flushStream_kept i id n]
@[simp] theorem sendFlits_kept (i : Fin 1024) (id : Nat) (fs : List StreamFlit) (s : State) : (sendFlits i id fs s).kept = s.kept := by
  unfold sendFlits; simp
@[simp] theorem settleOutput_kept (i : Fin 1024) (s : State) : (settleOutput i s).kept = s.kept := by
  unfold settleOutput; (repeat' (first | split | (dsimp only; split))) <;> simp
@[simp] theorem putSpan_kept (i : Fin 1024) (k : Fin 4) (a : BitVec 6) (st : Stall) (sp : Span) (s : State) : (putSpan i k a st sp s).kept = s.kept := by
  unfold putSpan; (repeat' (first | split | (dsimp only; split))) <;> simp
@[simp] theorem execPut_kept (i : Fin 1024) (k : Fin 4) (a : BitVec 6) (s : State) : KeepsKept (execPut i k a s) s := by
  unfold execPut; simp
@[simp] theorem summSpan_kept (i : Fin 1024) (k : Fin 4) (a : BitVec 6) (st : Stall) (sp : Span) (s : State) : (summSpan i k a st sp s).kept = s.kept := by
  unfold summSpan; (repeat' (first | split | (dsimp only; split))) <;> simp
@[simp] theorem execSumm_kept (i : Fin 1024) (k : Fin 4) (a : BitVec 6) (s : State) : KeepsKept (execSumm i k a s) s := by
  unfold execSumm; simp
@[simp] theorem summaryPartial_kept (verb : Nat) (slot : Nat) (role : Nat) (roles : Nat) (value : W64) (s : State) : (summaryPartial verb slot role roles value s).kept = s.kept := by
  unfold summaryPartial; (repeat' (first | split | (dsimp only; split))) <;> simp
@[simp] theorem execSummaryPartial_kept (verb : Nat) (slot : Nat) (role : Nat) (roles : Nat) (value : W64) (s : State) : KeepsKept (execSummaryPartial verb slot role roles value s) s := by
  unfold execSummaryPartial; simp
@[simp] theorem advanceStreams_kept (l : List (W32 × Nat)) (s : State) : (advanceStreams l s).kept = s.kept := by
  unfold advanceStreams; simp
@[simp] theorem skipUpdate_ok (pq : List Instr) (s : State) (hOk : Ok pq s.kept) : Ok pq (skipUpdate s).kept := by
  unfold skipUpdate; simp (maxDischargeDepth := 30) [*]
@[simp] theorem holdUnvisited_ok (pq : List Instr) (s : State) (hOk : Ok pq s.kept) : Ok pq (holdUnvisited s).kept := by
  unfold holdUnvisited; (repeat' (first | split | (dsimp only; split))) <;> simp (maxDischargeDepth := 30) [*]
@[simp] theorem runDecision_ok (pq : List Instr) (i : Nat) (s : State) (hOk : Ok pq s.kept) : Ok pq (runDecision i s).kept := by
  unfold runDecision; (repeat' (first | split | (dsimp only; split))) <;> simp (maxDischargeDepth := 30) [*]
@[simp] theorem execDecisionRun_ok (pq : List Instr) (i : Nat) (s : State) (hOk : Ok pq s.kept) : OkNext pq (execDecisionRun i s) := by
  unfold execDecisionRun; simp (maxDischargeDepth := 30) [*]
@[simp] theorem checkDetected_ok (p : List Instr) (i : Fin 1024) (mechanism : Nat) (f : Option (Nat × W32 × W32)) (s : State)
    (h : Ok p s.kept) : Ok p (checkDetected i mechanism f s).kept := by
  unfold checkDetected; split
  · exact h
  · simp (maxDischargeDepth := 30) [h]

/-! ### Engine -/

@[simp] theorem sendSum_kept (i : Fin 1024) (j : Nat) (c : List W32) (s : State) : (sendSum i j c s).kept = s.kept := by
  unfold sendSum; simp
@[simp] theorem chainStep_kept (i : Fin 1024) (n : Fin 4) (s : State) : (chainStep i n s).kept = s.kept := by
  unfold chainStep; (repeat' (first | split | (dsimp only; split))) <;> simp
@[simp] theorem enterNodes_kept (k : ExpertRef × Nat) : ∀ (n : Nat) (s : State), (enterNodes k n s).kept = s.kept
  | 0, _ => rfl
  | n + 1, s => by unfold enterNodes; (repeat' (first | split | (dsimp only; split))) <;> simp [enterNodes_kept k n]
@[simp] theorem enterBlock_kept (i : Fin 1024) (n : Fin 4) (w : Nat) (q : Nat) (k : ExpertRef × Nat) (tile : List W32) (s : State) : (enterBlock i n w q k tile s).kept = s.kept := by
  unfold enterBlock; (repeat' (first | split | (dsimp only; split))) <;> simp
@[simp] theorem settleTile_kept (i : Fin 1024) (n : Fin 4) (w : Nat) (s : State) : (settleTile i n w s).kept = s.kept := by
  unfold settleTile; (repeat' (first | split | (dsimp only; split))) <;> simp
@[simp] theorem cascadeNode_kept (x : ExpertRef) (tile : Nat) (level : Nat) (index : Nat) (values : List W32) (s : State) : (cascadeNode x tile level index values s).kept = s.kept := by
  unfold cascadeNode; simp
@[simp] theorem execCascadeNode_kept (x : ExpertRef) (tile : Nat) (level : Nat) (index : Nat) (values : List W32) (s : State) : KeepsKept (execCascadeNode x tile level index values s) s := by
  unfold execCascadeNode; simp
@[simp] theorem tileBlock_kept (i : Fin 1024) (p : BlockPass) (k : ExpertRef × Nat) (n : Fin 4) (tile : List W32) (s : State) : (tileBlock i p k n tile s).kept = s.kept := by
  unfold tileBlock; simp
@[simp] theorem askGathers_kept (clause : Nat) (s : State) : (askGathers clause s).kept = s.kept := by
  unfold askGathers; simp
@[simp] theorem streamShort_kept (i : Fin 1024) (id : Nat) (s : State) : (streamShort i id s).kept = s.kept := by
  unfold streamShort; simp
@[simp] theorem consumeStream_kept (i : Fin 1024) (id : Nat) (n : Nat) (s : State) : (consumeStream i id n s).kept = s.kept := by
  unfold consumeStream; simp
@[simp] theorem runPass_ok (pq : List Instr) (i : Fin 1024) (p : BlockPass) (s : State) (hOk : Ok pq s.kept) : Ok pq (runPass i p s).kept := by
  unfold runPass
  dsimp only
  split
  · apply checkDetected_ok
    apply ok_foldl
    · intro t a ht; split <;> simp [ht]
    · split <;> simp [hOk]
  · apply checkDetected_ok
    apply checkDetected_ok
    split <;> simp [hOk]
@[simp] theorem weightPass_ok (pq : List Instr) (i : Fin 1024) (p : BlockPass) (s : State) (hOk : Ok pq s.kept) : Ok pq (weightPass i p s).kept := by
  unfold weightPass; (repeat' (first | split | (dsimp only; split))) <;> simp (maxDischargeDepth := 30) [*]
@[simp] theorem execWeightBlockPass_ok (pq : List Instr) (i : Fin 1024) (p : BlockPass) (s : State) (hOk : Ok pq s.kept) : OkNext pq (execWeightBlockPass i p s) := by
  unfold execWeightBlockPass; simp (maxDischargeDepth := 30) [*]
@[simp] theorem preloadIssue_kept (i : Fin 1024) (n : Fin 4) (src : PreloadSrc) (f : Fmt) (only : Bool) (s : State) : (preloadIssue i n src f only s).kept = s.kept := by
  unfold preloadIssue; simp
@[simp] theorem execPreloadIssue_kept (i : Fin 1024) (n : Fin 4) (src : PreloadSrc) (f : Fmt) (only : Bool) (s : State) : KeepsKept (execPreloadIssue i n src f only s) s := by
  unfold execPreloadIssue; simp
@[simp] theorem preloadComplete_kept (i : Fin 1024) (n : Fin 4) (codes : List W32) (s : State) : (preloadComplete i n codes s).kept = s.kept := by
  unfold preloadComplete; (repeat' (first | split | (dsimp only; split))) <;> simp
@[simp] theorem execPreloadComplete_kept (i : Fin 1024) (n : Fin 4) (codes : List W32) (s : State) : KeepsKept (execPreloadComplete i n codes s) s := by
  unfold execPreloadComplete; simp
@[simp] theorem runningSum_kept (i : Fin 1024) (n : Fin 4) (c : List W32) (s : State) : (runningSum i n c s).kept = s.kept := by
  unfold runningSum; simp
@[simp] theorem execRunningSum_kept (i : Fin 1024) (n : Fin 4) (c : List W32) (s : State) : KeepsKept (execRunningSum i n c s) s := by
  unfold execRunningSum; simp
@[simp] theorem fillColumn_kept (i : Fin 1024) (d : DrainElem) (tid : W64) (s : State) : (fillColumn i d tid s).kept = s.kept := by
  unfold fillColumn; (repeat' (first | split | (dsimp only; split))) <;> simp
@[simp] theorem fillColumns_kept (i : Fin 1024) (d : DrainElem) (b : Buf) (s : State) : (fillColumns i d b s).kept = s.kept := by
  unfold fillColumns; simp
@[simp] theorem drainElement_kept (i : Fin 1024) (n : Fin 4) (d : DrainElem) (s : State) : (drainElement i n d s).kept = s.kept := by
  unfold drainElement; simp
@[simp] theorem execDrainElement_kept (i : Fin 1024) (n : Fin 4) (d : DrainElem) (s : State) : KeepsKept (execDrainElement i n d s) s := by
  unfold execDrainElement; simp
@[simp] theorem streamSend_kept (i : Fin 1024) (id : Nat) (f : StreamFlit) (s : State) : (streamSend i id f s).kept = s.kept := by
  unfold streamSend; simp
@[simp] theorem execStreamFlitSend_kept (i : Fin 1024) (id : Nat) (f : StreamFlit) (s : State) : KeepsKept (execStreamFlitSend i id f s) s := by
  unfold execStreamFlitSend; simp
@[simp] theorem settleWait_kept (i : Fin 1024) (cause : Fin 14) (s : State) : (settleWait i cause s).kept = s.kept := by
  unfold settleWait; simp
@[simp] theorem creditReturn_kept (i : Fin 1024) (id : Nat) (consumer : Nat) (s : State) : (creditReturn i id consumer s).kept = s.kept := by
  unfold creditReturn; (repeat' (first | split | (dsimp only; split))) <;> simp
@[simp] theorem execCreditReturn_kept (i : Fin 1024) (id : Nat) (consumer : Nat) (s : State) : KeepsKept (execCreditReturn i id consumer s) s := by
  unfold execCreditReturn; simp
@[simp] theorem streamReceive_ok (pq : List Instr) (i : Fin 1024) (id : Nat) (f : StreamFlit) (s : State) (hOk : Ok pq s.kept) : Ok pq (streamReceive i id f s).kept := by
  unfold streamReceive; (repeat' (first | split | (dsimp only; split))) <;> simp (maxDischargeDepth := 30) [*]
@[simp] theorem execStreamFlitReceive_ok (pq : List Instr) (i : Fin 1024) (id : Nat) (f : StreamFlit) (s : State) (hOk : Ok pq s.kept) : OkNext pq (execStreamFlitReceive i id f s) := by
  unfold execStreamFlitReceive; simp (maxDischargeDepth := 30) [*]
@[simp] theorem contextSwitch_kept (i : Fin 1024) (ctx : Nat) (s : State) : (contextSwitch i ctx s).kept = s.kept := by
  unfold contextSwitch; simp
@[simp] theorem execContextSwitch_kept (i : Fin 1024) (ctx : Nat) (s : State) : KeepsKept (execContextSwitch i ctx s) s := by
  unfold execContextSwitch; simp

/-! ### Residency -/

@[simp] theorem setDir_kept (x : ExpertRef) (f : DirEntry → DirEntry) (s : State) : (setDir x f s).kept = s.kept := by
  unfold setDir; simp
@[simp] theorem applyVisits_ok (pq : List Instr) (totals : List W32) (s : State) (hOk : Ok pq s.kept) : Ok pq (applyVisits totals s).kept := by
  unfold applyVisits; simp (maxDischargeDepth := 30) [*]
@[simp] theorem residCount_kept (layer : Nat) (f : ResidTotal → ResidTotal) (s : State) : (residCount layer f s).kept = s.kept := by
  unfold residCount; simp
@[simp] theorem startCopyOut_kept (x : ExpertRef) (m : Nat) (s : State) : (startCopyOut x m s).kept = s.kept := by
  unfold startCopyOut; simp
@[simp] theorem cutReplicas_kept (x : ExpertRef) (n : Nat) (s : State) : (cutReplicas x n s).kept = s.kept := by
  unfold cutReplicas; (repeat' (first | split | (dsimp only; split))) <;> simp
@[simp] theorem demote_kept (x : ExpertRef) (s : State) : (demote x s).kept = s.kept := by
  unfold demote; (repeat' (first | split | (dsimp only; split))) <;> simp
@[simp] theorem promote_kept (x : ExpertRef) (s : State) : (promote x s).kept = s.kept := by
  unfold promote; (repeat' (first | split | (dsimp only; split))) <;> simp
@[simp] theorem addReplicas_kept (x : ExpertRef) : ∀ (n : Nat) (s : State), (addReplicas x n s).kept = s.kept
  | 0, _ => rfl
  | n + 1, s => by unfold addReplicas; (repeat' (first | split | (dsimp only; split))) <;> simp [addReplicas_kept x n]
@[simp] theorem residencyDecisions_kept (promoted : List ExpertRef) (s : State) : (residencyDecisions promoted s).kept = s.kept := by
  unfold residencyDecisions; simp
@[simp] theorem promotionCopyDone_kept (x : ExpertRef) (s : State) : (promotionCopyDone x s).kept = s.kept := by
  unfold promotionCopyDone; (repeat' (first | split | (dsimp only; split))) <;> simp
@[simp] theorem execPromotionCopyDone_kept (x : ExpertRef) (s : State) : KeepsKept (execPromotionCopyDone x s) s := by
  unfold execPromotionCopyDone; simp
@[simp] theorem replicaCopyDone_ok (pq : List Instr) (x : ExpertRef) (c : ReplicaCopy) (s : State) (hOk : Ok pq s.kept) : Ok pq (replicaCopyDone x c s).kept := by
  unfold replicaCopyDone; (repeat' (first | split | (dsimp only; split))) <;> simp (maxDischargeDepth := 30) [*]
@[simp] theorem execReplicaCopyDone_ok (pq : List Instr) (x : ExpertRef) (c : ReplicaCopy) (s : State) (hOk : Ok pq s.kept) : OkNext pq (execReplicaCopyDone x c s) := by
  unfold execReplicaCopyDone; simp (maxDischargeDepth := 30) [*]
@[simp] theorem execCopyOutComplete_kept (x : ExpertRef) (m : Nat) (s : State) : KeepsKept (execCopyOutComplete x m s) s := by
  unfold execCopyOutComplete; simp
@[simp] theorem gatherDone_ok (pq : List Instr) (layer : Nat) (secs : List Section) (s : State) (hOk : Ok pq s.kept) : Ok pq (gatherDone layer secs s).kept := by
  unfold gatherDone; (repeat' (first | split | (dsimp only; split))) <;> simp (maxDischargeDepth := 30) [*]
@[simp] theorem execGatherDone_ok (pq : List Instr) (layer : Nat) (secs : List Section) (s : State) (hOk : Ok pq s.kept) : OkNext pq (execGatherDone layer secs s) := by
  unfold execGatherDone; simp (maxDischargeDepth := 30) [*]

/-! ### Ledger -/

@[simp] theorem putBatch_kept (b : Batch) (s : State) : (putBatch b s).kept = s.kept := by
  unfold putBatch; simp
@[simp] theorem routeCount_kept (k : BatchKey) (f : RouteTotal → RouteTotal) (s : State) : (routeCount k f s).kept = s.kept := by
  unfold routeCount; simp
@[simp] theorem sendCounts_kept (d : W128) (b : Batch) (s : State) : (sendCounts d b s).kept = s.kept := by
  unfold sendCounts; simp
@[simp] theorem select_kept (key : BatchKey) (token : Nat) (scores : List W32) (vec : List W32) (last : Bool) (s : State) : (select key token scores vec last s).kept = s.kept := by
  unfold select; (repeat' (first | split | (dsimp only; split))) <;> simp
@[simp] theorem execSelect_kept (key : BatchKey) (token : Nat) (scores : List W32) (vec : List W32) (last : Bool) (s : State) : KeepsKept (execSelect key token scores vec last s) s := by
  unfold execSelect; simp
@[simp] theorem startFetch_kept (x : ExpertRef) (s : State) : (startFetch x s).kept = s.kept := by
  unfold startFetch; simp
@[simp] theorem addVisits_kept (x : ExpertRef) (placed : Nat) (requested : Nat) (s : State) : (addVisits x placed requested s).kept = s.kept := by
  unfold addVisits; simp
@[simp] theorem grantOne_kept (l : ExpertLayer) (b : Batch) (cap : Nat) (e : Nat) (s : State) : (grantOne l b cap e s).2.kept = s.kept := by
  unfold grantOne; simp
@[simp] theorem grantAll_kept (l : ExpertLayer) (b : Batch) (s : State) : (grantAll l b s).kept = s.kept := by
  unfold grantAll; simp
@[simp] theorem countRecord_kept (key : BatchKey) (m : Nat) (tm : Nat) (counts : List CountEntry) (s : State) : (countRecord key m tm counts s).kept = s.kept := by
  unfold countRecord; (repeat' (first | split | (dsimp only; split))) <;> simp
@[simp] theorem execCountRecord_kept (key : BatchKey) (m : Nat) (tm : Nat) (counts : List CountEntry) (s : State) : KeepsKept (execCountRecord key m tm counts s) s := by
  unfold execCountRecord; simp
@[simp] theorem putStream_kept (k : BatchKey × Nat × Bool × Bool) (bs : Bytes) (s : State) : (putStream k bs s).kept = s.kept := by
  unfold putStream; simp
@[simp] theorem recordFailure_ok (pq : List Instr) (h : RecHeader) (computed : W64) (s : State) (hOk : Ok pq s.kept) : Ok pq (recordFailure h computed s).kept := by
  unfold recordFailure; simp (maxDischargeDepth := 30) [*]
@[simp] theorem formRecords_kept (l : ExpertLayer) (back : Bool) (key : BatchKey) (s : State) (pairs : List (Nat × Nat)) :
    (formRecords l back key s pairs).2.kept = s.kept := by
  have go : ∀ (pairs : List (Nat × Nat)) (f : List Out × State × List (Nat × Nat) → Nat × Nat → List Out × State × List (Nat × Nat)),
      (∀ x y, (f x y).2.1.kept = x.2.1.kept) → ∀ x, (pairs.foldl f x).2.1.kept = x.2.1.kept := by
    intro pairs f hf
    induction pairs with
    | nil => intro x; rfl
    | cons y t ih => intro x; rw [List.foldl_cons, ih, hf]
  unfold formRecords
  exact go pairs _ (fun x y => by simp) _
@[simp] theorem sendRecords_kept (l : ExpertLayer) (back : Bool) (key : BatchKey) (s : State) : (sendRecords l back key s).kept = s.kept := by
  unfold sendRecords; simp
@[simp] theorem startPasses_kept (w : Nat) (back : Bool) (key : BatchKey) (s : State) : (startPasses w back key s).kept = s.kept := by
  unfold startPasses; simp
@[simp] theorem badPosition_ok (pq : List Instr) (h : RecHeader) (s : State) (hOk : Ok pq s.kept) : Ok pq (badPosition h s).kept := by
  unfold badPosition; simp (maxDischargeDepth := 30) [*]
@[simp] theorem takeRecord_ok (pq : List Instr) (l : ExpertLayer) (back : Bool) (h : RecHeader) (weights : List W32) (vec : List W32) (s : State) (hOk : Ok pq s.kept) : Ok pq (takeRecord l back h weights vec s).kept := by
  unfold takeRecord; (repeat' (first | split | (dsimp only; split))) <;> simp (maxDischargeDepth := 30) [*]
@[simp] theorem recordArrives_ok (pq : List Instr) (back : Bool) (h : RecHeader) (weights : List W32) (vec : List W32) (s : State) (hOk : Ok pq s.kept) : Ok pq (recordArrives back h weights vec s).kept := by
  unfold recordArrives; (repeat' (first | split | (dsimp only; split))) <;> simp (maxDischargeDepth := 30) [*]
@[simp] theorem takeEarly_ok (pq : List Instr) (l : ExpertLayer) (back : Bool) (key : BatchKey) (s : State) (hOk : Ok pq s.kept) : Ok pq (takeEarly l back key s).kept := by
  unfold takeEarly; simp (maxDischargeDepth := 30) +contextual [*]
@[simp] theorem execDispatchRecord_ok (pq : List Instr) (h : RecHeader) (payload : List W32) (s : State) (hOk : Ok pq s.kept) : OkNext pq (execDispatchRecord h payload s) := by
  unfold execDispatchRecord; simp (maxDischargeDepth := 30) [*]
@[simp] theorem openConv_kept (l : ExpertLayer) (layer : Nat) (back : Bool) (s : State) : (openConv l layer back s).kept = s.kept := by
  unfold openConv; simp
@[simp] theorem dropTokens_kept (l : ExpertLayer) (key : BatchKey) (s : State) : (dropTokens l key s).kept = s.kept := by
  unfold dropTokens; simp
@[simp] theorem grantArrives_ok (pq : List Instr) (key : BatchKey) (home : Nat) (cap : Nat) (grants : List GrantEntry) (split : List SplitEntry) (s : State) (hOk : Ok pq s.kept) : Ok pq (grantArrives key home cap grants split s).kept := by
  unfold grantArrives; (repeat' (first | split | (dsimp only; split))) <;> simp (maxDischargeDepth := 30) [*]
@[simp] theorem execGrant_ok (pq : List Instr) (key : BatchKey) (home : Nat) (cap : Nat) (grants : List GrantEntry) (split : List SplitEntry) (s : State) (hOk : Ok pq s.kept) : OkNext pq (execGrant key home cap grants split s) := by
  unfold execGrant; simp (maxDischargeDepth := 30) [*]
@[simp] theorem passCredit_ok (pq : List Instr) (key : BatchKey) (e : Nat) (p : Nat) (back : Bool) (s : State) (hOk : Ok pq s.kept) : Ok pq (passCredit key e p back s).kept := by
  unfold passCredit; (repeat' (first | split | (dsimp only; split))) <;> simp (maxDischargeDepth := 30) [*]
@[simp] theorem execPassCredit_ok (pq : List Instr) (key : BatchKey) (e : Nat) (p : Nat) (back : Bool) (s : State) (hOk : Ok pq s.kept) : OkNext pq (execPassCredit key e p back s) := by
  unfold execPassCredit; simp (maxDischargeDepth := 30) [*]
@[simp] theorem expertFetchDone_kept (x : ExpertRef) (s : State) : (expertFetchDone x s).kept = s.kept := by
  unfold expertFetchDone; (repeat' (first | split | (dsimp only; split))) <;> simp
@[simp] theorem execExpertFetchDone_kept (x : ExpertRef) (s : State) : KeepsKept (execExpertFetchDone x s) s := by
  unfold execExpertFetchDone; simp
@[simp] theorem freeSlots_kept (key : BatchKey) (src : Nat) (token : Nat) (s : State) : (freeSlots key src token s).kept = s.kept := by
  unfold freeSlots; simp
@[simp] theorem sendReturn_kept (l : ExpertLayer) (back : Bool) (key : BatchKey) (s : State) (h : RecHeader) : (sendReturn l back key s h).kept = s.kept := by
  unfold sendReturn; (repeat' (first | split | (dsimp only; split))) <;> simp
@[simp] theorem sendReturns_kept (l : ExpertLayer) (back : Bool) (key : BatchKey) (s : State) : (sendReturns l back key s).kept = s.kept := by
  unfold sendReturns; simp
@[simp] theorem passComplete_kept (key : BatchKey) (e : Nat) (p : Nat) (back : Bool) (outs : List (Nat × List W32)) (s : State) : (passComplete key e p back outs s).kept = s.kept := by
  unfold passComplete; (repeat' (first | split | (dsimp only; split))) <;> simp
@[simp] theorem execPassComplete_kept (key : BatchKey) (e : Nat) (p : Nat) (back : Bool) (outs : List (Nat × List W32)) (s : State) : KeepsKept (execPassComplete key e p back outs s) s := by
  unfold execPassComplete; simp
@[simp] theorem freeSources_kept (key : BatchKey) (token : Nat) (m : Option Nat) (s : State) : (freeSources key token m s).kept = s.kept := by
  unfold freeSources; simp
@[simp] theorem combineToken_kept (l : ExpertLayer) (key : BatchKey) (token : Nat) (s : State) : (combineToken l key token s).kept = s.kept := by
  unfold combineToken; (repeat' (first | split | (dsimp only; split))) <;> simp
@[simp] theorem returnRecord_ok (pq : List Instr) (h : RecHeader) (server : Nat) (outs : List (Nat × List W32)) (s : State) (hOk : Ok pq s.kept) : Ok pq (returnRecord h server outs s).kept := by
  unfold returnRecord; (repeat' (first | split | (dsimp only; split))) <;> simp (maxDischargeDepth := 30) [*]
@[simp] theorem execReturnRecord_ok (pq : List Instr) (h : RecHeader) (server : Nat) (outs : List (Nat × List W32)) (s : State) (hOk : Ok pq s.kept) : OkNext pq (execReturnRecord h server outs s) := by
  unfold execReturnRecord; simp (maxDischargeDepth := 30) [*]
@[simp] theorem setParked_kept (key : BatchKey) (v : Bool) (s : State) : (setParked key v s).kept = s.kept := by
  unfold setParked; simp
@[simp] theorem park_kept (key : BatchKey) (s : State) : (park key s).kept = s.kept := by
  unfold park; simp
@[simp] theorem execPark_kept (key : BatchKey) (s : State) : KeepsKept (execPark key s) s := by
  unfold execPark; simp
@[simp] theorem unpark_ok (pq : List Instr) (key : BatchKey) (grads : List (Nat × List W32)) (s : State) (hOk : Ok pq s.kept) : Ok pq (unpark key grads s).kept := by
  unfold unpark; (repeat' (first | split | (dsimp only; split))) <;> simp (maxDischargeDepth := 30) [*]
@[simp] theorem execUnpark_ok (pq : List Instr) (key : BatchKey) (grads : List (Nat × List W32)) (s : State) (hOk : Ok pq s.kept) : OkNext pq (execUnpark key grads s) := by
  unfold execUnpark; simp (maxDischargeDepth := 30) [*]
@[simp] theorem execBackwardRecord_ok (pq : List Instr) (h : RecHeader) (weights : List W32) (grad : List W32) (s : State) (hOk : Ok pq s.kept) : OkNext pq (execBackwardRecord h weights grad s) := by
  unfold execBackwardRecord; simp (maxDischargeDepth := 30) [*]
@[simp] theorem backwardReturn_ok (pq : List Instr) (h : RecHeader) (server : Nat) (nodes : List TreeNode) (s : State) (hOk : Ok pq s.kept) : Ok pq (backwardReturn h server nodes s).kept := by
  unfold backwardReturn; (repeat' (first | split | (dsimp only; split))) <;> simp (maxDischargeDepth := 30) [*]
@[simp] theorem execBackwardReturn_ok (pq : List Instr) (h : RecHeader) (server : Nat) (nodes : List TreeNode) (s : State) (hOk : Ok pq s.kept) : OkNext pq (execBackwardReturn h server nodes s) := by
  unfold execBackwardReturn; simp (maxDischargeDepth := 30) [*]

/-! ### House -/

@[simp] theorem updColl_kept (seq : W48) (f : Coll → Coll) (s : State) : (updColl seq f s).kept = s.kept := by
  unfold updColl; simp
@[simp] theorem collCount_kept (c : Coll) (f : CollTotal → CollTotal) (s : State) : (collCount c f s).kept = s.kept := by
  unfold collCount; simp
@[simp] theorem openColls_kept (s : State) : (openColls s).kept = s.kept := by
  unfold openColls; simp
@[simp] theorem auditRoll_kept (m : Nat) (r : RollMsg) (s : State) : (auditRoll m r s).kept = s.kept := by
  unfold auditRoll; simp
@[simp] theorem freeLease_kept (seq : W48) (s : State) : (freeLease seq s).kept = s.kept := by
  unfold freeLease; (repeat' (first | split | (dsimp only; split))) <;> simp
@[simp] theorem endColl_ok (pq : List Instr) (c : Coll) (s : State) (hOk : Ok pq s.kept) : Ok pq (endColl c s).kept := by
  unfold endColl; (repeat' (first | split | (dsimp only; split))) <;> simp (maxDischargeDepth := 30) [*]
@[simp] theorem holdTerms_ok (pq : List Instr) (terms : List (Nat × W32 × Bool)) (s : State) (hOk : Ok pq s.kept) : Ok pq (holdTerms terms s).kept := by
  unfold holdTerms; (repeat' (first | split | (dsimp only; split))) <;> simp (maxDischargeDepth := 30) [*]
@[simp] theorem sendTerms_ok (pq : List Instr) (s : State) (hOk : Ok pq s.kept) : Ok pq (sendTerms s).kept := by
  unfold sendTerms; (repeat' (first | split | (dsimp only; split))) <;> simp (maxDischargeDepth := 30) [*]
@[simp] theorem completeColl_ok (pq : List Instr) (c : Coll) (s : State) (hOk : Ok pq s.kept) : Ok pq (completeColl c s).kept := by
  unfold completeColl; simp (maxDischargeDepth := 30) [*]
@[simp] theorem settleColl_ok (pq : List Instr) (seq : W48) (s : State) (hOk : Ok pq s.kept) : Ok pq (settleColl seq s).kept := by
  unfold settleColl; (repeat' (first | split | (dsimp only; split))) <;> simp (maxDischargeDepth := 30) [*]
@[simp] theorem mirrorShard_kept (c : Coll) (s : State) : (mirrorShard c s).kept = s.kept := by
  unfold mirrorShard; simp
@[simp] theorem mirrorIfWhole_kept (seq : W48) (shard : Nat) (s : State) : (mirrorIfWhole seq shard s).kept = s.kept := by
  unfold mirrorIfWhole; (repeat' (first | split | (dsimp only; split))) <;> simp
@[simp] theorem holdResult_kept (m : ReleasedMsg) (s : State) : (holdResult m s).kept = s.kept := by
  unfold holdResult; simp
@[simp] theorem takeResult_ok (pq : List Instr) (c : Coll) (m : ReleasedMsg) (s : State) (hOk : Ok pq s.kept) : Ok pq (takeResult c m s).kept := by
  unfold takeResult; simp (maxDischargeDepth := 30) [*]
@[simp] theorem releaseChunk_ok (pq : List Instr) (c : Coll) (x : ChunkState) (sum : List W32) (s : State) (hOk : Ok pq s.kept) : Ok pq (releaseChunk c x sum s).kept := by
  unfold releaseChunk; simp (maxDischargeDepth := 30) [*]
@[simp] theorem sendNode_ok (pq : List Instr) (c : Coll) (shard : Nat) (chunk : Nat) (places : List Nat) (rho : Nat) (t : Nat × Nat) (v : List W32) (s : State) (hOk : Ok pq s.kept) : Ok pq (sendNode c shard chunk places rho t v s).kept := by
  unfold sendNode; simp (maxDischargeDepth := 30) [*]
@[simp] theorem advanceChunk_ok (p : List Instr) (seq : W48) (shard chunk : Nat) (s : State) (h : Ok p s.kept) :
    Ok p (advanceChunk seq shard chunk s).kept := by
  unfold advanceChunk
  split
  · exact h
  · dsimp only
    split
    · exact h
    · apply ok_foldl _ _ _ _ _ h
      intro u t hu
      (repeat' split) <;> simp (maxDischargeDepth := 30) [hu]
@[simp] theorem slotWaits_kept (seq : W48) (s : State) : (slotWaits seq s).kept = s.kept := by
  unfold slotWaits; (repeat' (first | split | (dsimp only; split))) <;> simp
@[simp] theorem advanceColl_ok (pq : List Instr) (seq : W48) (s : State) (hOk : Ok pq s.kept) : Ok pq (advanceColl seq s).kept := by
  unfold advanceColl; (repeat' (first | split | (dsimp only; split))) <;> simp (maxDischargeDepth := 30) +contextual [*]
@[simp] theorem advanceGather_ok (p : List Instr) (seq : W48) (s : State) (h : Ok p s.kept) : Ok p (advanceGather seq s).kept := by
  unfold advanceGather
  split
  · exact h
  · split
    · exact h
    · apply ok_foldl _ _ _ _ _ h
      intro u t hu
      (repeat' split) <;> simp (maxDischargeDepth := 30) [hu]
@[simp] theorem advance_ok (pq : List Instr) (seq : W48) (s : State) (hOk : Ok pq s.kept) : Ok pq (advance seq s).kept := by
  unfold advance; (repeat' (first | split | (dsimp only; split))) <;> simp (maxDischargeDepth := 30) [*]
@[simp] theorem putCarry_kept (entry : Nat) (tag : W48) (codes : List W32) (s : State) : (putCarry entry tag codes s).kept = s.kept := by
  unfold putCarry; simp
@[simp] theorem lateContribution_kept (c : Coll) (s : State) : (lateContribution c s).kept = s.kept := by
  unfold lateContribution; simp
@[simp] theorem applyRoll_ok (pq : List Instr) (r : RollMsg) (s : State) (hOk : Ok pq s.kept) : Ok pq (applyRoll r s).kept := by
  unfold applyRoll; (repeat' (first | split | (dsimp only; split))) <;> simp (maxDischargeDepth := 30) [*]
@[simp] theorem execRoll_ok (pq : List Instr) (r : RollMsg) (s : State) (hOk : Ok pq s.kept) : OkNext pq (execRoll r s) := by
  unfold execRoll; simp (maxDischargeDepth := 30) [*]
@[simp] theorem barrierDone_ok (pq : List Instr) (seq : W48) (s : State) (hOk : Ok pq s.kept) : Ok pq (barrierDone seq s).kept := by
  unfold barrierDone; (repeat' (first | split | (dsimp only; split))) <;> simp (maxDischargeDepth := 30) [*]
@[simp] theorem execBarrierCompletion_ok (pq : List Instr) (seq : W48) (s : State) (hOk : Ok pq s.kept) : OkNext pq (execBarrierCompletion seq s) := by
  unfold execBarrierCompletion; simp (maxDischargeDepth := 30) [*]
@[simp] theorem closeRoll_ok (pq : List Instr) (c : Coll) (s : State) (hOk : Ok pq s.kept) : Ok pq (closeRoll c s).kept := by
  unfold closeRoll; simp (maxDischargeDepth := 30) [*]
@[simp] theorem dropColls_kept (s : State) : (dropColls s).kept = s.kept := by
  unfold dropColls; simp
@[simp] theorem abortColl_ok (pq : List Instr) (seq : W48) (member : Nat) (fld : Byte) (s : State) (hOk : Ok pq s.kept) : Ok pq (abortColl seq member fld s).kept := by
  unfold abortColl; simp (maxDischargeDepth := 30) [*]
@[simp] theorem execCollectiveAbort_ok (pq : List Instr) (seq : W48) (member : Nat) (fld : Byte) (s : State) (hOk : Ok pq s.kept) : OkNext pq (execCollectiveAbort seq member fld s) := by
  unfold execCollectiveAbort; simp (maxDischargeDepth := 30) [*]
@[simp] theorem closeIfFull_ok (pq : List Instr) (seq : W48) (s : State) (hOk : Ok pq s.kept) : Ok pq (closeIfFull seq s).kept := by
  unfold closeIfFull; (repeat' (first | split | (dsimp only; split))) <;> simp (maxDischargeDepth := 30) [*]
@[simp] theorem recordHeader_ok (pq : List Instr) (c : Coll) (h : CHeader) (s : State) (hOk : Ok pq s.kept) : Ok pq (recordHeader c h s).kept := by
  unfold recordHeader; simp (maxDischargeDepth := 30) [*]
@[simp] theorem takeHeader_ok (pq : List Instr) (h : CHeader) (s : State) (hOk : Ok pq s.kept) : Ok pq (takeHeader h s).kept := by
  unfold takeHeader; (repeat' (first | split | (dsimp only; split))) <;> simp (maxDischargeDepth := 30) [*]
@[simp] theorem execContributionHeader_ok (pq : List Instr) (h : CHeader) (s : State) (hOk : Ok pq s.kept) : OkNext pq (execContributionHeader h s) := by
  unfold execContributionHeader; simp (maxDischargeDepth := 30) [*]
@[simp] theorem sendHeader_ok (pq : List Instr) (c : Coll) (h : CHeader) (s : State) (hOk : Ok pq s.kept) : Ok pq (sendHeader c h s).kept := by
  unfold sendHeader; simp (maxDischargeDepth := 30) [*]
@[simp] theorem deadlineClose_ok (pq : List Instr) (seq : W48) (s : State) (hOk : Ok pq s.kept) : Ok pq (deadlineClose seq s).kept := by
  unfold deadlineClose; (repeat' (first | split | (dsimp only; split))) <;> simp (maxDischargeDepth := 30) [*]
@[simp] theorem execDeadlineClose_ok (pq : List Instr) (seq : W48) (s : State) (hOk : Ok pq s.kept) : OkNext pq (execDeadlineClose seq s) := by
  unfold execDeadlineClose; simp (maxDischargeDepth := 30) [*]
@[simp] theorem residueFailures_kept : ∀ (l : List (Fin 16)) (s : State), (residueFailures l s).kept = s.kept
  | [], _ => rfl
  | _ :: t, s => by unfold residueFailures; (repeat' (first | split | (dsimp only; split))) <;> simp [residueFailures_kept t]
@[simp] theorem requestLease_kept (c : Coll) (s : State) : (requestLease c s).kept = s.kept := by
  unfold requestLease; simp
@[simp] theorem holdNode_kept (c : ChunkMsg) (s : State) : (holdNode c s).kept = s.kept := by
  unfold holdNode; simp
@[simp] theorem lateChunk_kept (c : Coll) (m : ChunkMsg) (s : State) : (lateChunk c m s).kept = s.kept := by
  unfold lateChunk; (repeat' (first | split | (dsimp only; split))) <;> simp
@[simp] theorem chunkArrival_ok (pq : List Instr) (m : ChunkMsg) (fails : List (Fin 16)) (s : State) (hOk : Ok pq s.kept) : Ok pq (chunkArrival m fails s).kept := by
  unfold chunkArrival; (repeat' (first | split | (dsimp only; split))) <;> simp (maxDischargeDepth := 30) [*]
@[simp] theorem execChunkArrival_ok (pq : List Instr) (m : ChunkMsg) (fails : List (Fin 16)) (s : State) (hOk : Ok pq s.kept) : OkNext pq (execChunkArrival m fails s) := by
  unfold execChunkArrival; simp (maxDischargeDepth := 30) [*]
@[simp] theorem fallBack_ok (pq : List Instr) (c : Coll) (s : State) (hOk : Ok pq s.kept) : Ok pq (fallBack c s).kept := by
  unfold fallBack; simp (maxDischargeDepth := 30) [*]
@[simp] theorem leaseGrant_ok (pq : List Instr) (s : State) (hOk : Ok pq s.kept) : Ok pq (leaseGrant s).kept := by
  unfold leaseGrant; (repeat' (first | split | (dsimp only; split))) <;> simp (maxDischargeDepth := 30) [*]
@[simp] theorem execLeaseGrant_ok (pq : List Instr) (s : State) (hOk : Ok pq s.kept) : OkNext pq (execLeaseGrant s) := by
  unfold execLeaseGrant; simp (maxDischargeDepth := 30) [*]
@[simp] theorem slotWaitExpiry_ok (pq : List Instr) (seq : W48) (s : State) (hOk : Ok pq s.kept) : Ok pq (slotWaitExpiry seq s).kept := by
  unfold slotWaitExpiry; (repeat' (first | split | (dsimp only; split))) <;> simp (maxDischargeDepth := 30) [*]
@[simp] theorem execSlotWaitExpiry_ok (pq : List Instr) (seq : W48) (s : State) (hOk : Ok pq s.kept) : OkNext pq (execSlotWaitExpiry seq s) := by
  unfold execSlotWaitExpiry; simp (maxDischargeDepth := 30) [*]
@[simp] theorem releasedChunk_ok (pq : List Instr) (m : ReleasedMsg) (s : State) (hOk : Ok pq s.kept) : Ok pq (releasedChunk m s).kept := by
  unfold releasedChunk; (repeat' (first | split | (dsimp only; split))) <;> simp (maxDischargeDepth := 30) [*]
@[simp] theorem execReleasedChunk_ok (pq : List Instr) (m : ReleasedMsg) (s : State) (hOk : Ok pq s.kept) : OkNext pq (execReleasedChunk m s) := by
  unfold execReleasedChunk; simp (maxDischargeDepth := 30) [*]
@[simp] theorem sendCarry_ok (pq : List Instr) (c : Coll) (s : State) (hOk : Ok pq s.kept) : Ok pq (sendCarry c s).kept := by
  unfold sendCarry; (repeat' (first | split | (dsimp only; split))) <;> simp (maxDischargeDepth := 30) [*]
@[simp] theorem reuseRoll_ok (pq : List Instr) (c : Coll) (s : State) (hOk : Ok pq s.kept) : Ok pq (reuseRoll c s).kept := by
  unfold reuseRoll; (repeat' (first | split | (dsimp only; split))) <;> simp (maxDischargeDepth := 30) [*]
@[simp] theorem startColls_ok (pq : List Instr) (s : State) (hOk : Ok pq s.kept) : Ok pq (startColls s).kept := by
  unfold startColls; simp (maxDischargeDepth := 30) +contextual [*]

/-! ### Security -/

@[simp] theorem fuses_kept (pendingSvn : Nat) (s : State) : (fuses pendingSvn s).kept = s.kept := by
  unfold fuses; simp
@[simp] theorem execFuses_kept (pendingSvn : Nat) (s : State) : KeepsKept (execFuses pendingSvn s) s := by
  unfold execFuses; simp
@[simp] theorem bankFails_kept (image : Nat) (check : Nat) (s : State) : (bankFails image check s).kept = s.kept := by
  unfold bankFails; (repeat' (first | split | (dsimp only; split))) <;> simp
@[simp] theorem loader_ok (pq : List Instr) (s : State) (hOk : Ok pq s.kept) : Ok pq (loader s).kept := by
  unfold loader; (repeat' (first | split | (dsimp only; split))) <;> simp (maxDischargeDepth := 30) [*]
@[simp] theorem execLoader_ok (pq : List Instr) (s : State) (hOk : Ok pq s.kept) : OkNext pq (execLoader s) := by
  unfold execLoader; simp (maxDischargeDepth := 30) [*]
@[simp] theorem firmwareVerify_ok (pq : List Instr) (s : State) (hOk : Ok pq s.kept) : Ok pq (firmwareVerify s).kept := by
  unfold firmwareVerify; (repeat' (first | split | (dsimp only; split))) <;> simp (maxDischargeDepth := 30) [*]
@[simp] theorem execFirmwareVerify_ok (pq : List Instr) (s : State) (hOk : Ok pq s.kept) : OkNext pq (execFirmwareVerify s) := by
  unfold execFirmwareVerify; simp (maxDischargeDepth := 30) [*]
@[simp] theorem takeFree_kept (w : Nat) (s : State) : (takeFree w s).2.kept = s.kept := (rfl)
@[simp] theorem resumeLeaf_kept (s : State) : (resumeLeaf s).kept = s.kept := by
  unfold resumeLeaf; dsimp only; split <;> simp [takeFree]
@[simp] theorem bootIdentity_kept (cacheOk : Bool) (s : State) : (bootIdentity cacheOk s).kept = s.kept := by
  unfold bootIdentity; simp
@[simp] theorem execBootIdentity_kept (cacheOk : Bool) (s : State) : KeepsKept (execBootIdentity cacheOk s) s := by
  unfold execBootIdentity; simp
@[simp] theorem execCacheRebuilt_kept (ms : W32) (s : State) : KeepsKept (execCacheRebuilt ms s) s := by
  unfold execCacheRebuilt; simp
@[simp] theorem burnSvn_kept (s : State) : (burnSvn s).kept = s.kept := by
  unfold burnSvn; simp
@[simp] theorem readyNow_kept (s : State) : (readyNow s).kept = s.kept := by
  unfold readyNow; simp
@[simp] theorem execReady_kept (s : State) : KeepsKept (execReady s) s := by
  unfold execReady; simp
@[simp] theorem raiseLeaf_kept (s : State) : (raiseLeaf s).kept = s.kept := by
  unfold raiseLeaf; simp
@[simp] theorem idxLow_kept (s : State) : (idxLow s).kept = s.kept := by
  unfold idxLow; simp
@[simp] theorem useLeaf_kept (s : State) : (useLeaf s).2.kept = s.kept := by
  unfold useLeaf; simp
@[simp] theorem admitAttest_ok (pq : List Instr) (k : CmdRef) (s : State) (hOk : Ok pq s.kept) : Ok pq (admitAttest k s).kept := by
  unfold admitAttest; simp (maxDischargeDepth := 30) [*]
@[simp] theorem attestNow_ok (pq : List Instr) (k : CmdRef) (s : State) (hOk : Ok pq s.kept) : Ok pq (attestNow k s).kept := by
  unfold attestNow; (repeat' (first | split | (dsimp only; split))) <;> simp (maxDischargeDepth := 30) [*]
@[simp] theorem attestWindow_ok (pq : List Instr) (s : State) (hOk : Ok pq s.kept) : Ok pq (attestWindow s).kept := by
  unfold attestWindow; simp (maxDischargeDepth := 30) +contextual [*]
@[simp] theorem attest_ok (pq : List Instr) (k : CmdRef) (s : State) (hOk : Ok pq s.kept) : Ok pq (attest k s).kept := by
  unfold attest; simp (maxDischargeDepth := 30) [*]
@[simp] theorem execAttest_ok (pq : List Instr) (k : CmdRef) (s : State) (hOk : Ok pq s.kept) : OkNext pq (execAttest k s) := by
  unfold execAttest; simp (maxDischargeDepth := 30) [*]
@[simp] theorem execAttestWindow_ok (pq : List Instr) (s : State) (hOk : Ok pq s.kept) : OkNext pq (execAttestWindow s) := by
  unfold execAttestWindow; simp (maxDischargeDepth := 30) [*]
@[simp] theorem finishAttest_ok (p : List Instr) (k : CmdRef) (s : State) (h : Ok p s.kept) : Ok p (finishAttest k s).kept := by
  unfold finishAttest
  split
  · exact h
  · split
    · exact finish_ok p _ _ _ h
    · split
      · exact finish_ok p _ _ _ h
      · have e := useLeaf_kept s
        dsimp only
        apply finish_ok
        apply addRecord_ok
        apply writeBuf_ok
        rw [e]; exact h
@[simp] theorem membership_ok (pq : List Instr) (k : CmdRef) (s : State) (hOk : Ok pq s.kept) : Ok pq (membership k s).kept := by
  unfold membership; (repeat' (first | split | (dsimp only; split))) <;> simp (maxDischargeDepth := 30) [*]
@[simp] theorem execMembership_ok (pq : List Instr) (k : CmdRef) (s : State) (hOk : Ok pq s.kept) : OkNext pq (execMembership k s) := by
  unfold execMembership; simp (maxDischargeDepth := 30) [*]
@[simp] theorem beginInstall_ok (p : List Instr) (k : CmdRef) (c : Cmd) (s : State) (h : Ok p s.kept) :
    Ok p (beginInstall k c s).kept := by
  unfold beginInstall; (repeat' (first | split | (dsimp only; split))) <;> simp (maxDischargeDepth := 30) [h, wf_writeBytes, h.2.2.2.2.1]
@[simp] theorem endInstall_ok (pq : List Instr) (k : CmdRef) (s : State) (hOk : Ok pq s.kept) : Ok pq (endInstall k s).kept := by
  unfold endInstall; simp (maxDischargeDepth := 30) [*]
@[simp] theorem firmware_ok (pq : List Instr) (k : CmdRef) (s : State) (hOk : Ok pq s.kept) : Ok pq (firmware k s).kept := by
  unfold firmware; (repeat' (first | split | (dsimp only; split))) <;> simp (maxDischargeDepth := 30) [*]
@[simp] theorem execFirmware_ok (pq : List Instr) (k : CmdRef) (s : State) (hOk : Ok pq s.kept) : OkNext pq (execFirmware k s) := by
  unfold execFirmware; simp (maxDischargeDepth := 30) [*]
@[simp] theorem keyRevoke_ok (pq : List Instr) (k : CmdRef) (s : State) (hOk : Ok pq s.kept) : Ok pq (keyRevoke k s).kept := by
  unfold keyRevoke; (repeat' (first | split | (dsimp only; split))) <;> simp (maxDischargeDepth := 30) [*]
@[simp] theorem execKeyRevoke_ok (pq : List Instr) (k : CmdRef) (s : State) (hOk : Ok pq s.kept) : OkNext pq (execKeyRevoke k s) := by
  unfold execKeyRevoke; simp (maxDischargeDepth := 30) [*]
@[simp] theorem debugUnlock_ok (pq : List Instr) (k : CmdRef) (s : State) (hOk : Ok pq s.kept) : Ok pq (debugUnlock k s).kept := by
  unfold debugUnlock; (repeat' (first | split | (dsimp only; split))) <;> simp (maxDischargeDepth := 30) [*]
@[simp] theorem execDebugUnlock_ok (pq : List Instr) (k : CmdRef) (s : State) (hOk : Ok pq s.kept) : OkNext pq (execDebugUnlock k s) := by
  unfold execDebugUnlock; simp (maxDischargeDepth := 30) [*]

/-! ### Outer -/

@[simp] theorem siteCount_kept (i : Nat) (f : SiteTotal → SiteTotal) (s : State) : (siteCount i f s).kept = s.kept := by
  unfold siteCount; simp
@[simp] theorem updSess_kept (site : Nat) (shard : Nat) (f : Session → Session) (s : State) : (updSess site shard f s).kept = s.kept := by
  unfold updSess; simp
@[simp] theorem logSite_kept (event : Nat) (site : Nat) (round : Nat) (more : Bytes) (s : State) : (logSite event site round more s).kept = s.kept := by
  unfold logSite; simp
@[simp] theorem putFrame_kept (x : Session) (epoch : Nat) (seq : W64) (f : ToSend) (s : State) : (putFrame x epoch seq f s).kept = s.kept := by
  unfold putFrame; simp
@[simp] theorem sendNow_kept (site : Nat) (shard : Nat) (f : ToSend) (s : State) : (sendNow site shard f s).kept = s.kept := by
  unfold sendNow; (repeat' (first | split | (dsimp only; split))) <;> simp
@[simp] theorem sendFrame_kept (site : Nat) (shard : Nat) (f : ToSend) (s : State) : (sendFrame site shard f s).kept = s.kept := by
  unfold sendFrame; (repeat' (first | split | (dsimp only; split))) <;> simp
@[simp] theorem resendFrame_kept (site : Nat) (shard : Nat) (first : Nat) (f : ToSend) (s : State) : (resendFrame site shard first f s).kept = s.kept := by
  unfold resendFrame; (repeat' (first | split | (dsimp only; split))) <;> simp
@[simp] theorem startKeyNext_kept (site : Nat) (shard : Nat) (s : State) : (startKeyNext site shard s).kept = s.kept := by
  unfold startKeyNext; simp
@[simp] theorem switchEpoch_kept (site : Nat) (shard : Nat) (s : State) : (switchEpoch site shard s).kept = s.kept := by
  unfold switchEpoch; (repeat' (first | split | (dsimp only; split))) <;> simp
@[simp] theorem switchAtOpen_kept (site : Nat) (shard : Nat) (s : State) : (switchAtOpen site shard s).kept = s.kept := by
  unfold switchAtOpen; (repeat' (first | split | (dsimp only; split))) <;> simp
@[simp] theorem sendContribution_kept (d : SiteDesc) (site : Nat) (o : Outbound) (state : Bool) (s : State) : (sendContribution d site o state s).kept = s.kept := by
  unfold sendContribution; (repeat' (first | split | (dsimp only; split))) <;> simp
@[simp] theorem sendLeave_kept (site : Nat) (round : Nat) (s : State) : (sendLeave site round s).kept = s.kept := by
  unfold sendLeave; (repeat' (first | split | (dsimp only; split))) <;> simp
@[simp] theorem sendWaiting_kept (site : Nat) : ∀ (n : Nat) (s : State), (sendWaiting site n s).kept = s.kept
  | 0, _ => rfl
  | n + 1, s => by unfold sendWaiting; (repeat' (first | split | (dsimp only; split))) <;> simp [sendWaiting_kept site n]
@[simp] theorem sendAll_kept (s : State) : (sendAll s).kept = s.kept := by
  unfold sendAll; simp
@[simp] theorem auditLeaves_kept (leaves : List (SiteRound × W64)) (s : State) : (auditLeaves leaves s).kept = s.kept := by
  unfold auditLeaves; simp
@[simp] theorem countNonfinite_kept (set : List SiteRound) (p : Nat) (s : State) : (countNonfinite set p s).kept = s.kept := by
  unfold countNonfinite; simp
@[simp] theorem beginOuter_kept (run : RunCmd) (anchor : List Conv) (momentum : List W16) (set : List SiteRound) (s : State) : (beginOuter run anchor momentum set s).kept = s.kept := by
  unfold beginOuter; simp
@[simp] theorem outerUpdate_kept (set : List SiteRound) (s : State) : (outerUpdate set s).kept = s.kept := by
  unfold outerUpdate; (repeat' (first | split | (dsimp only; split))) <;> simp
@[simp] theorem execAcceptedSet_kept (set : List SiteRound) (s : State) : KeepsKept (execAcceptedSet set s) s := by
  unfold execAcceptedSet; simp
@[simp] theorem evaluateRoll_kept (s : State) : (evaluateRoll s).kept = s.kept := by
  unfold evaluateRoll; (repeat' (first | split | (dsimp only; split))) <;> simp
@[simp] theorem contributionReport_kept (member : Nat) (held : List SiteRound) (s : State) : (contributionReport member held s).kept = s.kept := by
  unfold contributionReport; simp
@[simp] theorem execContributionReport_kept (member : Nat) (held : List SiteRound) (s : State) : KeepsKept (execContributionReport member held s) s := by
  unfold execContributionReport; simp
@[simp] theorem reportHeld_kept (s : State) : (reportHeld s).kept = s.kept := by
  unfold reportHeld; simp
@[simp] theorem formPhase_kept (s : State) : (formPhase s).kept = s.kept := by
  unfold formPhase; (repeat' (first | split | (dsimp only; split))) <;> simp
@[simp] theorem grantSlots_kept (site : Nat) (shard : Nat) (n : Nat) (s : State) : (grantSlots site shard n s).kept = s.kept := by
  unfold grantSlots; simp
@[simp] theorem freeOutbound_kept (s : State) : (freeOutbound s).kept = s.kept := by
  unfold freeOutbound; simp
@[simp] theorem endSite_ok (pq : List Instr) (k : CmdRef) (result : Nat) (s : State) (hOk : Ok pq s.kept) : Ok pq (endSite k result s).kept := by
  unfold endSite; simp (maxDischargeDepth := 30) [*]
@[simp] theorem tryLeave_ok (pq : List Instr) (s : State) (hOk : Ok pq s.kept) : Ok pq (tryLeave s).kept := by
  unfold tryLeave; (repeat' (first | split | (dsimp only; split))) <;> simp (maxDischargeDepth := 30) [*]
@[simp] theorem finishJoin_ok (pq : List Instr) (s : State) (hOk : Ok pq s.kept) : Ok pq (finishJoin s).kept := by
  unfold finishJoin; (repeat' (first | split | (dsimp only; split))) <;> simp (maxDischargeDepth := 30) [*]

/-! ### Commit -/

@[simp] theorem savePoint_kept (s : State) : (savePoint s).kept = s.kept := by
  unfold savePoint; simp
@[simp] theorem clearWork_kept (s : State) : (clearWork s).kept = s.kept := by
  unfold clearWork; simp
@[simp] theorem freshStep_kept (s : State) : (freshStep s).kept = s.kept := by
  unfold freshStep; simp
@[simp] theorem readInputs_kept (s : State) : (readInputs s).kept = s.kept := by
  unfold readInputs; (repeat' (first | split | (dsimp only; split))) <;> simp
@[simp] theorem beginStep_ok (pq : List Instr) (s : State) (hOk : Ok pq s.kept) : Ok pq (beginStep s).kept := by
  unfold beginStep; simp (maxDischargeDepth := 30) [*]
@[simp] theorem replayStep_ok (pq : List Instr) (epoch : W48) (attempt : Byte) (s : State) (hOk : Ok pq s.kept) : Ok pq (replayStep epoch attempt s).kept := by
  unfold replayStep; simp (maxDischargeDepth := 30) [*]
@[simp] theorem execReplay_ok (pq : List Instr) (epoch : W48) (attempt : Byte) (s : State) (hOk : Ok pq s.kept) : OkNext pq (execReplay epoch attempt s) := by
  unfold execReplay; simp (maxDischargeDepth := 30) [*]
@[simp] theorem setComplete_ok (p : List Instr) (x : PSlot) (s : State) (h : Ok p s.kept) (hx : x.state = .complete) :
    Ok p (setComplete x s).kept := by
  have hs : s.snap.slotA.state ≠ s.snap.slotB.state := h.2.2.2.2.2.1
  unfold setComplete
  split
  · rename_i e
    refine ok_slots p s.kept x.state s.snap.slotB.state h ?_
    rw [hx]; rw [e] at hs; exact hs
  · rename_i e
    refine ok_slots p s.kept s.snap.slotA.state x.state h ?_
    rw [hx]; exact e
@[simp] theorem setFilling_ok (p : List Instr) (x : PSlot) (s : State) (h : Ok p s.kept) (hx : x.state = .filling) :
    Ok p (setFilling x s).kept := by
  have hs : s.snap.slotA.state ≠ s.snap.slotB.state := h.2.2.2.2.2.1
  unfold setFilling
  split
  · rename_i e
    refine ok_slots p s.kept s.snap.slotA.state x.state h ?_
    rw [hx, e]; decide
  · rename_i e
    refine ok_slots p s.kept x.state s.snap.slotB.state h ?_
    rw [hx, (slots_of _ _ hs e).2]; decide
@[simp] theorem completeSlot_state (p : List Instr) (s : State) (h : Ok p s.kept) : (completeSlot s).state = .complete := by
  have hs : s.snap.slotA.state ≠ s.snap.slotB.state := h.2.2.2.2.2.1
  unfold completeSlot
  split
  · assumption
  · rename_i e; exact (slots_of _ _ hs e).2
@[simp] theorem fillingSlot_state (p : List Instr) (s : State) (h : Ok p s.kept) : (fillingSlot s).state = .filling := by
  have hs : s.snap.slotA.state ≠ s.snap.slotB.state := h.2.2.2.2.2.1
  unfold fillingSlot
  split
  · rename_i e; rw [e] at hs; revert hs; cases s.snap.slotB.state <;> simp
  · rename_i e; exact (slots_of _ _ hs e).1
@[simp] theorem swapSlots_ok (p : List Instr) (s : State) (h : Ok p s.kept) : Ok p (swapSlots s).kept := by
  have hs : s.snap.slotA.state ≠ s.snap.slotB.state := h.2.2.2.2.2.1
  unfold swapSlots
  refine ok_slots p s.kept _ _ h ?_
  revert hs
  dsimp only
  cases s.snap.slotA.state <;> cases s.snap.slotB.state <;> simp
@[simp] theorem mirrorSection_ok (pq : List Instr) (epoch : W48) (index : Nat) (sec : Section) (last : Option MirrorRecord) (s : State) (hOk : Ok pq s.kept) : Ok pq (mirrorSection epoch index sec last s).kept := by
  unfold mirrorSection; simp (maxDischargeDepth := 30) [*]
@[simp] theorem execMirrorSection_ok (pq : List Instr) (epoch : W48) (index : Nat) (sec : Section) (last : Option MirrorRecord) (s : State) (hOk : Ok pq s.kept) : OkNext pq (execMirrorSection epoch index sec last s) := by
  unfold execMirrorSection; simp (maxDischargeDepth := 30) [*]
@[simp] theorem mirrorAck_kept (epoch : W48) (index : Nat) (s : State) : (mirrorAck epoch index s).kept = s.kept := by
  unfold mirrorAck; simp
@[simp] theorem execMirrorAck_kept (epoch : W48) (index : Nat) (s : State) : KeepsKept (execMirrorAck epoch index s) s := by
  unfold execMirrorAck; simp
@[simp] theorem logCommit_kept (d : DecisionMsg) (result : Nat) (digest : W64) (s : State) : (logCommit d result digest s).kept = s.kept := by
  unfold logCommit; simp
@[simp] theorem flipBuffers_kept (d : DecisionMsg) (s : State) : (flipBuffers d s).kept = s.kept := by
  unfold flipBuffers; simp
@[simp] theorem commitSnap_ok (pq : List Instr) (d : DecisionMsg) (old : List Section) (s : State) (hOk : Ok pq s.kept) : Ok pq (commitSnap d old s).kept := by
  have e : Ok pq (setComplete { completeSlot s with epoch := d.epoch } s).kept := setComplete_ok pq _ s hOk (completeSlot_state pq s hOk)
  have g : ∀ u : State, Ok pq u.kept → Ok pq (if d.snap && hasPartner u then
      u.withSnap { u.snap with draining := some d.epoch, drainOut := old } else u).kept := by
    intro u hu; split <;> simp [hu]
  unfold commitSnap
  dsimp only
  apply g
  split
  · exact swapSlots_ok pq s hOk
  · split
    · split <;> simp [e, hOk]
    · exact hOk
@[simp] theorem freeInbound_kept (s : State) : (freeInbound s).kept = s.kept := by
  unfold freeInbound; simp
@[simp] theorem sendState_kept (round : Nat) (s : State) : (sendState round s).kept = s.kept := by
  unfold sendState; (repeat' (first | split | (dsimp only; split))) <;> simp
@[simp] theorem outerCommitted_ok (pq : List Instr) (s : State) (hOk : Ok pq s.kept) : Ok pq (outerCommitted s).kept := by
  unfold outerCommitted; simp (maxDischargeDepth := 30) [*]
@[simp] theorem siteCommitted_ok (pq : List Instr) (d : DecisionMsg) (s : State) (hOk : Ok pq s.kept) : Ok pq (siteCommitted d s).kept := by
  unfold siteCommitted; (repeat' (first | split | (dsimp only; split))) <;> simp (maxDischargeDepth := 30) [*]
@[simp] theorem afterCommit_ok (pq : List Instr) (d : DecisionMsg) (result : Nat) (r : RunCmd) (s : State) (hOk : Ok pq s.kept) : Ok pq (afterCommit d result r s).kept := by
  unfold afterCommit; (repeat' (first | split | (dsimp only; split))) <;> simp (maxDischargeDepth := 30) [*]
@[simp] theorem pauseSlice_kept (s : State) : (pauseSlice s).kept = s.kept := by
  unfold pauseSlice; simp
@[simp] theorem resumeSlice_ok (pq : List Instr) (s : State) (hOk : Ok pq s.kept) : Ok pq (resumeSlice s).kept := by
  unfold resumeSlice; (repeat' (first | split | (dsimp only; split))) <;> simp (maxDischargeDepth := 30) [*]
@[simp] theorem recopyReplicas_kept (s : State) : (recopyReplicas s).kept = s.kept := by
  unfold recopyReplicas; simp
@[simp] theorem seedStandby_kept (s : State) : (seedStandby s).kept = s.kept := by
  unfold seedStandby; simp
@[simp] theorem endAudit_ok (pq : List Instr) (result : Nat) (s : State) (hOk : Ok pq s.kept) : Ok pq (endAudit result s).kept := by
  unfold endAudit; simp (maxDischargeDepth := 30) [*]
@[simp] theorem auditOuter_ok (pq : List Instr) (r : RunCmd) (x : AuditStep) (s : State) (hOk : Ok pq s.kept) : Ok pq (auditOuter r x s).kept := by
  unfold auditOuter; (repeat' (first | split | (dsimp only; split))) <;> simp (maxDischargeDepth := 30) [*]
@[simp] theorem beginAudit_ok (pq : List Instr) (s : State) (hOk : Ok pq s.kept) : Ok pq (beginAudit s).kept := by
  unfold beginAudit; (repeat' (first | split | (dsimp only; split))) <;> simp (maxDischargeDepth := 30) [*]
@[simp] theorem commitAudit_ok (pq : List Instr) (d : DecisionMsg) (r : RunCmd) (l : List AuditStep) (s : State) (hOk : Ok pq s.kept) : Ok pq (commitAudit d r l s).kept := by
  unfold commitAudit; (repeat' (first | split | (dsimp only; split))) <;> simp (maxDischargeDepth := 30) +contextual [*]
@[simp] theorem commitStep_ok (pq : List Instr) (d : DecisionMsg) (s : State) (hOk : Ok pq s.kept) : Ok pq (commitStep d s).kept := by
  unfold commitStep; (repeat' (first | split | (dsimp only; split))) <;> simp (maxDischargeDepth := 30) [*]
@[simp] theorem execCommit_ok (pq : List Instr) (d : DecisionMsg) (s : State) (hOk : Ok pq s.kept) : OkNext pq (execCommit d s) := by
  unfold execCommit; simp (maxDischargeDepth := 30) [*]
@[simp] theorem armComparator_kept (s : State) : (armComparator s).kept = s.kept := by
  unfold armComparator; simp
@[simp] theorem takeTrigger_kept (epoch : W48) (s : State) : (takeTrigger epoch s).kept = s.kept := by
  unfold takeTrigger; simp
@[simp] theorem logDecision_kept (d : DecisionMsg) (s : State) : (logDecision d s).kept = s.kept := by
  unfold logDecision; simp
@[simp] theorem decideCommit_ok (pq : List Instr) (s : State) (hOk : Ok pq s.kept) : Ok pq (decideCommit s).kept := by
  unfold decideCommit; simp (maxDischargeDepth := 30) [*]
@[simp] theorem holdPrepared_ok (pq : List Instr) (m : PreparedMsg) (s : State) (hOk : Ok pq s.kept) : Ok pq (holdPrepared m s).kept := by
  unfold holdPrepared; simp (maxDischargeDepth := 30) [*]
@[simp] theorem preparedArrives_ok (pq : List Instr) (m : PreparedMsg) (s : State) (hOk : Ok pq s.kept) : Ok pq (preparedArrives m s).kept := by
  unfold preparedArrives; simp (maxDischargeDepth := 30) [*]
@[simp] theorem execPrepared_ok (pq : List Instr) (m : PreparedMsg) (s : State) (hOk : Ok pq s.kept) : OkNext pq (execPrepared m s) := by
  unfold execPrepared; simp (maxDischargeDepth := 30) [*]
@[simp] theorem sendPrepared_ok (pq : List Instr) (m : PreparedMsg) (s : State) (hOk : Ok pq s.kept) : Ok pq (sendPrepared m s).kept := by
  unfold sendPrepared; simp (maxDischargeDepth := 30) [*]
@[simp] theorem preparedSend_ok (pq : List Instr) (s : State) (hOk : Ok pq s.kept) : Ok pq (preparedSend s).kept := by
  unfold preparedSend; simp (maxDischargeDepth := 30) [*]
@[simp] theorem execPreparedSend_ok (pq : List Instr) (s : State) (hOk : Ok pq s.kept) : OkNext pq (execPreparedSend s) := by
  unfold execPreparedSend; simp (maxDischargeDepth := 30) [*]
@[simp] theorem preparedResend_ok (pq : List Instr) (s : State) (hOk : Ok pq s.kept) : Ok pq (preparedResend s).kept := by
  unfold preparedResend; simp (maxDischargeDepth := 30) [*]
@[simp] theorem execPreparedResend_ok (pq : List Instr) (s : State) (hOk : Ok pq s.kept) : OkNext pq (execPreparedResend s) := by
  unfold execPreparedResend; simp (maxDischargeDepth := 30) [*]
@[simp] theorem decisionArrives_kept (m : DecisionMsg) (s : State) : (decisionArrives m s).kept = s.kept := by
  unfold decisionArrives; simp
@[simp] theorem execDecision_kept (m : DecisionMsg) (s : State) : KeepsKept (execDecision m s) s := by
  unfold execDecision; simp
@[simp] theorem decisionAck_ok (pq : List Instr) (epoch : W48) (attempt : Byte) (s : State) (hOk : Ok pq s.kept) : Ok pq (decisionAck epoch attempt s).kept := by
  unfold decisionAck; (repeat' (first | split | (dsimp only; split))) <;> simp (maxDischargeDepth := 30) [*]
@[simp] theorem execDecisionAck_ok (pq : List Instr) (epoch : W48) (attempt : Byte) (s : State) (hOk : Ok pq s.kept) : OkNext pq (execDecisionAck epoch attempt s) := by
  unfold execDecisionAck; simp (maxDischargeDepth := 30) [*]
@[simp] theorem heartbeat_kept (s : State) : (heartbeat s).kept = s.kept := by
  unfold heartbeat; simp
@[simp] theorem execHeartbeat_kept (s : State) : KeepsKept (execHeartbeat s) s := by
  unfold execHeartbeat; simp
@[simp] theorem recordTakeover_ok (pq : List Instr) (m : FailedMsg) (s : State) (hOk : Ok pq s.kept) : Ok pq (recordTakeover m s).kept := by
  unfold recordTakeover; (repeat' (first | split | (dsimp only; split))) <;> simp (maxDischargeDepth := 30) [*]
@[simp] theorem takeSessions_kept (m : FailedMsg) (s : State) : (takeSessions m s).kept = s.kept := by
  unfold takeSessions; simp
@[simp] theorem leadTakeover_ok (pq : List Instr) (s : State) (hOk : Ok pq s.kept) : Ok pq (leadTakeover s).kept := by
  unfold leadTakeover; (repeat' (first | split | (dsimp only; split))) <;> simp (maxDischargeDepth := 30) [*]
@[simp] theorem memberFailed_ok (pq : List Instr) (m : FailedMsg) (s : State) (hOk : Ok pq s.kept) : Ok pq (memberFailed m s).kept := by
  unfold memberFailed; simp (maxDischargeDepth := 30) [*]
@[simp] theorem execFailed_ok (pq : List Instr) (m : FailedMsg) (s : State) (hOk : Ok pq s.kept) : OkNext pq (execFailed m s) := by
  unfold execFailed; simp (maxDischargeDepth := 30) [*]
@[simp] theorem heartbeatMissed_ok (pq : List Instr) (member : Nat) (reason : Nat) (mirrored : Bool) (s : State) (hOk : Ok pq s.kept) : Ok pq (heartbeatMissed member reason mirrored s).kept := by
  unfold heartbeatMissed; simp (maxDischargeDepth := 30) [*]
@[simp] theorem execHeartbeatMissed_ok (pq : List Instr) (member : Nat) (reason : Nat) (mirrored : Bool) (s : State) (hOk : Ok pq s.kept) : OkNext pq (execHeartbeatMissed member reason mirrored s) := by
  unfold execHeartbeatMissed; simp (maxDischargeDepth := 30) [*]

/-! ### Snapshots -/

@[simp] theorem endTake_ok (pq : List Instr) (layer : Nat) (epoch : W48) (s : State) (hOk : Ok pq s.kept) : Ok pq (endTake layer epoch s).kept := by
  unfold endTake; (repeat' (first | split | (dsimp only; split))) <;> simp (maxDischargeDepth := 30) [*]
@[simp] theorem standbyUpdateDone_ok (p : List Instr) (epoch : W48) (digest : W64) (secs : List Section) (s : State) (h : Ok p s.kept) :
    Ok p (standbyUpdateDone epoch digest secs s).kept := by
  have e1 := completeSlot_state p s h
  have e2 := fillingSlot_state p s h
  unfold standbyUpdateDone
  (repeat' (first | split | (dsimp only; split))) <;> simp (maxDischargeDepth := 30) [h, e1, e2]
@[simp] theorem execStandbyUpdateDone_ok (pq : List Instr) (epoch : W48) (digest : W64) (secs : List Section) (s : State) (hOk : Ok pq s.kept) : OkNext pq (execStandbyUpdateDone epoch digest secs s) := by
  unfold execStandbyUpdateDone; simp (maxDischargeDepth := 30) [*]
@[simp] theorem writeImage_kept (member : Nat) (epoch : W48) (secs : List Section) (s : State) : (writeImage member epoch secs s).kept = s.kept := by
  unfold writeImage; simp
@[simp] theorem drainTick_kept (s : State) : (drainTick s).kept = s.kept := by
  unfold drainTick; (repeat' (first | split | (dsimp only; split))) <;> simp
@[simp] theorem drainDone_ok (p : List Instr) (epoch : W48) (secs : List Section) (s : State) (h : Ok p s.kept) :
    Ok p (drainDone epoch secs s).kept := by
  unfold drainDone
  split
  · dsimp only
    have e1 : ∀ u : State, Ok p u.kept → Ok p (setFilling { fillingSlot u with epoch := epoch - 1, sections := secs } u).kept := by
      intro u hu; exact setFilling_ok p _ u hu (fillingSlot_state p u hu)
    rw [withSnap_kept]
    apply e1
    rw [kept_foldl _ (fun u a => by simp), kept_foldl _ (fun u a => by simp)]; exact h
  · exact h
@[simp] theorem execDrainDone_ok (pq : List Instr) (epoch : W48) (secs : List Section) (s : State) (hOk : Ok pq s.kept) : OkNext pq (execDrainDone epoch secs s) := by
  unfold execDrainDone; simp (maxDischargeDepth := 30) [*]
@[simp] theorem snapDone_ok (pq : List Instr) (member : Nat) (epoch : W48) (s : State) (hOk : Ok pq s.kept) : Ok pq (snapDone member epoch s).kept := by
  unfold snapDone; (repeat' (first | split | (dsimp only; split))) <;> simp (maxDischargeDepth := 30) [*]
@[simp] theorem execSnapDone_ok (pq : List Instr) (member : Nat) (epoch : W48) (s : State) (hOk : Ok pq s.kept) : OkNext pq (execSnapDone member epoch s) := by
  unfold execSnapDone; simp (maxDischargeDepth := 30) [*]
@[simp] theorem catchUpDone_ok (p : List Instr) (epoch : W48) (secs : List Section) (s : State) (h : Ok p s.kept) :
    Ok p (catchUpDone epoch secs s).kept := by
  unfold catchUpDone
  split
  · dsimp only
    have e1 : Ok p (setFilling { fillingSlot s with epoch := epoch, sections := secs } s).kept :=
      setFilling_ok p _ s h (fillingSlot_state p s h)
    (repeat' split) <;> simp (maxDischargeDepth := 30) [e1]
  · exact h
@[simp] theorem execCatchUpDone_ok (pq : List Instr) (done : CaughtUp) (s : State) (hOk : Ok pq s.kept) : OkNext pq (execCatchUpDone done s) := by
  unfold execCatchUpDone; simp (maxDischargeDepth := 30) [*]
@[simp] theorem startStore_kept (e : W48) (s : State) : (startStore e s).kept = s.kept := by
  unfold startStore; simp
@[simp] theorem flashWriteDone_ok (pq : List Instr) (epoch : W48) (s : State) (hOk : Ok pq s.kept) : Ok pq (flashWriteDone epoch s).kept := by
  unfold flashWriteDone; (repeat' (first | split | (dsimp only; split))) <;> simp (maxDischargeDepth := 30) [*]
@[simp] theorem execFlashWriteDone_ok (pq : List Instr) (epoch : W48) (s : State) (hOk : Ok pq s.kept) : OkNext pq (execFlashWriteDone epoch s) := by
  unfold execFlashWriteDone; simp (maxDischargeDepth := 30) [*]
@[simp] theorem flashInterval_kept (s : State) : (flashInterval s).kept = s.kept := by
  unfold flashInterval; simp
@[simp] theorem execFlashInterval_kept (s : State) : KeepsKept (execFlashInterval s) s := by
  unfold execFlashInterval; simp
@[simp] theorem storeInterval_kept (s : State) : (storeInterval s).kept = s.kept := by
  unfold storeInterval; (repeat' (first | split | (dsimp only; split))) <;> simp
@[simp] theorem execStoreInterval_kept (s : State) : KeepsKept (execStoreInterval s) s := by
  unfold execStoreInterval; simp
@[simp] theorem storeCopyDone_ok (pq : List Instr) (role : Nat) (epoch : W48) (s : State) (hOk : Ok pq s.kept) : Ok pq (storeCopyDone role epoch s).kept := by
  unfold storeCopyDone; (repeat' (first | split | (dsimp only; split))) <;> simp (maxDischargeDepth := 30) [*]
@[simp] theorem execStoreCopyDone_ok (pq : List Instr) (role : Nat) (epoch : W48) (s : State) (hOk : Ok pq s.kept) : OkNext pq (execStoreCopyDone role epoch s) := by
  unfold execStoreCopyDone; simp (maxDischargeDepth := 30) [*]
@[simp] theorem takeNow_kept (s : State) : (takeNow s).kept = s.kept := by
  unfold takeNow; simp
@[simp] theorem ckptTake_ok (pq : List Instr) (k : CmdRef) (s : State) (hOk : Ok pq s.kept) : Ok pq (ckptTake k s).kept := by
  unfold ckptTake; (repeat' (first | split | (dsimp only; split))) <;> simp (maxDischargeDepth := 30) [*, -setRunning_snap]
@[simp] theorem execCkptTake_ok (pq : List Instr) (k : CmdRef) (s : State) (hOk : Ok pq s.kept) : OkNext pq (execCkptTake k s) := by
  unfold execCkptTake; simp (maxDischargeDepth := 30) [*]
@[simp] theorem installRole_kept (r : RoleImage) (s : State) : (installRole r s).kept = s.kept := by
  unfold installRole; simp
@[simp] theorem ckptRestore_ok (pq : List Instr) (k : CmdRef) (img : RestoreImage) (s : State) (hOk : Ok pq s.kept) : Ok pq (ckptRestore k img s).kept := by
  unfold ckptRestore; (repeat' (first | split | (dsimp only; split))) <;> simp (maxDischargeDepth := 30) [*]
@[simp] theorem execCkptRestore_ok (pq : List Instr) (k : CmdRef) (img : RestoreImage) (s : State) (hOk : Ok pq s.kept) : OkNext pq (execCkptRestore k img s) := by
  unfold execCkptRestore; simp (maxDischargeDepth := 30) [*]

/-! ### Load -/

@[simp] theorem setLoading_kept (l : Loading) (s : State) : (setLoading l s).kept = s.kept := by
  unfold setLoading; simp
@[simp] theorem endLoad_ok (pq : List Instr) (k : CmdRef) (result : Nat) (x : Cause) (s : State) (hOk : Ok pq s.kept) : Ok pq (endLoad k result x s).kept := by
  unfold endLoad; simp (maxDischargeDepth := 30) [*]
@[simp] theorem addRecords_ok (pq : List Instr) (k : CmdRef) (bs : List Bytes) (s : State) (hOk : Ok pq s.kept) : Ok pq (addRecords k bs s).kept := by
  unfold addRecords; simp (maxDischargeDepth := 30) +contextual [*]
@[simp] theorem startLoad_ok (pq : List Instr) (k : CmdRef) (p : Program) (b : Bytes) (s : State) (hOk : Ok pq s.kept) : Ok pq (startLoad k p b s).kept := by
  unfold startLoad; simp (maxDischargeDepth := 30) [*]
@[simp] theorem programLoad_ok (pq : List Instr) (k : CmdRef) (p : Program) (s : State) (hOk : Ok pq s.kept) : Ok pq (programLoad k p s).kept := by
  unfold programLoad; (repeat' (first | split | (dsimp only; split))) <;> simp (maxDischargeDepth := 30) [*]
@[simp] theorem execProgramLoad_ok (pq : List Instr) (k : CmdRef) (p : Program) (s : State) (hOk : Ok pq s.kept) : OkNext pq (execProgramLoad k p s) := by
  unfold execProgramLoad; simp (maxDischargeDepth := 30) [*]
@[simp] theorem loadAgreement_ok (pq : List Instr) (m : Nat) (digest : Bytes) (slice : W32) (board : W64) (s : State) (hOk : Ok pq s.kept) : Ok pq (loadAgreement m digest slice board s).kept := by
  unfold loadAgreement; (repeat' (first | split | (dsimp only; split))) <;> simp (maxDischargeDepth := 30) [*]
@[simp] theorem execLoadAgreement_ok (pq : List Instr) (m : Nat) (digest : Bytes) (slice : W32) (board : W64) (s : State) (hOk : Ok pq s.kept) : OkNext pq (execLoadAgreement m digest slice board s) := by
  unfold execLoadAgreement; simp (maxDischargeDepth := 30) [*]
@[simp] theorem loadWait_ok (pq : List Instr) (absent : Nat) (s : State) (hOk : Ok pq s.kept) : Ok pq (loadWait absent s).kept := by
  unfold loadWait; (repeat' (first | split | (dsimp only; split))) <;> simp (maxDischargeDepth := 30) [*]
@[simp] theorem execLoadWait_ok (pq : List Instr) (absent : Nat) (s : State) (hOk : Ok pq s.kept) : OkNext pq (execLoadWait absent s) := by
  unfold execLoadWait; simp (maxDischargeDepth := 30) [*]
@[simp] theorem slicePlacement_ok (pq : List Instr) (s : State) (hOk : Ok pq s.kept) : Ok pq (slicePlacement s).kept := by
  unfold slicePlacement; (repeat' (first | split | (dsimp only; split))) <;> simp (maxDischargeDepth := 30) [*]
@[simp] theorem execSlicePlacement_ok (pq : List Instr) (s : State) (hOk : Ok pq s.kept) : OkNext pq (execSlicePlacement s) := by
  unfold execSlicePlacement; simp (maxDischargeDepth := 30) [*]
@[simp] theorem planDistribution_ok (pq : List Instr) (plan : Plan) (digest : W64) (s : State) (hOk : Ok pq s.kept) : Ok pq (planDistribution plan digest s).kept := by
  unfold planDistribution; (repeat' (first | split | (dsimp only; split))) <;> simp (maxDischargeDepth := 30) [*]
@[simp] theorem execPlanDistribution_ok (pq : List Instr) (plan : Plan) (digest : W64) (s : State) (hOk : Ok pq s.kept) : OkNext pq (execPlanDistribution plan digest s) := by
  unfold execPlanDistribution; simp (maxDischargeDepth := 30) [*]
@[simp] theorem retireDue_kept (s : State) : (retireDue s).kept = s.kept := by
  unfold retireDue; simp
@[simp] theorem localPlacement_ok (pq : List Instr) (m : PhysMap) (s : State) (hOk : Ok pq s.kept) : Ok pq (localPlacement m s).kept := by
  unfold localPlacement; (repeat' (first | split | (dsimp only; split))) <;> simp (maxDischargeDepth := 30) [*]
@[simp] theorem execLocalPlacement_ok (pq : List Instr) (m : PhysMap) (s : State) (hOk : Ok pq s.kept) : OkNext pq (execLocalPlacement m s) := by
  unfold execLocalPlacement; simp (maxDischargeDepth := 30) [*]
@[simp] theorem setPartners_ok (p : List Instr) (shift : Nat) (s : State) (h : Ok p s.kept) : Ok p (setPartners shift s).kept := by
  have e := ok_slots p s.kept .complete .filling h (by decide)
  unfold setPartners
  dsimp only
  split <;> (rw [withSnap_kept]; exact e)
@[simp] theorem freshTensors_kept (p : Program) (s : State) : (freshTensors p s).kept = s.kept := by
  unfold freshTensors; simp
@[simp] theorem rejoin_kept (s : State) : (rejoin s).kept = s.kept := by
  unfold rejoin; simp
@[simp] theorem finishLoad_ok (pq : List Instr) (l : Loading) (plan : Plan) (m : PhysMap) (shift : Nat) (s : State) (hOk : Ok pq s.kept) : Ok pq (finishLoad l plan m shift s).kept := by
  unfold finishLoad; (repeat' (first | split | (dsimp only; split))) <;> simp (maxDischargeDepth := 30) [*]
@[simp] theorem loadResult_ok (pq : List Instr) (results : List (Nat × W16)) (f : Nat) (shift : Nat) (records : List Bytes) (s : State) (hOk : Ok pq s.kept) : Ok pq (loadResult results f shift records s).kept := by
  unfold loadResult; (repeat' (first | split | (dsimp only; split))) <;> simp (maxDischargeDepth := 30) [*]
@[simp] theorem execLoadResult_ok (pq : List Instr) (results : List (Nat × W16)) (f : Nat) (shift : Nat) (records : List Bytes) (s : State) (hOk : Ok pq s.kept) : OkNext pq (execLoadResult results f shift records s) := by
  unfold execLoadResult; simp (maxDischargeDepth := 30) [*]

/-! ### Barter -/

@[simp] theorem failJoin_ok (pq : List Instr) (result : Nat) (x : Cause) (s : State) (hOk : Ok pq s.kept) : Ok pq (failJoin result x s).kept := by
  unfold failJoin; (repeat' (first | split | (dsimp only; split))) <;> simp (maxDischargeDepth := 30) [*]
@[simp] theorem putSession_kept (x : Session) (s : State) : (putSession x s).kept = s.kept := by
  unfold putSession; simp
@[simp] theorem setupPayload_kept (cert : Bytes) (kem : Bytes) (s : State) : (setupPayload cert kem s).2.kept = s.kept := by
  unfold setupPayload; simp
@[simp] theorem emitSetup_kept (x : Session) (s : State) : (emitSetup x s).kept = s.kept := by
  unfold emitSetup; (repeat' (first | split | (dsimp only; split))) <;> simp
@[simp] theorem joinCheck_ok (pq : List Instr) (s : State) (hOk : Ok pq s.kept) : Ok pq (joinCheck s).kept := by
  unfold joinCheck; (repeat' (first | split | (dsimp only; split))) <;> simp (maxDischargeDepth := 30) [*]
@[simp] theorem openSession_ok (pq : List Instr) (x : Session) (ss : Bytes) (th : Bytes) (s : State) (hOk : Ok pq s.kept) : Ok pq (openSession x ss th s).kept := by
  unfold openSession; simp (maxDischargeDepth := 30) [*]
@[simp] theorem signInit_kept (site shard : Nat) (s : State) : (signInit site shard s).kept = s.kept := by
  unfold signInit
  split
  · dsimp only
    simp [takeFree, setupPayload]
  · rfl
@[simp] theorem signAccept_ok (p : List Instr) (site shard : Nat) (s : State) (h : Ok p s.kept) : Ok p (signAccept site shard s).kept := by
  unfold signAccept
  split
  · split
    · exact h
    · dsimp only
      simp (maxDischargeDepth := 30) [takeFree, setupPayload, h]
  · exact h
@[simp] theorem signature_ok (pq : List Instr) (s : State) (hOk : Ok pq s.kept) : Ok pq (signature s).kept := by
  unfold signature; (repeat' (first | split | (dsimp only; split))) <;> simp (maxDischargeDepth := 30) [*]
@[simp] theorem execSignature_ok (pq : List Instr) (s : State) (hOk : Ok pq s.kept) : OkNext pq (execSignature s) := by
  unfold execSignature; simp (maxDischargeDepth := 30) [*]
@[simp] theorem siteJoin_ok (pq : List Instr) (k : CmdRef) (s : State) (hOk : Ok pq s.kept) : Ok pq (siteJoin k s).kept := by
  unfold siteJoin; (repeat' (first | split | (dsimp only; split))) <;> simp (maxDischargeDepth := 30) [*]
@[simp] theorem execSiteJoin_ok (pq : List Instr) (k : CmdRef) (s : State) (hOk : Ok pq s.kept) : OkNext pq (execSiteJoin k s) := by
  unfold execSiteJoin; simp (maxDischargeDepth := 30) [*]
@[simp] theorem rejectSetup_kept (site : Nat) (check : Nat) (s : State) : (rejectSetup site check s).kept = s.kept := by
  unfold rejectSetup; simp
@[simp] theorem judgeSetup_ok (p : List Instr) (t : Nat) (h : FrameHeader) (q : SessionPayload) (i : Bytes) (good : State → State) (s : State)
    (hs : Ok p s.kept) (hf : ∀ u, Ok p u.kept → Ok p (good u).kept) : Ok p (judgeSetup t h q i good s).kept := by
  unfold judgeSetup; (repeat' split) <;> simp (maxDischargeDepth := 30) [hs, hf]
@[simp] theorem sessionInit_ok (pq : List Instr) (h : FrameHeader) (p : SessionPayload) (s : State) (hOk : Ok pq s.kept) : Ok pq (sessionInit h p s).kept := by
  unfold sessionInit; (repeat' (first | split | (dsimp only; split))) <;> simp (maxDischargeDepth := 30) [*]
@[simp] theorem execSessionInit_ok (pq : List Instr) (h : FrameHeader) (p : SessionPayload) (s : State) (hOk : Ok pq s.kept) : OkNext pq (execSessionInit h p s) := by
  unfold execSessionInit; simp (maxDischargeDepth := 30) [*]
@[simp] theorem sessionAccept_ok (pq : List Instr) (h : FrameHeader) (p : SessionPayload) (s : State) (hOk : Ok pq s.kept) : Ok pq (sessionAccept h p s).kept := by
  unfold sessionAccept; (repeat' (first | split | (dsimp only; split))) <;> simp (maxDischargeDepth := 30) +contextual [*]
@[simp] theorem execSessionAccept_ok (pq : List Instr) (h : FrameHeader) (p : SessionPayload) (s : State) (hOk : Ok pq s.kept) : OkNext pq (execSessionAccept h p s) := by
  unfold execSessionAccept; simp (maxDischargeDepth := 30) [*]
@[simp] theorem resendInit_kept (site : Nat) (s : State) : (resendInit site s).kept = s.kept := by
  unfold resendInit; simp
@[simp] theorem execSessionInitResend_kept (site : Nat) (s : State) : KeepsKept (execSessionInitResend site s) s := by
  unfold execSessionInitResend; simp
@[simp] theorem setupTimeout_ok (pq : List Instr) (site : Nat) (s : State) (hOk : Ok pq s.kept) : Ok pq (setupTimeout site s).kept := by
  unfold setupTimeout; simp (maxDischargeDepth := 30) [*]
@[simp] theorem execSessionSetupTimeout_ok (pq : List Instr) (site : Nat) (s : State) (hOk : Ok pq s.kept) : OkNext pq (execSessionSetupTimeout site s) := by
  unfold execSessionSetupTimeout; simp (maxDischargeDepth := 30) [*]
@[simp] theorem authAs_kept (ok : Bool) (h : FrameHeader) (s : State) : (authAs ok h s).2.kept = s.kept := by
  unfold authAs; (repeat' (first | split | (dsimp only; split))) <;> simp
@[simp] theorem authFrame_kept (ftype : Nat) (h : FrameHeader) (body : FrameBody) (s : State) : (authFrame ftype h body s).2.kept = s.kept := by
  unfold authFrame; simp
@[simp] theorem onFrame_ok (p : List Instr) (ftype : Nat) (h : FrameHeader) (body : FrameBody) (f : Session → State → State) (s : State)
    (hs : Ok p s.kept) (hf : ∀ x u, Ok p u.kept → Ok p (f x u).kept) : Ok p (onFrame ftype h body f s).kept := by
  have e := authFrame_kept ftype h body s
  unfold onFrame
  cases hm : authFrame ftype h body s with
  | mk x t =>
    rw [hm] at e
    cases x with
    | none => dsimp only; rw [show t.kept = s.kept from e]; exact hs
    | some y => dsimp only; exact hf _ _ (by rw [show t.kept = s.kept from e]; exact hs)
@[simp] theorem setInbound_kept (x : Inbound) (s : State) : (setInbound x s).kept = s.kept := by
  unfold setInbound; simp
@[simp] theorem openInbound_kept (h : FrameHeader) (s : State) : (openInbound h s).kept = s.kept := by
  unfold openInbound; simp
@[simp] theorem sendAckFrame_kept (i : Inbound) (s : State) : (sendAckFrame i s).kept = s.kept := by
  unfold sendAckFrame; (repeat' (first | split | (dsimp only; split))) <;> simp
@[simp] theorem sendRepair_kept (i : Inbound) (g : Nat) (s : State) : (sendRepair i g s).kept = s.kept := by
  unfold sendRepair; simp
@[simp] theorem adoptState_kept (i : Inbound) (stream : Bytes) (s : State) : (adoptState i stream s).kept = s.kept := by
  unfold adoptState; simp
@[simp] theorem becomesHeld_kept (i : Inbound) (s : State) : (becomesHeld i s).kept = s.kept := by
  unfold becomesHeld; simp
@[simp] theorem sealFails_kept (i : Inbound) (computed : W64) (s : State) : (sealFails i computed s).kept = s.kept := by
  unfold sealFails; simp
@[simp] theorem completeInbound_kept (h : FrameHeader) (s : State) : (completeInbound h s).kept = s.kept := by
  unfold completeInbound; (repeat' (first | split | (dsimp only; split))) <;> simp
@[simp] theorem updRoute_kept (site : Nat) (shard : Nat) (r : Nat) (f : Route → Route) (s : State) : (updRoute site shard r f s).kept = s.kept := by
  unfold updRoute; simp
@[simp] theorem judgeLate_kept (d : SiteDesc) (x : Session) (h : FrameHeader) (arrival : W64) (i : Inbound) (s : State) : (judgeLate d x h arrival i s).2.2.kept = s.kept := by
  unfold judgeLate; (repeat' (first | split | (dsimp only; split))) <;> simp
@[simp] theorem holdPacket_kept (h : FrameHeader) (payload : Bytes) (i : Inbound) (s : State) : (holdPacket h payload i s).kept = s.kept := by
  unfold holdPacket; simp
@[simp] theorem dataArrives_kept (h : FrameHeader) (payload : Bytes) (arrival : W64) (x : Session) (s : State) : (dataArrives h payload arrival x s).kept = s.kept := by
  unfold dataArrives; (repeat' (first | split | (dsimp only; split))) <;> simp
@[simp] theorem execData_ok (pq : List Instr) (h : FrameHeader) (payload : Bytes) (arrival : W64) (s : State) (hOk : Ok pq s.kept) : OkNext pq (execData h payload arrival s) := by
  unfold execData; simp (maxDischargeDepth := 30) [*]
@[simp] theorem roundOpens_kept (h : FrameHeader) (groups : Nat) (lastK : Nat) (sealWord : W64) (record : WriteRecord) (s : State) : (roundOpens h groups lastK sealWord record s).kept = s.kept := by
  unfold roundOpens; (repeat' (first | split | (dsimp only; split))) <;> simp
@[simp] theorem execRoundOpen_ok (pq : List Instr) (h : FrameHeader) (groups : Nat) (lastK : Nat) (sealWord : W64) (record : WriteRecord) (s : State) (hOk : Ok pq s.kept) : OkNext pq (execRoundOpen h groups lastK sealWord record s) := by
  unfold execRoundOpen; simp (maxDischargeDepth := 30) [*]
@[simp] theorem groupDeadline_kept (site : Nat) (shard : Nat) (round : Nat) (group : Nat) (s : State) : (groupDeadline site shard round group s).kept = s.kept := by
  unfold groupDeadline; (repeat' (first | split | (dsimp only; split))) <;> simp
@[simp] theorem execGroupDeadline_kept (site : Nat) (shard : Nat) (round : Nat) (group : Nat) (s : State) : KeepsKept (execGroupDeadline site shard round group s) s := by
  unfold execGroupDeadline; simp
@[simp] theorem dataStall_kept (site : Nat) (shard : Nat) (round : Nat) (s : State) : (dataStall site shard round s).kept = s.kept := by
  unfold dataStall; (repeat' (first | split | (dsimp only; split))) <;> simp
@[simp] theorem execRoundDataStall_kept (site : Nat) (shard : Nat) (round : Nat) (s : State) : KeepsKept (execRoundDataStall site shard round s) s := by
  unfold execRoundDataStall; simp
@[simp] theorem repairGroup_kept (h : FrameHeader) (held : BitVec 48) (x : Session) (s : State) : (repairGroup h held x s).kept = s.kept := by
  unfold repairGroup; (repeat' (first | split | (dsimp only; split))) <;> simp
@[simp] theorem execRepair_ok (pq : List Instr) (h : FrameHeader) (held : BitVec 48) (s : State) (hOk : Ok pq s.kept) : OkNext pq (execRepair h held s) := by
  unfold execRepair; simp (maxDischargeDepth := 30) [*]
@[simp] theorem takeEcho_kept (site : Nat) (shard : Nat) (e : Nat × W64 × W64) (s : State) : (takeEcho site shard e s).kept = s.kept := by
  unfold takeEcho; simp
@[simp] theorem settlePeers_ok (pq : List Instr) (s : State) (hOk : Ok pq s.kept) : Ok pq (settlePeers s).kept := by
  unfold settlePeers; simp (maxDischargeDepth := 30) [*]
@[simp] theorem ackArrives_ok (pq : List Instr) (h : FrameHeader) (a : AckPayload) (x : Session) (s : State) (hOk : Ok pq s.kept) : Ok pq (ackArrives h a x s).kept := by
  unfold ackArrives; simp (maxDischargeDepth := 30) [*]
@[simp] theorem execAck_ok (pq : List Instr) (h : FrameHeader) (a : AckPayload) (s : State) (hOk : Ok pq s.kept) : OkNext pq (execAck h a s) := by
  unfold execAck; simp (maxDischargeDepth := 30) +contextual [*]
@[simp] theorem routeDown_kept (site : Nat) (route : Nat) (s : State) : (routeDown site route s).kept = s.kept := by
  unfold routeDown; (repeat' (first | split | (dsimp only; split))) <;> simp
@[simp] theorem execRouteDown_kept (site : Nat) (route : Nat) (s : State) : KeepsKept (execRouteDown site route s) s := by
  unfold execRouteDown; simp
@[simp] theorem probeArrives_kept (h : FrameHeader) (echo : Bool) (x : Session) (s : State) : (probeArrives h echo x s).kept = s.kept := by
  unfold probeArrives; simp
@[simp] theorem execProbe_ok (pq : List Instr) (h : FrameHeader) (echo : Bool) (s : State) (hOk : Ok pq s.kept) : OkNext pq (execProbe h echo s) := by
  unfold execProbe; simp (maxDischargeDepth := 30) [*]
@[simp] theorem endKeyWait_kept (site : Nat) (shard : Nat) (s : State) : (endKeyWait site shard s).kept = s.kept := by
  unfold endKeyWait; (repeat' (first | split | (dsimp only; split))) <;> simp
@[simp] theorem keyNextArrives_kept (h : FrameHeader) (kem : Bytes) (x : Session) (s : State) : (keyNextArrives h kem x s).kept = s.kept := by
  unfold keyNextArrives; simp
@[simp] theorem execKeyNext_ok (pq : List Instr) (h : FrameHeader) (kem : Bytes) (s : State) (hOk : Ok pq s.kept) : OkNext pq (execKeyNext h kem s) := by
  unfold execKeyNext; simp (maxDischargeDepth := 30) [*]
@[simp] theorem keyNextAckArrives_kept (kem : Bytes) (x : Session) (s : State) : (keyNextAckArrives kem x s).kept = s.kept := by
  unfold keyNextAckArrives; simp
@[simp] theorem execKeyNextAck_ok (pq : List Instr) (h : FrameHeader) (kem : Bytes) (s : State) (hOk : Ok pq s.kept) : OkNext pq (execKeyNextAck h kem s) := by
  unfold execKeyNextAck; simp (maxDischargeDepth := 30) [*]
@[simp] theorem forceSwitch_kept (site : Nat) (s : State) : (forceSwitch site s).kept = s.kept := by
  unfold forceSwitch; simp
@[simp] theorem execKeyEpochSwitch_kept (site : Nat) (s : State) : KeepsKept (execKeyEpochSwitch site s) s := by
  unfold execKeyEpochSwitch; simp
@[simp] theorem graceExpiry_kept (site : Nat) (sender : Bool) (s : State) : (graceExpiry site sender s).kept = s.kept := by
  unfold graceExpiry; simp
@[simp] theorem execKeyGraceExpiry_kept (site : Nat) (sender : Bool) (s : State) : KeepsKept (execKeyGraceExpiry site sender s) s := by
  unfold execKeyGraceExpiry; simp
@[simp] theorem sendNotices_kept (tos : List Nat) (site : Nat) (excluded : Bool) (from_ : Nat) (s : State) : (sendNotices tos site excluded from_ s).kept = s.kept := by
  unfold sendNotices; simp
@[simp] theorem addActive_kept (site : Nat) (from_ : Nat) (s : State) : (addActive site from_ s).kept = s.kept := by
  unfold addActive; simp
@[simp] theorem excludeSite_kept (site : Nat) (s : State) : (excludeSite site s).kept = s.kept := by
  unfold excludeSite; simp
@[simp] theorem siteWaitExpiry_ok (pq : List Instr) (s : State) (hOk : Ok pq s.kept) : Ok pq (siteWaitExpiry s).kept := by
  unfold siteWaitExpiry; (repeat' (first | split | (dsimp only; split))) <;> simp (maxDischargeDepth := 30) [*]
@[simp] theorem execSiteWaitExpiry_ok (pq : List Instr) (s : State) (hOk : Ok pq s.kept) : OkNext pq (execSiteWaitExpiry s) := by
  unfold execSiteWaitExpiry; simp (maxDischargeDepth := 30) [*]
@[simp] theorem joinReqArrives_kept (h : FrameHeader) (x : Session) (s : State) : (joinReqArrives h x s).kept = s.kept := by
  unfold joinReqArrives; simp
@[simp] theorem execJoinReq_ok (pq : List Instr) (h : FrameHeader) (s : State) (hOk : Ok pq s.kept) : OkNext pq (execJoinReq h s) := by
  unfold execJoinReq; simp (maxDischargeDepth := 30) [*]
@[simp] theorem leaveArrives_kept (h : FrameHeader) (s : State) : (leaveArrives h s).kept = s.kept := by
  unfold leaveArrives; simp
@[simp] theorem execLeave_ok (pq : List Instr) (h : FrameHeader) (s : State) (hOk : Ok pq s.kept) : OkNext pq (execLeave h s) := by
  unfold execLeave; simp (maxDischargeDepth := 30) [*]
@[simp] theorem noticeArrives_ok (pq : List Instr) (site : Nat) (excluded : Bool) (from_ : Nat) (s : State) (hOk : Ok pq s.kept) : Ok pq (noticeArrives site excluded from_ s).kept := by
  unfold noticeArrives; simp (maxDischargeDepth := 30) [*]
@[simp] theorem execNotice_ok (pq : List Instr) (h : FrameHeader) (site : Nat) (excluded : Bool) (fromRound : Nat) (s : State) (hOk : Ok pq s.kept) : OkNext pq (execNotice h site excluded fromRound s) := by
  unfold execNotice; simp (maxDischargeDepth := 30) +contextual [*]
@[simp] theorem siteLeave_ok (pq : List Instr) (k : CmdRef) (s : State) (hOk : Ok pq s.kept) : Ok pq (siteLeave k s).kept := by
  unfold siteLeave; (repeat' (first | split | (dsimp only; split))) <;> simp (maxDischargeDepth := 30) [*]
@[simp] theorem execSiteLeave_ok (pq : List Instr) (k : CmdRef) (s : State) (hOk : Ok pq s.kept) : OkNext pq (execSiteLeave k s) := by
  unfold execSiteLeave; simp (maxDischargeDepth := 30) [*]
@[simp] theorem leaveWaitExpiry_ok (pq : List Instr) (s : State) (hOk : Ok pq s.kept) : Ok pq (leaveWaitExpiry s).kept := by
  unfold leaveWaitExpiry; (repeat' (first | split | (dsimp only; split))) <;> simp (maxDischargeDepth := 30) [*]
@[simp] theorem execSiteLeaveWaitExpiry_ok (pq : List Instr) (s : State) (hOk : Ok pq s.kept) : OkNext pq (execSiteLeaveWaitExpiry s) := by
  unfold execSiteLeaveWaitExpiry; simp (maxDischargeDepth := 30) [*]

/-! ### Links -/

@[simp] theorem dropLanes_kept (p : Port) (mask : W16) (s : State) : (dropLanes p mask s).kept = s.kept := by
  unfold dropLanes; simp
@[simp] theorem enterRetrain_kept (p : Port) (s : State) : (enterRetrain p s).kept = s.kept := by
  unfold enterRetrain; simp
@[simp] theorem linkDetect_kept (p : Port) (lanes : Nat) (s : State) : (linkDetect p lanes s).kept = s.kept := by
  unfold linkDetect; simp
@[simp] theorem execLinkDetect_kept (p : Port) (lanes : Nat) (s : State) : KeepsKept (execLinkDetect p lanes s) s := by
  unfold execLinkDetect; simp
@[simp] theorem detectRetry_kept (p : Port) (s : State) : (detectRetry p s).kept = s.kept := by
  unfold detectRetry; simp
@[simp] theorem execDetectRetry_kept (p : Port) (s : State) : KeepsKept (execDetectRetry p s) s := by
  unfold execDetectRetry; simp
@[simp] theorem linkProbe_kept (p : Port) (loss : Nat) (s : State) : (linkProbe p loss s).kept = s.kept := by
  unfold linkProbe; simp
@[simp] theorem execLinkProbe_kept (p : Port) (loss : Nat) (s : State) : KeepsKept (execLinkProbe p loss s) s := by
  unfold execLinkProbe; simp
@[simp] theorem linkEqualise_kept (p : Port) (failed : W16) (s : State) : (linkEqualise p failed s).kept = s.kept := by
  unfold linkEqualise; simp
@[simp] theorem execLinkEqualise_kept (p : Port) (failed : BitVec 16) (s : State) : KeepsKept (execLinkEqualise p failed s) s := by
  unfold execLinkEqualise; simp
@[simp] theorem linkLock_kept (p : Port) (failed : W16) (farDropped : W16) (asym : Int) (s : State) : (linkLock p failed farDropped asym s).kept = s.kept := by
  unfold linkLock; simp
@[simp] theorem execLinkLock_kept (p : Port) (failed : BitVec 16) (farDropped : BitVec 16) (asym : Int) (s : State) : KeepsKept (execLinkLock p failed farDropped asym s) s := by
  unfold execLinkLock; simp
@[simp] theorem linkFlitSync_kept (p : Port) (s : State) : (linkFlitSync p s).kept = s.kept := by
  unfold linkFlitSync; simp
@[simp] theorem execLinkFlitSync_kept (p : Port) (s : State) : KeepsKept (execLinkFlitSync p s) s := by
  unfold execLinkFlitSync; simp
@[simp] theorem identFlit_kept (p : Port) (i : Ident) (s : State) : (identFlit p i s).kept = s.kept := by
  unfold identFlit; simp
@[simp] theorem execIdentFlit_kept (p : Port) (i : Ident) (s : State) : KeepsKept (execIdentFlit p i s) s := by
  unfold execIdentFlit; simp
@[simp] theorem execIdentTimer_kept (s : State) : KeepsKept (execIdentTimer s) s := by
  unfold execIdentTimer; simp
@[simp] theorem sendControl_kept (p : Port) (ackSeq : W16) (nak : Bool) (s : State) : (sendControl p ackSeq nak s).kept = s.kept := by
  unfold sendControl; simp
@[simp] theorem sendNak_kept (p : Port) (s : State) : (sendNak p s).kept = s.kept := by
  unfold sendNak; simp
@[simp] theorem sendAck_kept (p : Port) (s : State) : (sendAck p s).kept = s.kept := by
  unfold sendAck; simp
@[simp] theorem acceptFlit_kept (p : Port) (f : Flit) (s : State) : (acceptFlit p f s).kept = s.kept := by
  unfold acceptFlit; simp
@[simp] theorem dataFlit_kept (p : Port) (f : Flit) (s : State) : (dataFlit p f s).kept = s.kept := by
  unfold dataFlit; simp
@[simp] theorem execDataFlit_kept (p : Port) (f : Flit) (s : State) : KeepsKept (execDataFlit p f s) s := by
  unfold execDataFlit; simp
@[simp] theorem freeInput_kept (source : Option Port) (pkt : Packet) (s : State) : (freeInput source pkt s).kept = s.kept := by
  unfold freeInput; (repeat' (first | split | (dsimp only; split))) <;> simp
@[simp] theorem sendPacket_kept (p : Port) (vc : VC) (pkt : Packet) (s : State) : (sendPacket p vc pkt s).kept = s.kept := by
  unfold sendPacket; simp
@[simp] theorem serveOutput_kept : ∀ (n : Nat) (p : Port) (s : State), (serveOutput n p s).kept = s.kept
  | 0, _, _ => rfl
  | n + 1, p, s => by unfold serveOutput; (repeat' (first | split | (dsimp only; split))) <;> simp [serveOutput_kept n]
@[simp] theorem servePort_kept (p : Port) (s : State) : (servePort p s).kept = s.kept := by
  unfold servePort; simp
@[simp] theorem ringPacket_kept (pkt : Packet) (s : State) : (ringPacket pkt s).kept = s.kept := by
  unfold ringPacket; simp
@[simp] theorem packetForward_kept (source : Option Port) (pkt : Packet) (s : State) : (packetForward source pkt s).kept = s.kept := by
  unfold packetForward; (repeat' (first | split | (dsimp only; split))) <;> simp
@[simp] theorem execPacketForward_kept (source : Option Port) (pkt : Packet) (s : State) : KeepsKept (execPacketForward source pkt s) s := by
  unfold execPacketForward; simp
@[simp] theorem resend_kept (p : Port) (sel : HeldFlit → Bool) (s : State) : (resend p sel s).kept = s.kept := by
  unfold resend; simp
@[simp] theorem controlFlit_kept (p : Port) (c : ControlFlit) (s : State) : (controlFlit p c s).kept = s.kept := by
  unfold controlFlit; simp
@[simp] theorem execControlFlit_kept (p : Port) (c : ControlFlit) (s : State) : KeepsKept (execControlFlit p c s) s := by
  unfold execControlFlit; simp
@[simp] theorem execAckTimer_kept (p : Port) (s : State) : KeepsKept (execAckTimer p s) s := by
  unfold execAckTimer; simp
@[simp] theorem replayTimeout_kept (p : Port) (s : State) : (replayTimeout p s).kept = s.kept := by
  unfold replayTimeout; (repeat' (first | split | (dsimp only; split))) <;> simp
@[simp] theorem execReplayTimeout_kept (p : Port) (s : State) : KeepsKept (execReplayTimeout p s) s := by
  unfold execReplayTimeout; simp
@[simp] theorem loseLanes_kept (p : Port) (mask : W16) (s : State) : (loseLanes p mask s).kept = s.kept := by
  unfold loseLanes; simp
@[simp] theorem laneWindow_kept (p : Port) (errors : List (Nat × Nat)) (s : State) : (laneWindow p errors s).kept = s.kept := by
  unfold laneWindow; simp
@[simp] theorem execLaneErrorWindowClose_kept (p : Port) (errors : List (Nat × Nat)) (s : State) : KeepsKept (execLaneErrorWindowClose p errors s) s := by
  unfold execLaneErrorWindowClose; simp
@[simp] theorem execLaneLockLoss_kept (p : Port) (lane : Fin 16) (s : State) : KeepsKept (execLaneLockLoss p lane s) s := by
  unfold execLaneLockLoss; simp
@[simp] theorem retrain_kept (p : Port) (farDropped : W16) (s : State) : (retrain p farDropped s).kept = s.kept := by
  unfold retrain; simp
@[simp] theorem execRetrain_kept (p : Port) (farDropped : BitVec 16) (s : State) : KeepsKept (execRetrain p farDropped s) s := by
  unfold execRetrain; simp
@[simp] theorem retrainFail_kept (p : Port) (failed : W16) (s : State) : (retrainFail p failed s).kept = s.kept := by
  unfold retrainFail; simp
@[simp] theorem execRetrainFail_kept (p : Port) (failed : BitVec 16) (s : State) : KeepsKept (execRetrainFail p failed s) s := by
  unfold execRetrainFail; simp

/-! ### Functions -/

@[simp] theorem routesDown_kept (e : EthPort) (s : State) : (routesDown e s).kept = s.kept := by
  unfold routesDown; simp
@[simp] theorem beginStart_kept (f : Func) (reach : Nat) (s : State) : (beginStart f reach s).kept = s.kept := by
  unfold beginStart; (repeat' (first | split | (dsimp only; split))) <;> simp
@[simp] theorem beginStop_kept (f : Func) (s : State) : (beginStop f s).kept = s.kept := by
  unfold beginStop; (repeat' (first | split | (dsimp only; split))) <;> simp
@[simp] theorem endStart_kept (f : Func) (s : State) : (endStart f s).kept = s.kept := by
  unfold endStart; (repeat' (first | split | (dsimp only; split))) <;> simp
@[simp] theorem endStop_ok (p : List Instr) (f : Func) (s : State) (h : Ok p s.kept) : Ok p (endStop f s).kept := by
  unfold endStop; split <;> simp (maxDischargeDepth := 30) [h, wf_filter, h.1]
@[simp] theorem overtake_ok (pq : List Instr) (f : Func) (s : State) (hOk : Ok pq s.kept) : Ok pq (overtake f s).kept := by
  unfold overtake; (repeat' (first | split | (dsimp only; split))) <;> simp (maxDischargeDepth := 30) [*]
@[simp] theorem joinFn_ok (pq : List Instr) (f : Func) (k : CmdRef) (s : State) (hOk : Ok pq s.kept) : Ok pq (joinFn f k s).kept := by
  unfold joinFn; simp (maxDischargeDepth := 30) [*]
@[simp] theorem holdFn_ok (pq : List Instr) (f : Func) (k : CmdRef) (s : State) (hOk : Ok pq s.kept) : Ok pq (holdFn f k s).kept := by
  unfold holdFn; simp (maxDischargeDepth := 30) [*]
@[simp] theorem requestFn_ok (pq : List Instr) (k : CmdRef) (f : Func) (on : Bool) (reach : Nat) (s : State) (hOk : Ok pq s.kept) : Ok pq (requestFn k f on reach s).kept := by
  unfold requestFn; (repeat' (first | split | (dsimp only; split))) <;> simp (maxDischargeDepth := 30) [*]
@[simp] theorem funcEnable_ok (pq : List Instr) (k : CmdRef) (s : State) (hOk : Ok pq s.kept) : Ok pq (funcEnable k s).kept := by
  unfold funcEnable; (repeat' (first | split | (dsimp only; split))) <;> simp (maxDischargeDepth := 30) [*]
@[simp] theorem execFuncEnable_ok (pq : List Instr) (k : CmdRef) (s : State) (hOk : Ok pq s.kept) : OkNext pq (execFuncEnable k s) := by
  unfold execFuncEnable; simp (maxDischargeDepth := 30) [*]
@[simp] theorem funcDisable_ok (pq : List Instr) (k : CmdRef) (s : State) (hOk : Ok pq s.kept) : Ok pq (funcDisable k s).kept := by
  unfold funcDisable; (repeat' (first | split | (dsimp only; split))) <;> simp (maxDischargeDepth := 30) [*]
@[simp] theorem execFuncDisable_ok (pq : List Instr) (k : CmdRef) (s : State) (hOk : Ok pq s.kept) : OkNext pq (execFuncDisable k s) := by
  unfold execFuncDisable; simp (maxDischargeDepth := 30) [*]
@[simp] theorem endJoined_ok (pq : List Instr) (f : Func) (s : State) (hOk : Ok pq s.kept) : Ok pq (endJoined f s).kept := by
  unfold endJoined; simp (maxDischargeDepth := 30) +contextual [*]
@[simp] theorem startPending_ok (pq : List Instr) (f : Func) (s : State) (hOk : Ok pq s.kept) : Ok pq (startPending f s).kept := by
  unfold startPending; (repeat' (first | split | (dsimp only; split))) <;> simp (maxDischargeDepth := 30) [*]
@[simp] theorem transitionDone_ok (pq : List Instr) (f : Func) (s : State) (hOk : Ok pq s.kept) : Ok pq (transitionDone f s).kept := by
  unfold transitionDone; (repeat' (first | split | (dsimp only; split))) <;> simp (maxDischargeDepth := 30) [*]
@[simp] theorem execFunctionTransitionDone_ok (pq : List Instr) (f : Func) (s : State) (hOk : Ok pq s.kept) : OkNext pq (execFunctionTransitionDone f s) := by
  unfold execFunctionTransitionDone; simp (maxDischargeDepth := 30) [*]
@[simp] theorem execEthernetLaneFault_kept (e : EthPort) (_lane : Fin 8) (s : State) : KeepsKept (execEthernetLaneFault e _lane s) s := by
  unfold execEthernetLaneFault; simp

/-! ### Registers -/

@[simp] theorem pairLoRead_kept (off : BitVec 21) (s : State) : (pairLoRead off s).kept = s.kept := by
  unfold pairLoRead; (repeat' (first | split | (dsimp only; split))) <;> simp
@[simp] theorem execPairLoRead_kept (off : BitVec 21) (s : State) : KeepsKept (execPairLoRead off s) s := by
  unfold execPairLoRead; simp
@[simp] theorem talSnap_kept (v : W32) (s : State) : (talSnap v s).kept = s.kept := by
  unfold talSnap; simp
@[simp] theorem execTalSnap_kept (v : W32) (s : State) : KeepsKept (execTalSnap v s) s := by
  unfold execTalSnap; simp
@[simp] theorem snapshotDone_kept (s : State) : (snapshotDone s).kept = s.kept := by
  unfold snapshotDone; (repeat' (first | split | (dsimp only; split))) <;> simp
@[simp] theorem execTallySnapshotDone_kept (s : State) : KeepsKept (execTallySnapshotDone s) s := by
  unfold execTallySnapshotDone; simp
@[simp] theorem talWindowWrite_kept (hi : Bool) (v : W32) (s : State) : (talWindowWrite hi v s).kept = s.kept := by
  unfold talWindowWrite; simp
@[simp] theorem execTalWindowWrite_kept (hi : Bool) (v : W32) (s : State) : KeepsKept (execTalWindowWrite hi v s) s := by
  unfold execTalWindowWrite; simp
@[simp] theorem drivePins_kept (s : State) : (drivePins s).kept = s.kept := by
  unfold drivePins; simp
@[simp] theorem setProbe_kept (p : Fin 32) (v : W32) (s : State) : (setProbe p v s).kept = s.kept := by
  unfold setProbe; simp
@[simp] theorem execDbgProbeSelect_kept (p : Fin 32) (v : W32) (s : State) : KeepsKept (execDbgProbeSelect p v s) s := by
  unfold execDbgProbeSelect; simp
@[simp] theorem writeSyncControl_kept (v : W32) (s : State) : (writeSyncControl v s).kept = s.kept := by
  unfold writeSyncControl; simp
@[simp] theorem writeSyncValue_kept (v : W32) (s : State) : (writeSyncValue v s).kept = s.kept := by
  unfold writeSyncValue; simp
@[simp] theorem writePeriod_kept (n : Fin 16) (v : W32) (s : State) : (writePeriod n v s).kept = s.kept := by
  unfold writePeriod; simp
@[simp] theorem writeSafStatus_kept (v : W32) (s : State) : (writeSafStatus v s).kept = s.kept := by
  unfold writeSafStatus; simp
@[simp] theorem writePwrEvents_kept (v : W32) (s : State) : (writePwrEvents v s).kept = s.kept := by
  unfold writePwrEvents; simp
@[simp] theorem writeCmp_kept (n : Nat) (reg : Nat) (v : W32) (s : State) : (writeCmp n reg v s).kept = s.kept := by
  unfold writeCmp; (repeat' (first | split | (dsimp only; split))) <;> simp
@[simp] theorem write32_kept (off : Nat) (v : W32) (s : State) : (write32 off v s).kept = s.kept := by
  unfold write32; (repeat' (first | split | (dsimp only; split))) <;> simp
@[simp] theorem writeRing_ok (p : List Instr) : ∀ (b : Bytes) (o : Nat) (s : State), Ok p s.kept → Ok p (writeRing o b s).kept
  | [], _, _, h => h
  | b :: t, o, s, h => by
    unfold writeRing
    apply writeRing_ok p t
    split
    · exact h
    · simp [h, wf_writeByte, h.2.2.2.1]
@[simp] theorem registerWrite_ok (p : List Instr) (off : BitVec 21) (width : Nat) (v : W64) (s : State) (h : Ok p s.kept) :
    Ok p (registerWrite off width v s).kept := by
  unfold registerWrite; (repeat' (first | split | (dsimp only; split))) <;> simp (maxDischargeDepth := 30) [h]
@[simp] theorem execRegisterWrite_ok (pq : List Instr) (off : BitVec 21) (width : Nat) (v : W64) (s : State) (hOk : Ok pq s.kept) : OkNext pq (execRegisterWrite off width v s) := by
  unfold execRegisterWrite; simp (maxDischargeDepth := 30) [*]

/-! ### Debug -/

@[simp] theorem tallyTick_kept (s : State) : (tallyTick s).kept = s.kept := by
  unfold tallyTick; simp
@[simp] theorem windowClose_kept (s : State) : (windowClose s).kept = s.kept := by
  unfold windowClose; simp
@[simp] theorem execTelemetryWindowClose_kept (s : State) : KeepsKept (execTelemetryWindowClose s) s := by
  unfold execTelemetryWindowClose; simp
@[simp] theorem selectIr_kept (i : Jtag) (s : State) : (selectIr i s).kept = s.kept := by
  unfold selectIr; simp
@[simp] theorem extest_kept (s : State) : (extest s).kept = s.kept := by
  unfold extest; simp
@[simp] theorem execExtest_kept (s : State) : KeepsKept (execExtest s) s := by
  unfold execExtest; simp
@[simp] theorem samplePreload_kept (preload : BitVec 64) (pins : BitVec 64) (s : State) : (samplePreload preload pins s).kept = s.kept := by
  unfold samplePreload; simp
@[simp] theorem execSamplePreload_kept (preload : BitVec 64) (pins : BitVec 64) (s : State) : KeepsKept (execSamplePreload preload pins s) s := by
  unfold execSamplePreload; simp
@[simp] theorem execIdcode_kept (s : State) : KeepsKept (execIdcode s) s := by
  unfold execIdcode; simp
@[simp] theorem execIjtagAccess_kept (s : State) : KeepsKept (execIjtagAccess s) s := by
  unfold execIjtagAccess; simp
@[simp] theorem execBypass_kept (code : Byte) (s : State) : KeepsKept (execBypass code s) s := by
  unfold execBypass; simp
@[simp] theorem execTestLogicReset_kept (_trst : Bool) (s : State) : KeepsKept (execTestLogicReset _trst s) s := by
  unfold execTestLogicReset; simp
@[simp] theorem segmentInsert_kept (g : Fin 5) (insert : Bool) (s : State) : (segmentInsert g insert s).kept = s.kept := by
  unfold segmentInsert; simp
@[simp] theorem execSegmentInsert_kept (g : Fin 5) (insert : Bool) (s : State) : KeepsKept (execSegmentInsert g insert s) s := by
  unfold execSegmentInsert; simp
@[simp] theorem instrumentRead_kept (addr : Nat) (s : State) : (instrumentRead addr s).kept = s.kept := by
  unfold instrumentRead; simp
@[simp] theorem execLogbookInstrumentRead_kept (addr : Nat) (s : State) : KeepsKept (execLogbookInstrumentRead addr s) s := by
  unfold execLogbookInstrumentRead; (repeat' (first | split | (dsimp only; split))) <;> simp
@[simp] theorem spiNorWrite_ok (p : List Instr) (addr : BitVec 28) (b : Bytes) (s : State) (h : Ok p s.kept) :
    Ok p (spiNorWrite addr b s).kept := by
  unfold spiNorWrite; split <;> simp (maxDischargeDepth := 30) [h, wf_writeBytes, h.2.2.2.2.1]
@[simp] theorem execSpiNorWrite_ok (pq : List Instr) (addr : BitVec 28) (b : Bytes) (s : State) (hOk : Ok pq s.kept) : OkNext pq (execSpiNorWrite addr b s) := by
  unfold execSpiNorWrite; simp (maxDischargeDepth := 30) [*]

/-! ### Clock -/

@[simp] theorem siteTick_kept (s : State) : (siteTick s).kept = s.kept := by
  unfold siteTick; (repeat' (first | split | (dsimp only; split))) <;> simp
@[simp] theorem idleTick_ok (pq : List Instr) (s : State) (hOk : Ok pq s.kept) : Ok pq (idleTick s).kept := by
  unfold idleTick; simp (maxDischargeDepth := 30) [*]

/-! ### Stats -/

@[simp] theorem clearStat_kept (eval : Bool) (r : StatRec) (s : State) : (clearStat eval r s).kept = s.kept := by
  unfold clearStat; (repeat' (first | split | (dsimp only; split))) <;> simp
@[simp] theorem statsRead_ok (pq : List Instr) (k : CmdRef) (s : State) (hOk : Ok pq s.kept) : Ok pq (statsRead k s).kept := by
  unfold statsRead; (repeat' (first | split | (dsimp only; split))) <;> simp (maxDischargeDepth := 30) +contextual [*]
@[simp] theorem execStatsRead_ok (pq : List Instr) (k : CmdRef) (s : State) (hOk : Ok pq s.kept) : OkNext pq (execStatsRead k s) := by
  unfold execStatsRead; simp (maxDischargeDepth := 30) [*]
@[simp] theorem clearRetirements_kept (s : State) : (clearRetirements s).kept = s.kept := by
  unfold clearRetirements; simp
@[simp] theorem logbookRead_ok (pq : List Instr) (k : CmdRef) (fails : Nat) (s : State) (hOk : Ok pq s.kept) : Ok pq (logbookRead k fails s).kept := by
  unfold logbookRead; (repeat' (first | split | (dsimp only; split))) <;> simp (maxDischargeDepth := 30) [*]
@[simp] theorem execLogbookRead_ok (pq : List Instr) (k : CmdRef) (transferFails : Nat) (s : State) (hOk : Ok pq s.kept) : OkNext pq (execLogbookRead k transferFails s) := by
  unfold execLogbookRead; simp (maxDischargeDepth := 30) [*]
@[simp] theorem loadInputs_kept (eval : Bool) (r : BufRef) (base : Nat) (epoch : W48) (s : State) :
    (loadInputs eval r base epoch s).kept = s.kept := by
  unfold loadInputs
  exact kept_foldl_fst _ (fun x a => by simp) _ _

/-! ### StepRun -/

@[simp] theorem stepInputs_kept (c : Cmd) (j : Nat) (s : State) : (stepInputs c j s).kept = s.kept := by
  unfold stepInputs; simp
@[simp] theorem stepRun_ok (pq : List Instr) (k : CmdRef) (s : State) (hOk : Ok pq s.kept) : Ok pq (stepRun k s).kept := by
  unfold stepRun; (repeat' (first | split | (dsimp only; split))) <;> simp (maxDischargeDepth := 30) [*]
@[simp] theorem execStepRun_ok (pq : List Instr) (k : CmdRef) (s : State) (hOk : Ok pq s.kept) : OkNext pq (execStepRun k s) := by
  unfold execStepRun; simp (maxDischargeDepth := 30) [*]
@[simp] theorem beginEval_ok (pq : List Instr) (k : CmdRef) (c : Cmd) (s : State) (hOk : Ok pq s.kept) : Ok pq (beginEval k c s).kept := by
  unfold beginEval; simp (maxDischargeDepth := 30) [*]
@[simp] theorem evalRun_ok (pq : List Instr) (k : CmdRef) (s : State) (hOk : Ok pq s.kept) : Ok pq (evalRun k s).kept := by
  unfold evalRun; (repeat' (first | split | (dsimp only; split))) <;> simp (maxDischargeDepth := 30) +contextual [*]
@[simp] theorem execEvalRun_ok (pq : List Instr) (k : CmdRef) (s : State) (hOk : Ok pq s.kept) : OkNext pq (execEvalRun k s) := by
  unfold execEvalRun; simp (maxDischargeDepth := 30) [*]
@[simp] theorem hostStore_kept (t : TensorDecl) (x : Section) (s : State) : (hostStore t x s).kept = s.kept := by
  unfold hostStore; simp
@[simp] theorem tensorWrite_ok (pq : List Instr) (k : CmdRef) (transferFails : Nat) (s : State) (hOk : Ok pq s.kept) : Ok pq (tensorWrite k transferFails s).kept := by
  unfold tensorWrite; (repeat' (first | split | (dsimp only; split))) <;> simp (maxDischargeDepth := 30) [*]
@[simp] theorem execTensorWrite_ok (pq : List Instr) (k : CmdRef) (transferFails : Nat) (s : State) (hOk : Ok pq s.kept) : OkNext pq (execTensorWrite k transferFails s) := by
  unfold execTensorWrite; simp (maxDischargeDepth := 30) [*]
@[simp] theorem tensorRead_ok (p : List Instr) (k : CmdRef) (n : Nat) (s : State) (h : Ok p s.kept) : Ok p (tensorRead k n s).kept := by
  have e : ∀ (b : BufRef) (l : List Section) (x : State × Nat), Ok p x.1.kept → Ok p (l.foldl (fun (x : State × Nat) y =>
      (addRecord k (sectionRecordOf y) (writeBuf b x.2 (y.content ++ y.scales) x.1), x.2 + y.content.length + y.scales.length)) x).1.kept := by
    intro b l x hx
    apply ok_foldl_fst _ _ _ _ _ hx
    intro y a hy; simp (maxDischargeDepth := 30) [hy]
  unfold tensorRead
  (repeat' (first | split | (dsimp only; split))) <;> simp (maxDischargeDepth := 30) [h, e]
@[simp] theorem execTensorRead_ok (pq : List Instr) (k : CmdRef) (transferFails : Nat) (s : State) (hOk : Ok pq s.kept) : OkNext pq (execTensorRead k transferFails s) := by
  unfold execTensorRead; simp (maxDischargeDepth := 30) [*]
@[simp] theorem auditReplay_ok (pq : List Instr) (k : CmdRef) (a : AuditRun) (s : State) (hOk : Ok pq s.kept) : Ok pq (auditReplay k a s).kept := by
  unfold auditReplay; (repeat' (first | split | (dsimp only; split))) <;> simp (maxDischargeDepth := 30) [*]
@[simp] theorem execAuditReplay_ok (pq : List Instr) (k : CmdRef) (a : AuditRun) (s : State) (hOk : Ok pq s.kept) : OkNext pq (execAuditReplay k a s) := by
  unfold execAuditReplay; simp (maxDischargeDepth := 30) [*]
@[simp] theorem innerStepStart_ok (pq : List Instr) (s : State) (hOk : Ok pq s.kept) : Ok pq (innerStepStart s).kept := by
  unfold innerStepStart; simp (maxDischargeDepth := 30) [*]
@[simp] theorem execInnerStepStart_ok (pq : List Instr) (s : State) (hOk : Ok pq s.kept) : OkNext pq (execInnerStepStart s) := by
  unfold execInnerStepStart; simp (maxDischargeDepth := 30) [*]

end Sys2Proof.Machine
end

