-- ==== Sys2Proof/Laws/Queries.lean ====
section
/-! SUPPORT. What the model reads of the slice, the functions and the ports: each query depends on one part of State, so the
shared operations that leave that part alone leave its answer alone. -/

namespace Sys2Proof.Machine

theorem memberOfCoords_of {a b : State} (h : a.slice = b.slice) : memberOfCoords a = memberOfCoords b := by
  funext c; unfold memberOfCoords; rw [h]
theorem memberIndex_of {a b : State} (h : a.slice = b.slice) : memberIndex a = memberIndex b := by
  unfold memberIndex; rw [h, memberOfCoords_of h]
theorem memberCount_of {a b : State} (h : a.slice = b.slice) : memberCount a = memberCount b := by unfold memberCount; rw [h]
theorem leadIndex_of {a b : State} (h : a.slice = b.slice) : leadIndex a = leadIndex b := by unfold leadIndex; rw [h]
theorem isLead_of {a b : State} (h : a.slice = b.slice) : isLead a = isLead b := by
  unfold isLead; rw [memberIndex_of h, leadIndex_of h]
theorem getFn_of {a b : State} (h : a.fns = b.fns) : getFn a = getFn b := by funext f; unfold getFn; rw [h]
theorem fnOn_of {a b : State} (h : a.fns = b.fns) : fnOn a = fnOn b := by funext f; unfold fnOn; rw [getFn_of h]
theorem getPort_of {a b : State} (h : a.ports = b.ports) : getPort a = getPort b := by funext p; unfold getPort; rw [h]

/-! ### emit -/
@[simp] theorem emit_memberIndex (s : State) (o : Out) : memberIndex (emit o s) = memberIndex s := memberIndex_of (by simp)
@[simp] theorem emit_memberCount (s : State) (o : Out) : memberCount (emit o s) = memberCount s := memberCount_of (by simp)
@[simp] theorem emit_leadIndex (s : State) (o : Out) : leadIndex (emit o s) = leadIndex s := leadIndex_of (by simp)
@[simp] theorem emit_isLead (s : State) (o : Out) : isLead (emit o s) = isLead s := isLead_of (by simp)
@[simp] theorem emit_fnOn (s : State) (o : Out) : fnOn (emit o s) = fnOn s := fnOn_of (by simp)
@[simp] theorem emit_getFn (s : State) (o : Out) : getFn (emit o s) = getFn s := getFn_of (by simp)
@[simp] theorem emit_getPort (s : State) (o : Out) : getPort (emit o s) = getPort s := getPort_of (by simp)

/-! ### emits -/
@[simp] theorem emits_memberIndex (s : State) (os : List Out) : memberIndex (emits os s) = memberIndex s := memberIndex_of (by simp)
@[simp] theorem emits_memberCount (s : State) (os : List Out) : memberCount (emits os s) = memberCount s := memberCount_of (by simp)
@[simp] theorem emits_leadIndex (s : State) (os : List Out) : leadIndex (emits os s) = leadIndex s := leadIndex_of (by simp)
@[simp] theorem emits_isLead (s : State) (os : List Out) : isLead (emits os s) = isLead s := isLead_of (by simp)
@[simp] theorem emits_fnOn (s : State) (os : List Out) : fnOn (emits os s) = fnOn s := fnOn_of (by simp)
@[simp] theorem emits_getFn (s : State) (os : List Out) : getFn (emits os s) = getFn s := getFn_of (by simp)
@[simp] theorem emits_getPort (s : State) (os : List Out) : getPort (emits os s) = getPort s := getPort_of (by simp)

/-! ### setStall -/
@[simp] theorem setStall_memberIndex (s : State) (i : Fin 1024) (x : Stall) : memberIndex (setStall s i x) = memberIndex s := memberIndex_of (by simp)
@[simp] theorem setStall_memberCount (s : State) (i : Fin 1024) (x : Stall) : memberCount (setStall s i x) = memberCount s := memberCount_of (by simp)
@[simp] theorem setStall_leadIndex (s : State) (i : Fin 1024) (x : Stall) : leadIndex (setStall s i x) = leadIndex s := leadIndex_of (by simp)
@[simp] theorem setStall_isLead (s : State) (i : Fin 1024) (x : Stall) : isLead (setStall s i x) = isLead s := isLead_of (by simp)
@[simp] theorem setStall_fnOn (s : State) (i : Fin 1024) (x : Stall) : fnOn (setStall s i x) = fnOn s := fnOn_of (by simp)
@[simp] theorem setStall_getFn (s : State) (i : Fin 1024) (x : Stall) : getFn (setStall s i x) = getFn s := getFn_of (by simp)
@[simp] theorem setStall_getPort (s : State) (i : Fin 1024) (x : Stall) : getPort (setStall s i x) = getPort s := getPort_of (by simp)

/-! ### setFn -/
@[simp] theorem setFn_memberIndex (s : State) (f : Func) (x : Fn) : memberIndex (setFn s f x) = memberIndex s := memberIndex_of (by simp)
@[simp] theorem setFn_memberCount (s : State) (f : Func) (x : Fn) : memberCount (setFn s f x) = memberCount s := memberCount_of (by simp)
@[simp] theorem setFn_leadIndex (s : State) (f : Func) (x : Fn) : leadIndex (setFn s f x) = leadIndex s := leadIndex_of (by simp)
@[simp] theorem setFn_isLead (s : State) (f : Func) (x : Fn) : isLead (setFn s f x) = isLead s := isLead_of (by simp)
@[simp] theorem setFn_getPort (s : State) (f : Func) (x : Fn) : getPort (setFn s f x) = getPort s := getPort_of (by simp)

/-! ### setPort -/
@[simp] theorem setPort_memberIndex (s : State) (p : Port) (x : TPort) : memberIndex (setPort s p x) = memberIndex s := memberIndex_of (by simp)
@[simp] theorem setPort_memberCount (s : State) (p : Port) (x : TPort) : memberCount (setPort s p x) = memberCount s := memberCount_of (by simp)
@[simp] theorem setPort_leadIndex (s : State) (p : Port) (x : TPort) : leadIndex (setPort s p x) = leadIndex s := leadIndex_of (by simp)
@[simp] theorem setPort_isLead (s : State) (p : Port) (x : TPort) : isLead (setPort s p x) = isLead s := isLead_of (by simp)
@[simp] theorem setPort_fnOn (s : State) (p : Port) (x : TPort) : fnOn (setPort s p x) = fnOn s := fnOn_of (by simp)
@[simp] theorem setPort_getFn (s : State) (p : Port) (x : TPort) : getFn (setPort s p x) = getFn s := getFn_of (by simp)

/-! ### settleAlert -/
@[simp] theorem settleAlert_memberIndex (s : State) : memberIndex (settleAlert s) = memberIndex s := memberIndex_of (by simp)
@[simp] theorem settleAlert_memberCount (s : State) : memberCount (settleAlert s) = memberCount s := memberCount_of (by simp)
@[simp] theorem settleAlert_leadIndex (s : State) : leadIndex (settleAlert s) = leadIndex s := leadIndex_of (by simp)
@[simp] theorem settleAlert_isLead (s : State) : isLead (settleAlert s) = isLead s := isLead_of (by simp)
@[simp] theorem settleAlert_fnOn (s : State) : fnOn (settleAlert s) = fnOn s := fnOn_of (by simp)
@[simp] theorem settleAlert_getFn (s : State) : getFn (settleAlert s) = getFn s := getFn_of (by simp)
@[simp] theorem settleAlert_getPort (s : State) : getPort (settleAlert s) = getPort s := getPort_of (by simp)

/-! ### enterGroup -/
@[simp] theorem enterGroup_memberIndex (s : State) (rs : List LogRec) : memberIndex (enterGroup rs s) = memberIndex s := memberIndex_of (by simp)
@[simp] theorem enterGroup_memberCount (s : State) (rs : List LogRec) : memberCount (enterGroup rs s) = memberCount s := memberCount_of (by simp)
@[simp] theorem enterGroup_leadIndex (s : State) (rs : List LogRec) : leadIndex (enterGroup rs s) = leadIndex s := leadIndex_of (by simp)
@[simp] theorem enterGroup_isLead (s : State) (rs : List LogRec) : isLead (enterGroup rs s) = isLead s := isLead_of (by simp)
@[simp] theorem enterGroup_fnOn (s : State) (rs : List LogRec) : fnOn (enterGroup rs s) = fnOn s := fnOn_of (by simp)
@[simp] theorem enterGroup_getFn (s : State) (rs : List LogRec) : getFn (enterGroup rs s) = getFn s := getFn_of (by simp)
@[simp] theorem enterGroup_getPort (s : State) (rs : List LogRec) : getPort (enterGroup rs s) = getPort s := getPort_of (by simp)

/-! ### offerGroup -/
@[simp] theorem offerGroup_memberIndex (s : State) (rs : List LogRec) : memberIndex (offerGroup rs s) = memberIndex s := memberIndex_of (by simp)
@[simp] theorem offerGroup_memberCount (s : State) (rs : List LogRec) : memberCount (offerGroup rs s) = memberCount s := memberCount_of (by simp)
@[simp] theorem offerGroup_leadIndex (s : State) (rs : List LogRec) : leadIndex (offerGroup rs s) = leadIndex s := leadIndex_of (by simp)
@[simp] theorem offerGroup_isLead (s : State) (rs : List LogRec) : isLead (offerGroup rs s) = isLead s := isLead_of (by simp)
@[simp] theorem offerGroup_fnOn (s : State) (rs : List LogRec) : fnOn (offerGroup rs s) = fnOn s := fnOn_of (by simp)
@[simp] theorem offerGroup_getFn (s : State) (rs : List LogRec) : getFn (offerGroup rs s) = getFn s := getFn_of (by simp)
@[simp] theorem offerGroup_getPort (s : State) (rs : List LogRec) : getPort (offerGroup rs s) = getPort s := getPort_of (by simp)

/-! ### logEvent -/
@[simp] theorem logEvent_memberIndex (s : State) (code : W16) (sev : BitVec 3) (unit : UnitId) (detail : Bytes) : memberIndex (logEvent code sev unit detail s) = memberIndex s := memberIndex_of (by simp)
@[simp] theorem logEvent_memberCount (s : State) (code : W16) (sev : BitVec 3) (unit : UnitId) (detail : Bytes) : memberCount (logEvent code sev unit detail s) = memberCount s := memberCount_of (by simp)
@[simp] theorem logEvent_leadIndex (s : State) (code : W16) (sev : BitVec 3) (unit : UnitId) (detail : Bytes) : leadIndex (logEvent code sev unit detail s) = leadIndex s := leadIndex_of (by simp)
@[simp] theorem logEvent_isLead (s : State) (code : W16) (sev : BitVec 3) (unit : UnitId) (detail : Bytes) : isLead (logEvent code sev unit detail s) = isLead s := isLead_of (by simp)
@[simp] theorem logEvent_fnOn (s : State) (code : W16) (sev : BitVec 3) (unit : UnitId) (detail : Bytes) : fnOn (logEvent code sev unit detail s) = fnOn s := fnOn_of (by simp)
@[simp] theorem logEvent_getFn (s : State) (code : W16) (sev : BitVec 3) (unit : UnitId) (detail : Bytes) : getFn (logEvent code sev unit detail s) = getFn s := getFn_of (by simp)
@[simp] theorem logEvent_getPort (s : State) (code : W16) (sev : BitVec 3) (unit : UnitId) (detail : Bytes) : getPort (logEvent code sev unit detail s) = getPort s := getPort_of (by simp)

/-! ### countDetection -/
@[simp] theorem countDetection_memberIndex (s : State) (mech : Nat) (unit : UnitId) (location : W32) (observed expected : W64) : memberIndex (countDetection mech unit location observed expected s) = memberIndex s := memberIndex_of (by simp)
@[simp] theorem countDetection_memberCount (s : State) (mech : Nat) (unit : UnitId) (location : W32) (observed expected : W64) : memberCount (countDetection mech unit location observed expected s) = memberCount s := memberCount_of (by simp)
@[simp] theorem countDetection_leadIndex (s : State) (mech : Nat) (unit : UnitId) (location : W32) (observed expected : W64) : leadIndex (countDetection mech unit location observed expected s) = leadIndex s := leadIndex_of (by simp)
@[simp] theorem countDetection_isLead (s : State) (mech : Nat) (unit : UnitId) (location : W32) (observed expected : W64) : isLead (countDetection mech unit location observed expected s) = isLead s := isLead_of (by simp)
@[simp] theorem countDetection_fnOn (s : State) (mech : Nat) (unit : UnitId) (location : W32) (observed expected : W64) : fnOn (countDetection mech unit location observed expected s) = fnOn s := fnOn_of (by simp)
@[simp] theorem countDetection_getFn (s : State) (mech : Nat) (unit : UnitId) (location : W32) (observed expected : W64) : getFn (countDetection mech unit location observed expected s) = getFn s := getFn_of (by simp)
@[simp] theorem countDetection_getPort (s : State) (mech : Nat) (unit : UnitId) (location : W32) (observed expected : W64) : getPort (countDetection mech unit location observed expected s) = getPort s := getPort_of (by simp)

/-! ### countCorrection -/
@[simp] theorem countCorrection_memberIndex (s : State) (mech : Nat) (unit : UnitId) (addr : Nat) : memberIndex (countCorrection mech unit addr s) = memberIndex s := memberIndex_of (by simp)
@[simp] theorem countCorrection_memberCount (s : State) (mech : Nat) (unit : UnitId) (addr : Nat) : memberCount (countCorrection mech unit addr s) = memberCount s := memberCount_of (by simp)
@[simp] theorem countCorrection_leadIndex (s : State) (mech : Nat) (unit : UnitId) (addr : Nat) : leadIndex (countCorrection mech unit addr s) = leadIndex s := leadIndex_of (by simp)
@[simp] theorem countCorrection_isLead (s : State) (mech : Nat) (unit : UnitId) (addr : Nat) : isLead (countCorrection mech unit addr s) = isLead s := isLead_of (by simp)
@[simp] theorem countCorrection_fnOn (s : State) (mech : Nat) (unit : UnitId) (addr : Nat) : fnOn (countCorrection mech unit addr s) = fnOn s := fnOn_of (by simp)
@[simp] theorem countCorrection_getFn (s : State) (mech : Nat) (unit : UnitId) (addr : Nat) : getFn (countCorrection mech unit addr s) = getFn s := getFn_of (by simp)
@[simp] theorem countCorrection_getPort (s : State) (mech : Nat) (unit : UnitId) (addr : Nat) : getPort (countCorrection mech unit addr s) = getPort s := getPort_of (by simp)

/-! ### logSecurity -/
@[simp] theorem logSecurity_memberIndex (s : State) (event : Nat) (rest : Bytes) : memberIndex (logSecurity event rest s) = memberIndex s := memberIndex_of (by simp)
@[simp] theorem logSecurity_memberCount (s : State) (event : Nat) (rest : Bytes) : memberCount (logSecurity event rest s) = memberCount s := memberCount_of (by simp)
@[simp] theorem logSecurity_leadIndex (s : State) (event : Nat) (rest : Bytes) : leadIndex (logSecurity event rest s) = leadIndex s := leadIndex_of (by simp)
@[simp] theorem logSecurity_isLead (s : State) (event : Nat) (rest : Bytes) : isLead (logSecurity event rest s) = isLead s := isLead_of (by simp)
@[simp] theorem logSecurity_fnOn (s : State) (event : Nat) (rest : Bytes) : fnOn (logSecurity event rest s) = fnOn s := fnOn_of (by simp)
@[simp] theorem logSecurity_getFn (s : State) (event : Nat) (rest : Bytes) : getFn (logSecurity event rest s) = getFn s := getFn_of (by simp)
@[simp] theorem logSecurity_getPort (s : State) (event : Nat) (rest : Bytes) : getPort (logSecurity event rest s) = getPort s := getPort_of (by simp)

/-! ### logSite -/
@[simp] theorem logSite_memberIndex (s : State) (event site round : Nat) (more : Bytes) : memberIndex (logSite event site round more s) = memberIndex s := memberIndex_of (by simp)
@[simp] theorem logSite_memberCount (s : State) (event site round : Nat) (more : Bytes) : memberCount (logSite event site round more s) = memberCount s := memberCount_of (by simp)
@[simp] theorem logSite_leadIndex (s : State) (event site round : Nat) (more : Bytes) : leadIndex (logSite event site round more s) = leadIndex s := leadIndex_of (by simp)
@[simp] theorem logSite_isLead (s : State) (event site round : Nat) (more : Bytes) : isLead (logSite event site round more s) = isLead s := isLead_of (by simp)
@[simp] theorem logSite_fnOn (s : State) (event site round : Nat) (more : Bytes) : fnOn (logSite event site round more s) = fnOn s := fnOn_of (by simp)
@[simp] theorem logSite_getFn (s : State) (event site round : Nat) (more : Bytes) : getFn (logSite event site round more s) = getFn s := getFn_of (by simp)
@[simp] theorem logSite_getPort (s : State) (event site round : Nat) (more : Bytes) : getPort (logSite event site round more s) = getPort s := getPort_of (by simp)

/-! ### writeStatus -/
@[simp] theorem writeStatus_memberIndex (s : State) (k : CmdRef) (w : W64) : memberIndex (writeStatus k w s) = memberIndex s := memberIndex_of (by simp)
@[simp] theorem writeStatus_memberCount (s : State) (k : CmdRef) (w : W64) : memberCount (writeStatus k w s) = memberCount s := memberCount_of (by simp)
@[simp] theorem writeStatus_leadIndex (s : State) (k : CmdRef) (w : W64) : leadIndex (writeStatus k w s) = leadIndex s := leadIndex_of (by simp)
@[simp] theorem writeStatus_isLead (s : State) (k : CmdRef) (w : W64) : isLead (writeStatus k w s) = isLead s := isLead_of (by simp)
@[simp] theorem writeStatus_fnOn (s : State) (k : CmdRef) (w : W64) : fnOn (writeStatus k w s) = fnOn s := fnOn_of (by simp)
@[simp] theorem writeStatus_getFn (s : State) (k : CmdRef) (w : W64) : getFn (writeStatus k w s) = getFn s := getFn_of (by simp)
@[simp] theorem writeStatus_getPort (s : State) (k : CmdRef) (w : W64) : getPort (writeStatus k w s) = getPort s := getPort_of (by simp)

/-! ### updCmd -/
@[simp] theorem updCmd_memberIndex (s : State) (k : CmdRef) (f : Cmd → Cmd) : memberIndex (updCmd k f s) = memberIndex s := memberIndex_of (by simp)
@[simp] theorem updCmd_memberCount (s : State) (k : CmdRef) (f : Cmd → Cmd) : memberCount (updCmd k f s) = memberCount s := memberCount_of (by simp)
@[simp] theorem updCmd_leadIndex (s : State) (k : CmdRef) (f : Cmd → Cmd) : leadIndex (updCmd k f s) = leadIndex s := leadIndex_of (by simp)
@[simp] theorem updCmd_isLead (s : State) (k : CmdRef) (f : Cmd → Cmd) : isLead (updCmd k f s) = isLead s := isLead_of (by simp)
@[simp] theorem updCmd_fnOn (s : State) (k : CmdRef) (f : Cmd → Cmd) : fnOn (updCmd k f s) = fnOn s := fnOn_of (by simp)
@[simp] theorem updCmd_getFn (s : State) (k : CmdRef) (f : Cmd → Cmd) : getFn (updCmd k f s) = getFn s := getFn_of (by simp)
@[simp] theorem updCmd_getPort (s : State) (k : CmdRef) (f : Cmd → Cmd) : getPort (updCmd k f s) = getPort s := getPort_of (by simp)

/-! ### refreshStatus -/
@[simp] theorem refreshStatus_memberIndex (s : State) (k : CmdRef) : memberIndex (refreshStatus k s) = memberIndex s := memberIndex_of (by simp)
@[simp] theorem refreshStatus_memberCount (s : State) (k : CmdRef) : memberCount (refreshStatus k s) = memberCount s := memberCount_of (by simp)
@[simp] theorem refreshStatus_leadIndex (s : State) (k : CmdRef) : leadIndex (refreshStatus k s) = leadIndex s := leadIndex_of (by simp)
@[simp] theorem refreshStatus_isLead (s : State) (k : CmdRef) : isLead (refreshStatus k s) = isLead s := isLead_of (by simp)
@[simp] theorem refreshStatus_fnOn (s : State) (k : CmdRef) : fnOn (refreshStatus k s) = fnOn s := fnOn_of (by simp)
@[simp] theorem refreshStatus_getFn (s : State) (k : CmdRef) : getFn (refreshStatus k s) = getFn s := getFn_of (by simp)
@[simp] theorem refreshStatus_getPort (s : State) (k : CmdRef) : getPort (refreshStatus k s) = getPort s := getPort_of (by simp)

/-! ### setRunning -/
@[simp] theorem setRunning_memberIndex (s : State) (k : CmdRef) : memberIndex (setRunning k s) = memberIndex s := memberIndex_of (by simp)
@[simp] theorem setRunning_memberCount (s : State) (k : CmdRef) : memberCount (setRunning k s) = memberCount s := memberCount_of (by simp)
@[simp] theorem setRunning_leadIndex (s : State) (k : CmdRef) : leadIndex (setRunning k s) = leadIndex s := leadIndex_of (by simp)
@[simp] theorem setRunning_isLead (s : State) (k : CmdRef) : isLead (setRunning k s) = isLead s := isLead_of (by simp)
@[simp] theorem setRunning_fnOn (s : State) (k : CmdRef) : fnOn (setRunning k s) = fnOn s := fnOn_of (by simp)
@[simp] theorem setRunning_getFn (s : State) (k : CmdRef) : getFn (setRunning k s) = getFn s := getFn_of (by simp)
@[simp] theorem setRunning_getPort (s : State) (k : CmdRef) : getPort (setRunning k s) = getPort s := getPort_of (by simp)

/-! ### setProgress -/
@[simp] theorem setProgress_memberIndex (s : State) (k : CmdRef) (n : Nat) : memberIndex (setProgress k n s) = memberIndex s := memberIndex_of (by simp)
@[simp] theorem setProgress_memberCount (s : State) (k : CmdRef) (n : Nat) : memberCount (setProgress k n s) = memberCount s := memberCount_of (by simp)
@[simp] theorem setProgress_leadIndex (s : State) (k : CmdRef) (n : Nat) : leadIndex (setProgress k n s) = leadIndex s := leadIndex_of (by simp)
@[simp] theorem setProgress_isLead (s : State) (k : CmdRef) (n : Nat) : isLead (setProgress k n s) = isLead s := isLead_of (by simp)
@[simp] theorem setProgress_fnOn (s : State) (k : CmdRef) (n : Nat) : fnOn (setProgress k n s) = fnOn s := fnOn_of (by simp)
@[simp] theorem setProgress_getFn (s : State) (k : CmdRef) (n : Nat) : getFn (setProgress k n s) = getFn s := getFn_of (by simp)
@[simp] theorem setProgress_getPort (s : State) (k : CmdRef) (n : Nat) : getPort (setProgress k n s) = getPort s := getPort_of (by simp)

/-! ### placeRecord -/
@[simp] theorem placeRecord_memberIndex (s : State) (c : Cmd) (n : Nat) (b : Bytes) : memberIndex (placeRecord c n b s) = memberIndex s := memberIndex_of (by simp)
@[simp] theorem placeRecord_memberCount (s : State) (c : Cmd) (n : Nat) (b : Bytes) : memberCount (placeRecord c n b s) = memberCount s := memberCount_of (by simp)
@[simp] theorem placeRecord_leadIndex (s : State) (c : Cmd) (n : Nat) (b : Bytes) : leadIndex (placeRecord c n b s) = leadIndex s := leadIndex_of (by simp)
@[simp] theorem placeRecord_isLead (s : State) (c : Cmd) (n : Nat) (b : Bytes) : isLead (placeRecord c n b s) = isLead s := isLead_of (by simp)
@[simp] theorem placeRecord_fnOn (s : State) (c : Cmd) (n : Nat) (b : Bytes) : fnOn (placeRecord c n b s) = fnOn s := fnOn_of (by simp)
@[simp] theorem placeRecord_getFn (s : State) (c : Cmd) (n : Nat) (b : Bytes) : getFn (placeRecord c n b s) = getFn s := getFn_of (by simp)
@[simp] theorem placeRecord_getPort (s : State) (c : Cmd) (n : Nat) (b : Bytes) : getPort (placeRecord c n b s) = getPort s := getPort_of (by simp)

/-! ### addRecord -/
@[simp] theorem addRecord_memberIndex (s : State) (k : CmdRef) (b : Bytes) : memberIndex (addRecord k b s) = memberIndex s := memberIndex_of (by simp)
@[simp] theorem addRecord_memberCount (s : State) (k : CmdRef) (b : Bytes) : memberCount (addRecord k b s) = memberCount s := memberCount_of (by simp)
@[simp] theorem addRecord_leadIndex (s : State) (k : CmdRef) (b : Bytes) : leadIndex (addRecord k b s) = leadIndex s := leadIndex_of (by simp)
@[simp] theorem addRecord_isLead (s : State) (k : CmdRef) (b : Bytes) : isLead (addRecord k b s) = isLead s := isLead_of (by simp)
@[simp] theorem addRecord_fnOn (s : State) (k : CmdRef) (b : Bytes) : fnOn (addRecord k b s) = fnOn s := fnOn_of (by simp)
@[simp] theorem addRecord_getFn (s : State) (k : CmdRef) (b : Bytes) : getFn (addRecord k b s) = getFn s := getFn_of (by simp)
@[simp] theorem addRecord_getPort (s : State) (k : CmdRef) (b : Bytes) : getPort (addRecord k b s) = getPort s := getPort_of (by simp)

/-! ### flushRecords -/
@[simp] theorem flushRecords_memberIndex (s : State) (k : CmdRef) : memberIndex (flushRecords k s) = memberIndex s := memberIndex_of (by simp)
@[simp] theorem flushRecords_memberCount (s : State) (k : CmdRef) : memberCount (flushRecords k s) = memberCount s := memberCount_of (by simp)
@[simp] theorem flushRecords_leadIndex (s : State) (k : CmdRef) : leadIndex (flushRecords k s) = leadIndex s := leadIndex_of (by simp)
@[simp] theorem flushRecords_isLead (s : State) (k : CmdRef) : isLead (flushRecords k s) = isLead s := isLead_of (by simp)
@[simp] theorem flushRecords_fnOn (s : State) (k : CmdRef) : fnOn (flushRecords k s) = fnOn s := fnOn_of (by simp)
@[simp] theorem flushRecords_getFn (s : State) (k : CmdRef) : getFn (flushRecords k s) = getFn s := getFn_of (by simp)
@[simp] theorem flushRecords_getPort (s : State) (k : CmdRef) : getPort (flushRecords k s) = getPort s := getPort_of (by simp)

/-! ### endRepeats -/
@[simp] theorem endRepeats_memberIndex (s : State) (ch : Fin 16) (token w : W64) : memberIndex (endRepeats ch token w s) = memberIndex s := memberIndex_of (by simp)
@[simp] theorem endRepeats_memberCount (s : State) (ch : Fin 16) (token w : W64) : memberCount (endRepeats ch token w s) = memberCount s := memberCount_of (by simp)
@[simp] theorem endRepeats_leadIndex (s : State) (ch : Fin 16) (token w : W64) : leadIndex (endRepeats ch token w s) = leadIndex s := leadIndex_of (by simp)
@[simp] theorem endRepeats_isLead (s : State) (ch : Fin 16) (token w : W64) : isLead (endRepeats ch token w s) = isLead s := isLead_of (by simp)
@[simp] theorem endRepeats_fnOn (s : State) (ch : Fin 16) (token w : W64) : fnOn (endRepeats ch token w s) = fnOn s := fnOn_of (by simp)
@[simp] theorem endRepeats_getFn (s : State) (ch : Fin 16) (token w : W64) : getFn (endRepeats ch token w s) = getFn s := getFn_of (by simp)
@[simp] theorem endRepeats_getPort (s : State) (ch : Fin 16) (token w : W64) : getPort (endRepeats ch token w s) = getPort s := getPort_of (by simp)

/-! ### finishWith -/
@[simp] theorem finishWith_memberIndex (s : State) (k : CmdRef) (result : Nat) (x : Cause) : memberIndex (finishWith k result x s) = memberIndex s := memberIndex_of (by simp)
@[simp] theorem finishWith_memberCount (s : State) (k : CmdRef) (result : Nat) (x : Cause) : memberCount (finishWith k result x s) = memberCount s := memberCount_of (by simp)
@[simp] theorem finishWith_leadIndex (s : State) (k : CmdRef) (result : Nat) (x : Cause) : leadIndex (finishWith k result x s) = leadIndex s := leadIndex_of (by simp)
@[simp] theorem finishWith_isLead (s : State) (k : CmdRef) (result : Nat) (x : Cause) : isLead (finishWith k result x s) = isLead s := isLead_of (by simp)
@[simp] theorem finishWith_fnOn (s : State) (k : CmdRef) (result : Nat) (x : Cause) : fnOn (finishWith k result x s) = fnOn s := fnOn_of (by simp)
@[simp] theorem finishWith_getFn (s : State) (k : CmdRef) (result : Nat) (x : Cause) : getFn (finishWith k result x s) = getFn s := getFn_of (by simp)
@[simp] theorem finishWith_getPort (s : State) (k : CmdRef) (result : Nat) (x : Cause) : getPort (finishWith k result x s) = getPort s := getPort_of (by simp)

/-! ### finish -/
@[simp] theorem finish_memberIndex (s : State) (k : CmdRef) (result : Nat) : memberIndex (finish k result s) = memberIndex s := memberIndex_of (by simp)
@[simp] theorem finish_memberCount (s : State) (k : CmdRef) (result : Nat) : memberCount (finish k result s) = memberCount s := memberCount_of (by simp)
@[simp] theorem finish_leadIndex (s : State) (k : CmdRef) (result : Nat) : leadIndex (finish k result s) = leadIndex s := leadIndex_of (by simp)
@[simp] theorem finish_isLead (s : State) (k : CmdRef) (result : Nat) : isLead (finish k result s) = isLead s := isLead_of (by simp)
@[simp] theorem finish_fnOn (s : State) (k : CmdRef) (result : Nat) : fnOn (finish k result s) = fnOn s := fnOn_of (by simp)
@[simp] theorem finish_getFn (s : State) (k : CmdRef) (result : Nat) : getFn (finish k result s) = getFn s := getFn_of (by simp)
@[simp] theorem finish_getPort (s : State) (k : CmdRef) (result : Nat) : getPort (finish k result s) = getPort s := getPort_of (by simp)

/-! ### siteCount -/
@[simp] theorem siteCount_memberIndex (s : State) (i : Nat) (f : SiteTotal → SiteTotal) : memberIndex (siteCount i f s) = memberIndex s := memberIndex_of (by simp)
@[simp] theorem siteCount_memberCount (s : State) (i : Nat) (f : SiteTotal → SiteTotal) : memberCount (siteCount i f s) = memberCount s := memberCount_of (by simp)
@[simp] theorem siteCount_leadIndex (s : State) (i : Nat) (f : SiteTotal → SiteTotal) : leadIndex (siteCount i f s) = leadIndex s := leadIndex_of (by simp)
@[simp] theorem siteCount_isLead (s : State) (i : Nat) (f : SiteTotal → SiteTotal) : isLead (siteCount i f s) = isLead s := isLead_of (by simp)
@[simp] theorem siteCount_fnOn (s : State) (i : Nat) (f : SiteTotal → SiteTotal) : fnOn (siteCount i f s) = fnOn s := fnOn_of (by simp)
@[simp] theorem siteCount_getFn (s : State) (i : Nat) (f : SiteTotal → SiteTotal) : getFn (siteCount i f s) = getFn s := getFn_of (by simp)
@[simp] theorem siteCount_getPort (s : State) (i : Nat) (f : SiteTotal → SiteTotal) : getPort (siteCount i f s) = getPort s := getPort_of (by simp)

/-! ### updSess -/
@[simp] theorem updSess_memberIndex (s : State) (site shard : Nat) (f : Session → Session) : memberIndex (updSess site shard f s) = memberIndex s := memberIndex_of (by simp)
@[simp] theorem updSess_memberCount (s : State) (site shard : Nat) (f : Session → Session) : memberCount (updSess site shard f s) = memberCount s := memberCount_of (by simp)
@[simp] theorem updSess_leadIndex (s : State) (site shard : Nat) (f : Session → Session) : leadIndex (updSess site shard f s) = leadIndex s := leadIndex_of (by simp)
@[simp] theorem updSess_isLead (s : State) (site shard : Nat) (f : Session → Session) : isLead (updSess site shard f s) = isLead s := isLead_of (by simp)
@[simp] theorem updSess_fnOn (s : State) (site shard : Nat) (f : Session → Session) : fnOn (updSess site shard f s) = fnOn s := fnOn_of (by simp)
@[simp] theorem updSess_getFn (s : State) (site shard : Nat) (f : Session → Session) : getFn (updSess site shard f s) = getFn s := getFn_of (by simp)
@[simp] theorem updSess_getPort (s : State) (site shard : Nat) (f : Session → Session) : getPort (updSess site shard f s) = getPort s := getPort_of (by simp)

/-! ### putFrame -/
@[simp] theorem putFrame_memberIndex (s : State) (x : Session) (epoch : Nat) (seq : W64) (f : ToSend) : memberIndex (putFrame x epoch seq f s) = memberIndex s := memberIndex_of (by simp)
@[simp] theorem putFrame_memberCount (s : State) (x : Session) (epoch : Nat) (seq : W64) (f : ToSend) : memberCount (putFrame x epoch seq f s) = memberCount s := memberCount_of (by simp)
@[simp] theorem putFrame_leadIndex (s : State) (x : Session) (epoch : Nat) (seq : W64) (f : ToSend) : leadIndex (putFrame x epoch seq f s) = leadIndex s := leadIndex_of (by simp)
@[simp] theorem putFrame_isLead (s : State) (x : Session) (epoch : Nat) (seq : W64) (f : ToSend) : isLead (putFrame x epoch seq f s) = isLead s := isLead_of (by simp)
@[simp] theorem putFrame_fnOn (s : State) (x : Session) (epoch : Nat) (seq : W64) (f : ToSend) : fnOn (putFrame x epoch seq f s) = fnOn s := fnOn_of (by simp)
@[simp] theorem putFrame_getFn (s : State) (x : Session) (epoch : Nat) (seq : W64) (f : ToSend) : getFn (putFrame x epoch seq f s) = getFn s := getFn_of (by simp)
@[simp] theorem putFrame_getPort (s : State) (x : Session) (epoch : Nat) (seq : W64) (f : ToSend) : getPort (putFrame x epoch seq f s) = getPort s := getPort_of (by simp)

/-! ### sendNow -/
@[simp] theorem sendNow_memberIndex (s : State) (site shard : Nat) (f : ToSend) : memberIndex (sendNow site shard f s) = memberIndex s := memberIndex_of (by simp)
@[simp] theorem sendNow_memberCount (s : State) (site shard : Nat) (f : ToSend) : memberCount (sendNow site shard f s) = memberCount s := memberCount_of (by simp)
@[simp] theorem sendNow_leadIndex (s : State) (site shard : Nat) (f : ToSend) : leadIndex (sendNow site shard f s) = leadIndex s := leadIndex_of (by simp)
@[simp] theorem sendNow_isLead (s : State) (site shard : Nat) (f : ToSend) : isLead (sendNow site shard f s) = isLead s := isLead_of (by simp)
@[simp] theorem sendNow_fnOn (s : State) (site shard : Nat) (f : ToSend) : fnOn (sendNow site shard f s) = fnOn s := fnOn_of (by simp)
@[simp] theorem sendNow_getFn (s : State) (site shard : Nat) (f : ToSend) : getFn (sendNow site shard f s) = getFn s := getFn_of (by simp)
@[simp] theorem sendNow_getPort (s : State) (site shard : Nat) (f : ToSend) : getPort (sendNow site shard f s) = getPort s := getPort_of (by simp)

/-! ### sendFrame -/
@[simp] theorem sendFrame_memberIndex (s : State) (site shard : Nat) (f : ToSend) : memberIndex (sendFrame site shard f s) = memberIndex s := memberIndex_of (by simp)
@[simp] theorem sendFrame_memberCount (s : State) (site shard : Nat) (f : ToSend) : memberCount (sendFrame site shard f s) = memberCount s := memberCount_of (by simp)
@[simp] theorem sendFrame_leadIndex (s : State) (site shard : Nat) (f : ToSend) : leadIndex (sendFrame site shard f s) = leadIndex s := leadIndex_of (by simp)
@[simp] theorem sendFrame_isLead (s : State) (site shard : Nat) (f : ToSend) : isLead (sendFrame site shard f s) = isLead s := isLead_of (by simp)
@[simp] theorem sendFrame_fnOn (s : State) (site shard : Nat) (f : ToSend) : fnOn (sendFrame site shard f s) = fnOn s := fnOn_of (by simp)
@[simp] theorem sendFrame_getFn (s : State) (site shard : Nat) (f : ToSend) : getFn (sendFrame site shard f s) = getFn s := getFn_of (by simp)
@[simp] theorem sendFrame_getPort (s : State) (site shard : Nat) (f : ToSend) : getPort (sendFrame site shard f s) = getPort s := getPort_of (by simp)

/-! ### Updates of one part -/
@[simp] theorem withPending_memberIndex (s : State) (x : List Instr) : memberIndex (s.withPending x) = memberIndex s := memberIndex_of (by simp)
@[simp] theorem withPending_memberCount (s : State) (x : List Instr) : memberCount (s.withPending x) = memberCount s := memberCount_of (by simp)
@[simp] theorem withPending_leadIndex (s : State) (x : List Instr) : leadIndex (s.withPending x) = leadIndex s := leadIndex_of (by simp)
@[simp] theorem withPending_isLead (s : State) (x : List Instr) : isLead (s.withPending x) = isLead s := isLead_of (by simp)
@[simp] theorem withPending_fnOn (s : State) (x : List Instr) : fnOn (s.withPending x) = fnOn s := fnOn_of (by simp)
@[simp] theorem withPending_getFn (s : State) (x : List Instr) : getFn (s.withPending x) = getFn s := getFn_of (by simp)
@[simp] theorem withPending_getPort (s : State) (x : List Instr) : getPort (s.withPending x) = getPort s := getPort_of (by simp)
@[simp] theorem withMbx_memberIndex (s : State) (x : Mbx) : memberIndex (s.withMbx x) = memberIndex s := memberIndex_of (by simp)
@[simp] theorem withMbx_memberCount (s : State) (x : Mbx) : memberCount (s.withMbx x) = memberCount s := memberCount_of (by simp)
@[simp] theorem withMbx_leadIndex (s : State) (x : Mbx) : leadIndex (s.withMbx x) = leadIndex s := leadIndex_of (by simp)
@[simp] theorem withMbx_isLead (s : State) (x : Mbx) : isLead (s.withMbx x) = isLead s := isLead_of (by simp)
@[simp] theorem withMbx_fnOn (s : State) (x : Mbx) : fnOn (s.withMbx x) = fnOn s := fnOn_of (by simp)
@[simp] theorem withMbx_getFn (s : State) (x : Mbx) : getFn (s.withMbx x) = getFn s := getFn_of (by simp)
@[simp] theorem withMbx_getPort (s : State) (x : Mbx) : getPort (s.withMbx x) = getPort s := getPort_of (by simp)
@[simp] theorem withBus_memberIndex (s : State) (x : Bus) : memberIndex (s.withBus x) = memberIndex s := memberIndex_of (by simp)
@[simp] theorem withBus_memberCount (s : State) (x : Bus) : memberCount (s.withBus x) = memberCount s := memberCount_of (by simp)
@[simp] theorem withBus_leadIndex (s : State) (x : Bus) : leadIndex (s.withBus x) = leadIndex s := leadIndex_of (by simp)
@[simp] theorem withBus_isLead (s : State) (x : Bus) : isLead (s.withBus x) = isLead s := isLead_of (by simp)
@[simp] theorem withBus_fnOn (s : State) (x : Bus) : fnOn (s.withBus x) = fnOn s := fnOn_of (by simp)
@[simp] theorem withBus_getFn (s : State) (x : Bus) : getFn (s.withBus x) = getFn s := getFn_of (by simp)
@[simp] theorem withBus_getPort (s : State) (x : Bus) : getPort (s.withBus x) = getPort s := getPort_of (by simp)
@[simp] theorem withDev_memberIndex (s : State) (x : Dev) : memberIndex (s.withDev x) = memberIndex s := memberIndex_of (by simp)
@[simp] theorem withDev_memberCount (s : State) (x : Dev) : memberCount (s.withDev x) = memberCount s := memberCount_of (by simp)
@[simp] theorem withDev_leadIndex (s : State) (x : Dev) : leadIndex (s.withDev x) = leadIndex s := leadIndex_of (by simp)
@[simp] theorem withDev_isLead (s : State) (x : Dev) : isLead (s.withDev x) = isLead s := isLead_of (by simp)
@[simp] theorem withDev_fnOn (s : State) (x : Dev) : fnOn (s.withDev x) = fnOn s := fnOn_of (by simp)
@[simp] theorem withDev_getFn (s : State) (x : Dev) : getFn (s.withDev x) = getFn s := getFn_of (by simp)
@[simp] theorem withDev_getPort (s : State) (x : Dev) : getPort (s.withDev x) = getPort s := getPort_of (by simp)
@[simp] theorem withAwn_memberIndex (s : State) (x : Awn) : memberIndex (s.withAwn x) = memberIndex s := memberIndex_of (by simp)
@[simp] theorem withAwn_memberCount (s : State) (x : Awn) : memberCount (s.withAwn x) = memberCount s := memberCount_of (by simp)
@[simp] theorem withAwn_leadIndex (s : State) (x : Awn) : leadIndex (s.withAwn x) = leadIndex s := leadIndex_of (by simp)
@[simp] theorem withAwn_isLead (s : State) (x : Awn) : isLead (s.withAwn x) = isLead s := isLead_of (by simp)
@[simp] theorem withAwn_fnOn (s : State) (x : Awn) : fnOn (s.withAwn x) = fnOn s := fnOn_of (by simp)
@[simp] theorem withAwn_getFn (s : State) (x : Awn) : getFn (s.withAwn x) = getFn s := getFn_of (by simp)
@[simp] theorem withAwn_getPort (s : State) (x : Awn) : getPort (s.withAwn x) = getPort s := getPort_of (by simp)
@[simp] theorem withSaf_memberIndex (s : State) (x : Saf) : memberIndex (s.withSaf x) = memberIndex s := memberIndex_of (by simp)
@[simp] theorem withSaf_memberCount (s : State) (x : Saf) : memberCount (s.withSaf x) = memberCount s := memberCount_of (by simp)
@[simp] theorem withSaf_leadIndex (s : State) (x : Saf) : leadIndex (s.withSaf x) = leadIndex s := leadIndex_of (by simp)
@[simp] theorem withSaf_isLead (s : State) (x : Saf) : isLead (s.withSaf x) = isLead s := isLead_of (by simp)
@[simp] theorem withSaf_fnOn (s : State) (x : Saf) : fnOn (s.withSaf x) = fnOn s := fnOn_of (by simp)
@[simp] theorem withSaf_getFn (s : State) (x : Saf) : getFn (s.withSaf x) = getFn s := getFn_of (by simp)
@[simp] theorem withSaf_getPort (s : State) (x : Saf) : getPort (s.withSaf x) = getPort s := getPort_of (by simp)
@[simp] theorem withLog_memberIndex (s : State) (x : Log) : memberIndex (s.withLog x) = memberIndex s := memberIndex_of (by simp)
@[simp] theorem withLog_memberCount (s : State) (x : Log) : memberCount (s.withLog x) = memberCount s := memberCount_of (by simp)
@[simp] theorem withLog_leadIndex (s : State) (x : Log) : leadIndex (s.withLog x) = leadIndex s := leadIndex_of (by simp)
@[simp] theorem withLog_isLead (s : State) (x : Log) : isLead (s.withLog x) = isLead s := isLead_of (by simp)
@[simp] theorem withLog_fnOn (s : State) (x : Log) : fnOn (s.withLog x) = fnOn s := fnOn_of (by simp)
@[simp] theorem withLog_getFn (s : State) (x : Log) : getFn (s.withLog x) = getFn s := getFn_of (by simp)
@[simp] theorem withLog_getPort (s : State) (x : Log) : getPort (s.withLog x) = getPort s := getPort_of (by simp)
@[simp] theorem withTal_memberIndex (s : State) (x : Tal) : memberIndex (s.withTal x) = memberIndex s := memberIndex_of (by simp)
@[simp] theorem withTal_memberCount (s : State) (x : Tal) : memberCount (s.withTal x) = memberCount s := memberCount_of (by simp)
@[simp] theorem withTal_leadIndex (s : State) (x : Tal) : leadIndex (s.withTal x) = leadIndex s := leadIndex_of (by simp)
@[simp] theorem withTal_isLead (s : State) (x : Tal) : isLead (s.withTal x) = isLead s := isLead_of (by simp)
@[simp] theorem withTal_fnOn (s : State) (x : Tal) : fnOn (s.withTal x) = fnOn s := fnOn_of (by simp)
@[simp] theorem withTal_getFn (s : State) (x : Tal) : getFn (s.withTal x) = getFn s := getFn_of (by simp)
@[simp] theorem withTal_getPort (s : State) (x : Tal) : getPort (s.withTal x) = getPort s := getPort_of (by simp)
@[simp] theorem withPwr_memberIndex (s : State) (x : Pwr) : memberIndex (s.withPwr x) = memberIndex s := memberIndex_of (by simp)
@[simp] theorem withPwr_memberCount (s : State) (x : Pwr) : memberCount (s.withPwr x) = memberCount s := memberCount_of (by simp)
@[simp] theorem withPwr_leadIndex (s : State) (x : Pwr) : leadIndex (s.withPwr x) = leadIndex s := leadIndex_of (by simp)
@[simp] theorem withPwr_isLead (s : State) (x : Pwr) : isLead (s.withPwr x) = isLead s := isLead_of (by simp)
@[simp] theorem withPwr_fnOn (s : State) (x : Pwr) : fnOn (s.withPwr x) = fnOn s := fnOn_of (by simp)
@[simp] theorem withPwr_getFn (s : State) (x : Pwr) : getFn (s.withPwr x) = getFn s := getFn_of (by simp)
@[simp] theorem withPwr_getPort (s : State) (x : Pwr) : getPort (s.withPwr x) = getPort s := getPort_of (by simp)
@[simp] theorem withDbg_memberIndex (s : State) (x : Dbg) : memberIndex (s.withDbg x) = memberIndex s := memberIndex_of (by simp)
@[simp] theorem withDbg_memberCount (s : State) (x : Dbg) : memberCount (s.withDbg x) = memberCount s := memberCount_of (by simp)
@[simp] theorem withDbg_leadIndex (s : State) (x : Dbg) : leadIndex (s.withDbg x) = leadIndex s := leadIndex_of (by simp)
@[simp] theorem withDbg_isLead (s : State) (x : Dbg) : isLead (s.withDbg x) = isLead s := isLead_of (by simp)
@[simp] theorem withDbg_fnOn (s : State) (x : Dbg) : fnOn (s.withDbg x) = fnOn s := fnOn_of (by simp)
@[simp] theorem withDbg_getFn (s : State) (x : Dbg) : getFn (s.withDbg x) = getFn s := getFn_of (by simp)
@[simp] theorem withDbg_getPort (s : State) (x : Dbg) : getPort (s.withDbg x) = getPort s := getPort_of (by simp)
@[simp] theorem withSec_memberIndex (s : State) (x : Sec) : memberIndex (s.withSec x) = memberIndex s := memberIndex_of (by simp)
@[simp] theorem withSec_memberCount (s : State) (x : Sec) : memberCount (s.withSec x) = memberCount s := memberCount_of (by simp)
@[simp] theorem withSec_leadIndex (s : State) (x : Sec) : leadIndex (s.withSec x) = leadIndex s := leadIndex_of (by simp)
@[simp] theorem withSec_isLead (s : State) (x : Sec) : isLead (s.withSec x) = isLead s := isLead_of (by simp)
@[simp] theorem withSec_fnOn (s : State) (x : Sec) : fnOn (s.withSec x) = fnOn s := fnOn_of (by simp)
@[simp] theorem withSec_getFn (s : State) (x : Sec) : getFn (s.withSec x) = getFn s := getFn_of (by simp)
@[simp] theorem withSec_getPort (s : State) (x : Sec) : getPort (s.withSec x) = getPort s := getPort_of (by simp)
@[simp] theorem withFns_memberIndex (s : State) (x : Vector Fn 14) : memberIndex (s.withFns x) = memberIndex s := memberIndex_of (by simp)
@[simp] theorem withFns_memberCount (s : State) (x : Vector Fn 14) : memberCount (s.withFns x) = memberCount s := memberCount_of (by simp)
@[simp] theorem withFns_leadIndex (s : State) (x : Vector Fn 14) : leadIndex (s.withFns x) = leadIndex s := leadIndex_of (by simp)
@[simp] theorem withFns_isLead (s : State) (x : Vector Fn 14) : isLead (s.withFns x) = isLead s := isLead_of (by simp)
@[simp] theorem withFns_getPort (s : State) (x : Vector Fn 14) : getPort (s.withFns x) = getPort s := getPort_of (by simp)
@[simp] theorem withPorts_memberIndex (s : State) (x : Vector TPort 6) : memberIndex (s.withPorts x) = memberIndex s := memberIndex_of (by simp)
@[simp] theorem withPorts_memberCount (s : State) (x : Vector TPort 6) : memberCount (s.withPorts x) = memberCount s := memberCount_of (by simp)
@[simp] theorem withPorts_leadIndex (s : State) (x : Vector TPort 6) : leadIndex (s.withPorts x) = leadIndex s := leadIndex_of (by simp)
@[simp] theorem withPorts_isLead (s : State) (x : Vector TPort 6) : isLead (s.withPorts x) = isLead s := isLead_of (by simp)
@[simp] theorem withPorts_fnOn (s : State) (x : Vector TPort 6) : fnOn (s.withPorts x) = fnOn s := fnOn_of (by simp)
@[simp] theorem withPorts_getFn (s : State) (x : Vector TPort 6) : getFn (s.withPorts x) = getFn s := getFn_of (by simp)
@[simp] theorem withSlice_fnOn (s : State) (x : Slice) : fnOn (s.withSlice x) = fnOn s := fnOn_of (by simp)
@[simp] theorem withSlice_getFn (s : State) (x : Slice) : getFn (s.withSlice x) = getFn s := getFn_of (by simp)
@[simp] theorem withSlice_getPort (s : State) (x : Slice) : getPort (s.withSlice x) = getPort s := getPort_of (by simp)
@[simp] theorem withJob_memberIndex (s : State) (x : Job) : memberIndex (s.withJob x) = memberIndex s := memberIndex_of (by simp)
@[simp] theorem withJob_memberCount (s : State) (x : Job) : memberCount (s.withJob x) = memberCount s := memberCount_of (by simp)
@[simp] theorem withJob_leadIndex (s : State) (x : Job) : leadIndex (s.withJob x) = leadIndex s := leadIndex_of (by simp)
@[simp] theorem withJob_isLead (s : State) (x : Job) : isLead (s.withJob x) = isLead s := isLead_of (by simp)
@[simp] theorem withJob_fnOn (s : State) (x : Job) : fnOn (s.withJob x) = fnOn s := fnOn_of (by simp)
@[simp] theorem withJob_getFn (s : State) (x : Job) : getFn (s.withJob x) = getFn s := getFn_of (by simp)
@[simp] theorem withJob_getPort (s : State) (x : Job) : getPort (s.withJob x) = getPort s := getPort_of (by simp)
@[simp] theorem withLoad_memberIndex (s : State) (x : Load) : memberIndex (s.withLoad x) = memberIndex s := memberIndex_of (by simp)
@[simp] theorem withLoad_memberCount (s : State) (x : Load) : memberCount (s.withLoad x) = memberCount s := memberCount_of (by simp)
@[simp] theorem withLoad_leadIndex (s : State) (x : Load) : leadIndex (s.withLoad x) = leadIndex s := leadIndex_of (by simp)
@[simp] theorem withLoad_isLead (s : State) (x : Load) : isLead (s.withLoad x) = isLead s := isLead_of (by simp)
@[simp] theorem withLoad_fnOn (s : State) (x : Load) : fnOn (s.withLoad x) = fnOn s := fnOn_of (by simp)
@[simp] theorem withLoad_getFn (s : State) (x : Load) : getFn (s.withLoad x) = getFn s := getFn_of (by simp)
@[simp] theorem withLoad_getPort (s : State) (x : Load) : getPort (s.withLoad x) = getPort s := getPort_of (by simp)
@[simp] theorem withStalls_memberIndex (s : State) (x : Sparse Stall) : memberIndex (s.withStalls x) = memberIndex s := memberIndex_of (by simp)
@[simp] theorem withStalls_memberCount (s : State) (x : Sparse Stall) : memberCount (s.withStalls x) = memberCount s := memberCount_of (by simp)
@[simp] theorem withStalls_leadIndex (s : State) (x : Sparse Stall) : leadIndex (s.withStalls x) = leadIndex s := leadIndex_of (by simp)
@[simp] theorem withStalls_isLead (s : State) (x : Sparse Stall) : isLead (s.withStalls x) = isLead s := isLead_of (by simp)
@[simp] theorem withStalls_fnOn (s : State) (x : Sparse Stall) : fnOn (s.withStalls x) = fnOn s := fnOn_of (by simp)
@[simp] theorem withStalls_getFn (s : State) (x : Sparse Stall) : getFn (s.withStalls x) = getFn s := getFn_of (by simp)
@[simp] theorem withStalls_getPort (s : State) (x : Sparse Stall) : getPort (s.withStalls x) = getPort s := getPort_of (by simp)
@[simp] theorem withMem_memberIndex (s : State) (x : Mem) : memberIndex (s.withMem x) = memberIndex s := memberIndex_of (by simp)
@[simp] theorem withMem_memberCount (s : State) (x : Mem) : memberCount (s.withMem x) = memberCount s := memberCount_of (by simp)
@[simp] theorem withMem_leadIndex (s : State) (x : Mem) : leadIndex (s.withMem x) = leadIndex s := leadIndex_of (by simp)
@[simp] theorem withMem_isLead (s : State) (x : Mem) : isLead (s.withMem x) = isLead s := isLead_of (by simp)
@[simp] theorem withMem_fnOn (s : State) (x : Mem) : fnOn (s.withMem x) = fnOn s := fnOn_of (by simp)
@[simp] theorem withMem_getFn (s : State) (x : Mem) : getFn (s.withMem x) = getFn s := getFn_of (by simp)
@[simp] theorem withMem_getPort (s : State) (x : Mem) : getPort (s.withMem x) = getPort s := getPort_of (by simp)
@[simp] theorem withTens_memberIndex (s : State) (x : Tensors) : memberIndex (s.withTens x) = memberIndex s := memberIndex_of (by simp)
@[simp] theorem withTens_memberCount (s : State) (x : Tensors) : memberCount (s.withTens x) = memberCount s := memberCount_of (by simp)
@[simp] theorem withTens_leadIndex (s : State) (x : Tensors) : leadIndex (s.withTens x) = leadIndex s := leadIndex_of (by simp)
@[simp] theorem withTens_isLead (s : State) (x : Tensors) : isLead (s.withTens x) = isLead s := isLead_of (by simp)
@[simp] theorem withTens_fnOn (s : State) (x : Tensors) : fnOn (s.withTens x) = fnOn s := fnOn_of (by simp)
@[simp] theorem withTens_getFn (s : State) (x : Tensors) : getFn (s.withTens x) = getFn s := getFn_of (by simp)
@[simp] theorem withTens_getPort (s : State) (x : Tensors) : getPort (s.withTens x) = getPort s := getPort_of (by simp)
@[simp] theorem withLedger_memberIndex (s : State) (x : Ledger) : memberIndex (s.withLedger x) = memberIndex s := memberIndex_of (by simp)
@[simp] theorem withLedger_memberCount (s : State) (x : Ledger) : memberCount (s.withLedger x) = memberCount s := memberCount_of (by simp)
@[simp] theorem withLedger_leadIndex (s : State) (x : Ledger) : leadIndex (s.withLedger x) = leadIndex s := leadIndex_of (by simp)
@[simp] theorem withLedger_isLead (s : State) (x : Ledger) : isLead (s.withLedger x) = isLead s := isLead_of (by simp)
@[simp] theorem withLedger_fnOn (s : State) (x : Ledger) : fnOn (s.withLedger x) = fnOn s := fnOn_of (by simp)
@[simp] theorem withLedger_getFn (s : State) (x : Ledger) : getFn (s.withLedger x) = getFn s := getFn_of (by simp)
@[simp] theorem withLedger_getPort (s : State) (x : Ledger) : getPort (s.withLedger x) = getPort s := getPort_of (by simp)
@[simp] theorem withHouse_memberIndex (s : State) (x : House) : memberIndex (s.withHouse x) = memberIndex s := memberIndex_of (by simp)
@[simp] theorem withHouse_memberCount (s : State) (x : House) : memberCount (s.withHouse x) = memberCount s := memberCount_of (by simp)
@[simp] theorem withHouse_leadIndex (s : State) (x : House) : leadIndex (s.withHouse x) = leadIndex s := leadIndex_of (by simp)
@[simp] theorem withHouse_isLead (s : State) (x : House) : isLead (s.withHouse x) = isLead s := isLead_of (by simp)
@[simp] theorem withHouse_fnOn (s : State) (x : House) : fnOn (s.withHouse x) = fnOn s := fnOn_of (by simp)
@[simp] theorem withHouse_getFn (s : State) (x : House) : getFn (s.withHouse x) = getFn s := getFn_of (by simp)
@[simp] theorem withHouse_getPort (s : State) (x : House) : getPort (s.withHouse x) = getPort s := getPort_of (by simp)
@[simp] theorem withStep_memberIndex (s : State) (x : Step) : memberIndex (s.withStep x) = memberIndex s := memberIndex_of (by simp)
@[simp] theorem withStep_memberCount (s : State) (x : Step) : memberCount (s.withStep x) = memberCount s := memberCount_of (by simp)
@[simp] theorem withStep_leadIndex (s : State) (x : Step) : leadIndex (s.withStep x) = leadIndex s := leadIndex_of (by simp)
@[simp] theorem withStep_isLead (s : State) (x : Step) : isLead (s.withStep x) = isLead s := isLead_of (by simp)
@[simp] theorem withStep_fnOn (s : State) (x : Step) : fnOn (s.withStep x) = fnOn s := fnOn_of (by simp)
@[simp] theorem withStep_getFn (s : State) (x : Step) : getFn (s.withStep x) = getFn s := getFn_of (by simp)
@[simp] theorem withStep_getPort (s : State) (x : Step) : getPort (s.withStep x) = getPort s := getPort_of (by simp)
@[simp] theorem withSnap_memberIndex (s : State) (x : Snap) : memberIndex (s.withSnap x) = memberIndex s := memberIndex_of (by simp)
@[simp] theorem withSnap_memberCount (s : State) (x : Snap) : memberCount (s.withSnap x) = memberCount s := memberCount_of (by simp)
@[simp] theorem withSnap_leadIndex (s : State) (x : Snap) : leadIndex (s.withSnap x) = leadIndex s := leadIndex_of (by simp)
@[simp] theorem withSnap_isLead (s : State) (x : Snap) : isLead (s.withSnap x) = isLead s := isLead_of (by simp)
@[simp] theorem withSnap_fnOn (s : State) (x : Snap) : fnOn (s.withSnap x) = fnOn s := fnOn_of (by simp)
@[simp] theorem withSnap_getFn (s : State) (x : Snap) : getFn (s.withSnap x) = getFn s := getFn_of (by simp)
@[simp] theorem withSnap_getPort (s : State) (x : Snap) : getPort (s.withSnap x) = getPort s := getPort_of (by simp)
@[simp] theorem withSite_memberIndex (s : State) (x : Site) : memberIndex (s.withSite x) = memberIndex s := memberIndex_of (by simp)
@[simp] theorem withSite_memberCount (s : State) (x : Site) : memberCount (s.withSite x) = memberCount s := memberCount_of (by simp)
@[simp] theorem withSite_leadIndex (s : State) (x : Site) : leadIndex (s.withSite x) = leadIndex s := leadIndex_of (by simp)
@[simp] theorem withSite_isLead (s : State) (x : Site) : isLead (s.withSite x) = isLead s := isLead_of (by simp)
@[simp] theorem withSite_fnOn (s : State) (x : Site) : fnOn (s.withSite x) = fnOn s := fnOn_of (by simp)
@[simp] theorem withSite_getFn (s : State) (x : Site) : getFn (s.withSite x) = getFn s := getFn_of (by simp)
@[simp] theorem withSite_getPort (s : State) (x : Site) : getPort (s.withSite x) = getPort s := getPort_of (by simp)
@[simp] theorem withOut_memberIndex (s : State) (x : List Out) : memberIndex (s.withOut x) = memberIndex s := memberIndex_of (by simp)
@[simp] theorem withOut_memberCount (s : State) (x : List Out) : memberCount (s.withOut x) = memberCount s := memberCount_of (by simp)
@[simp] theorem withOut_leadIndex (s : State) (x : List Out) : leadIndex (s.withOut x) = leadIndex s := leadIndex_of (by simp)
@[simp] theorem withOut_isLead (s : State) (x : List Out) : isLead (s.withOut x) = isLead s := isLead_of (by simp)
@[simp] theorem withOut_fnOn (s : State) (x : List Out) : fnOn (s.withOut x) = fnOn s := fnOn_of (by simp)
@[simp] theorem withOut_getFn (s : State) (x : List Out) : getFn (s.withOut x) = getFn s := getFn_of (by simp)
@[simp] theorem withOut_getPort (s : State) (x : List Out) : getPort (s.withOut x) = getPort s := getPort_of (by simp)
@[simp] theorem withFree_memberIndex (s : State) (x : Nat) : memberIndex (s.withFree x) = memberIndex s := memberIndex_of (by simp)
@[simp] theorem withFree_memberCount (s : State) (x : Nat) : memberCount (s.withFree x) = memberCount s := memberCount_of (by simp)
@[simp] theorem withFree_leadIndex (s : State) (x : Nat) : leadIndex (s.withFree x) = leadIndex s := leadIndex_of (by simp)
@[simp] theorem withFree_isLead (s : State) (x : Nat) : isLead (s.withFree x) = isLead s := isLead_of (by simp)
@[simp] theorem withFree_fnOn (s : State) (x : Nat) : fnOn (s.withFree x) = fnOn s := fnOn_of (by simp)
@[simp] theorem withFree_getFn (s : State) (x : Nat) : getFn (s.withFree x) = getFn s := getFn_of (by simp)
@[simp] theorem withFree_getPort (s : State) (x : Nat) : getPort (s.withFree x) = getPort s := getPort_of (by simp)

end Sys2Proof.Machine
end

