-- ==== Sys2Proof/Laws/Shared.lean ====
section
/-! SUPPORT. What the shared operations of the links and of site mode do: a port read after a write, sorted lists, and
the session, the slots and the rest of the state after a frame is sent. -/

namespace Sys2Proof.Machine

/-- A port read after a port is written. -/
theorem getPort_setPort (s : State) (p q : Port) (x : TPort) : getPort (setPort s p x) q = if p = q then x else getPort s q := by
  unfold getPort setPort
  simp only [State.withPorts_ports]
  by_cases h : p = q
  · subst h; simp
  · rw [if_neg h]
    apply Vector.getElem_set_ne
    intro e; exact h (by revert e; clear * -; cases p <;> cases q <;> decide)

/-- A port reads back. -/
@[simp] theorem getPort_setPort_self (s : State) (p : Port) (x : TPort) : getPort (setPort s p x) p = x := by rw [getPort_setPort, if_pos rfl]

/-- Writing a port leaves the others. -/
theorem getPort_setPort_other (s : State) (p q : Port) (x : TPort) (h : q ≠ p) : getPort (setPort s p x) q = getPort s q := by rw [getPort_setPort, if_neg (Ne.symm h)]

/-- The later of two writes stands. -/
@[simp] theorem setPort_setPort (s : State) (p : Port) (x y : TPort) : setPort (setPort s p x) p y = setPort s p y := by
  unfold setPort; simp

/-- Insertion keeps the elements. -/
theorem insertBy_perm {α} (le : α → α → Bool) (x : α) (l : List α) : (insertBy le x l).Perm (x :: l) := by
  induction l with
  | nil => exact .refl _
  | cons y t ih => unfold insertBy; split
                   · exact .refl _
                   · exact (ih.cons y).trans (.swap x y t)

/-- Sorting keeps the elements. -/
theorem sortBy_perm {α} (le : α → α → Bool) (l : List α) : (sortBy le l).Perm l := by
  induction l with
  | nil => exact .refl _
  | cons y t ih => exact (insertBy_perm le y _).trans (ih.cons y)

/-- The order of R402 keeps the pairs. -/
theorem siteOrder_perm (l) : (siteOrder l).Perm l := sortBy_perm _ l

/-- What sending leaves alone: the state without its sessions, site totals and messages. -/
def forgetSends (s : State) : State := (s.withSite { s.site with sessions := [], totals := [] }).withOut []

@[simp] theorem forgetSends_withOut (s : State) (x) : forgetSends (s.withOut x) = forgetSends s := rfl

@[simp] theorem forgetSends_emit (s : State) (x) : forgetSends (emit x s) = forgetSends s := rfl

@[simp] theorem forgetSends_updSess (a b f) (s : State) : forgetSends (updSess a b f s) = forgetSends s := rfl

@[simp] theorem forgetSends_siteCount (i f) (s : State) : forgetSends (siteCount i f s) = forgetSends s := rfl

@[simp] theorem forgetSends_putFrame (x e q f) (s : State) : forgetSends (putFrame x e q f s) = forgetSends s := rfl

@[simp] theorem forgetSends_sendNow (a b f) (s : State) : forgetSends (sendNow a b f s) = forgetSends s := by unfold sendNow; (repeat' split) <;> simp

@[simp] theorem forgetSends_sendFrame (a b f) (s : State) : forgetSends (sendFrame a b f s) = forgetSends s := by unfold sendFrame; (repeat' split) <;> simp

@[simp] theorem forgetSends_resendFrame (a b e f) (s : State) : forgetSends (resendFrame a b e f s) = forgetSends s := by unfold resendFrame; (repeat' split) <;> simp

@[simp] theorem forgetSends_sendNotices (l i e r) (s : State) : forgetSends (sendNotices l i e r s) = forgetSends s := by unfold sendNotices; exact foldl_keeps forgetSends _ (by simp) _ _

@[simp] theorem forgetSends_emitSetup (x) (s : State) : forgetSends (emitSetup x s) = forgetSends s := by unfold emitSetup; split <;> simp

@[simp] theorem forgetSends_grantSlots (a b n) (s : State) : forgetSends (grantSlots a b n s) = forgetSends s := by unfold grantSlots; dsimp only; split <;> simp

@[simp] theorem forgetSends_updRoute (a b r f) (s : State) : forgetSends (updRoute a b r f s) = forgetSends s := rfl

@[simp] theorem forgetSends_sendAckFrame (i) (s : State) : forgetSends (sendAckFrame i s) = forgetSends s := by unfold sendAckFrame; dsimp only; (repeat' split) <;> simp

/-- Writing back the messages that are there changes nothing. -/
theorem withOut_self (t : State) : t.withOut t.out = t := rfl

/-- Writing back the site state that is there changes nothing. -/
theorem withSite_self (t : State) : t.withSite t.site = t := rfl

/-- A state that agrees apart from what sending changes is the other one with its sessions, totals and messages. -/
theorem sends_state {s t : State} (h : forgetSends t = forgetSends s) : t = (s.withSite { s.site with sessions := t.site.sessions, totals := t.site.totals }).withOut t.out := by
  have e : ∀ u : State, ((forgetSends u).withSite { (forgetSends u).site with sessions := t.site.sessions, totals := t.site.totals }).withOut t.out =
      (u.withSite { u.site with sessions := t.site.sessions, totals := t.site.totals }).withOut t.out := by
    intro u; unfold forgetSends; rfl
  rw [← e s, ← h, e t]
  show t = (t.withSite t.site).withOut t.out
  rw [withSite_self, withOut_self]

/-- What names a session: its site and its shard. -/
def sessionKey (x : Session) : Nat × Nat := (x.site, x.shard)

/-- A session looked up after its own update is the updated one. -/
theorem findSess_updSess (s : State) (a b : Nat) (f : Session → Session) (hf : ∀ x, sessionKey (f x) = sessionKey x) :
    findSess (updSess a b f s) a b = (findSess s a b).map f := by
  show List.find? _ (s.site.sessions.map _) = _
  unfold findSess
  induction s.site.sessions with
  | nil => rfl
  | cons x t ih =>
    have hx := hf x; unfold sessionKey at hx; injection hx with h1 h2
    by_cases h : x.site = a ∧ x.shard = b
    · simp [h, h1, h2]
    · rw [List.map_cons, if_neg h, List.find?_cons_of_neg (by simpa using h), List.find?_cons_of_neg (by simpa using h)]; exact ih

/-- Another session is the same after an update. -/
theorem findSess_updSess_other (s : State) (a b c d : Nat) (f : Session → Session) (hf : ∀ x, sessionKey (f x) = sessionKey x) (hn : ¬ (c = a ∧ d = b)) :
    findSess (updSess a b f s) c d = findSess s c d := by
  show List.find? _ (s.site.sessions.map _) = _
  unfold findSess
  induction s.site.sessions with
  | nil => rfl
  | cons x t ih =>
    have hx := hf x; unfold sessionKey at hx; injection hx with h1 h2
    by_cases h : x.site = a ∧ x.shard = b
    · rw [List.map_cons, if_pos h, List.find?_cons_of_neg (by simp [h1, h2, h]; omega), List.find?_cons_of_neg (by simp [h]; omega)]; exact ih
    · rw [List.map_cons, if_neg h]
      by_cases h3 : x.site = c ∧ x.shard = d
      · simp [h3]
      · rw [List.find?_cons_of_neg (by simpa using h3), List.find?_cons_of_neg (by simpa using h3)]; exact ih

/-- A session found has the site and the shard looked for. -/
theorem findSess_key {s : State} {a b : Nat} {x : Session} (h : findSess s a b = some x) : x.site = a ∧ x.shard = b := by
  have := List.find?_some h; simpa using this

/-- A frame that leaves moves its session's sequence number alone. -/
theorem findSess_sendNow (s : State) (a b : Nat) (f : ToSend) (x : Session) (h : findSess s a b = some x) :
    findSess (sendNow a b f s) a b = some (if x.opened then { x with txSeq := x.txSeq + 1 } else x) := by
  unfold sendNow; rw [h]; dsimp only
  split
  · show findSess (updSess a b _ s) a b = _
    rw [findSess_updSess _ _ _ _ (by intro; rfl), h]; rfl
  · exact h

/-- Sending moves nothing of its session but the sequence number. -/
theorem findSess_sendFrame (s : State) (a b : Nat) (f : ToSend) (x : Session) (h : findSess s a b = some x) :
    ∃ n, findSess (sendFrame a b f s) a b = some { x with txSeq := x.txSeq + n } := by
  unfold sendFrame; rw [h]; dsimp only
  split
  · exact ⟨0, by simp [h]⟩
  · rw [findSess_sendNow _ _ _ _ _ h]; split
    · exact ⟨1, rfl⟩
    · exact ⟨0, by simp⟩

/-- The update of the only session. -/
theorem updSess_single (s : State) (x : Session) (f : Session → Session) (h : s.site.sessions = [x]) :
    updSess x.site x.shard f s = s.withSite { s.site with sessions := [f x] } := by unfold updSess; rw [h]; simp

/-- An authenticated frame has its effect. -/
theorem onFrame_of_authFrame {ftype : Nat} {h : FrameHeader} {body : FrameBody} {f : Session → State → State} {s u : State} {x : Session}
    (ha : authFrame ftype h body s = (some x, u)) : onFrame ftype h body f s = f x u := by unfold onFrame; rw [ha]

/-- R412: a derived key agrees the next epoch. -/
theorem agreedEpoch_deriveNext (own : Nat) (ss : Bytes) (x : Session) : agreedEpoch (deriveNext own ss x) = agreedEpoch x + 1 := by
  unfold deriveNext; dsimp only
  show List.foldl _ x.epoch (x.txKeys ++ [_]) = _
  rw [List.foldl_append]; show max (agreedEpoch x) (agreedEpoch x + 1) = _; omega

/-- Sessions alone decide what is found. -/
theorem findSess_of_sessions {s t : State} (h : t.site.sessions = s.site.sessions) (a b : Nat) : findSess t a b = findSess s a b := by
  unfold findSess; rw [h]

/-- KEY_NEXT changes of its session the decapsulation key and the sequence number alone. -/
theorem findSess_startKeyNext (a b : Nat) (s : State) (y : Session) (h : findSess s a b = some y) :
    ∃ z n, findSess (startKeyNext a b s) a b = some { y with kemKey := z, txSeq := n } ∧ (n = y.txSeq ∨ n = y.txSeq + 1) := by
  unfold startKeyNext; dsimp only; split
  · generalize (Config.kemKeys s.sec.kemUsed).2 = z
    have h2 : ∀ v, findSess (updSess a b (fun x => { x with kemKey := z }) (s.withSec v)) a b = some { y with kemKey := z } := by
      intro v; rw [findSess_updSess _ _ _ _ (by intro; rfl)]
      have hz : findSess (s.withSec v) a b = some y := h
      rw [hz]; rfl
    refine ⟨z, (if y.opened then y.txSeq + 1 else y.txSeq), (findSess_sendNow _ _ _ _ _ (h2 _)).trans ?_, ?_⟩
    · split
      · rename_i ho; rfl
      · rename_i ho; rfl
    · split <;> simp
  · exact ⟨y.kemKey, y.txSeq, h, .inl rfl⟩

/-- With no outbound contribution none is freed. -/
theorem freeOutbound_of_nil (v : State) (h : v.site.outbound = []) : freeOutbound v = v := by
  unfold freeOutbound; dsimp only; rw [h, List.filter_nil]
  have : ({ v.site with outbound := [] } : Site) = v.site := by rw [← h]
  rw [this]; rfl

/-- With no outbound contribution nothing waits. -/
theorem sendAll_of_nil (v : State) (h : v.site.outbound = []) : sendAll v = v := by
  unfold sendAll
  have : ∀ (l : List Nat), l.foldl (fun s i => sendWaiting i s.site.outbound.length s) v = v := by
    intro l; induction l with
    | nil => rfl
    | cons a t ih => rw [List.foldl_cons, h]; exact ih
  exact this _

/-- With no outbound contribution, no waiting Form phase and no departure, settling does nothing. -/
theorem settlePeers_of_nil (v : State) (h1 : v.site.outbound = []) (h2 : v.site.boundary ≠ 3) (h3 : v.site.leaving = none) : settlePeers v = v := by
  unfold settlePeers; dsimp only
  rw [freeOutbound_of_nil v h1, if_neg h2, sendAll_of_nil v h1]
  unfold tryLeave; rw [h3]

/-- Away from a boundary that waits the roll is not evaluated. -/
theorem evaluateRoll_of_not_waiting (v : State) (h : v.site.boundary ≠ 1) : evaluateRoll v = v := by
  unfold evaluateRoll; rw [if_pos (by simp [h])]

/-- A sparse map reads back a value that is not its default. -/
theorem sget_sput_of_ne {α : Type} [DecidableEq α] (d : α) : ∀ (t : Sparse α) (k : Nat) (v : α), v ≠ d → sget d (sput d t k v) k = v
  | [], k, v, h => by simp [sput, h, sget]
  | (k', v') :: t, k, v, h => by
    unfold sput
    split
    · simp [sget]
    · split
      · simp [sget]
      · rename_i h1 h2; simp [sget, h2, sget_sput_of_ne d t k v h]

end Sys2Proof.Machine
end

