-- ==== Sys2Proof/WellFormed.lean ====
section
/-! DEFINITION. Which commands a sender can bring: bounds on operands that a message, frame or port of the spec cannot
exceed. A command outside them has a meaning in the machine too; well-formedness says what the wires can carry. -/

namespace Sys2Proof

/-- R408: a Barter header's fields fit their octets, with the routes of R391, the sites of R390 and the code of R416. -/
def FrameHeader.wf (h : FrameHeader) : Bool :=
  decide (h.route < 4) && decide (h.site < 16) && decide (h.k ≤ 32) && decide (h.m ≤ 16) && decide (h.pkt < 48) &&
  decide (h.group < 2 ^ 32) && decide (h.len < 2 ^ 16)

/-- R323: a flit carries 56 payload bytes. -/
def Flit.wf (f : Flit) : Bool := decide (f.payload.length = 56)

/-- R325: a packet's header fields fit their bytes. -/
def Packet.wf (p : Packet) : Bool :=
  decide (p.destX < 256) && decide (p.destY < 256) && decide (p.destZ < 256) && decide (p.cls < 256) &&
  decide (1 ≤ p.flits) && decide (p.flits ≤ 256) && decide (p.src < 2 ^ 16) && decide (p.bytes < 2 ^ 16)

/-- R126: FCMP has no unsigned condition. -/
def Cond.signed : Cond → Bool
  | .ltu => false
  | .geu => false
  | _ => true

/-- A BatchKey of R214: 63 expert layers, 256 micro-batches. -/
def BatchKey.wf (k : BatchKey) : Bool := decide (k.layer < 64) && decide (k.micro < 256)

/-- The operands of a command are ones that its sender can bring. -/
def Instr.wf : Instr → Bool
  | .hostLinkTrained lanes gts => decide (lanes ≤ 16) && decide (gts ≤ 64)
  | .cxlMemWrite _ bytes => decide (bytes.length = 64)
  | .registerWrite _ width _ => decide (width = 4) || decide (width = 8)
  | .dataFlit _ f => f.wf
  | .packetForward _ p => p.wf
  | .laneErrorWindowClose _ errors => decide (errors.length = 16)
  | .fcmp _ _ c _ _ => c.signed
  | .select key _ _ _ _ => key.wf
  | .data h payload _ => h.wf && decide (payload.length = 8192)
  | .roundOpen h _ lastK _ _ => h.wf && decide (lastK ≤ 32)
  | .ack h _ => h.wf
  | .repair h _ => h.wf
  | .keyNext h _ => h.wf
  | .keyNextAck h _ => h.wf
  | .joinReq h => h.wf
  | .leave h => h.wf
  | .notice h site _ _ => h.wf && decide (site < 16)
  | .probe h _ => h.wf
  | .sessionInit h p => h.wf && decide (p.extent.length = 3)
  | .sessionAccept h p => h.wf && decide (p.extent.length = 3)
  | .unitSelfTest row _ _ => decide (row < 16)
  | _ => true

end Sys2Proof
end

