-- ==== Sys2Proof/Tests/Slice0.lean ====
section
/-! SUPPORT. Tests: small states, a witness for every statement with hypotheses (states and operands that meet them,
clause by clause), ill-formed commands that WellFormed refuses, and worked values of the spec. -/

open Sys2Proof Sys2Proof.Machine

set_option Elab.async false

namespace Sys2Proof.Tests


/-! ### Small states -/

/-- A live module: Awning, rails, host link and READY up, every function ON, every torus port UP. -/
def live : State :=
  { State.reset with
    mbx := { ready := true, takes := true }, bus := { perst := false, linkUp := true, busMaster := true, width := 8, rate := 64 },
    awn := { on := true, tick := 5000000, rackOk := true, isRoot := true, tstate := .synced },
    pwr := { state := .p0, phase := .done, pg := true, pwrEn := true, inRange := true },
    fns := Vector.replicate 14 { state := .on }, ports := Vector.replicate 6 { state := .up, width := 16 } }

/-- The first slot of channel 0. -/
def k0 : CmdRef := { ch := 0, slot := 0 }

/-- A descriptor of 128 bytes: opcode, token, result address and capacity, BUF_A address and length, arguments. -/
def descr (op token cap addrA lenA : Nat) (args : Bytes) : Bytes :=
  (natLe 8 0 ++ natLe 8 token ++ natLe 2 op ++ natLe 14 0 ++ natLe 8 0x10000 ++ natLe 4 cap ++ natLe 4 0 ++
    natLe 8 addrA ++ natLe 6 lenA ++ natLe 2 0 ++ natLe 16 0 ++ args ++ List.replicate 48 0).take 128

/-- A running command. -/
def cmdOf (d : Bytes) : Cmd := { newCmd k0 d false with phase := .running }

/-- A live module in a job state with one running command. -/
def running (j : JobState) (d : Bytes) : State := live.withMbx { live.mbx with job := j, cmds := [cmdOf d] }

/-- A program of one tensor of sixteen BF16 elements and one Verb header. -/
def progA : Program :=
  { sentences := [], clauses := [], streams := 0,
    tensors := [{ tid := 1, fmt := .bf16, mx := false, dims := [16], role := .param, far := false }],
    verbs := [], drains := [], layers := [], residency := 0, decisions := [], collectives := [], inputs := [], evalInputs := [],
    sectionExtents := [], expertPool := 0 }

/-- A slice of two members along x; this module is the lead. -/
def pair (s : State) : State :=
  s.withSlice { coords := some (0, 0, 0), lens := (4, 1, 1), sliceId := some 7, extent := (2, 1, 1) }

/-- The same slice seen by member 1. -/
def second (s : State) : State :=
  s.withSlice { coords := some (1, 0, 0), lens := (4, 1, 1), sliceId := some 7, extent := (2, 1, 1) }

/-- The state at a tick of fabric time. -/
def timed (n : Nat) (s : State) : State := s.withAwn { s.awn with tick := BitVec.ofNat 64 n }

/-- A run of a STEP_RUN with one step left. -/
def runA : RunCmd :=
  { cmd := some k0, eval := false, evalList := 0, drawBase := 0, cursor := 0, stepsLeft := 1, done := 0, worst := 0 }

/-- A state with the run in progress. -/
def inRun (s : State) : State := s.withStep { s.step with run := some runA }

/-! ### Witnesses: each shows states and operands that meet a statement's hypotheses, clause by clause -/

theorem witness_CommandsRunFromTheFront :
    (State.reset.withPending [.identTimer]).pending = [Instr.identTimer] := by decide +kernel

theorem witness_EmptyQueueTicksWithTheAwningOn :
    (State.reset.pending = [] ∧ State.reset.awn.on = false) ∧
    (live.pending = [] ∧ live.awn.on = true ∧ live.step.replays < 3 ∧ (live.withSite { live.site with waitingFor := some 3 }).site.waitingFor = some 3) := by
  decide +kernel

theorem witness_StepsKeepStatesWellFormed : State.reset.wf = true ∧ live.wf = true ∧
    (∃ t, step State.reset = .next t) ∧ ∃ t, step (live.withPending [.rackclkLoss]) = .next t :=
  ⟨by decide +kernel, by decide +kernel, ⟨_, rfl⟩, ⟨_, rfl⟩⟩

theorem witness_CommandsLeaveTheQueueAlone : live.wf = true ∧ ∃ t, exec .rackclkLoss live = .next t := ⟨by decide +kernel, ⟨_, rfl⟩⟩

theorem witness_DescriptorsArePostedTakenAndStarted :
    -- a doorbell for slot 255 alone, free and owned
    (let s := live.withMbx { live.mbx with rings := live.mbx.rings.set 3 { tail := 255 } }
     (3 : Fin 16) = ((0x00030000 : W32).extractLsb' 16 4).toFin ∧ s.bus.linkUp = true ∧ s.mbx.ready = true ∧
      slotsBetween 3 s.mbx.rings[3].tail ((0x00030000 : W32).extractLsb' 0 8) ≠ [] ∧
      (slotsBetween 3 s.mbx.rings[3].tail ((0x00030000 : W32).extractLsb' 0 8)).any (slotOwned s) = false ∧
      (slotsBetween 3 s.mbx.rings[3].tail ((0x00030000 : W32).extractLsb' 0 8)).any
        (slotOwned (s.withMbx { s.mbx with posted := [{ ch := 3, slot := 255 }] })) = true) ∧
    -- a HELLO descriptor (token 1 above mark 0) in the posted slot
    (let s := live.withMbx { live.mbx with posted := [k0], ringMem := writeBytes [] 0 (descr 1 1 0 0 0 []) }
     s.mbx.posted = k0 :: [] ∧ takesDescriptors s = true ∧
      newCmd k0 (descr 1 1 0 0 0 []) false = newCmd k0 (readBytes s.mbx.ringMem (slotOffset k0) 128) false ∧
      s.mbx.rings[k0.ch].mark.toNat < (newCmd k0 (descr 1 1 0 0 0 []) false).token.toNat ∧
      descriptorBad (newCmd k0 (descr 1 1 0 0 0 []) false) = false ∧
      allowedIn (cmdOp (newCmd k0 (descr 1 1 0 0 0 []) false)) s.mbx.job = true) ∧
    -- a queued JOB_OPEN, allowed in IDLE and not in NO_HELLO
    (let c := newCmd k0 (descr 0x10 1 0 0 0 []) false
     let s := live.withMbx { live.mbx with cmds := [c] }
     queueBusy s = false ∧ s.mbx.cmds.find? (fun c => isQueueOp (cmdOp c) && !c.isRepeat) = some c ∧
      allowedIn (cmdOp c) JobState.idle = true ∧ allowedIn (cmdOp c) s.mbx.job = false) := by decide +kernel

theorem firstDiff_self (fs xs : List Nat) : firstDiff fs xs xs = none := by
  induction fs generalizing xs with
  | nil => cases xs <;> rfl
  | cons f fs ih => cases xs with
    | nil => rfl
    | cons x xs => simp only [firstDiff, if_true]; exact ih xs

theorem reportDiff_self (op : Nat) (r : AgreeReport) (h : r.epochBad = false) : reportDiff op r r = none := by
  simp [reportDiff, firstDiff_self, h]

theorem witness_CommandsAgreeAndChangeTheJob_reports :
    let c := cmdOf (descr 0x30 1 0 0 0 [])
    (let s := running .loaded (descr 0x30 1 0 0 0 [])
     findCmd s k0 = some c ∧ (allReports s c []).find? (fun r => r.member = leadIndex s) = some (agreeReport s c) ∧
      isSliceOp (cmdOp c) = true ∧ c.isRepeat = false ∧ c.agreed = false ∧
      (∀ m, m < memberCount s → ∃ r ∈ allReports s c [], r.member = m) ∧
      (∀ r ∈ allReports s c [], reportDiff (cmdOp c) (agreeReport s c) r = none)) ∧
    (let s := pair (running .loaded (descr 0x30 1 0 0 0 []))
     let r : AgreeReport := { agreeReport s c with member := 1, fields := [1, 0] }
     (allReports s c [r]).find? (fun r => r.member = leadIndex s) = some (agreeReport s c) ∧
      (∀ m, m < memberCount s → ∃ r ∈ allReports s c [r], r.member = m) ∧
      firstMismatch (cmdOp c) (agreeReport s c) (allReports s c [r]) = some (1, 0x1D)) := by
  refine ⟨⟨by decide +kernel, rfl, by decide +kernel, rfl, rfl, ?_, ?_⟩, rfl, ?_, ?_⟩
  · intro m h
    have h : m < 1 := h
    obtain rfl : m = 0 := by omega
    exact ⟨agreeReport _ _, List.mem_cons_self .., rfl⟩
  · intro r h
    have h : r = _ := List.mem_singleton.mp h
    rw [h]; exact reportDiff_self _ _ rfl
  · intro m h
    have h : m < 2 := h
    rcases (by omega : m = 0 ∨ m = 1) with rfl | rfl
    · exact ⟨agreeReport _ _, List.mem_cons_self .., rfl⟩
    · exact ⟨{ agreeReport (pair (running .loaded (descr 0x30 1 0 0 0 []))) (cmdOf (descr 0x30 1 0 0 0 [])) with
        member := 1, fields := [1, 0] }, List.mem_cons_of_mem _ (List.mem_cons_self ..), rfl⟩
  · show firstMismatch _ _ [_, _] = _
    simp only [firstMismatch, reportDiff_self _ (agreeReport (pair (running .loaded (descr 0x30 1 0 0 0 [])))
      (cmdOf (descr 0x30 1 0 0 0 []))) rfl]
    rfl

theorem witness_CommandsAgreeAndChangeTheJob :
    (let c := cmdOf (descr 0x30 1 0 0 0 [])
     let s := timed 120000000000 (running .loaded (descr 0x30 1 0 0 0 []))
     findCmd s k0 = some c ∧ isSliceOp (cmdOp c) = true ∧ cmdOp c ≠ 0x20 ∧ c.isRepeat = false ∧ c.agreed = false ∧
      isLead s = true ∧ 120000000000 ≤ (s.awn.tick - c.takenAt).toNat ∧ isLead (second s) = false) ∧
    (let d := descr 1 1 0 0 0 [3, 0, 0, 4, 1, 1]
     let s := running .noHello d
     ready s k0 0x01 = some (cmdOf d) ∧ helloValues (cmdOf d) = ((3, 0, 0), (4, 1, 1), 0) ∧ lensOk (4, 1, 1) = true ∧
      coordsOk (3, 0, 0) (4, 1, 1) = true ∧ s.mbx.job = .noHello) ∧
    (let d := descr 0x10 1 0 0 320 []
     ready (running .idle d) k0 0x10 = some (cmdOf d) ∧ jobBlockBad (jobBlock (running .idle d) (cmdOf d)) = false) ∧
    (let d := descr 0x11 1 0 0 0 []
     ready (running .opened d) k0 0x11 = some (cmdOf d)) ∧
    (let d := descr 0x21 1 0 0 0 [7, 0, 0, 0, 4, 1, 1, 2, 0, 0, 2, 1, 1]
     let s := (running .opened d).withSlice { coords := some (3, 0, 0), lens := (4, 1, 1) }
     ready s k0 0x21 = some (cmdOf d) ∧ joinArgs (cmdOf d) = (7, (4, 1, 1), (2, 0, 0), (2, 1, 1)) ∧
      joinBad s (4, 1, 1) (2, 0, 0) (2, 1, 1) = false ∧ crossesWrap 2 2 4 = false ∧ crossesWrap 0 1 1 = false ∧
      neighbourConflict s 7 (2, 0, 0) (2, 1, 1) (4, 1, 1) = false ∧ s.slice.sliceId = none ∧ s.load.prog = none) := by decide +kernel

/-- A numeric plan of two data-parallel replicas. -/
def planA : Plan := { version := 1, q := 1, p := 1, d := 2, prefetch := 2, estimate := 0, digest := 0 }

/-- A physical map of no role. -/
def mapA : PhysMap := { roles := [], homes := [], streams := [], digest := 0 }

/-- A load in a phase. -/
def loadIn (ph : LoadPhase) : Loading :=
  { cmd := k0, prog := progA, digest := [], planVersion := 1, limits := [1, 1, 1, 1, 1, 0], since := 0, phase := ph, reports := [],
    plan := none, phys := none, result := none, restarted := false }

/-- A running PROGRAM_LOAD with a load in progress. -/
def loading (l : Loading) : State :=
  let s := running .opened (descr 0x20 1 0 0 256 [])
  s.withLoad { s.load with loading := some l }

/-- A module whose program is loaded. -/
def loaded (s : State) : State := s.withLoad { prog := some progA, plan := some planA, phys := some mapA }

theorem witness_ProgramLoadsBeginAndEnd :
    -- an image too short for its header is refused
    (let d := descr 0x20 1 0 0 0 []
     ready (running .opened d) k0 0x20 = some (cmdOf d) ∧ loadingNow (running .opened d) = none ∧
      checkRefusal (running .opened d) (cmdOf d) [] progA = some (rBadDescriptor, [])) ∧
    -- the end of a load
    (let l := { loadIn .result with plan := some planA, phys := some mapA, result := some 0 }
     loadingNow (loading l) = some l ∧ lowestRefusal [(0, 0)] = none ∧ l.phase = .result ∧ l.plan = some planA ∧
      l.phys = some mapA ∧ l.result = some 0 ∧ [((0 : Nat), (0 : W16))].length = memberCount (loading l) ∧
      lowestRefusal [(0, 0x100)] = some (0, 0x100) ∧ 0 = memberIndex (loading l)) := by decide +kernel

/-- The octets of an image of 256 with a program of one tensor; its digest field holds zeros. -/
def imageA : Bytes :=
  (natLe 4 0x4C4B4E42 ++ natLe 2 1 ++ natLe 2 0 ++ natLe 8 256 ++ natLe 32 0 ++ natLe 8 0 ++ natLe 4 1 ++ natLe 12 0 ++
    natLe 2 1 ++ natLe 2 1 ++ natLe 2 1 ++ natLe 2 1 ++ natLe 2 1 ++ natLe 174 0)

theorem witness_ProgramLoadChecks (h : imageDigest (imageA.take (imageHeader imageA).bytes) = (imageHeader imageA).digest) :
    let d := descr 0x20 1 0 0 256 []
    let s := (running .opened d).withMem { (running .opened d).mem with host := writeBytes [] 0 imageA }
    ready s k0 0x20 = some (cmdOf d) ∧ loadingNow s = none ∧
      imageA = readBuf s (bufA (cmdOf d)) 0 (min (bufA (cmdOf d)).bytes (leNat (readBuf s (bufA (cmdOf d)) 8 8))) ∧
      checkRefusal s (cmdOf d) imageA progA = none := by
  refine ⟨by decide +kernel, by decide +kernel, by decide +kernel, ?_⟩
  unfold checkRefusal headerBad
  simp only [h]
  decide +kernel

theorem witness_LoadPhasesFollowInOrder :
    (let l := { loadIn .agreement with reports := [(0, [], 7, 0)] }
     let s := pair (loading l)
     loadingNow s = some l ∧ isLead s = true ∧ l.phase = .agreement ∧ 1 < memberCount s ∧ l.reports.any (fun r => r.1 = 1) = false ∧
      memberCount s ≤ l.reports.length + 1 ∧ loadMismatch (ownReport s l.digest) (l.reports ++ [(1, [], 7, 0)]) = none ∧
      loadMismatch (ownReport s l.digest) (l.reports ++ [(1, [5], 7, 0)]) = some (1, 0x01) ∧ lowestAbsent l 1 = true ∧
      120000000000 ≤ ((timed 120000000000 s).awn.tick - l.since).toNat ∧ ((timed 119999999999 s).awn.tick - l.since).toNat < 120000000000 ∧
      loadingNow (second (loading l)) = some l ∧ isLead (second (loading l)) = false) ∧
    (let l := { loadIn .localPlacement with plan := some planA }
     loadingNow (loading l) = some l ∧ l.plan = some planA ∧ l.phase = .localPlacement ∧
      mapA.roles.any (fun r => !stallPlaceable (loading l) r.stall.val) = false ∧
      mapOk l.prog planA (planStage (loading l) planA) mapA = true ∧
      verbRegionsBad l.prog { mapA with digest := Config.mapDigest planA.version { mapA with digest := 0 } } = false) := by
  decide +kernel

/-- The plan that member 1 of a slice of two forms for the cut of one replica. -/
def planB : Plan := planOf (loadIn .agreement) [2, 1, 1] ((1, 1, 1), 0)

theorem witness_LoadPhasesFollowInOrder_plan :
    let s := second (loading (loadIn .agreement))
    loadingNow s = some (loadIn .agreement) ∧ isLead s = false ∧ (loadIn .agreement).phase = .agreement ∧
      planB = planOf { loadIn .agreement with planVersion := planB.version } (extentList s) ((planB.q, planB.p, planB.d), planB.estimate.toNat) :=
  ⟨by decide +kernel, by decide +kernel, rfl, rfl⟩

theorem witness_LoadPhasesFollowInOrder_open (x : (Nat × Nat × Nat) × Nat)
    (hx : chooseCut 1 progA (extentList (loading (loadIn .placement))) [1, 1, 1, 1, 1, 0] = some x)
    (hf : ∀ s, fitNeeds s { loadIn .localPlacement with plan := some planA } planA mapA = []) :
    (loadingNow (loading (loadIn .placement)) = some (loadIn .placement) ∧ isLead (loading (loadIn .placement)) = true ∧
      chooseCut (loadIn .placement).planVersion (loadIn .placement).prog (extentList (loading (loadIn .placement)))
        (loadIn .placement).limits = some x) ∧
    fitNeeds (retireDue (loading { loadIn .localPlacement with plan := some planA })) { loadIn .localPlacement with plan := some planA }
      planA mapA = [] :=
  ⟨⟨by decide +kernel, by decide +kernel, hx⟩, hf _⟩

/-- A program with one sentence of evaluation list 0. -/
def progE : Program := { progA with sentences := [{ clauses := [], kind := .evaluation 0, decisions := [] }] }

theorem witness_RunCommandsBeginTheirSteps :
    (let d := descr 0x30 1 0 0 0 (natLe 6 0 ++ natLe 4 1)
     let s := loaded (running .loaded d)
     ready s k0 0x30 = some (cmdOf d) ∧ s.step.run = none ∧ s.mbx.job ≠ .site ∧ s.load.prog.isSome = true ∧
      stepRunBad s (cmdOf d) = false ∧ agreedHere s (cmdOf d) = true ∧ s.snap.paused = false ∧ srFirst (cmdOf d) = 0) ∧
    (let d := descr 0x30 1 0 0 0 (natLe 6 2 ++ natLe 4 1)
     let s := loaded (running .loaded d)
     ready s k0 0x30 = some (cmdOf d) ∧ stepRunBad s (cmdOf d) = false ∧ srFirst (cmdOf d) ≠ 0 ∧
      srFirst (cmdOf d) ≠ (s.job.epoch + 1).toNat) ∧
    (let d := descr 0x31 1 0 0 0 []
     let s := (running .loaded d).withLoad { prog := some progE }
     ready s k0 0x31 = some (cmdOf d) ∧ s.step.run = none ∧ s.load.prog.isSome = true ∧ erInput (cmdOf d) = 0 ∧
      evalSentences s (erList (cmdOf d)) ≠ [] ∧ agreedHere s (cmdOf d) = true ∧
      (inRun s).step.run = some runA ∧ runA.cmd = some k0 ∧ evalDone (inRun s) runA.evalList = true ∧ ready (inRun s) k0 0x31 = some (cmdOf d)) ∧
    (let s := live.withMbx { live.mbx with job := .site }
     s.mbx.job = .site ∧ s.step.run = none ∧ s.site.boundary = 0 ∧ s.site.joining = none ∧ s.site.excluded = false ∧ s.snap.paused = false ∧
      (s.withSite { s.site with leaving := some (k0, s.site.round) }).site.round ≤ s.site.round) := by decide +kernel

/-- The parameter section of progA. -/
def sectionA : Section :=
  let t : TensorDecl := { tid := 1, fmt := .bf16, mx := false, dims := [16], role := .param, far := false }
  { desc := sectionDesc t 0 0, content := List.replicate 32 0, scales := [], record := {},
    sealWord := sealOf (sectionDesc t 0 0) (List.replicate 32 0) [] {} }

/-- The image of one role. -/
def imageOf (s : State) : RoleImage :=
  let r : RoleImage :=
    { member := 0, digest := s.load.digest, planVersion := 1, extent := extentList s, seedDigest := seedDigest s, epoch := 4,
      sliceId := 0, flags := 0, manifest := [], sections := [sectionA],
      record := { cursors := [], draws := [], epoch := 4, collSeq := 0 }, directory := [], carries := [] }
  { r with manifest := manifestOf r }

theorem imageBroken_own (s : State) : imageBroken { valid := true, roles := [imageOf s] } = false := by
  have h : sealBroken sectionA = false := by decide +kernel
  have m : (imageOf s).manifest = manifestOf (imageOf s) := rfl
  have x : (imageOf s).sections = [sectionA] := rfl
  simp [imageBroken, m, x, h]

theorem witness_TensorsAndCheckpointsMoveSections :
    (let d := descr 0x40 1 0 0x20000 32 (natLe 8 1 ++ natLe 2 0 ++ natLe 2 1)
     let s := loaded (running .loaded d)
     let t := progA.tensors[0]
     ready s k0 0x40 = some (cmdOf d) ∧ s.step.run = none ∧ findTensor s (twTid (cmdOf d)) = some t ∧
      twFirst (cmdOf d) + twCount (cmdOf d) ≤ sectionCount t ∧ twCount (cmdOf d) ≠ 0 ∧ (bufA (cmdOf d)).bytes = twBytes t (cmdOf d) ∧
      (bufB (cmdOf d)).bytes = 0 ∧ hostSealsOk s (cmdOf d) (takenSections s t (cmdOf d)) = true) ∧
    (let d := (descr 0x40 1 0 0x20000 32 (natLe 8 1 ++ natLe 2 0 ++ natLe 2 1)).set 72 8
     let s := loaded (running .loaded d)
     let t := progA.tensors[0]
     ready s k0 0x40 = some (cmdOf d) ∧ (bufB (cmdOf d)).bytes = 8 * twCount (cmdOf d) ∧
      hostSealsOk s (cmdOf d) (takenSections s t (cmdOf d)) = false) ∧
    (let d := descr 0x41 1 0 0x20000 32 (natLe 8 1 ++ natLe 2 0 ++ natLe 2 1)
     let s := setCommitted (loaded (running .loaded d)) [sectionA]
     let t := progA.tensors[0]
     ready s k0 0x41 = some (cmdOf d) ∧ findTensor s (twTid (cmdOf d)) = some t ∧
      twFirst (cmdOf d) + twCount (cmdOf d) ≤ sectionCount t ∧ twCount (cmdOf d) ≠ 0 ∧ twBytes t (cmdOf d) ≤ (bufA (cmdOf d)).bytes ∧
      ((twSections (cmdOf d)).filterMap (readSection s t)).length = twCount (cmdOf d) ∧
      ((twSections (cmdOf d)).filterMap (readSection s t)).any (unsound s) = false) ∧
    (let d := descr 0x50 1 0 0 0 [1]
     let s := loaded (running .loaded d)
     ready s k0 0x50 = some (cmdOf d) ∧ 1 = field (cmdOf d).bytes 80 1 ∧ isLead s = true ∧ s.snap.take = none ∧
      s.step.run = none ∧ s.snap.awaiting = none ∧ s.snap.flashWriting = none ∧ hasPartner s = false ∧
      hasPartner (s.withSnap { s.snap with partner := some 1 }) = true) := by decide +kernel

/-- A running CKPT_RESTORE and a running AUDIT_REPLAY of a loaded program. -/
def restoring : State := loaded (running .loaded (descr 0x51 1 0 0 0 []))
def auditS : State := loaded (running .loaded (descr 0xA0 1 0 0 0 (natLe 6 4 ++ natLe 6 5)))

/-- The recorded step of epoch 5. -/
def auditA : AuditStep := { epoch := 5, outer := false, roles := [], sliceDigest := 3, rolls := [], leaves := [] }

theorem imageMismatch_own (s : State) (h1 : ((s.load.plan.map (·.version)).getD 0) = 1) :
    imageMismatch s { valid := true, roles := [imageOf s] } = none := by
  have h : manifestDiff s 4#48 (imageOf s) = none := by simp [manifestDiff, imageOf]; exact h1.symm
  simp [imageMismatch, sortBy, insertBy, show (imageOf s).epoch = 4 from rfl, h]

theorem witness_CheckpointsAreRestored :
    (let c := cmdOf (descr 0x51 1 0 0 0 [])
     ready restoring k0 0x51 = some c ∧ agreedHere restoring c = true ∧ field c.bytes 80 1 ≤ 2 ∧ field c.bytes 81 6 = 0 ∧
      imageMismatch restoring { valid := true, roles := [{ imageOf restoring with digest := [1] }] } = some (0, 0x01)) ∧
    (let c := cmdOf (descr 0xA0 1 0 0 0 (natLe 6 4 ++ natLe 6 5))
     ready auditS k0 0xA0 = some c ∧ agreedHere auditS c = true ∧ field c.bytes 80 6 < field c.bytes 86 6 ∧ field c.bytes 92 1 ≤ 2 ∧
      auditS.step.run = none ∧ (imageOf auditS).epoch.toNat = field c.bytes 80 6 ∧
      auditRecords auditS { recordsOk := true, image := { valid := true, roles := [imageOf auditS] }, steps := [auditA] }
        (field c.bytes 80 6) (field c.bytes 86 6) = true) ∧
    (imageMismatch restoring { valid := true, roles := [imageOf restoring] } = none ∧
      imageBroken { valid := true, roles := [imageOf restoring] } = false ∧ imageBroken { valid := true, roles := [imageOf auditS] } = false ∧
      [imageOf restoring].find? (fun r => r.member = memberIndex restoring) = some (imageOf restoring) ∧
      imageMismatch auditS { valid := true, roles := [imageOf auditS] } = none ∧
      [imageOf auditS].find? (fun r => r.member = memberIndex auditS) = some (imageOf auditS)) :=
  ⟨by decide +kernel, by decide +kernel, imageMismatch_own _ rfl, imageBroken_own _, imageBroken_own _, rfl, imageMismatch_own _ rfl, rfl⟩

/-- A run at member 1, which covers the lead. -/
def partnerRun : State := second (inRun (live.withSnap { live.snap with covers := some 0 }))

/-- A decision to commit. -/
def decA : DecisionMsg :=
  { epoch := 1, attempt := 0, snap := false, flash := false, outer := false, skipped := false, taken := [], promoted := [],
    sliceDigest := 0 }

theorem witness_PreparedMembersAreDecidedOn :
    (let s := second (inRun (live.withLoad { prog := some { progA with tensors := [] } }))
     prepareReady s = true ∧ s.step.prepared = false ∧ isLead s = false ∧
      (s.withStep { s.step with prepared := true }).step.run.isSome = true ∧
      1000000 ≤ (s.awn.tick - s.step.preparedAt).toNat ∧ auditing s = false) ∧
    (let s := inRun live
     let m : PreparedMsg := { epoch := runningEpoch s, attempt := 0, role := 1, skipped := false, digest := 0, promoted := [] }
     isLead s = true ∧ s.step.run.isSome = true ∧ inEval s = false ∧ m.epoch = runningEpoch s ∧ m.attempt = s.step.attempt ∧
      s.snap.covers ≠ some m.role) ∧
    (partnerRun.snap.covers = some (leadIndex partnerRun) ∧ partnerRun.step.run.isSome = true) ∧
    isLead (live.withStep { live.step with decision := some decA }) = true ∧
    (let s := live.withStep { live.step with
       held := [{ epoch := 1, attempt := 0, role := 0, skipped := false, digest := 0, promoted := [] }] }
     s.step.decision = none ∧ (List.range (memberCount s)).all (fun i => s.step.held.any (fun m => m.role = i)) = true ∧
      hasPartner s = false ∧ (List.range (memberCount (pair s))).all (fun i => (pair s).step.held.any (fun m => m.role = i)) = false ∧
      snapDue (s.withSnap { s.snap with partner := some 1 }) = false ∧ hasPartner (s.withSnap { s.snap with partner := some 1 }) = true) := by
  decide +kernel

theorem witness_CommitInvertsTheBufferSelect :
    (inRun live).step.run = some runA ∧ runA.eval = false ∧ runA.cmd = some k0 ∧ runA.stepsLeft = 1 ∧
      runningEpoch (inRun live) = 1 ∧ (7 : W48) ≠ runningEpoch (inRun live) := by decide +kernel

/-- The run of an audit with one recorded step left. -/
def auditRun : State := live.withStep { live.step with run := some { runA with audit := some [{ auditA with epoch := 1 }] } }

theorem witness_CommitInvertsTheBufferSelect_audit :
    (∃ r, (second auditRun).step.run = some r ∧ r.eval = false ∧ r.audit = some ({ auditA with epoch := 1 } :: []) ∧ r.cmd = some k0) ∧
    (1 : W48) = runningEpoch auditRun ∧ (4 : W64) ≠ auditA.sliceDigest ∧ isLead (second auditRun) = false ∧
    (∀ p ∈ auditA.roles, p.1 = memberIndex (second auditRun) → p.2 = digestOf (shadow (second auditRun))) :=
  ⟨⟨_, rfl, by decide⟩, by decide +kernel, by decide, by decide +kernel, by decide⟩

theorem witness_PartnersMirrorAndTakeOver :
    (partnerRun.snap.covers.isSome = true ∧ partnerRun.snap.updating = none ∧
      sealOf sectionA.desc sectionA.content sectionA.scales sectionA.record = sectionA.sealWord ∧
      sealOf sectionA.desc sectionA.content sectionA.scales sectionA.record ≠ 0) ∧
    (let s := (inRun live).withStep { (inRun live).step with outer := true, mirrored := 1 }
     s.step.run.isSome = true ∧ s.step.mirrored = mirrorExpected s ∧ mirrorExpected s = 0 + 1) ∧
    (let s := pair (loaded live)
     s.load.prog.isSome = true ∧ isLead s = true ∧ 1 ≠ memberIndex s ∧ 1 < memberCount s ∧ 1 ∉ s.step.failedMembers) ∧
    (let s := (pair (loaded live)).withSnap { live.snap with shift := 1 }
     1 ≠ memberIndex s ∧ s.step.taken.any (fun t => decide (t.1 = 1)) = false ∧ unprotected s 1 = false ∧ s.step.run = none ∧
      unprotected (s.withSnap { s.snap with shift := 0 }) 1 = true) := by decide +kernel

theorem witness_StandbysAndImagesAreKept :
    (let s := live.withSnap { live.snap with covers := some 1, updating := some 4, coveredDigest := some (digestOf [sectionA]) }
     s.snap.covers = some 1 ∧ s.snap.updating = some 4 ∧ s.snap.coveredDigest = some (digestOf [sectionA])) ∧
    (let s := live.withSnap { live.snap with filling := some 5, before := [sectionA] }
     s.snap.filling = some 5 ∧ s.snap.catchUp = false ∧ [sectionA].any sealBroken = false ∧ sealDiffs [sectionA] s.snap.before = []) ∧
    (let s := second (live.withSnap { live.snap with filling := some 5, catchUp := true })
     s.snap.filling = some 5 ∧ s.snap.catchUp = true ∧ s.snap.updating = none ∧ isLead s = false ∧ s.snap.coveredDigest = none ∧
      (s.withSnap { s.snap with coveredDigest := some (digestOf [sectionA]) }).snap.coveredDigest = some (digestOf [sectionA]) ∧
      s.snap.slotA.state = .complete ∧ s.snap.slotB.state = .filling) ∧
    (let s := pair (live.withSnap { live.snap with awaiting := some (5, 0, [0, 1]) })
     isLead s = true ∧ [0, 1].filter (fun m => m ≠ 1) ≠ [] ∧ [1].filter (fun m => m ≠ 1) = [] ∧ s.snap.take = none) ∧
    (let s := (loaded live).withSnap { live.snap with flashWriting := some 5 }
     s.snap.flashWriting = some 5 ∧ s.snap.take = none ∧ isLead s = true ∧ s.load.prog.isSome = true ∧
      600000000000 ≤ ((timed 600000000000 s).awn.tick - s.snap.flashAt).toNat ∧ (s.awn.tick - s.snap.flashAt).toNat < 600000000000) ∧
    (let st : Store := { addr := [], port := 0, nsid := 0, nqn := [] }
     let s := timed 3600000000000 ((live.withJob { live.job with store := some st }).withSnap { live.snap with flash := [5] })
     s.job.store = some st ∧ s.snap.flash = 5 :: [] ∧ s.snap.storing = none ∧ s.step.taken = [] ∧ s.snap.paused = false ∧
      1000000000 * s.job.storeInterval.toNat ≤ (s.awn.tick - s.snap.storeAt).toNat ∧
      (s.withSnap { s.snap with storing := some (5, [0, 1]) }).snap.storing = some (5, [0, 1])) := by decide +kernel

theorem witness_DetectionsFenceAndReplaysRestore :
    (let d : Detection := { mechanism := 7, unit := .stall 1023, active := true, location := 0, observed := 1, expected := 0 }
     d.unit = .stall 1023 ∧ d.mechanism ≤ 7 ∧ live.load.loading = none ∧ (sget {} live.saf.stalls (1023 : Fin 1024).val).state = .inService) ∧
    (let s := inRun live
     let m : SuspectMsg := { epoch := runningEpoch s, attempt := 0, member := 0, unit := .none }
     isLead s = true ∧ s.step.run.isSome = true ∧ inEval s = false ∧ m.epoch = runningEpoch s ∧ m.attempt = s.step.attempt ∧
      s.step.decision = none ∧ s.step.replaySent ≠ some (m.attempt + 1) ∧ s.step.replays < 3 ∧
      3 ≤ (s.withStep { s.step with replays := 3 }).step.replays ∧ s.step.attempt.toNat < (1 : Byte).toNat ∧ s.load.phys = none) ∧
    (testMayBegin live 5 = true ∧ holdsRole live 5 = false ∧
      testMayBegin (live.withSaf { live.saf with stalls := [(5, { state := .retired })] }) 5 = false ∧
      testMayBegin (live.withLoad { live.load with phys := some { mapA with roles := [{ role := 0, clause := 0, stall := 5 }] } }) 5 = true ∧
      holdsRole (live.withLoad { live.load with phys := some { mapA with roles := [{ role := 0, clause := 0, stall := 5 }] } }) 5 = true) ∧
    (let f : Fence := { state := .fenced, passes := 1 }
     let s := live.withSaf { live.saf with stalls := [(5, f)] }
     sget {} s.saf.stalls (5 : Fin 1024).val = f ∧ f.state = .fenced ∧ f.passes < 2 ∧ ({ f with passes := 2 } : Fence).passes ≥ 2 ∧
      retestDue s.awn.tick f = false ∧ retestDue (timed 1000000000 s).awn.tick f = true ∧
      retestDue (timed 1500000000 s).awn.tick { f with retested := some 1000000000 } = true ∧
      retestDue (timed 1499999999 s).awn.tick { f with retested := some 1000000000 } = false) := by
  decide +kernel

/-- A Logbook record of a severity. -/
def recA (sev : BitVec 3) : LogRec :=
  { seq := 0, tick := 0, rtc := 0, code := 0x203, sev := sev, synced := true, cont := false, attempt := 0, epoch := 0, unit := .none, detail := [] }

theorem witness_LogbookRecordsAndCountersAreRead :
    (let s := live.withLog { live.log with waiting := [[recA 1]] }
     s.log.waiting = [[recA 1]] ∧ s.log.queue.length + [recA 1].length ≤ 4096) ∧
    (let s := live.withLog { live.log with queue := [recA 1] }
     s.log.queue = recA 1 :: [] ∧ (recA 1).sev ≠ 4 ∧ s.log.lost = 0 ∧ (sget [] s.log.segs s.log.seg).length + 1 < 65536) ∧
    (let s := live.withLog { live.log with queue := List.replicate 3841 (recA 1) }
     (recA 1).sev.toNat < 2 ∧ 3840 < s.log.queue.length ∧ neverDropped (recA 1).code (recA 1).sev = false) ∧
    (let d := descr 0x70 1 0 0 0 (natLe 8 8191)
     ready (running .idle d) k0 0x70 = some (cmdOf d) ∧ field (cmdOf d).bytes 80 8 ≠ 0 ∧ field (cmdOf d).bytes 80 8 < 8192 ∧
      field (cmdOf d).bytes 88 1 % 2 = 0) ∧
    (let d := descr 0x70 1 0 0 0 (natLe 8 8192)
     ready (running .idle d) k0 0x70 = some (cmdOf d) ∧ 8192 ≤ field (cmdOf d).bytes 80 8) ∧
    (let d := descr 0x71 1 0 0x20000 64 (natLe 8 0 ++ natLe 8 9)
     ready (running .idle d) k0 0x71 = some (cmdOf d) ∧ field (cmdOf d).bytes 96 2 = 0 ∧ field (cmdOf d).bytes 98 1 = 0) := by
  decide +kernel

theorem witness_FunctionsMakeTransitions :
    (let d := descr 0x60 1 0 0 0 [0x03]
     let s := running .idle d
     ready s k0 0x60 = some (cmdOf d) ∧ funcOf (field (cmdOf d).bytes 80 1) = some (.hall 3) ∧ alreadyWaits s k0 = false ∧
      enableBad s (.hall 3) (cmdOf d) = false ∧ (getFn s (.hall 3)).pending = none ∧ (getFn s (.hall 3)).state = .on ∧
      (∀ st ∈ [FnState.off, FnState.starting, FnState.stopping], (getFn (setFn s (.hall 3) { state := st }) (.hall 3)).state = st ∧
        ready (setFn s (.hall 3) { state := st }) k0 0x60 = some (cmdOf d) ∧ alreadyWaits (setFn s (.hall 3) { state := st }) k0 = false)) ∧
    (let d := descr 0x61 1 0 0 0 [0x03]
     let s := running .idle d
     ready s k0 0x61 = some (cmdOf d) ∧ alreadyWaits s k0 = false ∧ disableBad s (.hall 3) = false ∧
      (getFn s (.hall 3)).pending = none) ∧
    getFn (setFn live (.hall 0) { state := .starting }) (.hall 0) = { state := .starting, joined := [], pending := none } ∧
    getFn (setFn live (.hall 0) { state := .stopping }) (.hall 0) = { state := .stopping, joined := [], pending := none } ∧
    fnOn live (.eth .ethB) = true := by decide +kernel

theorem witness_KeysAndAttestationsAreChecked :
    (let d := descr 0x80 1 0 0x20000 8000 []
     let s := live.withMbx { live.mbx with job := .idle, cmds := [newCmd k0 d false] }
     ready s k0 0x80 = some (newCmd k0 d false) ∧ (newCmd k0 d false).phase = .queued ∧
      attestBytes s ≤ (bufA (newCmd k0 d false)).bytes ∧ attWindowOf s.awn.tick = s.sec.attWindow ∧ s.sec.nextLeaf < leafCount ∧
      s.sec.attSigned < 16 ∧
      leafCount ≤ (s.withSec { s.sec with nextLeaf := leafCount }).sec.nextLeaf ∧
      16 ≤ (s.withSec { s.sec with attSigned := 16 }).sec.attSigned) ∧
    (let s := live.withSec { live.sec with attWindow := 7 }
     attWindowOf s.awn.tick ≠ s.sec.attWindow ∧
      s.mbx.cmds.filter (fun c => decide (cmdOp c = 0x80) && !c.isRepeat && decide (c.phase = .queued)) = []) ∧
    (let d := descr 0x80 1 0 0x20000 8000 []
     let s := (running .idle d).withSec { live.sec with signQueue := [.attest k0], cacheOk := true }
     s.sec.signQueue = .attest k0 :: [] ∧ s.sec.cacheOk = true ∧ s.saf.clerkFenced ≠ 3 ∧ findCmd s k0 = some (cmdOf d) ∧
      attestBytes s ≤ (bufA (cmdOf d)).bytes ∧ s.sec.nextLeaf < leafCount) := by decide +kernel

/-- A membership certificate of zeros but for its fixed fields. -/
def certA : Bytes := natLe 4 0x54524543 ++ natLe 2 1 ++ natLe 1 1 ++ natLe 2941 0

/-- A running KEY_INSTALL of a kind with a package in host memory. -/
def installing (kind : Nat) (b : Bytes) : State :=
  let s := running .idle (descr 0x81 1 0 0x20000 b.length [BitVec.ofNat 8 kind])
  s.withMem { s.mem with host := writeBytes [] 0x20000 b }

/-- A package of a header for a signed body of 64 bytes. -/
def packageA (kind : Nat) : Bytes := natLe 4 0x52444E4F ++ natLe 2 1 ++ natLe 1 kind ++ natLe 5 0 ++ natLe 8 64 ++ natLe 4140 0

/-- A package of three images without bodies, all zeros. -/
def firmwareA : Bytes := List.replicate 12288 0

/-- A running KEY_INSTALL of that package: host memory that nothing has written reads zeros. -/
def installingF : State := running .idle (descr 0x81 1 0 0x20000 12288 [2])

theorem readBytes_nil (a n : Nat) : readBytes [] a n = List.replicate n 0 := by
  induction n generalizing a with
  | zero => rfl
  | succ n ih => rw [readBytes, ih]; rfl

theorem package_installing (kind : Nat) (b : Bytes) (a : Bytes) (h : bufA (cmdOf a) = { addr := 0x20000, bytes := b.length, window := false }) :
    package (installing kind b) (cmdOf a) = b := by
  unfold package readBuf
  rw [h]
  exact readBytes_writeBytes b [] 0x20000 rfl

theorem leNat_zeros (n : Nat) : leNat (List.replicate n (0 : Byte)) = 0 := by
  induction n with
  | zero => rfl
  | succ n ih => rw [List.replicate_succ, leNat, ih]; rfl

theorem field_zeros (n lo k : Nat) : field (List.replicate n 0) lo k = 0 := by
  simp only [field, List.drop_replicate, List.take_replicate, leNat_zeros]

theorem firmwareForm_A : firmwareForm (package installingF (cmdOf (descr 0x81 1 0 0x20000 12288 [2]))) = true := by
  have h : package installingF (cmdOf (descr 0x81 1 0 0x20000 12288 [2])) = firmwareA := by
    unfold package readBuf
    rw [if_neg (by decide +kernel)]
    exact readBytes_nil _ _
  have l : packageImages firmwareA = [List.replicate 4096 0, List.replicate 4096 0, List.replicate 4096 0] := by
    simp only [packageImages, firmwareA, field_zeros, List.take_replicate, List.drop_replicate]
    rfl
  have e : ∀ i < 3, ([List.replicate 4096 0, List.replicate 4096 0, List.replicate 4096 0] : List Bytes).getD i [] = List.replicate 4096 0 := by
    intro i hi; match i, hi with
    | 0, _ => rfl
    | 1, _ => rfl
    | 2, _ => rfl
  have m : ∀ i < 3, 4096 ≤ imageMax i := by decide
  rw [h]; unfold firmwareForm; rw [l]
  refine List.all_eq_true.mpr (fun i hi => ?_)
  have hi := List.mem_range.mp hi
  dsimp only
  rw [e i hi]
  simp only [field_zeros, List.length_replicate, decide_eq_true (m i hi)]
  rfl

theorem witness_KeyInstallsAreChecked (hv : ∀ p m g, Config.verify p m g = true) (hi : Config.idkHash = List.replicate 32 0)
    (hs : Config.serial = 0)
    (hc : ∀ kind, failedCheck (installing (kind - 1) (packageA kind)) kind (parseHdr (packageA kind)) ((packageA kind).drop 4096) = none)
    (hf : ∀ i : Fin 3, imageOk installingF i.val ((packageImages firmwareA).getD i.val []) = true)
    (hn : ∀ i < 3, norFails (installingF.withSec { installingF.sec with installing := some k0 }) (!installingF.sec.bootedB) i = none) :
    (keyReady (installing 1 certA) k0 1 = some (cmdOf (descr 0x81 1 0 0x20000 2948 [1])) ∧
      certA = package (installing 1 certA) (cmdOf (descr 0x81 1 0 0x20000 2948 [1])) ∧ certForm 1 certA = true ∧
      certValid (installing 1 certA).awn.rtc certA = true ∧ certSubject certA = Config.idkHash ∧ field certA 108 8 = Config.serial.toNat ∧
      (putCert certA (installing 1 certA).sec.memberships).length ≤ 4) ∧
    (keyReady installingF k0 2 = some (cmdOf (descr 0x81 1 0 0x20000 12288 [2])) ∧ installingF.sec.installing = none ∧
      firmwareForm (package installingF (cmdOf (descr 0x81 1 0 0x20000 12288 [2]))) = true ∧
      ∀ i : Fin 3, imageOk installingF i.val ((packageImages firmwareA).getD i.val []) = true) ∧
    (let s := installingF.withSec { installingF.sec with installing := some k0 }
     keyReady s k0 2 = some (cmdOf (descr 0x81 1 0 0x20000 12288 [2])) ∧ s.sec.installing = some k0 ∧
      norFails s (!s.sec.bootedB) 0 = none ∧ norFails s (!s.sec.bootedB) 1 = none ∧ norFails s (!s.sec.bootedB) 2 = none) ∧
    (keyReady (installing 3 (packageA 4)) k0 3 = some (cmdOf (descr 0x81 1 0 0x20000 4160 [3])) ∧
      packageA 4 = package (installing 3 (packageA 4)) (cmdOf (descr 0x81 1 0 0x20000 4160 [3])) ∧ (packageA 4).length = 4160 ∧
      (parseHdr (packageA 4)).bytes = 64 ∧ field ((packageA 4).set 4096 3) 4096 1 = 3 ∧
      failedCheck (installing 3 (packageA 4)) 4 (parseHdr (packageA 4)) ((packageA 4).drop 4096) = none ∧
      (parseHdr (packageA 4)).keySlot ≠ 3 ∧ (installing 3 (packageA 4)).sec.revoked ||| (1 : BitVec 4) <<< 3 ≠ 15) ∧
    (keyReady (installing 4 (packageA 5)) k0 4 = some (cmdOf (descr 0x81 1 0 0x20000 4160 [4])) ∧
      packageA 5 = package (installing 4 (packageA 5)) (cmdOf (descr 0x81 1 0 0x20000 4160 [4])) ∧ (packageA 5).length = 4160 ∧
      (parseHdr (packageA 5)).bytes = 64 ∧
      failedCheck (installing 4 (packageA 5)) 5 (parseHdr (packageA 5)) ((packageA 5).drop 4096) = none ∧
      field (packageA 5) 4096 8 = Config.serial.toNat ∧ field (packageA 5) 4104 8 = (installing 4 (packageA 5)).dev.bootId.toNat) := by
  refine ⟨⟨by decide +kernel, (package_installing _ _ _ (by decide +kernel)).symm, by decide +kernel, ?_, ?_, ?_, by decide +kernel⟩,
    ⟨by decide +kernel, by decide +kernel, firmwareForm_A, hf⟩,
    ⟨by decide +kernel, rfl, hn 0 (by decide), hn 1 (by decide), hn 2 (by decide)⟩,
    ⟨by decide +kernel, (package_installing _ _ _ (by decide +kernel)).symm, by decide +kernel, by decide +kernel, by decide +kernel, hc 4, by decide +kernel, by decide +kernel⟩,
    ⟨by decide +kernel, (package_installing _ _ _ (by decide +kernel)).symm, by decide +kernel, by decide +kernel, hc 5, ?_, by decide +kernel⟩⟩
  · unfold certValid; rw [hv]; decide +kernel
  · rw [hi]; decide +kernel
  · rw [hs]; decide +kernel
  · rw [hs]; decide +kernel

/-- A module in a phase of its start-up. -/
def starting (ph : StartPhase) : State := live.withPwr { live.pwr with state := .starting, phase := ph }

theorem witness_BootIsVerifiedAndRuns :
    (starting .fuses).pwr.phase = .fuses ∧ (starting .loader).pwr.phase = .loader ∧
    norFails (starting .loader) (bootBank (starting .loader)) 0 = some 0 ∧ (starting .firmware).pwr.phase = .firmware ∧
    (starting .loader).sec.failedBank = none ∧
    ((starting .loader).withSec { live.sec with failedBank := some (false, 0, 0) }).sec.failedBank = some (false, 0, 0) ∧
    (starting .identity).pwr.phase = .identity ∧ (live.sec.cacheOk = false ∧ live.pwr.phase = .done) ∧
    (starting .ready).pwr.phase = .ready ∧
    (let s := (starting .rails).withPwr { (starting .rails).pwr with pg := false }
     s.pwr.phase = .rails ∧ s.pwr.state = .starting ∧ s.pwr.pg = false) ∧
    (∀ ph ∈ [StartPhase.rails, .fuses, .loader, .firmware, .identity, .parallel, .ready],
      let s := timed 20000000000 (starting ph)
      s.pwr.state = .starting ∧ ph = s.pwr.phase ∧ phaseBound s.pwr ph < (s.awn.tick - s.pwr.phaseSince).toNat ∧
        ((starting ph).awn.tick - s.pwr.phaseSince).toNat ≤ phaseBound s.pwr ph ∧ StartPhase.done ≠ s.pwr.phase) ∧
    (let s := starting .parallel
     s.pwr.phase = .parallel ∧ s.pwr.parDone.1 = false ∧ s.pwr.parDone.2.1 = false ∧ (1 : BitVec 24) ≠ 0 ∧ s.pwr.farRetried = false ∧
      (s.withPwr { s.pwr with farRetried := true }).pwr.farRetried = true ∧
      (getFn (setFn s (.hall 2) { state := .starting }) (.hall 2)).state = .starting) ∧
    (let s := (starting .parallel).withPwr { (starting .parallel).pwr with parDone := (true, true, false) }
     s.pwr.phase = .parallel ∧ s.pwr.parDone = (true, true, false) ∧ s.ports.toList.all portTrained = true) := by decide +kernel

theorem witness_BootIsVerifiedAndRuns_open (hl : norFails (starting .loader) (bootBank (starting .loader)) 0 = none)
    (hf : norFails (starting .firmware) (starting .firmware).sec.bootedB 1 = none ∧
      norFails (starting .firmware) (starting .firmware).sec.bootedB 2 = none) :
    (starting .loader).pwr.phase = .loader ∧ norFails (starting .loader) (bootBank (starting .loader)) 0 = none ∧
    (starting .firmware).pwr.phase = .firmware ∧ norFails (starting .firmware) (starting .firmware).sec.bootedB 1 = none ∧
    norFails (starting .firmware) (starting .firmware).sec.bootedB 2 = none := ⟨by decide, hl, by decide, hf.1, hf.2⟩

theorem witness_JtagReachesTheInstruments :
    (live.awn.on = true ∧ live.mbx.job = .noHello ∧ (running .idle []).mbx.job ≠ .noHello ∧ (0xFF : Byte) ∉ otherCodes) ∧
    (let s := live.withDbg { live.dbg with ir := .ijtag, segments := 3 }
     s.dbg.ir = .ijtag ∧ segmentPowered s 4 = true ∧ segmentLocked s 4 = true ∧ segmentLocked s 1 = false ∧ segmentPowered s 1 = true ∧
      segmentOpen s 0 = true ∧ (0x400000F : Nat) < 0x4000010 ∧ s.pwr.phase ≠ .recovery ∧
      (s.withPwr { s.pwr with phase := .recovery }).pwr.phase = .recovery ∧
      segmentOpen (s.withPwr { s.pwr with phase := .recovery }) 1 = true) := by decide +kernel

theorem witness_InputAndPinsDriveThePowerStates :
    (State.reset.awn.on = false ∧ State.reset.pwr.pwrEn = false ∧ (40000 : Nat) ≤ 40000) ∧ live.awn.on = true ∧
    (recovered live.pwr.leftHigh 46000 = true ∧ recovered (some false) 46500 = true ∧ recovered (some true) 59500 = true) ∧
    (let s := live.withPwr { live.pwr with state := .standby }
     s.awn.on = true ∧ recovered s.pwr.leftHigh 60000 = true ∧ s.pwr.pwrEn = true ∧ s.pwr.state = .standby ∧ s.pwr.inRange = true ∧
      s.pwr.state ≠ .shutdown) ∧
    (let s := live.withPwr { live.pwr with inRange := false }
     s.pwr.inRange = false ∧ railsOn s = true ∧ s.pwr.state ≠ .standby ∧ s.pwr.state ≠ .sleep ∧
      100000 ≤ (s.awn.tick - s.pwr.outSince).toNat ∧
      (s.awn.tick - (s.withPwr { s.pwr with outSince := 4900001 }).pwr.outSince).toNat < 100000) ∧
    (let s := live.withPwr { live.pwr with state := .shutdown, pwrEn := false }
     s.pwr.state = .shutdown ∧ s.pwr.pwrEn = false) ∧
    (live.withPwr { live.pwr with state := .latched }).pwr.state = .latched ∧ railsOn live = true ∧ live.pwr.pg = true ∧
    (live.withPwr { live.pwr with state := .sleep }).pwr.state = .sleep ∧ (live.pwr.state = .p0 ∧ workPresent live = false) ∧
    live.dbg.extest = false ∧ live.pwr.restTicks < 1000000 ∧ workPresent (inRun live) = true ∧
    (live.withPwr { live.pwr with state := .idle }).pwr.state = .idle := by decide +kernel

theorem witness_HeatCurrentAndCapsThrottle :
    (railsOn live = true ∧ (92000 : Nat) < 92001 ∧ (84999 : Nat) < 85000) ∧
    (swf 0 live.pwr.levels = true ∧ levelOf [100, 110, 118] (sget 0 live.pwr.levels (16 * 3 + 15)) 99 = sget 0 live.pwr.levels (16 * 3 + 15)) ∧
    (let s := inRun (live.withPwr { live.pwr with halls := live.pwr.halls.set 2 { limitGated := true } })
     (s.withPwr { s.pwr with gatedSince := some 4000000 }).pwr.gatedSince = some 4000000 ∧ s.step.run.isSome = true ∧
      s.pwr.gatedSince = none ∧ 1000000000 ≤ ((timed 1004000000 s).awn.tick - 4000000).toNat) ∧
    (sget {} live.mem.cellars 1023 = {} ∧ sget 0 live.pwr.levels (64 + 1023) = 0 ∧ (85 : Int) ≤ 94 ∧ (94 : Int) < 95) ∧
    (hostReaches live = true ∧ hostReaches State.reset = false ∧ ((999 : W32).extractLsb' 0 13).toNat < 1000 ∧
      1000 ≤ ((1000 : W32).extractLsb' 0 13).toNat ∧ ((4000 : W32).extractLsb' 0 13).toNat ≤ 4000 ∧
      4000 < ((4001 : W32).extractLsb' 0 13).toNat ∧ (1000 : W32).extractLsb' 0 13 ≠ live.pwr.cap ∧
      1 < ((0x200 : W32).extractLsb' 8 3).toNat ∧ ((0x100 : W32).extractLsb' 8 3).toNat ≤ 1) ∧
    (let s := live.withAwn { live.awn with tick := 250000000 }
     s.pwr.phase = .done ∧ s.tal.closes.toNat ≤ s.awn.tick.toNat ∧ s.tal.ring.length < 64 ∧ 0 < s.tal.window.toNat ∧
      s.tal.closes.toNat + s.tal.window.toNat < 2 ^ 64 ∧ live.awn.tick.toNat < live.tal.closes.toNat) ∧
    (let r : WindowRec := { opened := 0, halls := [], energyMj := 0, peakW := 0, hallC := 0, cellarC := 0, leastAclk := 0, lost := 0 }
     (live.withTal { live.tal with ring := List.replicate 64 r }).tal.ring.length = 64) := by decide +kernel

theorem witness_HostLinkComesUpAndGoesDown :
    exchangeOn live = true ∧ (live.withBus { live.bus with trainArmed := true }).bus.trainArmed = true ∧
    (8 ∈ [1, 2, 4, 8] ∧ 32 ∈ [32, 64]) ∧ ¬ (16 ∈ [1, 2, 4, 8] ∧ 64 ∈ [32, 64]) ∧
    (let s := live.withBus { live.bus with linkUp := false }
     s.bus.linkUp = false ∧ s.bus.perst = false ∧ s.pwr.pg = true) ∧ hostReaches live = true := by decide +kernel

theorem witness_RegisterPairsReadAndCommitTogether :
    live.bus.linkUp = true ∧ (0x40010 : BitVec 21).toNat < 0x100000 ∧ 0x100000 ≤ (0x100000 : BitVec 21).toNat ∧ pairValue live (0x20000 : BitVec 21).toNat = some 5000000 ∧
    pairValue live (0x40010 : BitVec 21).toNat = some 0x0EE6B280 ∧ pairValue live (0x2C : BitVec 21).toNat = none ∧ ((1 : W32) ++ (0 : W32) ≠ (0 : W64)) ∧
    8 ≤ (8 : Fin 16).val ∧ 8 ≤ (15 : Fin 16).val ∧ (7 : Fin 16).val < 8 ∧ (live.awn.cmps[(8 : Fin 16)]).enable = false := by decide +kernel

theorem witness_RegisterWritesHaveTheirEffects :
    live.bus.linkUp = true ∧ 8 ≤ (15 : Fin 16).val ∧ (0x101 : W32).getLsbD 0 = true ∧ (live.awn.cmps[(15 : Fin 16)]).enable = false ∧
    live.tal.snapBusy = false ∧ (live.withTal { live.tal with snapBusy := true }).tal.snapBusy = true ∧ (0 : W32).getLsbD 0 = false ∧
    signalOk ((0x13FF : W32).extractLsb' 0 16) = true ∧ signalOk ((0x1400 : W32).extractLsb' 0 16) = false ∧
    (live.dbg.probeEn = false ∧ (live.withDbg { live.dbg with probeEn := true, locked := true }).dbg.locked = true) := by decide +kernel

/-- A live module whose comparator n is as given. -/
def withCmp (n : Fin 16) (c : Cmp) : State := live.withAwn { live.awn with cmps := live.awn.cmps.set n c }

theorem witness_ComparatorsFireOnTheirGrid :
    (let s := withCmp 9 { target := 5000000, period := 1000, enable := true }
     s.awn.on = true ∧ (s.awn.cmps[(9 : Fin 16)]).enable = true ∧ (s.awn.cmps[(9 : Fin 16)]).quiet = false ∧
      (s.awn.cmps[(9 : Fin 16)]).target.toNat ≤ s.awn.tick.toNat ∧ (s.awn.cmps[(9 : Fin 16)]).lateDue = false ∧ 1000 ≤ (s.awn.cmps[(9 : Fin 16)]).period.toNat ∧
      s.awn.tick.toNat + (s.awn.cmps[(9 : Fin 16)]).period.toNat < 2 ^ 64) ∧
    (let s := withCmp 0 { target := 5000000, enable := true }
     s.awn.on = true ∧ (s.awn.cmps[(0 : Fin 16)]).enable = true ∧ (s.awn.cmps[(0 : Fin 16)]).quiet = false ∧
      (s.awn.cmps[(0 : Fin 16)]).target.toNat ≤ s.awn.tick.toNat ∧ (s.awn.cmps[(0 : Fin 16)]).period = 0) ∧
    (let s := withCmp 9 { target := 5000001, enable := true }
     s.awn.tick.toNat < (s.awn.cmps[(9 : Fin 16)]).target.toNat ∧ (s.awn.cmps[(9 : Fin 16)]).lateDue = false) ∧
    (let s := withCmp 0 { target := 5000000, period := 1000, enable := true, lateDue := true, armedAt := 4999999 }
     s.awn.on = true ∧ (s.awn.cmps[(0 : Fin 16)]).enable = true ∧ (s.awn.cmps[(0 : Fin 16)]).quiet = false ∧
      (s.awn.cmps[(0 : Fin 16)]).target.toNat ≤ s.awn.tick.toNat ∧ (s.awn.cmps[(0 : Fin 16)]).lateDue = true ∧
      s.awn.tick ≠ (s.awn.cmps[(0 : Fin 16)]).armedAt) ∧
    (let s := withCmp 0 { target := 5000000, enable := true, lateDue := true, armedAt := 5000000 }
     (s.awn.cmps[(0 : Fin 16)]).lateDue = true ∧ s.awn.tick = (s.awn.cmps[(0 : Fin 16)]).armedAt) ∧
    (live.awn.cmps[(9 : Fin 16)]).enable = false ∧ ((withCmp 9 { quiet := true }).awn.cmps[(9 : Fin 16)]).quiet = true ∧
    live.bus.linkUp = true ∧ (1 : W32).getLsbD 0 = true ∧ (1000 : W64).extractLsb' 0 32 = (1000 : W32) ∧
    ((999 : W64).extractLsb' 0 32) ≠ (0 : W32) ∧ ((999 : W64).extractLsb' 0 32 : W32).toNat < 1000 := by decide +kernel

/-- A TIME flit of a root with a smaller id, 6 ms into its time, with its CRC or the complement of it. -/
def timeA (hops : W16) (ok : Bool) : TimeFlit :=
  let f : TimeFlit := { tx := 1280000000, echoTx := 1280000000, echoRx := 1280000000, rootId := 1, hops := hops, tstate := 2, crc := 0 }
  let c := crc32c (flitBody (linkFlit .time (timeBytes f) 0))
  { f with crc := if ok then c else ~~~c }

/-- A command answers a next state, which meets p. -/
theorem exec_meets {i : Instr} {s : State} {p : State → Prop} [∀ t, Decidable (p t)]
    (q : (match exec i s with | .next t => decide (p t) | _ => false) = true) : ∃ t, exec i s = .next t ∧ p t := by
  split at q
  · next t h => exact ⟨t, h, of_decide_eq_true q⟩
  · cases q

theorem witness_FabricTimeFollowsItsTree :
    (live.awn.on = true ∧ portLive (getPort live .px) = true ∧ timeOk (timeA 63 false) = false ∧ timeOk (timeA 63 true) = true) ∧
    (let s := live.withAwn { live.awn with parent := some .px, isRoot := false }
     s.awn.parent = some .px ∧ s.awn.adverts = [] ∧ (timeA 63 true).rootId.toNat < (ownRootId s).toNat ∧ (timeA 63 true).hops.toNat < 64 ∧
      (timeA 63 true).echoTx ≠ 0 ∧ s.awn.tstate = .synced ∧
      (thetaOf (timeA 63 true).echoTx (timeA 63 true).echoRx (timeA 63 true).tx 1280051200 (getPort s .px).alpha).natAbs ≤ 25600) ∧
    (let a : Advert := { rootId := 1, hops := 2, heard := 4000000 }
     let s := live.withAwn { live.awn with parent := some .px, adverts := [((portIx .px).val, a)] }
     s.awn.parent = some .px ∧ s.awn.adverts = [((portIx .px).val, a)] ∧ 1000000 ≤ (s.awn.tick - a.heard).toNat ∧
      s.awn.rackOk = true ∧ s.awn.tstate = .synced) ∧
    (let s := live.withAwn { live.awn with lastEdge := some 4999001 }
     s.awn.on = true ∧ s.awn.lastEdge = some 4999001 ∧ (s.awn.tick - 4999001).toNat < 1000) ∧
    (let s := live.withAwn { live.awn with lastEdge := some 4999000 }
     (∀ e, s.awn.lastEdge = some e → 1000 ≤ (s.awn.tick - e).toNat) ∧ s.awn.syncArm = false) ∧
    (let s := live.withAwn { live.awn with syncArm := true }
     s.awn.lastEdge = none ∧ s.awn.syncArm = true ∧ s.awn.armTick ≠ some s.awn.tick ∧ s.awn.syncPrev = none ∧ s.awn.isRoot = true ∧
      jobIsOpen s = false ∧ jobIsOpen (s.withMbx { s.mbx with job := .opened }) = true) ∧
    (let a : Advert := { rootId := 1, hops := 2, heard := 4000000 }
     let s := live.withAwn { live.awn with adverts := [((portIx .px).val, a), ((portIx .nx).val, a)], armTick := some live.awn.tick }
     (∃ a ∈ s.awn.adverts, a.1 = (portIx .px).val ∧ 1000000 ≤ (s.awn.tick - a.2.heard).toNat) ∧ s.awn.armTick = some s.awn.tick ∧
      (∃ t, exec (.timeFlit .px (timeA 63 true) 1280051200) s = .next t ∧ t.awn.parent = some .nx ∧ t.awn.isRoot = false) ∧
      (∃ t, exec (.timeFlit .px (timeA 64 true) 1280051200) live = .next t ∧ t.awn.parent = none ∧ t.awn.isRoot = true) ∧
      (live.withAwn { live.awn with tstate := .holdover }).awn.tstate = .holdover) := by
  refine ⟨by decide +kernel, by decide +kernel, by decide +kernel, by decide +kernel, ⟨?_, by decide⟩, by decide +kernel,
    ⟨_, .head _, by decide +kernel⟩, by decide +kernel, exec_meets (by decide +kernel), exec_meets (by decide +kernel), by decide +kernel⟩
  intro e h
  have : e = 4999000 := (Option.some.inj h).symm
  subst this; decide

/-- A live module with coordinates on a ring of four. -/
def placed : State := live.withSlice { coords := some (0, 0, 0), lens := (4, 1, 1), sliceId := some 7, extent := (4, 1, 1) }

/-- The neighbour's IDENT on port +x. -/
def identA (x : Nat) : Ident :=
  { x := x, y := 0, z := 0, lx := 4, ly := 1, lz := 1, port := 1, assigned := true, sliceId := 7, serial := 0, reach := 1,
    crc := crc32c (flitBody (linkFlit .ident (identBytes x 0 0 4 1 1 1 true 7 0 1) 0)) }

theorem witness_LinksTrainAndVerify :
    (let s := setPort live .px { state := .down }
     (getPort s .px).state = .down ∧ 4 ≤ 4 ∧ 3 < 4 ∧ 1000000000 ≤ ((timed 1000000000 s).awn.tick - (getPort s .px).detectAt).toNat ∧
      (s.awn.tick - (getPort s .px).detectAt).toNat < 10000000 ∧ 10000000 ≤ ((timed 10000000 s).awn.tick - (getPort s .px).detectAt).toNat) ∧
    (∀ ph ∈ [TrainPhase.detect, .probe, .equalise, .lock, .flitSync],
      (getPort (setPort live .px { state := .training, phase := ph }) .px).state = .training ∧
      (getPort (setPort live .px { state := .training, phase := ph }) .px).phase = ph) ∧
    (identOk (identA 1) = true ∧ identOk (identA 2) = true ∧ identOk { identA 1 with crc := 0 } = false) ∧
    (portLive (getPort placed .px) = true ∧ placed.slice.coords.isSome = true ∧ (identA 1).assigned = true ∧
      ((identA 1).lx, (identA 1).ly, (identA 1).lz) = placed.slice.lens ∧ farCoords placed .px = some (1, 0, 0) ∧
      identFits placed .px (identA 2) = false ∧ (getPort placed .px).state ≠ .miswired ∧ live.slice.coords = none ∧
      portLive (getPort State.reset .px) = false) := by decide +kernel

/-- A data flit of a sequence number with its CRC. -/
def flitA (seq : W16) : Flit :=
  let f : Flit := { payload := [], seq := seq, ftype := .solo, vc := .bulkT0, kindHigh := 0, byte59 := 0, crc := 0 }
  { f with crc := crc32c (flitBody f) }

theorem witness_DataFlitsArriveOnceAndInOrder :
    (let t := getPort live .px
     t.state = .up ∧ t.nak = none ∧ flitOk (flitA 0) = true ∧ isData (flitA 0) = true ∧ (flitA 0).seq = t.expected ∧
      1 ≤ (t.expected - (flitA 0xFFFF).seq).toNat ∧ flitOk (flitA 0xFFFF) = true ∧ (t.expected - (flitA 0x8000).seq).toNat ≤ 32768 ∧
      32768 < (t.expected - (flitA 0x7FFF).seq).toNat ∧ flitOk { flitA 0 with crc := 0 } = false) ∧
    (let s := setPort live .px { state := .up, nak := some (0, 4998001), unacked := 31 }
     (getPort s .px).nak = some ((getPort s .px).expected, 4998001) ∧ (s.awn.tick - 4998001).toNat < 2000 ∧
      2000 ≤ (s.awn.tick - 4998000).toNat ∧ 32 ≤ (getPort s .px).unacked + 1) ∧
    (getPort (setPort live .px { state := .down }) .px).state ≠ .up := by decide +kernel

/-- A held flit sent at a tick a number of times. -/
def heldA (at' : W64) (n : Nat) : HeldFlit := { flit := flitA 0, sentAt := at', sends := n }

/-- A CONTROL flit with its CRC. -/
def controlA (nak : Bool) : ControlFlit :=
  { ackSeq := 0, nak := nak, freed := [1, 0, 0, 0], crc := crc32c (flitBody (linkFlit .control (controlBytes 0 nak [1, 0, 0, 0]) 0)) }

theorem witness_AcknowledgementsAndRetrainsKeepTheLink :
    (controlOk (controlA false) = true ∧ (controlA false).nak = false ∧ controlOk (controlA true) = true ∧ (controlA true).nak = true ∧
      controlOk { controlA true with crc := 0 } = false) ∧
    portLive (getPort live .px) = true ∧ (getPort live .px).waiting = [] ∧
    (let s := setPort live .px { state := .up, width := 16, replay := [heldA 4996000 15] }
     (getPort s .px).state = .up ∧ (getPort s .px).replay = heldA 4996000 15 :: [] ∧ 4000 ≤ (s.awn.tick - (heldA 4996000 15).sentAt).toNat ∧
      (heldA 4996000 15).sends < 16 ∧ 16 ≤ (heldA 4996000 16).sends) ∧
    (overBudget [(42500, 16)] &&& ~~~(getPort live .px).dropped = 0 ∧ overBudget [(42501, 0)] &&& ~~~(getPort live .px).dropped ≠ 0 ∧
      (getPort live .px).dropped = 0) ∧
    (let s := setPort placed .px { state := .retrain, farIdent := some (identA 1), dropped := 1 }
     (getPort s .px).state = .retrain ∧ (getPort s .px).farIdent = some (identA 1) ∧ (identA 1).assigned = true ∧
      s.slice.coords.isSome = true ∧ identFits s .px (identA 1) = true ∧ (getPort s .px).waiting = [] ∧ widthOf ((getPort s .px).dropped ||| 0) ≠ 0 ∧
      widthOf ((getPort s .px).dropped ||| 0x1110) = 0 ∧ (getPort s .px).retried = false ∧
      widthOf (((getPort s .px).dropped ||| 2) ||| (getPort s .px).farDropped) ≠ 0 ∧
      (getPort (setPort placed .px { state := .retrain, retried := true }) .px).retried = true) := by decide +kernel

/-- A packet to a module of the ring. -/
def packetA (x : Nat) : Packet :=
  { destX := x, destY := 0, destZ := 0, cls := 0, sliceId := 7, src := 0, bytes := 64, flits := 2, reservedOk := true, stream := 0,
    vc := .bulkT0, payload := [] }

/-- A placed module whose port -x has accepted a packet. -/
def accepted (pkt : Packet) : State :=
  setPort placed .nx { state := .up, width := 16, rx := (List.range pkt.flits).map (packetFlit pkt pkt.vc 0) }

theorem witness_PacketsGoInDimensionOrder :
    (atInput placed .nx (packetA 2) = false ∧ atInput (accepted (packetA 2)) .nx (packetA 2) = true ∧
      badPacket (accepted (packetA 2)) (packetA 2) = false ∧ routeHop (accepted (packetA 2)) (packetA 2) = some (.px, false) ∧
      (let s := setPort (accepted (packetA 2)) .px { state := .retrain }
       (some Port.nx).all (atInput s · (packetA 2)) = true ∧ (getPort s .px).waiting = [] ∧ outputOpen s .px = false) ∧
      (let p := { packetA 0 with sliceId := 8 }
       atInput (accepted p) .nx p = true ∧ badPacket (accepted p) p = true)) ∧
    (badPacket placed (packetA 0) = false ∧ routeHop placed (packetA 0) = none) ∧
    (let s := setPort placed .px { state := .up, width := 16, farIdent := some (identA 1) }
     badPacket s (packetA 2) = false ∧ routeHop s (packetA 2) = some (.px, false) ∧ outputOpen s .px = true ∧ (getPort s .px).waiting = [] ∧
      (packetA 2).flits ≤ (getPort s .px).credits[vcIx (outVc none (packetA 2) .px false)] ∧
      (getPort s .px).replay.length + (packetA 2).flits ≤ 8192) ∧
    (let s := setPort placed .px { state := .retrain, width := 16, farIdent := some (identA 1) }
     badPacket s (packetA 2) = false ∧ routeHop s (packetA 2) = some (.px, false) ∧ (getPort s .px).waiting = [] ∧ outputOpen s .px = false) ∧
    (let w : List (Option Port × Packet) := [(none, packetA 2), (some .nx, { packetA 2 with cls := 4 })]
     let s := setPort placed .px { state := .up, width := 16, farIdent := some (identA 1), waiting := w }
     nextServed s .px = some (some .nx, { packetA 2 with cls := 4 }) ∧
      (∀ y ∈ w, leadsInput (getPort s .px) y = true ∧ outputTakes s .px y = true)) ∧
    badPacket placed { packetA 0 with sliceId := 8 } = true ∧
    (placed.slice.coords = some (0, 0, 0) ∧ 0 ≠ (packetA 2).destX ∧ placed.slice.extent.1 = placed.slice.lens.1) ∧
    (0 = ({ packetA 0 with destY := 1 } : Packet).destX ∧ 0 ≠ ({ packetA 0 with destY := 1 } : Packet).destY) := by decide +kernel

theorem witness_CxlWindowLinesReadBack :
    live.bus.linkUp = true ∧ Memory.wf live.mem.far = true ∧ (List.replicate 64 (1 : Byte)).length = 64 := by decide

theorem witness_CxlAndFarTierReadsReportTheirErrors :
    live.bus.linkUp = true ∧ (0xFFFF : W16) ∉ cxlServed ∧ 0x18000000000 ≤ 0x18000000000 ∧ 0x17FFFFFFFFF < 0x18000000000 ∧
    live.pwr.pg = true ∧ live.step.run = none ∧ bankBusy live (cellarOfLine live.mem.nearScrub) (64 * (live.mem.nearScrub % 8388608)) = false ∧
    (let f : AisleFlit := { src := 5, dst := 0, vc := .vc1, load := .cellar 0 0 false }
     bankBusy (setStall live 0 { arrived := [f] }) (cellarOfLine live.mem.nearScrub) (64 * (live.mem.nearScrub % 8388608)) = true) := by
  decide +kernel

theorem witness_CellarTransfersMoveSixtyFourBytes :
    let x : CellarXfer := { requester := 1023, addr := 0x1FFFFFC0, write := some (List.replicate 64 1), crcFails := 3, ecc := .clean, holds := none }
    let r : CellarXfer := { x with write := none, ecc := .uncorrectable }
    fnOn live (.hall (hallOf 1023)) = true ∧ cellarStopped live 1023 = false ∧ x.crcFails < 4 ∧ x.write = some (List.replicate 64 1) ∧
    (List.replicate 64 (1 : Byte)).length = 64 ∧ Memory.wf live.mem.near = true ∧ r.write = none ∧ r.ecc = .uncorrectable ∧
    live.step.run = none ∧ r.holds = none ∧ ({ r with ecc := .clean } : CellarXfer).ecc = .clean ∧
    (sget {} live.saf.cellars (1023 : Fin 1024).val).state = .inService ∧ 4 ≤ ({ x with crcFails := 4 } : CellarXfer).crcFails ∧
    x.write.isSome = true ∧ cellarServes live 1023 x = true ∧ cellarServes live 1023 r = true ∧
    cellarServes live 1023 { x with crcFails := 4 } = true ∧
    (let f : AisleFlit := cellarRequest 1023 { x with requester := 5 }
     let s := setStall live 1023 { arrived := [f] }
     let t := s.withMem { s.mem with cellars := [(1023, { ownerLast := true })] }
     let u := s.withMem { s.mem with cellars := [(1023, { ownerWaits := true })] }
     cellarServes s 1023 { x with requester := 5 } = true ∧ cellarServes t 1023 x = false ∧ (firstRemote t 1023).isSome = true ∧
      (sget {} t.mem.cellars (1023 : Fin 1024).val).ownerLast = true ∧ cellarServes u 1023 { x with requester := 5 } = false ∧
      (sget {} u.mem.cellars (1023 : Fin 1024).val).ownerLast = false ∧ (sget {} u.mem.cellars (1023 : Fin 1024).val).ownerWaits = true ∧
      firstRemote live 1023 = none) := by decide +kernel

/-- A collective entry over the slice. -/
def entryA (op : Nat) (flags : Byte) : CollEntry :=
  { group := .slice, window := 64, op := op, flags := flags, wfmt := 0, rfmt := 0, root := 0, members := 2, count := 16384, d := 1000,
    shape := [16384, 1, 1, 1], tensor := 99, eval := none, reservedOk := true }

/-- A contribution header of a member. -/
def headerA (member : Nat) (digest : W64) (attempt : Byte) (root : Nat) : CHeader :=
  { seq := 1, member := member, digest := digest, stepTag := 1, carried := false, attempt := attempt, op := 2, flags := 0, wfmt := 0,
    rfmt := 0, root := root, members := 2, count := 16384, d := 1000, shape := [16384, 1, 1, 1], tensor := 99 }

/-- An open collective. -/
def collA : Coll := { seq := 1, entry := 0, own := headerA 0 9 0 0 }

/-- The caller of a slice of two in a run of a program with one collective. -/
def house (op : Nat) (flags : Byte) (c : Coll) : State :=
  let s := pair (inRun (live.withLoad { prog := some { progA with collectives := [entryA op flags] } }))
  s.withHouse { s.house with colls := [c] }

theorem witness_CallersTakeHeadersAndClose :
    (let s := house 2 0 collA
     let h := headerA 1 9 0 0
     findColl s h.seq = some collA ∧ collA.seq = h.seq ∧ isCaller s collA = true ∧ h.attempt = s.step.attempt ∧
      (collA.taken.any (fun t => decide (t.1 = h.member) && decide (t.2.1 = h.carried))) = false ∧ h.seq ∉ s.house.completed ∧
      h.digest = collA.own.digest ∧ collA.roll = none ∧ isLate s collA = false ∧ h.carried = false ∧
      (collA.taken.filter (fun t => !t.2.1)).length + 1 < collSize s collA ∧ (headerA 1 9 1 0).attempt ≠ s.step.attempt ∧
      (headerA 1 8 0 1).digest ≠ collA.own.digest ∧ headerDiff collA.own (headerA 1 8 0 1) = some 0x14) ∧
    (let c := { collA with taken := [(1, false, 1, 4999000)] }
     findColl (house 2 0 c) 1 = some c ∧ (1, false) ∈ c.taken.map (fun t => (t.1, t.2.1))) ∧
    ((house 2 0 collA).step.run = some runA ∧ runA.cmd = some k0 ∧ runA.eval = false ∧ live.step.run = none) ∧
    (let c := { collA with openAt := some 4999000 }
     let s := house 2 8 c
     findColl s c.seq = some c ∧ isCaller s c = true ∧ policyOf s c ≠ 0 ∧ c.roll = none ∧ c.openAt = some 4999000 ∧
      (collEntry s c).d ≠ 0 ∧ (4999000 : W64).toNat + (collEntry s c).d ≤ s.awn.tick.toNat ∧ (collEntry s c).op ≠ 6) ∧
    (let c := { collA with openAt := some 4999001 }
     let s := house 2 8 c
     findColl s c.seq = some c ∧ s.awn.tick.toNat < (4999001 : W64).toNat + (collEntry s c).d) ∧
    (let s := house 2 0 collA
     let r : RollMsg := { seq := 1, attempt := 0, mask := [0, 1], carried := [] }
     findColl s r.seq = some collA ∧ r.attempt = s.step.attempt ∧ policyOf s collA = 0 ∧ (collEntry s collA).op ≠ 5 ∧
      ({ r with attempt := 1 } : RollMsg).attempt ≠ s.step.attempt) ∧
    (findColl (house 6 0 collA) 1 = some collA ∧ (collEntry (house 6 0 collA) collA).op = 6 ∧ collA.complete = false) ∧
    (let s := house 2 0 collA
     collA.entry ≠ normInst s ∧ isGradient s collA = false ∧ (collEntry s collA).op = 2 ∧
      2 ≤ chunkCount (collEntry s collA) (collSize s collA) (collSelf s collA) ∧ collA.results = []) := by decide +kernel

theorem witness_ChunksTakeLeasesAndAreAdded :
    (let s := house 2 0 collA
     let m : ChunkMsg := { seq := 1, attempt := 0, shard := 0, chunk := 0, level := 0, index := 1, values := [] }
     findColl s m.seq = some collA ∧ m.attempt = s.step.attempt ∧ collA.complete = false ∧ m.index ≠ collSelf s collA ∧
      ({ m with attempt := 1 } : ChunkMsg).attempt ≠ s.step.attempt) ∧
    (let c := { collA with lease := some false, requested := 3000000 }
     let s := house 2 0 c
     s.house.colls.find? (fun c => c.lease = some false) = some c ∧ s.house.leased + windowOf (collEntry s c) ≤ 3072 ∧
      3072 < (s.withHouse { s.house with leased := 3009 }).house.leased + windowOf (collEntry s c) ∧
      findColl s 1 = some c ∧ c.lease = some false ∧ c.requested.toNat + s.job.slotWait.toNat ≤ s.awn.tick.toNat ∧
      s.awn.tick.toNat < (3000001 : W64).toNat + s.job.slotWait.toNat ∧ houseOff s = false ∧
      houseOff (s.withFns (Vector.replicate 14 {})) = true) ∧
    (let c := { collA with lease := some false, requested := 3000001 }
     let s := house 2 0 c
     s.house.colls.find? (fun c => c.lease = some false) = some c ∧ findColl s 1 = some c ∧
      s.awn.tick.toNat < c.requested.toNat + s.job.slotWait.toNat ∧ s.house.leased + windowOf (collEntry s c) ≤ 3072) ∧
    (let m : ReleasedMsg := { seq := 1, attempt := 0, shard := 0, chunk := 0, last := true, values := [], record := {}, carried := 1 }
     findColl (house 2 0 collA) m.seq = some collA ∧ m.attempt = (house 2 0 collA).step.attempt ∧ collA.complete = false ∧
      m.last = true ∧ receivedSeal (house 2 0 collA) collA m ≠ m.carried ∧
      (let n := { m with carried := receivedSeal (house 2 0 collA) collA m }
       receivedSeal (house 2 0 collA) collA n = n.carried)) := by decide +kernel

theorem witness_CascadesSumAsTheTree :
    ([[1], [2]] : List (List W32)) ≠ [] ∧ (∀ t ∈ ([[1], [2]] : List (List W32)), t.length = 1) ∧
    (∀ b ∈ ([[1, 2], [3, 4], [5, 6]] : List (List W32)), b.length = 2 ^ 1) := by decide

/-- A Verb header of two instructions with a parameter, draws and a region output. -/
def verbA : VerbHeader :=
  { instrs := [0, 0], consts := [0x3F800000], ins := [], outs := [some 0, some 0], draws := [some 5], slots := [some .sum, some .nfc], pDecision := [] }

/-- The start of a span of one element on buffer 2. -/
def initA : SpanInit :=
  { verb := 0, rows := 1, cols := 1, rowBase := 0, colBase := 0, rowLen := 1, accs := [2], outTids := [1], queues := [], first := true,
    last := false, elems := 4 }

/-- A span at its first instruction. -/
def spanA : Span :=
  { init := initA, header := verbA, regs := [Vector.replicate 32 1], params := [], decoded := [], drawBase := [], pc := 0 }

/-- Stall 1023 in that span. -/
def verbS : State := setStall live 1023 { span := some spanA }

/-- The span whose verb's first word is w. -/
def spanW (w : W64) : Span := { spanA with header := { verbA with instrs := [w, 0] } }

theorem spanW_runs (w : W64) : runsNext (spanW w) w = true := by simp [runsNext, spanW, spanA]

theorem witness_VerbInstructionsWriteTheirResults (w : W64) :
    (getStall (setStall live 1023 { span := some (spanW w) }) 1023).span = some (spanW w) ∧ runsNext (spanW w) w = true ∧
    operandsWait verbS (getStall verbS 1023) spanA [0, 56, 42] = none ∧ (spanW w).pc + 1 < (spanW w).header.instrs.length ∧
    spanA.header.draws.getD 0 none = some 5 := ⟨rfl, spanW_runs w, by decide +kernel, Nat.lt_add_one 1, by decide⟩

theorem witness_VerbInstructionsWaitForTheirOperands (w : W64) :
    (runsNext (spanW w) w = true ∧ operandsWait verbS (getStall verbS 1023) spanA [0, 40] = some 1 ∧
      operandsWait verbS (getStall verbS 1023) spanA [48] = some 1 ∧ (∀ sp, (getStall live 1023).span = some sp → runsNext sp w = false)) ∧
    ((48 : BitVec 6).toNat = 48 + (0 : Fin 8).val ∧ (55 : BitVec 6).toNat = 48 + (7 : Fin 8).val ∧
      (40 : BitVec 6).toNat = 40 + (0 : Fin 2).val ∧ spanA.init.accs[0]? = some 2) ∧
    (let s := live.withLoad { prog := some { progA with verbs := [verbA] } }
     (getStall s 0).span = none ∧ ({ progA with verbs := [verbA] } : Program).verbs[initA.verb]? = some verbA ∧ spanOk s 0 verbA initA = true ∧
      clauseChosen s (getStall s 0).ctx = some true ∧ clauseRing s (getStall s 0).ctx = none ∧ countsAwaited s (getStall s 0).ctx = false ∧
      copyAwaited s (getStall s 0).ctx = false ∧ heldBack s (getStall s 0).ctx = false) :=
  ⟨⟨spanW_runs w, by decide +kernel, by decide +kernel, fun sp h => nomatch h⟩, by decide, by decide +kernel⟩

theorem witness_PutAndSummFeedOutputsAndSlots (w : W64) :
    runsNext (spanW w) w = true ∧
    (let st := getStall verbS 1023
     operandsWait verbS st spanA [0] = none ∧ spanA.pc + 1 < spanA.header.instrs.length ∧ spanA.header.outs.getD 0 none = some 0 ∧
      sdQueue 0 = false ∧ spanA.header.slots.getD 0 none = some .sum ∧ shadowWaits verbS 1 = false ∧
      (putWrite 0 1023 spanA (openWrite verbS 1 none) (remainderConvs verbS 1 spanA (putConvs verbS 0 (openWrite verbS 1 none) spanA [1]).1)
        (putConvs verbS 0 (openWrite verbS 1 none) spanA [1]).2).codes.length < heldElems verbS 1 spanA.init.elems) ∧
    (∃ w : W128, sdQueue w = true ∧ hasCredits (sget {} [(0, ({ credits := [(3, 0)] } : OutStream))] (outQueue spanA 0)) 1 = false) ∧
    shadowWaits ((loaded live).withSnap { live.snap with draining := some 4 }) 1 = true ∧
    (let s := live.withLoad { prog := some { progA with verbs := [verbA] } }
     slotKind s 0 0 = some .sum ∧ slotKind s 0 1 = some .nfc ∧ s.job.partials = [] ∧ 2 ≤ 2 ∧ 0 < 1) ∧
    (let d : Decision := { source := .summary 0 0, writes := [], test := none, thenList := [], elseList := [] }
     let p : Program := { progA with verbs := [verbA], decisions := [d] }
     let s := (live.withLoad { prog := some p }).withJob { live.job with summaries := [((0, 0), 1)] }
     s.load.prog = some p ∧ p.decisions[0]? = some d ∧ s.job.decided.any (fun q => decide (q.1 = 0)) = false ∧
      decisionValue s d = some (1, none) ∧ d.writes = [] ∧ d.source ≠ .nfflag ∧ s.ledger.counted = false) :=
  ⟨spanW_runs w, by decide +kernel, ⟨0x800000, by decide +kernel, by decide +kernel⟩, by decide +kernel, by decide +kernel, by decide +kernel⟩

theorem witness_PutKeepsTheOtherBytesOfTheStore :
    (let convs := (putConvs verbS 0 (openWrite verbS 1 none) spanA [1]).1
     let scales := (putConvs verbS 0 (openWrite verbS 1 none) spanA [1]).2
     convs.length = 1 ∧ (∀ e, e < 1 →
      8 * 8 + 8 ≤ sdBase 0 * 8 + fmtBits (sdFmt 0) * ((spanRow spanA e : Int) * sdStrideRow 0 + (spanCol spanA e : Int) * sdStrideCol 0).toNat ∨
      sdBase 0 * 8 + fmtBits (sdFmt 0) * ((spanRow spanA e : Int) * sdStrideRow 0 + (spanCol spanA e : Int) * sdStrideCol 0).toNat +
        fmtBits (sdFmt 0) ≤ 8 * 8) ∧ scales = []) := by decide +kernel

/-- A block pass of one row into buffer 3. -/
def passA (last : Bool) : BlockPass :=
  { a := { fmt := .bf16, mx := false }, b := { fmt := .bf16, mx := false }, weights := [], wScales := [], rows := [[0]], rScales := [],
    bufs := [3], last := last, chain := none }

theorem witness_AccumulatorBuffersFollowTheirStates :
    (((getStall live 1023).bufs[(3 : Fin 4)]).state = .free ∧ preloadOk live 1023 = true ∧
      (∀ st ∈ [BufState.preload, .accumulate, .drain],
        ((getStall (setStall live 1023 { bufs := (Vector.replicate 4 {}).set 3 { state := st } }) 1023).bufs[(3 : Fin 4)]).state = st)) ∧
    (streamLacks (getStall live 1023) 4 (fmtBits .bf16 * 1) = true ∧
      streamLacks { ins := [(4, { taken := [1, 2] })] } 4 (fmtBits .bf16 * 1) = false ∧
      ({ src := .cellar } : Buf).src = .cellar ∧ ({ src := .stream 4 } : Buf).src = .stream 4) ∧
    (∀ last, 1 ≤ (passA last).rows.length ∧ (passA last).rows.length ≤ 64 ∧ (passA last).chain = none ∧ (passA last).bufs = [3] ∧
      (passA last).last = last ∧ passOk live 1023 (passA last) = true ∧ halfRows live (passA last) = true ∧ (passA last).stream = none ∧
      expertAway live (passA last) = false) ∧
    (clauseChosen live (getStall live 1023).ctx = some true ∧ clauseRing live (getStall live 1023).ctx = none ∧
      gathers live (getStall live 1023).ctx = false ∧ outputWait (getStall live 1023) = none ∧
      ((getStall live 1023).bufs[(3 : Fin 4)]).only = false ∧ ((getStall live 1023).bufs[(3 : Fin 4)]).complete = false) ∧
    (let key : BatchKey := { layer := 0, micro := 0, half := false }
     expertAway (live.withLedger { live.ledger with fetches := [({ layer := 0, expert := 2 }, false)] })
      { passA true with batch := some (key, 2, 0) } = true) ∧
    (rowsAwaited live (passA true) = false ∧ (weightSections live (getStall live 1023).ctx (passA true)).any (unsound live) = false ∧
      tileOf live (getStall live 1023) (passData live 1023 (passA true)) 0 = none) ∧
    (let key : BatchKey := { layer := 0, micro := 0, half := false }
     let p : BlockPass := { passA true with batch := some (key, 2, 0) }
     let g : ClauseGemm := { a := p.a, b := p.b, preload := none, preloadOnly := false, hasProduct := true, splitK := 1, gradient := some 0 }
     let c : Clause := { gemm := some g, verb := none, drain := none, accAssigned := 0, inStreams := [], outStreams := [], outTensors := [],
                         thinBlocks := 0, halls := 1, stalls := 1 }
     let b : Batch := { key := key, fwd := { started := [(2, 0)], rows := [{ expert := 2, pass := 0, slot := 0, vec := [0] }] } }
     let s := (setStall live 1023 { contexts := [0] }).withLoad { prog := some { progA with clauses := [c] } }
     let t := s.withLedger { s.ledger with batches := [b] }
     let u := s.withLedger { s.ledger with batches := [{ key := key }] }
     passOk t 1023 p = true ∧ rowsAwaited t p = false ∧ rowsAwaited u p = true ∧ passOk u 1023 p = true ∧ expertAway t p = false ∧
      halfRows t p = true ∧ clauseChosen t (getStall t 1023).ctx = some true ∧ clauseRing t (getStall t 1023).ctx = none ∧
      gathers t (getStall t 1023).ctx = false ∧ outputWait (getStall t 1023) = none ∧
      (weightSections t (getStall t 1023).ctx p).any (unsound t) = false ∧
      tileOf t (getStall t 1023) (passData t 1023 p) 0 = some ({ layer := 0, expert := 2 }, 0)) ∧
    (cascadeUse { bufs := Vector.replicate 4 { cascade := (List.range 9).map (fun k => (8 - k, [])) } } (passA false) > 32) ∧
    (({ passA true with rows := List.replicate 257 [0] } : BlockPass).rows.length > 256 ∧
      ({ passA true with rows := List.replicate 65 [0] } : BlockPass).rows.length > 64 * ({ passA true with bufs := [3] } : BlockPass).bufs.length ∧
      ¬ ({ passA true with bufs := [3, 3] } : BlockPass).bufs.Nodup) ∧
    (let b : Buf := { state := .accumulate, complete := true, chain := some (1, 3) }
     let s := setStall live 1023 { bufs := (Vector.replicate 4 {}).set 3 b }
     (getStall s 1023).bufs[(3 : Fin 4)] = b ∧ b.chain = some (1, 3) ∧ b.complete = true ∧ b.state = .accumulate ∧ 0 < 1 ∧
      sget [] (getStall s 1023).sums (3 : Fin 4).val = [] ∧ 1 + 1 < 3 ∧ 1 + 1 = 2) :=
  by refine ⟨?_, ?_, ?_, ?_, ?_, ?_, ?_, ?_, ?_, ?_⟩ <;> decide +kernel

/-- An element of a tile of one. -/
def drainA : DrainElem :=
  { row := 0, col := 0, tileRows := 1, tileCols := 1, desc := { control := 0, scale := 0, bias := 0, clipLo := 0, clipHi := 0, scaleTid := 0, biasTid := 0 },
    tid := 1, rowBase := 0, rowLen := 1, elems := 4 }

/-- A flit of stream 4 as it arrives at its consumer. -/
def arrivedA (f : StreamFlit) : AisleFlit := { src := 0, dst := 1023, vc := .vc0, load := .stream 4 f }

theorem witness_DrainsAndStreamsMoveElements :
    (let b : Buf := { state := .drain, vals := [1] }
     let s := setStall live 1023 { bufs := (Vector.replicate 4 {}).set 3 b }
     (getStall s 1023).bufs[(3 : Fin 4)] = b ∧ drainOk s 1023 3 drainA = true ∧ shadowWaits s drainA.tid = false ∧
      dcMxOut drainA.desc.control = false ∧ drainA.tileRows * drainA.tileCols ≤ b.readSet.length + 1 ∧
      b.readSet.length + 1 < ({ drainA with tileRows := 2 } : DrainElem).tileRows * drainA.tileCols) ∧
    (let s := (setStall (loaded live) 1023 { bufs := (Vector.replicate 4 {}).set 3 { state := .drain } }).withSnap { live.snap with draining := some 4 }
     drainOk s 1023 3 drainA = true ∧ shadowWaits s drainA.tid = true) ∧
    (((getStall live 1023).bufs[(3 : Fin 4)]).state ≠ .drain ∧ 32 * drainA.row + drainA.col ∈ ({ readSet := [0] } : Buf).readSet ∧
      (∃ sp, (getStall verbS 1023).span = some sp ∧ 2 ∈ sp.init.accs)) ∧
    (let o : OutStream := { credits := [(7, 1)], q := 16 }
     let g : AisleFlit := { src := 7, dst := 1023, vc := .vc2, load := .credit 4 7 }
     let s := setStall live 1023 { outs := [(4, o)], contexts := [2], arrived := [g] }
     sget {} (getStall s 1023).outs 4 = o ∧ o.credits ≠ [] ∧ (∀ c ∈ o.credits, 1 ≤ c.2) ∧ o.backlog = [] ∧ (∃ c ∈ [((7 : Nat), (0 : Nat))], c.2 = 0) ∧
      o.credits = [(7, 1)] ∧ 1 ≤ o.q ∧ takeFlit (fun l => decide (l = .credit 4 7)) (getStall s 1023).arrived = some (g, []) ∧
      takeFlit (fun l => decide (l = .credit 4 7)) (getStall live 1023).arrived = none ∧
      underTest s (1023 : Fin 1024).val = false ∧ atBoundary s (getStall s 1023) = true ∧ 2 ∈ (getStall s 1023).contexts ∧
      nextContext s (getStall s 1023) 2 = true) ∧
    (let f : StreamFlit := { bytes := [], last := true, carried := 1, tid := 1, sec := 0 }
     let s := setStall live 1023 { ins := [(4, {})], arrived := [arrivedA f] }
     sget {} (getStall s 1023).ins 4 = {} ∧ takeFlit (isStream 4) (getStall s 1023).arrived = some (arrivedA f, []) ∧
      takeFlit (isStream 4) (getStall live 1023).arrived = none ∧ f.idx = ({} : InStream).got ∧ ({ f with idx := 1 } : StreamFlit).idx ≠ ({} : InStream).got ∧
      f.last = true ∧ f.carried ≠ streamSeal s f.tid (([] : Bytes) ++ f.bytes) (([] : Bytes) ++ f.scales) f.record ∧
      ({ f with last := false } : StreamFlit).last = false) := by decide +kernel

/-- A routing descriptor of two experts, one choice, capacity factor 1. -/
def routeA : W128 := 0x3F800000 ||| (2 : W128) <<< 32 ||| (1 : W128) <<< 48

/-- An expert layer with that descriptor. -/
def layerA : ExpertLayer :=
  { desc := routeA, bound := 8, width := 2, expertParams := 0, inFmt := { fmt := .bf16, mx := false }, outFmt := { fmt := .bf16, mx := false },
    bwdFmt := { fmt := .bf16, mx := false }, micros := 1, pending := 0, outLen := 1,
    outConv := { control := 0, scale := 0x3F800000, bias := 0, clipLo := 0, clipHi := 0, scaleTid := 0, biasTid := 0 },
    bwdConv := { control := 0, scale := 0x3F800000, bias := 0, clipLo := 0, clipHi := 0, scaleTid := 0, biasTid := 0 }, experts := [] }

/-- The routing batch of the layer. -/
def keyA : BatchKey := { layer := 0, micro := 0, half := false }

/-- A directory entry of an expert at a home. -/
def dirA (e home : Nat) : DirEntry :=
  { layer := 0, expert := e, home := home, state := .far, hot := false, loadedNear := false, ewma := 0, lastVisit := 0, replicas := [] }

/-- A module of a segment of n with the layer, a directory and a batch. -/
def route (n : Nat) (dir : List DirEntry) (b : Batch) : State :=
  let s := inRun (live.withLoad { prog := some { progA with layers := [layerA] }, plan := some { planA with q := n, d := 1 } })
  s.withLedger { s.ledger with dir := dir, batches := [b] }

theorem witness_ChosenExpertsRankBest :
    (1, (5 : W32)) ∈ chosen 1 [4, 5] ∧ ([4, 5] : List W32)[0]? = some 4 ∧ (0, (4 : W32)) ∉ chosen 1 [4, 5] := by decide +kernel

theorem witness_SelectionIsCountedAndGranted :
    (let b : Batch := { key := keyA }
     let s := route 2 [dirA 0 0, dirA 1 1] b
     layerOf s keyA.layer = some layerA ∧ batchOf s keyA = b ∧ b.counted = false ∧ ([0, 1] : List W32).length = rtE layerA.desc ∧
      ([0, 1] : List W32).any (fun x => isNan32 (gateScore layerA.desc x)) = false ∧ ([0, 1] : List W32) ≠ [] ∧ tokenFits s layerA keyA 7 = true ∧
      (∀ x ∈ (batchOf s keyA).tokens, x.token < 7) ∧ halfWhole s layerA keyA ((batchOf s keyA).tokens.map (·.token)) = true ∧ 0 < cutQ s ∧ b.counts.length + 1 < cutQ s ∧ b.counts.length + 1 = cutQ (route 1 [] b) ∧
      homeExperts (route 1 [] b) keyA.layer (ownSeg (route 1 [] b)) = [] ∧ rtCf layerA.desc = 0x3F800000 ∧ rtCapMin layerA.desc = 0 ∧
      0 < rtE layerA.desc) ∧
    (let b : Batch := { key := keyA, counted := true }
     let s := route 2 [dirA 0 0, dirA 1 1] b
     (batchOf s keyA).counted = true ∧ 0 ∉ (batchOf s keyA).homes ∧ 0 ∈ layerHomes s keyA.layer ∧ 1 ∈ layerHomes s keyA.layer ∧
      1 ∉ (batchOf s keyA).homes) ∧
    (let b : Batch := { key := keyA, counted := true, granted := true, cap := 2, split := [{ expert := 0, pass := 0, filled := 1, modules := [0], serving := [0], sources := [0] }] }
     let s := route 1 [dirA 0 0] b
     let h : RecHeader := { key := keyA, dir := false, pfmt := layerA.inFmt, src := 0, token := 3, mask := 1, epoch := runningEpoch s, pos := [0], ranks := [0], weights := [], placed := [0] }
     layerOf s h.key.layer = some layerA ∧ h.epoch = runningEpoch s ∧ takesRecords (batchOf s h.key) false = true ∧
      recordChoices s layerA.width (batchOf s h.key) h = some [(0, 0, 0, 0)] ∧ takesRecords { key := keyA } false = false ∧
      recordSealOk s false h [] [0] = true ∧ recordSealOk s false { h with carried := some (~~~(recordSeal s false h [] [0])) } [] [0] = false ∧
      (∀ r ∈ (batchOf s h.key).fwd.records ++ (batchOf s h.key).fwd.early.map (·.1), r.src = h.src → r.token ≠ h.token) ∧
      (∃ r ∈ ({ b with fwd := { records := [h] } } : Batch).fwd.records, r.src = h.src ∧ r.token = h.token) ∧
      takesRecords { b with backward := true } true = true) := by decide +kernel

theorem witness_PassesRunAndAreCredited :
    (let b : Batch := { key := keyA, granted := true, fwd := { started := [(0, 0)] }, split := [{ expert := 0, pass := 2, filled := 1, modules := [0], serving := [0], sources := [0] }] }
     let s := route 1 [dirA 0 0] b
     layerOf s keyA.layer = some layerA ∧ (0, 0) ∈ (serveOf (batchOf s keyA) false).started ∧
      (0, 0) ∉ (serveOf (batchOf s keyA) false).done ∧ (0, 1) ∉ (serveOf (batchOf s keyA) false).started ∧ (batchOf s keyA).granted = true) ∧
    (let q : Placed := { token := 0, rank := 0, expert := 0, pos := 7, weight := 0, server := 0 }
     q.pos / max 1 ({ key := keyA, cap := 4 } : Batch).cap < 2 ∧ 2 ≤ ({ q with pos := 8 } : Placed).pos / max 1 ({ key := keyA, cap := 4 } : Batch).cap) ∧
    (let x : ExpertRef := { layer := 0, expert := 0 }
     (x, false) ∈ (live.withLedger { live.ledger with fetches := [(x, false)] }).ledger.fetches) := by decide +kernel

/-- A placed choice of token 3. -/
def placedA : Placed := { token := 3, rank := 0, expert := 0, pos := 0, weight := 0x3F800000, server := 0 }

/-- A batch of token 3 with that choice. -/
def batchA : Batch :=
  { key := keyA, granted := true, counted := true, cap := 2, tokens := [{ token := 3, vec := [0], choices := [(0, 0x3F800000)] }], placed := [placedA] }

/-- A return header of token 3. -/
def returnA : RecHeader :=
  { key := keyA, dir := true, pfmt := layerA.outFmt, src := 0, token := 3, mask := 1, epoch := 1, pos := [0], ranks := [0], weights := [], placed := [0] }

theorem witness_ReturnsCombineTheToken :
    (let s := route 1 [dirA 0 0] batchA
     layerOf s returnA.key.layer = some layerA ∧ placedOf (batchOf s returnA.key) returnA.token = [placedA] ∧ placedA.server = 0 ∧
      placedA.token = returnA.token ∧ (∀ r ∈ (batchOf s returnA.key).returned, r.1 ≠ returnA.token) ∧
      (∀ c ∈ (batchOf s returnA.key).combined, c.1 ≠ returnA.token) ∧ rtRenorm layerA.desc = false ∧
      returnSealOk returnA (outputBytes returnA.pfmt [(0, [0])]) = true ∧
      (let h := sealReturn returnA (outputBytes returnA.pfmt [(0, [0])])
       returnSealOk h (outputBytes h.pfmt [(0, [0])]) = true ∧
        returnSealOk { h with carried := h.carried.map (~~~ ·) } (outputBytes h.pfmt [(0, [0])]) = false) ∧
      combineDone (batchOf s keyA) = false) ∧
    (let s := route 1 [dirA 0 0] { batchA with combined := [(3, [0], [])] }
     combineDone (batchOf s keyA) = true ∧ (batchOf s keyA).backward = false ∧ inEval s = false ∧ layerOf s keyA.layer = some layerA ∧
      s.ledger.entries.any (entryBroken keyA) = false ∧
      (batchOf s keyA).bwd.early = []) := by decide +kernel

theorem witness_BackwardReturnsFollowTheTree :
    (let b : Batch := { batchA with backward := true, backSent := [(3, 0)], split := [{ expert := 0, pass := 0, filled := 1, modules := [0], serving := [0], sources := [0] }] }
     let s := route 1 [dirA 0 0] b
     layerOf s returnA.key.layer = some layerA ∧ returnA.epoch = runningEpoch s ∧ takesRecords batchA true = false ∧
      takesRecords (batchOf s keyA) true = true ∧ recordChoices s layerA.width (batchOf s keyA) { returnA with dir := false } = some [(0, 0, 0, 0)] ∧
      recordSealOk s true { returnA with dir := false } [0] [0] = true ∧
      (let h := { returnA with dir := false, carried := some (~~~(recordSeal s true { returnA with dir := false } [0] [0])) }
       recordSealOk s true h [0] [0] = false ∧
        (∀ r ∈ (batchOf s h.key).bwd.records ++ (batchOf s h.key).bwd.early.map (·.1), r.src = h.src → r.token ≠ h.token)) ∧
      returnSealOk returnA (nodeBytes [{ level := 0, index := 0, values := [0] }]) = true ∧
      returnSealOk { returnA with carried := some (~~~(crc64 (recHeaderBytes returnA ++ nodeBytes []))) } (nodeBytes []) = false ∧
      treeRoot [] (placedOf (batchOf s keyA) returnA.token).length = none ∧
      (batchOf s keyA).backward = true ∧ (returnA.token, 0) ∈ (batchOf s keyA).backSent ∧
      placedOf (batchOf s keyA) returnA.token = [placedA] ∧ (batchOf s keyA).nodes = [] ∧ (batchOf s keyA).grads = []) ∧
    treeRoot [{ level := 0, index := 0, values := [0] }] 2 = none := by decide +kernel

theorem witness_TreeNodesGiveThePairwiseSum :
    ([[1], [2], [3]] : List (List W32)) ≠ [] ∧ (∀ x ∈ ([[1], [2], [3]] : List (List W32)), x.length = 1) ∧
    (∀ i, i < ([[1], [2], [3]] : List (List W32)).length → i % 2 ∈ [0, 1]) :=
  ⟨by decide, by decide, fun i _ => by rcases Nat.mod_two_eq_zero_or_one i with h | h <;> simp [h]⟩

theorem witness_CopiesGathersAndNodesComplete :
    (let x : ExpertRef := { layer := 0, expert := 0 }
     let s := route 2 [{ dirA 0 0 with state := .fetching, replicas := [1] }] { key := keyA }
     dirFind s x = some { dirA 0 0 with state := .fetching, replicas := [1] } ∧ (dirA 0 0).home = ownSeg s ∧ x ∉ s.ledger.promoted ∧ spaceFree s = true ∧
      spaceFree (s.withLedger { s.ledger with copyOuts := [(x, 0, 2 ^ 64)] }) = false ∧
      (let c : ReplicaCopy := { member := 1, secs := [] }
       c.member ∈ [1] ∧ c.member ≠ ownSeg s ∧ ({ c with member := 0 } : ReplicaCopy).member = ownSeg s) ∧
      ([] : List Section).any (unsound s) = false ∧ [{ sectionA with sealWord := 0 }].any (unsound s) = true ∧
      (∀ r ∈ s.ledger.replicas, r.1 = x → r.2.1 ≠ 1) ∧ (dirA 0 0).home ≠ 1 ∧ (dirA 0 1).home ≠ ownSeg s ∧
      inEval s = false ∧ s.step.replays < 3 ∧ s.step.run.isSome = true ∧ cutD s ≤ 1 ∧ 1 < cutD (loaded live) ∧ [sectionA].find? sealBroken = none ∧
      (∃ x ∈ [{ sectionA with sealWord := 0 }], sealBroken x = true) ∧ s.ledger.tileQueue = [] ∧
      1 * 2 ^ 0 ≠ (tileState s (x, 0)).2 ∧ 0 * 2 ^ 3 = (tileState s (x, 0)).2 ∧ layerOf s x.layer = some layerA) ∧
    (let k : ExpertRef × Nat := ({ layer := 0, expert := 0 }, 0)
     let s := route 1 [dirA 0 0] { key := keyA, granted := true }
     let t := setStall s 1023 { bufs := (Vector.replicate 4 {}).set 3 { state := .accumulate, complete := true, tile := some k } }
     ((getStall t 1023).bufs[(3 : Fin 4)]).tile = some k ∧ ((getStall t 1023).bufs[(3 : Fin 4)]).state = .accumulate ∧
      ((getStall t 1023).bufs[(3 : Fin 4)]).complete = true ∧ homeOf t k.1 = some (ownSeg t) ∧ tileKnown t k.1 = true ∧
      (tileState t k).2 = passBlocks 2 (expertPasses t k.1) ∧
      (tileKnown (t.withLedger { t.ledger with batches := [] }) k.1 &&
        decide ((tileState t k).2 = passBlocks 2 (expertPasses (t.withLedger { t.ledger with batches := [] }) k.1))) = false) := by decide +kernel

/-- A site descriptor of two sites, both active; this is site `own`. -/
def siteBytes (own s : Nat) : Bytes :=
  natLe 2 2 ++ natLe 1 own ++ natLe 1 s ++ natLe 2 1 ++ natLe 1 2 ++ natLe 1 1 ++ natLe 1 1 ++ natLe 7 0 ++ natLe 4 0x3F800000 ++
    natLe 16 0 ++ natLe 2 4000 ++ natLe 26 0 ++
    (natLe 16 0 ++ natLe 1 1 ++ natLe 1 1 ++ natLe 110 0) ++ (natLe 16 0 ++ natLe 1 1 ++ natLe 1 1 ++ natLe 110 0)

/-- A running SITE_JOIN with a descriptor in host memory. -/
def joinS (b : Bytes) : State :=
  let s := running .loaded (descr 0x90 1 0 0x20000 b.length [])
  s.withMem { s.mem with host := writeBytes [] 0x20000 b }

/-- An entry of the descriptor. -/
def entryS : SiteEntry := { prefixA := [], prefixB := [], routes := 1, active := true, donor := false, flow := [], idHash := [] }

/-- The descriptor of a site of two. -/
def siteD (own : Nat) : SiteDesc :=
  { sites := 2, own := own, s := 2, h := 1, k := 2, m := 1, inbound := 1, mxSpec := false, mu := 0, eta := 0x3F800000,
    skewMargin := 2000, skewMax := 50000, siteWait := 3600, rate := 0, udpPort := 4000, entries := [entryS, entryS], digest := [] }

/-- An open session with site 1. -/
def sessA (peer : Nat) : Session :=
  { site := peer, shard := 0, id := 77, opened := true, replaces := false, initFrame := [], setup := none, kemKey := [], cipher := [],
    secret := [], km := [], epoch := 1, txKeys := [(1, [1])], rxKeys := [(1, [2])], txSeq := 5, txPrev := 0, since := 4000000,
    keyWaiting := false, rx := [], rxEpoch := 1, rxSince := 4000000, grants := 0, peerIf := [], sentAt := 0, routes := [{}] }

/-- A frame of that session, without its tag. -/
def fr (peer : Nat) : FrameHeader :=
  { version := 1, flags := 0, route := 0, session := 77, epoch := 1, seq := 9, round := 3, shard := 0, group := 0, pkt := 0, k := 2, m := 1,
    site := peer, txNs := 0, len := 0, tag := [], source := [], fragment := false }

/-- A frame of a type with its tag under the session's key. -/
def tagged (n : Nat) (h : FrameHeader) (b : FrameBody) : FrameHeader := { h with tag := frameTag [2] n h b }

/-- A site of two in round 3 with an open session. -/
def siteS (own : Nat) (x : Site) : State :=
  live.withSite { x with desc := some (siteD own), sessions := [sessA (1 - own)], active := [(0, 0), (1, 0)], round := 3 }

theorem tagPasses_tagged {n : Nat} {h : FrameHeader} {b : FrameBody} {s : State}
    (k : (findSess s h.site h.shard.toNat).any (fun x => decide ((h.epoch.toNat, [2]) ∈ x.rxKeys)) = true) :
    tagPasses s n (tagged n h b) b = true := by
  unfold tagPasses
  rw [show (tagged n h b).site = h.site from rfl, show (tagged n h b).shard = h.shard from rfl]
  cases e : findSess s h.site h.shard.toNat with
  | none => rw [e] at k; cases k
  | some x =>
    rw [e] at k
    exact List.any_eq_true.mpr ⟨_, of_decide_eq_true k, by rw [Bool.and_eq_true]; exact ⟨decide_eq_true rfl, decide_eq_true rfl⟩⟩

theorem tagPasses_longer {n : Nat} {h : FrameHeader} {b : FrameBody} {s : State} {x : Session} (e : findSess s h.site h.shard.toNat = some x)
    (k : x.rxKeys = [(1, [2])]) : tagPasses s n { h with tag := frameTag [2] n h b ++ [0] } b = false := by
  unfold tagPasses
  rw [show ({ h with tag := frameTag [2] n h b ++ [0] } : FrameHeader).site = h.site from rfl,
    show ({ h with tag := frameTag [2] n h b ++ [0] } : FrameHeader).shard = h.shard from rfl, e]
  have d : frameTag [2] n h b ++ [0] ≠ frameTag [2] n { h with tag := frameTag [2] n h b ++ [0] } b := fun q => by
    have := congrArg List.length q
    rw [List.length_append] at this
    exact absurd this (Nat.succ_ne_self _)
  simp only [k, List.any_cons, List.any_nil, decide_eq_false d, Bool.and_false, Bool.or_false]

/-- A frame is authenticated, and its session and the state after meet p. -/
theorem authFrame_meets {n : Nat} {h : FrameHeader} {b : FrameBody} {s : State} {p : Session → State → Prop} [∀ x u, Decidable (p x u)]
    (k : (findSess s h.site h.shard.toNat).any (fun x => decide ((h.epoch.toNat, [2]) ∈ x.rxKeys)) = true)
    (q : (authAs true (tagged n h b) s).1.any (fun x => decide (p x (authAs true (tagged n h b) s).2)) = true) :
    ∃ x u, authFrame n (tagged n h b) b s = (some x, u) ∧ p x u := by
  unfold authFrame
  rw [tagPasses_tagged k]
  cases e : (authAs true (tagged n h b) s).1 with
  | none => rw [e] at q; cases q
  | some x => rw [e] at q; exact ⟨x, _, Prod.ext e rfl, of_decide_eq_true q⟩

/-- A held BF16 parameter section of one element. -/
def paramA : Section :=
  { sectionA with desc := { sectionA.desc with tid := 1, fmt := .bf16, mx := false, elems := 1 }, content := [0, 0] }

/-- A SITE_JOIN without a plan with n pages of the far tier retired. -/
def fullJoin (n : Nat) : State :=
  let s := (joinS (siteBytes 0 2)).withLoad { prog := some progA }
  let s := s.withTens { s.tens with bufA := [paramA] }
  s.withMem { s.mem with farPages := List.replicate n (0, { retired := true }) }

theorem retiredBytes_replicate (n : Nat) : retiredBytes (List.replicate n (0, { retired := true })) = 4096 * n := by
  simp [retiredBytes]

theorem fullJoin_available (n : Nat) : (siteFit (siteDesc (siteBytes 0 2)) (fullJoin n)).available = farCapacity - 4096 * n - 0 := by
  have h1 : (fullJoin n).mem.farPages = List.replicate n (0, { retired := true }) := rfl
  have h2 : (fullJoin n).load.plan = none := rfl
  have h3 : (fullJoin n).load.prog = some progA := rfl
  simp only [siteFit, plainNeed, h1, h2, h3, retiredBytes_replicate]

theorem fullJoin_codes (n : Nat) : roleCodes (fullJoin n) (committed (fullJoin n)) .param = [0] := rfl

theorem witness_SitesAreRefused (n : Nat) (h : farCapacity ≤ 4096 * n) :
    (siteFit (siteDesc (siteBytes 0 2)) (fullJoin n)).available < (siteFit (siteDesc (siteBytes 0 2)) (fullJoin n)).required := by
  rw [fullJoin_available, Nat.sub_eq_zero_of_le h]
  simp only [siteFit, plainNeed, fullJoin_codes]
  decide +kernel

theorem witness_SitesEnterLeaveAndAreExcluded :
    (ready (joinS (siteBytes 2 2)) k0 0x90 = some (cmdOf (descr 0x90 1 0 0x20000 320 [])) ∧
      agreedHere (joinS (siteBytes 2 2)) (cmdOf (descr 0x90 1 0 0x20000 320 [])) = true ∧ (joinS (siteBytes 2 2)).site.joining = none ∧
      siteDescBad (readBuf (joinS (siteBytes 2 2)) { addr := 0x20000, bytes := 320, window := false } 0 320) = true ∧
      siteDescBad (readBuf (joinS (siteBytes 0 2)) { addr := 0x20000, bytes := 320, window := false } 0 320) = false ∧
      bufA (cmdOf (descr 0x90 1 0 0x20000 320 [])) = { addr := 0x20000, bytes := 320, window := false } ∧
      (joinS (siteBytes 0 2)).load.prog = none) ∧
    (let s := (joinS (siteBytes 0 2)).withLoad { prog := some progA }
     let d := siteDesc (siteBytes 0 2)
     s.load.prog.isSome = true ∧ (siteFit d s).required ≤ (siteFit d s).available ∧ (∃ i ∈ activeAtStart d, i ≠ d.own) ∧
      activeAtStart { d with entries := [entryS, { entryS with active := false }] } ≠ [] ∧
      (∀ i ∈ activeAtStart { d with entries := [entryS, { entryS with active := false }] }, i = d.own)) ∧
    siteDescBad (siteBytes 1 8) = false ∧
    (let s := (running .site (descr 0x91 1 0 0 0 [])).withSite { desc := some (siteD 0) }
     ready s k0 0x91 = some (cmdOf (descr 0x91 1 0 0 0 [])) ∧ agreedHere s (cmdOf (descr 0x91 1 0 0 0 [])) = true ∧ s.site.leaving = none ∧
      s.site.excluded = false ∧ (s.withSite { s.site with excluded := true }).site.excluded = true) ∧
    ((siteS 0 { leaving := some (k0, 3) }).site.leaving = some (k0, 3)) ∧
    (let s := siteS 0 { waitingFor := some 1 }
     s.site.waitingFor = some 1 ∧ isLead s = true ∧ isLead (second s) = false ∧ s.site.desc = some (siteD 0) ∧
      (siteS 0 {}).site.waitingFor = none ∧ 1000000000 * (siteD 0).siteWait ≤ ((timed 3600000000000 s).awn.tick - s.site.waitSince).toNat ∧
      (s.awn.tick - s.site.waitSince).toNat < 1000000000 * (siteD 0).siteWait ∧ s.site.boundary ≠ 1 ∧ s.site.boundary ≠ 3 ∧ s.site.leaving = none ∧ s.site.outbound = []) ∧
    (∃ x u, authFrame 7 (tagged 7 (fr 1) .joinReq) .joinReq (siteS 0 { joining := some k0 }) = (some x, u) ∧ u.site.joining.isSome = true) ∧
    (∃ x u, authFrame 7 (tagged 7 (fr 1) .joinReq) .joinReq ((siteS 0 {}).withMbx { live.mbx with job := .site }) = (some x, u) ∧
      u.site.joining = none ∧ u.mbx.job = .site ∧ (fr 1).site ∉ u.site.joiners) ∧
    (∃ x u, authFrame 8 (tagged 8 (fr 1) .leave) .leave (siteS 0 {}) = (some x, u) ∧ u.site.boundary ≠ 1) ∧
    (∃ x u, authFrame 9 (tagged 9 (fr 1) (.notice 1 true 4)) (.notice 1 true 4) (siteS 0 {}) = (some x, u) ∧
      u.site.boundary ≠ 1 ∧ u.site.boundary ≠ 3 ∧ u.site.leaving = none ∧ u.site.outbound = [] ∧ 1 ≠ ownSite u) ∧
    (∃ x u, authFrame 9 (tagged 9 (fr 1) (.notice 0 true 4)) (.notice 0 true 4) (siteS 0 {}) = (some x, u) ∧ 0 = ownSite u) ∧
    (∃ x u, authFrame 9 (tagged 9 (fr 1) (.notice 1 false 4)) (.notice 1 false 4) (siteS 0 {}) = (some x, u) ∧ x.opened = true) :=
  by
  refine ⟨?_, ?_, ?_, ?_, ?_, ?_, authFrame_meets ?_ ?_, authFrame_meets ?_ ?_, authFrame_meets ?_ ?_, authFrame_meets ?_ ?_, authFrame_meets ?_ ?_,
    authFrame_meets ?_ ?_⟩ <;> decide +kernel

/-- A set-up payload of zeros. -/
def payloadS : SessionPayload :=
  { nonce := [], digest := [], planVersion := 1, extent := [1, 1, 1], identityPk := [], certificate := [], kem := [], signature := [] }

/-- A site that has sent SESSION_INIT to site 1 and awaits the answer. -/
def initS : State :=
  let x := { sessA 1 with opened := false, kemKey := [1], initFrame := [1], setup := some (12, fr 0, payloadS) }
  (live.withSite { desc := some (siteD 0), sessions := [x], active := [(0, 0), (1, 0)], joining := some k0 }).withLoad
    { prog := some progA, plan := some { planA with version := 1 } }

theorem witness_SessionsAreSetUp :
    (let s := siteS 1 {}
     s.site.desc = some (siteD 1) ∧ siteFrame (fr 0) s = true ∧ (fr 0).site < ownSite s ∧
      siteFrame (fr 1) (siteS 0 {}) = true ∧ ownSite (siteS 0 {}) < (fr 1).site) ∧
    (setupFrame 12 (fr 0) payloadS ≠ [] ∧
     (let s := live.withSite { desc := some (siteD 1), sessions := [{ sessA 0 with initFrame := setupFrame 12 (fr 0) payloadS }] }
      ∀ x, findSess s 0 0 = some x → x.initFrame = setupFrame 12 (fr 0) payloadS) ∧
     (∀ x, findSess (siteS 1 {}) 0 0 = some x → x.initFrame ≠ setupFrame 12 (fr 0) payloadS)) ∧
    (∃ x, findSess initS 1 0 = some x ∧ siteFrame (fr 1) initS = true ∧ x.opened = false ∧ x.kemKey ≠ [] ∧ x.id = (fr 1).session) ∧
    (setupDiff initS payloadS = none ∧ setupDiff initS { payloadS with digest := [1] } = some 0x01 ∧ setupDiff initS { payloadS with planVersion := 2 } = some 0x1A) ∧
    (∃ x q, initS.site.sessions = [x] ∧ x.site = 1 ∧ x.opened = false ∧ x.kemKey ≠ [] ∧ x.setup = some q ∧
      (initS.awn.tick - x.sentAt).toNat < 1000000000 ∧ 1000000000 ≤ ((timed 1000000000 initS).awn.tick - x.sentAt).toNat) ∧
    ((findSession (siteS 0 {}) 1).map (·.opened)).getD false = true ∧
    (1 ∈ activePeers initS ∧ ((findSession initS 1).map (·.opened)).getD false = false ∧ initS.site.joining = some k0 ∧
      60000000000 ≤ ((timed 60000000000 initS).awn.tick - initS.site.joinAt).toNat) := by
  refine ⟨by decide +kernel, ⟨by decide +kernel, ?_, ?_⟩, ⟨_, rfl, by decide +kernel⟩, by decide +kernel, ⟨_, _, rfl, by decide +kernel, by decide +kernel, by decide +kernel, rfl, by decide +kernel, by decide +kernel⟩,
    by decide +kernel, by decide +kernel⟩
  · intro s x h; cases h; rfl
  · intro x h; cases h; decide +kernel

/-- The certificate check is an opaque function of Config: where it answers true, a frame passes it; where false, it fails. -/
theorem witness_SetupChecks (b : Bool) (hv : Config.verify [] [] [] = b) (h : Config.shake256 [] 32 = [] ∧ ∀ m, Config.verify [] m [] = b) :
    setupCheck (siteS 1 {}) 12 (fr 0) payloadS [] = if b then none else some 0 := by
  cases b with
  | false => simp [setupCheck, certValid, payloadS, certIssuer, hv]
  | true =>
    have h1 : certSubject payloadS.certificate = hash32 payloadS.identityPk := by
      simp [certSubject, payloadS, hash32, h.1]
    have h2 : hash32 (certIssuer payloadS.certificate) = idHashOf (siteS 1 {}) (fr 0).site := by
      rw [show certIssuer payloadS.certificate = [] from rfl, hash32, h.1]; rfl
    have h3 : certValid (siteS 1 {}).awn.rtc payloadS.certificate = true := by
      rw [certValid, show certIssuer payloadS.certificate = [] from rfl, show payloadS.certificate.take 128 = [] from rfl,
        show (payloadS.certificate.drop 128).take 2820 = [] from rfl, hv]; decide +kernel
    rw [setupCheck, h3, h2, h1, show payloadS.identityPk = [] from rfl, show payloadS.signature = [] from rfl, h.2]
    simp

/-- A route at a session's opening. -/
def newRoute : Route := {}

theorem witness_FramesAreAuthenticated :
    (findSess (siteS 0 {}) 1 5 = none ∧ findSess (siteS 0 {}) 1 0 = some (sessA 1) ∧ siteFrame (fr 1) (siteS 0 {}) = true ∧
      (sessA 1).opened = true ∧ (sessA 1).id = (fr 1).session ∧ siteFrame { fr 1 with fragment := true } (siteS 0 {}) = false ∧
      (∀ q ∈ (sessA 1).rxKeys, q.1 ≠ (2 : W32).toNat) ∧ ((fr 1).epoch.toNat, [2]) ∈ (sessA 1).rxKeys ∧ (sessA 1).rxEpoch ≤ (fr 1).epoch.toNat ∧
      (let x := { sessA 1 with rxEpoch := 2, rxSince := 4000000 }
       (fr 1).epoch.toNat < x.rxEpoch ∧ ((siteS 0 {}).awn.tick - x.rxSince).toNat < 2000000000 ∧
        2000000000 ≤ ((timed 2004000000 (siteS 0 {})).awn.tick - x.rxSince).toNat)) ∧
    (tagPasses (siteS 0 {}) 8 (tagged 8 (fr 1) .leave) .leave = true ∧
      tagPasses (siteS 0 {}) 8 { fr 1 with tag := frameTag [2] 8 (fr 1) .leave ++ [0] } .leave = false) ∧
    (replayed (sessA 1) 1 9 = false ∧
      replayed { sessA 1 with rx := [(1, 4105, [4105])] } 1 9 = true ∧ replayed { sessA 1 with rx := [(1, 4104, [4104])] } 1 9 = false) ∧
    (let s := (siteS 0 {}).withAwn { live.awn with tick := 1000000000 }
     findSession s 1 = some (sessA 1) ∧ (sessA 1).routes[0]? = some newRoute ∧ newRoute.up = true ∧
      1000000000 ≤ (s.awn.tick - newRoute.echoAt).toNat ∧ ((siteS 0 {}).awn.tick - newRoute.echoAt).toNat < 1000000000) ∧
    (∀ echo, ∃ x u, authFrame 10 (tagged 10 (fr 1) (.probe echo)) (.probe echo) (siteS 0 {}) = (some x, u) ∧ x.opened = true) := by
  refine ⟨by decide +kernel, ⟨tagPasses_tagged (by decide +kernel), tagPasses_longer (x := sessA 1) rfl rfl⟩, by decide +kernel, by decide +kernel,
    fun echo => authFrame_meets (by decide +kernel) ?_⟩
  cases echo <;> decide +kernel

/-- A contribution of round 3 of site 1 with one packet of group 0. -/
def inA : Inbound :=
  { site := 1, shard := 0, round := 3, state := false, seen := [(0, 1)], packets := [(0, 1, [])], firsts := [(0, 0, false, 4000000)] }

/-- An own contribution of two packets. -/
def outA : Outbound := { round := 3, stream := [1, 2, 3], record := {}, sealWord := 0, acked := [], epochs := [] }

theorem witness_ContributionsArriveAndAreRepaired :
    (∃ x u, authFrame 1 (tagged 1 (fr 1) (.coded (List.replicate 8192 0))) (.coded (List.replicate 8192 0)) (siteS 0 { inbound := [inA] }) = (some x, u) ∧ u.site.desc = some (siteD 0) ∧ findInbound (fr 1) u = some inA) ∧
    ((fr 1).k ≠ 0 ∧ (fr 1).pkt < (fr 1).k + (fr 1).m ∧ ((0 : Nat), (1 : Nat)) ∈ inA.seen ∧
      ((fr 1).group, (fr 1).pkt) ∉ inA.seen ∧ (fr 1).group ∉ inA.decoded ∧
      (inA.packets.filter (fun q => q.1 = (fr 1).group)).length + 1 = (fr 1).k ∧ inA.opened = false ∧
      (inA.packets.filter (fun q => q.1 = (fr 1).group)).length + 1 < ({ fr 1 with k := 3 } : FrameHeader).k ∧ inA.decoded.length < 1) ∧
    (∃ x u, authFrame 2 (tagged 2 (fr 1) (.roundOpen 1 2 0 {})) (.roundOpen 1 2 0 {}) (siteS 0 { inbound := [{ inA with opened := true, groups := 1 }] }) = (some x, u) ∧
      findInbound (fr 1) u = some { inA with opened := true, groups := 1 }) ∧
    (∃ x u, authFrame 4 (tagged 4 (fr 1) (.repair 1)) (.repair 1) (siteS 0 { outbound := [outA] }) = (some x, u) ∧ stateFlag (fr 1) = false ∧ u.site.desc = some (siteD 0) ∧
      u.site.outbound.find? (fun o => decide (o.round = (fr 1).round.toNat)) = some outA ∧ (fr 1).group < groupTotal (siteD 0).k outA.stream ∧
      groupTotal (siteD 0).k outA.stream ≤ ({ fr 1 with group := 1 } : FrameHeader).group) ∧
    (∃ x u, authFrame 3 (tagged 3 (fr 1) (.ack { round := 3, groups := [], echoes := [], grants := 1 })) (.ack { round := 3, groups := [], echoes := [], grants := 1 }) (siteS 0 {}) = (some x, u) ∧ u.site.leaving = none ∧ u.site.boundary ≠ 3 ∧ u.site.outbound = [] ∧
      x.shard = memberIndex u ∧ findSess u x.site x.shard = some x) ∧
    (let s := siteS 0 { inbound := [{ inA with opened := true, groups := 1 }] }
     s.site.inbound.find? (fun i => decide (i.site = 1) && decide (i.shard = 0) && decide (i.round = 3)) = some { inA with opened := true, groups := 1 } ∧
      0 ∉ inA.decoded ∧ (∃ f ∈ inA.firsts, f.1 = 0) ∧ (∀ f ∈ inA.firsts, f.1 = 0 → f.2.2.2 ≤ s.awn.tick.toNat) ∧ s.site.desc = some (siteD 0) ∧
      (∀ r ∈ inA.repaired, r.1 ≠ 0) ∧ (∃ f ∈ [((0 : Nat), (0 : Nat), false, (6000000 : Int))], f.1 = 0 ∧ (s.awn.tick.toNat : Int) < f.2.2.2) ∧
      0 ∈ ({ inA with decoded := [0] } : Inbound).decoded ∧
      repairDue s inA 0 = true ∧ (let t := s.withSite { s.site with sessions := [{ sessA 1 with routes := [{ rtt := 7 }] }] }
        repairDue t { inA with repaired := [(0, 5000000)] } 0 = false ∧ largestTrip t 1 0 = 7) ∧
      (((s.awn.tick - inA.lastAt).toNat : Nat) : Int) < 1000 * ((siteD 0).skewMax : Int) + largestTrip s 1 0 ∧
      1000 * ((siteD 0).skewMax : Int) + largestTrip s 1 0 ≤ ((((timed 100000000 s).awn.tick - inA.lastAt).toNat : Nat) : Int)) := by
  refine ⟨authFrame_meets ?_ ?_, ?_, authFrame_meets ?_ ?_, authFrame_meets ?_ ?_, authFrame_meets ?_ ?_, ?_⟩ <;> decide +kernel

theorem witness_KeyEpochsSwitch :
    (∃ x u, authFrame 5 (tagged 5 (fr 1) (.kem [])) (.kem []) (siteS 0 {}) = (some x, u) ∧ findSess u x.site x.shard = some x ∧ x.opened = true ∧ ownSite u < x.site) ∧
    (∃ x u, authFrame 6 (tagged 6 (fr 1) (.kem [])) (.kem []) (siteS 0 {}) = (some x, u) ∧ findSess u x.site x.shard = some x ∧ x.opened = true ∧ x.kemKey = []) ∧
    (∃ x u, authFrame 5 (tagged 5 (fr 0) (.kem [])) (.kem []) (siteS 1 {}) = (some x, u) ∧ findSess u x.site x.shard = some x ∧ x.opened = true ∧ x.site ≤ ownSite u ∧
      agreedEpoch x = (fr 0).epoch.toNat ∧ x.keyWaiting = false) ∧
    (let s := live.withSite { desc := some (siteD 0), sessions := [{ sessA 1 with kemKey := [1] }] }
     ∃ x u, authFrame 6 (tagged 6 (fr 1) (.kem [])) (.kem []) s = (some x, u) ∧ findSess u x.site x.shard = some x ∧ x.opened = true ∧ x.kemKey ≠ [] ∧ x.keyWaiting = false) ∧
    (let s := siteS 0 {}
     let t := s.withAwn { live.awn with tick := 600004000000 }
     s.site.sessions = [sessA 1] ∧ t.site.sessions = [sessA 1] ∧ (sessA 1).site = 1 ∧ (sessA 1).opened = true ∧ switchDue s (sessA 1) = false ∧
      switchDue t (sessA 1) = true ∧ switchDue (s.withAwn { live.awn with tick := 600003999999 }) (sessA 1) = false ∧
      nextAgreed (sessA 1) = false ∧ nextAgreed { sessA 1 with txKeys := [(1, [1]), (2, [3])] } = true ∧ (sessA 1).keyWaiting = false ∧
      2000000000 ≤ (t.awn.tick - (sessA 1).since).toNat ∧ 2000000000 ≤ (t.awn.tick - (sessA 1).rxSince).toNat ∧
      findSess s 1 0 = some (sessA 1)) := by
  refine ⟨authFrame_meets ?_ ?_, authFrame_meets ?_ ?_, authFrame_meets ?_ ?_, authFrame_meets ?_ ?_, ?_⟩ <;> decide +kernel

/-- The lead of a slice of one at a boundary of round 3, with every member's report of the held contributions. -/
def rollS (held : List SiteRound) (applied : List SiteRound) : State := siteS 0 { boundary := 1, reports := [(0, held)], applied := applied }

theorem witness_RollsAreEvaluatedAndApplied :
    isLead (second (siteS 0 {})) = false ∧ isLead (siteS 0 {}) = true ∧ (siteS 0 {}).site.boundary ≠ 1 ∧
    (let s := rollS [] []
     s.site.excluded = false ∧ s.site.boundary = 1 ∧ s.step.run = none ∧ reporters s ≤ s.site.reports.length ∧ isLead s = true ∧
      s = s.withSite { s.site with reports := s.site.reports.filter (fun r => r.1 ≠ 0) ++ [(0, [])] } ∧
      laggingSite s (siteOrder (heldByAll s)) = some 0 ∧ s.site.desc = some (siteD 0)) ∧
    (let done := [⟨0, 0⟩, ⟨0, 1⟩, ⟨1, 0⟩, ⟨1, 1⟩]
     let s := rollS [⟨0, 2⟩, ⟨1, 2⟩] done
     laggingSite s (siteOrder (heldByAll s)) = none ∧ heldByAll s ≠ []) := by decide +kernel

/-! ### Ill-formed commands: each check of WellFormed refuses one -/

/-- A flit of n payload bytes. -/
def flitOf (n : Nat) : Flit :=
  { payload := List.replicate n 0, seq := 0, ftype := .control, vc := .bulkT0, kindHigh := 0, byte59 := 0, crc := 0 }

/-- A packet of one flit to (1, 2, 3). -/
def packetW : Packet :=
  { destX := 1, destY := 2, destZ := 3, cls := 4, sliceId := 7, src := 0, bytes := 10, flits := 1, reservedOk := true, stream := 0, vc := .bulkT0,
    payload := [] }

theorem test_wf_frame : (fr 1).wf = true ∧ ({ fr 1 with route := 4 } : FrameHeader).wf = false ∧ ({ fr 1 with site := 16 } : FrameHeader).wf = false ∧
    ({ fr 1 with k := 33 } : FrameHeader).wf = false ∧ ({ fr 1 with m := 17 } : FrameHeader).wf = false ∧
    ({ fr 1 with pkt := 48 } : FrameHeader).wf = false ∧ ({ fr 1 with group := 2 ^ 32 } : FrameHeader).wf = false ∧
    ({ fr 1 with len := 65536 } : FrameHeader).wf = false := by decide

theorem test_wf_packet : packetW.wf = true ∧ ({ packetW with destX := 256 } : Packet).wf = false ∧ ({ packetW with destY := 256 } : Packet).wf = false ∧
    ({ packetW with destZ := 256 } : Packet).wf = false ∧ ({ packetW with cls := 256 } : Packet).wf = false ∧
    ({ packetW with flits := 0 } : Packet).wf = false ∧ ({ packetW with flits := 257 } : Packet).wf = false ∧
    ({ packetW with src := 65536 } : Packet).wf = false ∧ ({ packetW with bytes := 65536 } : Packet).wf = false := by decide

theorem test_wf_instr : (Instr.hostLinkTrained 17 64).wf = false ∧ (Instr.hostLinkTrained 16 65).wf = false ∧ (Instr.cxlMemWrite 0 [1]).wf = false ∧
    (Instr.registerWrite 0 2 0).wf = false ∧ (Instr.registerWrite 0 4 0).wf = true ∧ (Instr.dataFlit .px (flitOf 55)).wf = false ∧
    (Instr.dataFlit .px (flitOf 56)).wf = true ∧ (Instr.packetForward none { packetW with flits := 0 }).wf = false ∧
    (Instr.laneErrorWindowClose .px [(1, 2)]).wf = false ∧ (Instr.fcmp 0 0 .ltu 0 0).wf = false ∧ (Instr.fcmp 0 0 .geu 0 0).wf = false ∧
    (Instr.fcmp 0 0 .lt 0 0).wf = true ∧ (Instr.select { layer := 64, micro := 0, half := false } 0 [] [] true).wf = false ∧
    (Instr.select { layer := 0, micro := 256, half := false } 0 [] [] true).wf = false ∧ (Instr.unitSelfTest 16 (.stall 0) true).wf = false := by
  decide

theorem test_wf_frames : (Instr.data (fr 1) [1] 0).wf = false ∧ (Instr.roundOpen (fr 1) 1 33 0 {}).wf = false ∧
    (Instr.notice (fr 1) 16 true 0).wf = false ∧ (Instr.sessionInit (fr 1) { payloadS with extent := [1] }).wf = false ∧
    (Instr.sessionAccept (fr 1) { payloadS with extent := [1] }).wf = false ∧
    (let h := { fr 1 with route := 4 }
     (Instr.ack h { round := 0, groups := [], echoes := [], grants := 0 }).wf = false ∧ (Instr.repair h 0).wf = false ∧
      (Instr.keyNext h []).wf = false ∧ (Instr.keyNextAck h []).wf = false ∧ (Instr.joinReq h).wf = false ∧ (Instr.leave h).wf = false ∧
      (Instr.probe h true).wf = false) := by decide

/-! ### The spec's worked values -/

/-- R200 and R324: the check values over the ASCII bytes 123456789. -/
theorem test_crcs : crc64 (("123456789".toList).map (fun c => BitVec.ofNat 8 c.toNat)) = 0x995DC9BBDF1939FA ∧
    crc32c (("123456789".toList).map (fun c => BitVec.ofNat 8 c.toNat)) = 0xE3069283 := by decide +kernel

/-- R508's example: STATE 5, RESULT 0x300, one partial record. -/
theorem test_statusWord : statusWord 5 0x300 1 0 = 0x5300000100000000 := by decide +kernel

/-- R88's example: a NaN drained to E4M3 stores 0x7F, to E2M1 0x0. -/
theorem test_nanCodes : (convert .e4m3 .rne false 0 .nan).code = 0x7F ∧ (convert .e2m1 .rne false 0 .nan).code = 0 := by decide +kernel

/-- R156's example: NORMSQ 6.25 with CLIPF(1.0) writes 0x3ECCCCCD. -/
theorem test_clipf : decisionFn (.clipf 0x3F800000) 0x40C80000 = 0x3ECCCCCD := by decide +kernel

/-- R93, R97's example: seven blocks sum as ((B0 + B1) + (B2 + B3)) + ((B4 + B5) + B6). -/
theorem test_pairwise :
    let b : List W32 := [0x3F800000, 0x33800000, 0x33800000, 0x40000000, 0xBF800000, 0x34000000, 0x4B800000]
    pairwise b = addRne (addRne (addRne 0x3F800000 0x33800000) (addRne 0x33800000 0x40000000))
      (addRne (addRne 0xBF800000 0x34000000) 0x4B800000) := by decide +kernel

/-- R418's worked table: route 2's thresholds and updates in ns. -/
theorem test_lateRoute :
    let r := fun (d : Int) => ({ d := d, v := 250000 } : Route)
    let x := { sessA 1 with routes := [r 31000000, r 32000000, r 35000000, r 35500000] }
    let y := sampleRoute 44000000 (r 35000000)
    lateOf (siteD 0) x 2 = 38000000 ∧ lateOf (siteD 0) x 3 = 38500000 ∧ y.d = 36125000 ∧ y.v = 2437500 ∧
    lateOf (siteD 0) { x with routes := [r 31000000, r 32000000, y, r 35500000] } 2 = 47875000 ∧ (sampleRoute 44000000 y).d = 37109375 ∧
    (sampleRoute 44000000 y).v = 3796875 := by decide +kernel

/-- R267's example: 20 blocks over three modules are blocks 0 to 5, 6 to 12 and 13 to 19. -/
theorem test_split : (List.range 20).map (blockServer [0, 1, 2] 20) = List.replicate 6 0 ++ List.replicate 7 1 ++ List.replicate 7 2 := by
  decide +kernel

end Sys2Proof.Tests
end

namespace Sys2Proof.Machine

/-! ### Reading a pair (R7) -/

/-- A command of the host takes effect while the host link is up. -/
theorem hostReaches_of_linkUp {s : State} (h : s.bus.linkUp = true) : hostReaches s = true := h

/-- R7: a captured upper half is what the _HI register answers, whatever the registers hold. -/
theorem hiValue_of_captured {s : State} {off : Nat} {v : W32} (h : sget none s.bus.captured off = some v) :
    hiValue s off = v := by
  rw [hiValue, h, Option.getD_some]

/-- R499, R510: a read at the descriptor rings answers their bytes, one beyond them or misaligned answers 0. -/
theorem pairLoRead_ring {s : State} {off : BitVec 21} (hl : s.bus.linkUp = true) (ho : 0x100000 ≤ off.toNat) :
    pairLoRead off s = s.withBus { s.bus with
      readData := BitVec.ofNat 64 (if off.toNat < 0x180000 ∧ off.toNat % 8 = 0 then
        leNat (readBytes s.mbx.ringMem (off.toNat - 0x100000) 8) else 0) } := by
  simp [pairLoRead, hostReaches_of_linkUp hl, ho]

/-- R7: a read of a _LO register answers the pair and captures its upper half for the _HI register. -/
theorem pairLoRead_lo {s : State} {off : BitVec 21} {v : W64} (hl : s.bus.linkUp = true) (ho : off.toNat < 0x100000)
    (hv : pairValue s off.toNat = some v) :
    pairLoRead off s = s.withBus { s.bus with
      captured := sput none s.bus.captured (off.toNat + 4) (some (v.extractLsb' 32 32)), readData := v } := by
  simp [pairLoRead, hostReaches_of_linkUp hl, Nat.not_le.mpr ho, hv]

/-- R7: a read of any other register answers its captured half, or else its value, and uses the capture up. -/
theorem pairLoRead_hi {s : State} {off : BitVec 21} (hl : s.bus.linkUp = true) (ho : off.toNat < 0x100000)
    (hv : pairValue s off.toNat = none) :
    pairLoRead off s = s.withBus { s.bus with
      captured := sput none s.bus.captured off.toNat none, readData := (hiValue s off.toNat).setWidth 64 } := by
  simp [pairLoRead, hostReaches_of_linkUp hl, Nat.not_le.mpr ho, hv]

/-! ### The pending half of an RW pair (R8) -/

/-- R8: the lower half that stands pending is the one written last. -/
theorem loHalf_of_putHalf {s u : State} {off : Nat} {lo : W32} (h : u.bus.halves = (putHalf off lo s).bus.halves)
    (current : W32) : loHalf u off current = lo := by
  have hput : sget none u.bus.halves off = some lo := by
    rw [h]; exact sget_sput_of_ne none s.bus.halves off (some lo) (Option.some_ne_none lo)
  rw [loHalf, hput, Option.getD_some]

@[simp] theorem loHalf_putHalf_self (off : Nat) (lo current : W32) (s : State) : loHalf (putHalf off lo s) off current = lo :=
  loHalf_of_putHalf rfl current

@[simp] theorem putHalf_tal (off : Nat) (v : W32) (s : State) : (putHalf off v s).tal = s.tal := rfl
@[simp] theorem dropHalf_awn (off : Nat) (s : State) : (dropHalf off s).awn = s.awn := rfl
@[simp] theorem dropHalf_tal (off : Nat) (s : State) : (dropHalf off s).tal = s.tal := rfl

/-! ### TAL_WINDOW (R8, R12, R549) -/

/-- R8: a write of TAL_WINDOW_LO only stands pending. -/
theorem talWindowWrite_lo {s : State} (lo : W32) (hl : s.bus.linkUp = true) :
    talWindowWrite false lo s = putHalf 0x40010 lo s := by
  simp [talWindowWrite, hostReaches_of_linkUp hl]

/-- R8, R12: after a write of TAL_WINDOW_LO, a write of TAL_WINDOW_HI commits the two halves written, unless both are zero. -/
theorem talWindowWrite_hi_putHalf {s : State} (lo hi : W32) (hl : s.bus.linkUp = true) :
    talWindowWrite true hi (putHalf 0x40010 lo s) =
      if (hi ++ lo : W64) = 0 then dropHalf 0x40010 (putHalf 0x40010 lo s)
      else (dropHalf 0x40010 (putHalf 0x40010 lo s)).withTal { s.tal with window := hi ++ lo } := by
  have hu : hostReaches (putHalf 0x40010 lo s) = true := hl
  simp [talWindowWrite, hu]

/-! ### Comparator targets (R8, R352, R353, R542) -/

/-- R542: a host write of a half of the target of comparators 0 to 7 is ignored. -/
theorem cmpTargetWrite_of_lt {n : Fin 16} (hn : n.val < 8) (hi : Bool) (v : W32) (s : State) : cmpTargetWrite n hi v s = s := by
  simp [cmpTargetWrite, hn]

/-- R8: a write of TARGET_LO only stands pending. -/
theorem cmpTargetWrite_lo {s : State} {n : Fin 16} (lo : W32) (hl : s.bus.linkUp = true) (hn : 8 ≤ n.val) :
    cmpTargetWrite n false lo s = putHalf (cmpOffset n) lo s := by
  simp [cmpTargetWrite, hostReaches_of_linkUp hl, Nat.not_lt.mpr hn]

/-- R352, R354, R451: a comparator that is asked to fire stays as it is, or fires, which can set the snapshot trigger
and settles ALERT_N. -/
theorem fireCmp_cases (n : Fin 16) (s : State) : fireCmp n s = s ∨ ∃ snap, fireCmp n s =
    settleAlert ((s.withAwn { s.awn with cmps := s.awn.cmps.set n (cmpFired s.awn.tick s.awn.cmps[n]) }).withSnap snap) := by
  simp only [fireCmp]
  split
  · exact .inl rfl
  · split
    · exact .inr ⟨_, rfl⟩
    · exact .inr ⟨s.snap, rfl⟩

/-- A comparator that is set leaves the others. -/
theorem cmps_set_of_ne (cs : Vector Cmp 16) (c : Cmp) {n m : Fin 16} (h : m ≠ n) : (cs.set n c)[m] = cs[m] :=
  Vector.getElem_set_ne _ _ (fun e => h (Fin.ext e.symm))

@[simp] theorem fireCmp_tick (n : Fin 16) (s : State) : (fireCmp n s).awn.tick = s.awn.tick := by
  obtain h | ⟨snap, h⟩ := fireCmp_cases n s
  · rw [h]
  · simp [h]

/-- R352: a firing leaves the other comparators. -/
theorem fireCmp_cmps_of_ne {n m : Fin 16} (h : m ≠ n) (s : State) : (fireCmp n s).awn.cmps[m] = s.awn.cmps[m] := by
  obtain e | ⟨snap, e⟩ := fireCmp_cases n s
  · rw [e]
  · simpa [e] using cmps_set_of_ne _ _ h

/-- R8: a firing leaves the pending halves. -/
@[simp] theorem fireCmp_halves (n : Fin 16) (s : State) : (fireCmp n s).bus.halves = s.bus.halves := by
  obtain h | ⟨snap, h⟩ := fireCmp_cases n s
  · rw [h]
  · rw [h]; rfl

/-- R352, R354, R451: a firing reaches the Awning, ALERT_N and the snapshot trigger at most. -/
theorem fireCmp_frame (n : Fin 16) (s : State) : ∃ awn bus snap,
    fireCmp n s = ((s.withAwn awn).withBus bus).withSnap snap := by
  obtain h | ⟨snap, h⟩ := fireCmp_cases n s
  · exact ⟨s.awn, s.bus, s.snap, h⟩
  · exact ⟨_, _, snap, h⟩

/-- R8, R353: after a write of TARGET_LO, a write of TARGET_HI commits the two halves written, once a firing of the same
tick has used the old target. -/
theorem cmpTargetWrite_hi_putHalf {s : State} {n : Fin 16} (lo hi : W32) (hl : s.bus.linkUp = true) (hn : 8 ≤ n.val) :
    let f := fireCmp n (putHalf (cmpOffset n) lo s)
    cmpTargetWrite n true hi (putHalf (cmpOffset n) lo s) = (dropHalf (cmpOffset n) f).withAwn
      { f.awn with cmps := f.awn.cmps.set n (armLate f.awn.tick { f.awn.cmps[n] with target := hi ++ lo }) } := by
  have hu : hostReaches (putHalf (cmpOffset n) lo s) = true := hl
  have hlo := loHalf_of_putHalf (fireCmp_halves n (putHalf (cmpOffset n) lo s))
  simp [cmpTargetWrite, hu, Nat.not_lt.mpr hn, hlo]

/-! ### AWN_SYNC_VALUE (R8, R544) -/

/-- R8: a write of AWN_SYNC_VALUE_LO only stands pending. -/
theorem registerWrite_syncValueLo {s : State} (v : W64) (hl : s.bus.linkUp = true) :
    registerWrite 0x20030 4 v s = putHalf 0x20030 (v.extractLsb' 0 32) s := by
  simp [registerWrite, hostReaches_of_linkUp hl, write32]

/-- A write of AWN_SYNC_VALUE_HI reaches the pair. -/
theorem registerWrite_syncValueHi {s : State} (v : W64) (hl : s.bus.linkUp = true) :
    registerWrite 0x20034 4 v s = writeSyncValue (v.extractLsb' 0 32) s := by
  simp [registerWrite, hostReaches_of_linkUp hl, write32]

/-- R8: after a write of AWN_SYNC_VALUE_LO, a write of AWN_SYNC_VALUE_HI commits the two halves written. -/
theorem writeSyncValue_putHalf_syncValue (lo hi : W32) (s : State) :
    (writeSyncValue hi (putHalf 0x20030 lo s)).awn.syncValue = hi ++ lo := by
  simp [writeSyncValue]

/-! ### O25 -/

/-- Settles O25: reads by the capture that a _LO read leaves for its _HI read (R7), writes by the pending half that a
_LO write leaves for its _HI write (R8), also across a firing of the comparator in the tick of the write (R353). -/
theorem registerPairsReadAndCommitTogether : Obligations.RegisterPairsReadAndCommitTogether := by
  unfold Obligations.RegisterPairsReadAndCommitTogether
  refine ⟨?readLo, ?readHi, ?readRing, ?window, ?windowZero, ?target, ?targetIgnored, ?syncValue⟩
  case readLo =>
    intro s off v hl ho hv
    refine ⟨_, congrArg Host.Outcome.next (pairLoRead_lo hl ho hv), rfl, fun k hk => sget_sput_other none _ _ k _ hk,
      fun u hu => ?_, rfl⟩
    exact hiValue_of_captured (hu ▸ sget_sput_of_ne none _ _ _ (Option.some_ne_none _))
  case readHi =>
    intro s off hl ho hv
    exact ⟨_, congrArg Host.Outcome.next (pairLoRead_hi hl ho hv), rfl, fun k hk => sget_sput_other none _ _ k _ hk, rfl⟩
  case readRing =>
    intro s off hl ho
    exact congrArg Host.Outcome.next (pairLoRead_ring hl ho)
  case window =>
    intro s lo hi hl hne
    refine ⟨_, congrArg Host.Outcome.next (talWindowWrite_lo lo hl), rfl, _,
      congrArg Host.Outcome.next (talWindowWrite_hi_putHalf lo hi hl), ?_⟩
    rw [if_neg hne]
    exact ⟨rfl, rfl, rfl, rfl, rfl, rfl⟩
  case windowZero =>
    intro s hl
    refine ⟨_, congrArg Host.Outcome.next (talWindowWrite_lo 0 hl), _,
      congrArg Host.Outcome.next (talWindowWrite_hi_putHalf 0 0 hl), ?_⟩
    rw [if_pos (by decide)]
    exact ⟨rfl, rfl⟩
  case target =>
    intro s n lo hi hl hn
    refine ⟨_, congrArg Host.Outcome.next (cmpTargetWrite_lo lo hl hn), rfl, _,
      congrArg Host.Outcome.next (cmpTargetWrite_hi_putHalf lo hi hl hn), ?_⟩
    obtain ⟨awn, bus, snap, frame⟩ := fireCmp_frame n (putHalf (cmpOffset n) lo s)
    refine ⟨?_, ?_, fun m hm => ?_, fireCmp_tick n (putHalf (cmpOffset n) lo s), ?_, ?_, fun _ => ?_⟩
    · rw [frame]; rfl
    · exact congrArg Cmp.target (Vector.getElem_set_self _)
    · exact (cmps_set_of_ne _ _ hm).trans (fireCmp_cmps_of_ne hm (putHalf (cmpOffset n) lo s))
    all_goals rw [frame]; rfl
  case targetIgnored =>
    intro s n hi v hn
    exact congrArg Host.Outcome.next (cmpTargetWrite_of_lt hn hi v s)
  case syncValue =>
    intro s lo hi hl
    refine ⟨_, congrArg Host.Outcome.next (registerWrite_syncValueLo lo hl), rfl, _,
      congrArg Host.Outcome.next (registerWrite_syncValueHi hi hl), writeSyncValue_putHalf_syncValue _ _ s, ?_⟩
    exact ⟨rfl, rfl, rfl, rfl, rfl, rfl⟩

end Sys2Proof.Machine

namespace Sys2Proof.Machine

/-! ### A stall after it is written -/

/-- A stall that is not the reset stall reads back, whatever form the table of stalls has. -/
theorem getStall_setStall_self {x : Stall} (hx : x ≠ {}) (s : State) (i : Fin 1024) : getStall (setStall s i x) i = x :=
  sget_sput_of_ne ({} : Stall) s.stalls i.val x hx

/-- Writing a stall leaves the others. -/
theorem getStall_setStall_of_ne {i j : Fin 1024} (h : j ≠ i) (s : State) (x : Stall) : getStall (setStall s i x) j = getStall s j :=
  sget_sput_other ({} : Stall) s.stalls i.val j.val x (Fin.val_ne_of_ne h)

/-- A table into which a value other than the default has been written is not empty. -/
theorem sput_ne_nil {α : Type} [DecidableEq α] {d v : α} (hv : v ≠ d) (t : Sparse α) (k : Nat) : sput d t k v ≠ [] := by
  intro h
  have hget := sget_sput_of_ne d t k v hv
  rw [h] at hget
  exact hv hget.symm

/-- State t is s with stall i being x and nothing else changed. -/
structure StallBecomes (i : Fin 1024) (x : Stall) (s t : State) : Prop where
  rest : t = s.withStalls t.stalls
  others : ∀ j, j ≠ i → getStall t j = getStall s j
  here : getStall t i = x

/-- A stall written once, with a value that is not the reset stall. -/
theorem stallBecomes_setStall {x : Stall} (hx : x ≠ {}) (s : State) (i : Fin 1024) : StallBecomes i x s (setStall s i x) :=
  ⟨rfl, fun _ hj => getStall_setStall_of_ne hj s x, getStall_setStall_self hx s i⟩

/-- A stall written once more. -/
theorem StallBecomes.setStall {i : Fin 1024} {x y : Stall} {s t : State} (h : StallBecomes i x s t) (hy : y ≠ {}) :
    StallBecomes i y s (setStall t i y) where
  rest := by rw [h.rest]; rfl
  others j hj := (getStall_setStall_of_ne hj t y).trans (h.others j hj)
  here := getStall_setStall_self hy t i

/-- A busy stall is not the reset stall. -/
theorem stall_ne_reset_of_busy {x : Stall} (h : x.busy = true) : x ≠ {} :=
  ne_of_apply_ne Stall.busy (by rw [h]; exact Bool.noConfusion)

/-- A stall that produces a stream is not the reset stall. -/
theorem stall_ne_reset_of_outs {x : Stall} (h : x.outs ≠ []) : x ≠ {} := ne_of_apply_ne Stall.outs h

/-- A stall that consumes a stream is not the reset stall. -/
theorem stall_ne_reset_of_ins {x : Stall} (h : x.ins ≠ []) : x ≠ {} := ne_of_apply_ne Stall.ins h

/-- A stall with a running sum in its receive queue is not the reset stall. -/
theorem stall_ne_reset_of_sums {x : Stall} (h : x.sums ≠ []) : x ≠ {} := ne_of_apply_ne Stall.sums h

/-- A buffer reads back. -/
theorem bufs_set_self (bs : Vector Buf 4) (n : Fin 4) (b : Buf) : (bs.set n b)[n] = b := Vector.getElem_set_self _

/-- Writing a buffer leaves the others. -/
theorem bufs_set_of_ne (bs : Vector Buf 4) (b : Buf) {n m : Fin 4} (h : m ≠ n) : (bs.set n b)[m] = bs[m] :=
  Vector.getElem_set_ne _ _ (Fin.val_ne_of_ne h.symm)

/-! ### Preloads (R28 to R30) -/

/-- R28: a preload for a FREE buffer, in a format that a preload reads. -/
theorem preloadIssue_of_free {s : State} {i : Fin 1024} {n : Fin 4} {f : Fmt} (src : PreloadSrc) (only : Bool)
    (hfree : ((getStall s i).bufs[n]).state = .free) (hf : preloadFmtOk f = true) (hok : preloadOk s i = true) :
    preloadIssue i n src f only s = setStall s i { getStall s i with
      bufs := (getStall s i).bufs.set n { state := .preload, src := src, fmt := f, only := only } } :=
  if_pos ⟨hfree, hf, hok⟩

/-- R28: a buffer that is not FREE takes no preload. -/
theorem preloadIssue_of_not_free {s : State} {i : Fin 1024} {n : Fin 4} (src : PreloadSrc) (f : Fmt) (only : Bool)
    (h : ((getStall s i).bufs[n]).state ≠ .free) : preloadIssue i n src f only s = s :=
  if_neg fun hc => h hc.1

/-- R28, R100: a buffer whose last preloaded element is written. -/
def preloadedBuf (st : Stall) (b : Buf) (codes : List W32) : Buf :=
  { b with vals := (preloadCodes st b codes).map (fun c => toA32 (decode b.fmt c.toNat)), preloaded := true,
           state := if b.only then .drain else .accumulate }

/-- R28: a preload from a Cellar completes. -/
theorem preloadComplete_of_cellar {s : State} {i : Fin 1024} {n : Fin 4} (codes : List W32)
    (hp : ((getStall s i).bufs[n]).state = .preload) (hsrc : ((getStall s i).bufs[n]).src = .cellar) :
    preloadComplete i n codes s = setStall s i { getStall s i with
      wait := none, bufs := (getStall s i).bufs.set n (preloadedBuf (getStall s i) (getStall s i).bufs[n] codes) } := by
  unfold preloadComplete
  dsimp only
  rw [if_pos hp]
  split
  · rfl
  · next h => exact absurd (hsrc.symm.trans h) PreloadSrc.noConfusion

/-- R39: a preload from a stream completes once the stream holds its elements, and waits for them before. -/
theorem preloadComplete_of_stream {s : State} {i : Fin 1024} {n : Fin 4} {id : Nat} (codes : List W32)
    (hp : ((getStall s i).bufs[n]).state = .preload) (hsrc : ((getStall s i).bufs[n]).src = .stream id) :
    preloadComplete i n codes s =
      if streamLacks (getStall s i) id (fmtBits ((getStall s i).bufs[n]).fmt * codes.length) then streamShort i id s
      else consumeStream i id (fmtBits ((getStall s i).bufs[n]).fmt * codes.length) (setStall s i { getStall s i with
        wait := none, bufs := (getStall s i).bufs.set n (preloadedBuf (getStall s i) (getStall s i).bufs[n] codes) }) := by
  unfold preloadComplete
  dsimp only
  rw [if_pos hp]
  split
  · next h => exact absurd (hsrc.symm.trans h) PreloadSrc.noConfusion
  · next h =>
    obtain rfl : id = _ := PreloadSrc.stream.inj (hsrc.symm.trans h)
    rfl

/-! ### Why a block pass waits (R29, R32, R65, R235) -/

/-- A clause of no attention ring opens none. -/
theorem openRing_of_no_ring {s : State} {clause : Nat} (h : clauseRing s clause = none) : openRing clause s = s := by
  simp [openRing, h]

/-- A clause of no attention ring waits for none. -/
theorem ringWaits_of_no_ring {s : State} {clause : Nat} (h : clauseRing s clause = none) : ringWaits s clause = false := by
  simp [ringWaits, h]

/-- A clause whose weights the member holds asks for no gather. -/
theorem askGathers_of_held {s : State} {clause : Nat} (h : gathers s clause = false) : askGathers clause s = s := by
  simp [askGathers, h]

/-- A clause whose weights the member holds waits for no gather. -/
theorem gatherAwaited_of_held {s : State} {clause : Nat} (h : gathers s clause = false) : gatherAwaited s clause = false := by
  simp [gatherAwaited, h]

/-- R26: up to 64 rows run into the pass's one buffer. -/
theorem passBufs_of_one {p : BlockPass} {n : Fin 4} (hb : p.bufs = [n]) (h1 : 1 ≤ p.rows.length) (h64 : p.rows.length ≤ 64) :
    passBufs p = [(n, 0)] := by
  have hone : (p.rows.length + 63) / 64 = 1 := by omega
  rw [passBufs, hb, hone]
  rfl

/-- R26, R98: a pass beyond the limits of the accumulator set or of the cascade store is not one that the clause gives. -/
theorem passOk_of_beyond {s : State} {i : Fin 1024} {p : BlockPass} (h : p.rows.length > 256 ∨ p.rows.length > 64 * p.bufs.length ∨
    ¬ p.bufs.Nodup ∨ cascadeUse (getStall s i) p > 32) : passOk s i p = false := by
  obtain h | h | h | h := h
  · simp [passOk, Nat.not_le.mpr h]
  · simp [passOk, Nat.not_le.mpr h]
  · simp [passOk, h]
  · simp [passOk, Nat.not_le.mpr h]

/-- A pass that the clause and the plan do not give does nothing. -/
theorem weightPass_of_not_ok {s : State} {i : Fin 1024} {p : BlockPass} (h : passOk s i p = false) : weightPass i p s = s := by
  simp [weightPass, h]

/-- R32: a draining buffer makes a pass wait for its output. -/
theorem bufWait_of_drain {b : Buf} (h : b.state = .drain) : bufWait b = some waitOutput := by simp [bufWait, h]

/-- R29: a preloading buffer makes a pass wait for the preload's source, a Cellar or a stream. -/
theorem bufWait_of_preload {b : Buf} (h : b.state = .preload) :
    (b.src = .cellar → bufWait b = some waitCellar) ∧ ∀ id, b.src = .stream id → bufWait b = some waitInput :=
  ⟨fun hsrc => by simp [bufWait, h, hsrc], fun id hsrc => by simp [bufWait, h, hsrc]⟩

/-- R27: a FREE or accumulating buffer takes products. -/
theorem bufWait_of_takes {b : Buf} (h : b.state = .free ∨ b.state = .accumulate) : bufWait b = none := by
  obtain h | h := h <;> simp [bufWait, h]

section ChosenPass

/-! A pass that the clause and the plan give, of a chosen sentence whose clause has no ring and holds its weights. -/

variable {s : State} {i : Fin 1024} {p : BlockPass} {n : Fin 4} (hok : passOk s i p = true)
  (hchosen : clauseChosen s (getStall s i).ctx = some true) (hring : clauseRing s (getStall s i).ctx = none)
  (hheld : gathers s (getStall s i).ctx = false)

/-- R29, R32: a buffer that takes no product makes the pass wait, whatever else it lacks. -/
theorem passWait_of_buf_waits {cause : Fin 14} (hb : passBufs p = [(n, 0)]) (hw : bufWait (getStall s i).bufs[n] = some cause) :
    passWait s i p = some cause := by
  simp [-Fin.getElem_fin, passWait, hb, hw]

include hring hheld in
/-- R65, R235: with a buffer that takes products a pass waits for its expert's fetch, then for its rows, then for the stall's outputs. -/
theorem passWait_of_buf_takes (hb : passBufs p = [(n, 0)]) (hw : bufWait (getStall s i).bufs[n] = none) :
    passWait s i p = if expertAway s p then some waitExpertFetch
      else if rowsAwaited s p then some waitInput else outputWait (getStall s i) := by
  simp [-Fin.getElem_fin, passWait, hb, hw, ringWaits_of_no_ring hring, gatherAwaited_of_held hheld]

include hok hchosen hring hheld

/-- A pass that cannot run now makes its stall wait. -/
theorem weightPass_of_wait {cause : Fin 14} (hw : passWait s i p = some cause) : weightPass i p s = stallWaits i cause s := by
  simp [weightPass, hok, hchosen, openRing_of_no_ring hring, askGathers_of_held hheld, hw]

/-- A pass whose rows, buffer and weights are in place runs. -/
theorem weightPass_of_ready (hw : passWait s i p = none) (hrows : halfRows s p = true) (hb : passBufs p = [(n, 0)])
    (honly : ((getStall s i).bufs[n]).only = false) (hcomplete : ((getStall s i).bufs[n]).complete = false)
    (hsound : (weightSections s (getStall s i).ctx p).any (unsound s) = false) (hstream : p.stream = none) :
    weightPass i p s = runPass i p s := by
  simp only [weightPass, hok, hchosen, openRing_of_no_ring hring, askGathers_of_held hheld, hw, hrows, hb, hsound, hstream]
  simp [-Fin.getElem_fin, honly, hcomplete]

end ChosenPass

/-! ### A block enters its buffer (R26 to R28, R97, R100, R277) -/

/-- A block gives its buffer its place in the chain. -/
@[simp] theorem bufBlock_chain (p : BlockPass) (j : Nat) (tile : List W32) (b : Buf) : (bufBlock p j tile b).chain = p.chain := by
  unfold bufBlock
  cases p.last
  · rfl
  · cases p.chain <;> rfl

/-- R96: a block counts among its buffer's blocks. -/
@[simp] theorem bufBlock_blocks (p : BlockPass) (j : Nat) (tile : List W32) (b : Buf) : (bufBlock p j tile b).blocks = b.blocks + 1 := by
  unfold bufBlock
  cases p.last
  · rfl
  · cases p.chain <;> rfl

/-- R97: a block that is not the last pushes its tile into the cascade. -/
theorem bufBlock_of_not_last {p : BlockPass} (h : p.last = false) (j : Nat) (tile : List W32) (b : Buf) :
    (bufBlock p j tile b).state = .accumulate ∧ (bufBlock p j tile b).cascade = tilePush tile 0 b.cascade := by
  simp [bufBlock, h]

/-- R31, R97, R100: the last block of a tile outside a chain merges the cascade and adds the preload. -/
theorem bufBlock_of_last {p : BlockPass} (h : p.last = true) (hchain : p.chain = none) (j : Nat) (tile : List W32) (b : Buf) :
    (bufBlock p j tile b).state = .drain ∧ (bufBlock p j tile b).vals =
      (if b.preloaded then addTiles b.vals (tileMerge (tilePush tile 0 b.cascade)) else tileMerge (tilePush tile 0 b.cascade)) := by
  simp [bufBlock, h, hchain, tileResult]

/-- A buffer of no chain takes no chain step. -/
theorem chainStep_of_no_chain {s : State} {i : Fin 1024} {n : Fin 4} {x : Stall} (hx : getStall s i = x) (h : (x.bufs[n]).chain = none) :
    chainStep i n s = s := by
  simp [-Fin.getElem_fin, chainStep, hx, h]

/-- A pass with no stream runs with the weights that the module reads and with its own rows. -/
theorem passData_of_no_stream {s : State} {i : Fin 1024} {p : BlockPass} (h : p.stream = none) :
    passData s i p = { p with weights := passWeights s i (getStall s i) p } := by
  simp [passData, h]

/-- The tile that a pass sums depends on the program and the plan, not on the stalls. -/
@[simp] theorem tileOf_setStall (s : State) (i : Fin 1024) (x st : Stall) (p : BlockPass) (j : Nat) :
    tileOf (setStall s i x) st p j = tileOf s st p j := rfl

/-- The column results of a pass, with what a fault changed of them. -/
def passValues (d : BlockPass) : List W32 := passResults d ((List.range d.rows.length).flatMap (rowResult d))

/-- R468: the drain check of a tile that a block completes; no other block has one. -/
def lastBlockCheck (d : BlockPass) (tile : List W32) (b : Buf) : Option (Nat × W32 × W32) :=
  if d.last then drainCheck (tileMerge (tilePush tile 0 b.cascade)) (tileMerge (tilePush (checkTile d 0) 0 b.checks)) else none

/-- R26: a stall that has run a block into its buffer n. -/
def blockEntered (d : BlockPass) (n : Fin 4) (x : Stall) : Stall :=
  { x with bufs := x.bufs.set n (bufBlock d 0 ((passValues d).take 2048) x.bufs[n]), busy := true, wait := none }

/-- The buffer holds the block. -/
theorem blockEntered_buf (d : BlockPass) (n : Fin 4) (x : Stall) :
    (blockEntered d n x).bufs[n] = bufBlock d 0 ((passValues d).take 2048) x.bufs[n] := bufs_set_self _ n _

/-- A stall that has run a block is busy. -/
theorem blockEntered_ne_reset (d : BlockPass) (n : Fin 4) (x : Stall) : blockEntered d n x ≠ {} := stall_ne_reset_of_busy rfl

section RunPass

variable {s : State} {i : Fin 1024} {p : BlockPass} {n : Fin 4} (hstream : p.stream = none) (hb : passBufs p = [(n, 0)])
include hstream hb

/-- R277: a block of an expert's weight gradient enters that tile, and the block check judges it. -/
theorem runPass_of_tile {k : ExpertRef × Nat} (hk : tileOf s (getStall s i) (passData s i p) 0 = some k) :
    runPass i p s = checkDetected i 3 (blockCheck (passData s i p) (passValues (passData s i p)))
      (tileBlock i (passData s i p) k n ((passValues (passData s i p)).take 2048)
        (setStall s i { getStall s i with busy := true, wait := none })) := by
  have hbufs : passBufs (passData s i p) = [(n, 0)] := by rw [passData_of_no_stream hstream]; exact hb
  unfold runPass
  simp only [hk, hbufs, hstream, Option.isSome_some, if_true, List.foldl_cons, List.foldl_nil, tileOf_setStall]
  rfl

/-- R26, R97, R468: another block enters its buffer's cascade; the block check judges it, and the drain check the last one. -/
theorem runPass_of_no_tile (hchain : p.chain = none) (hk : tileOf s (getStall s i) (passData s i p) 0 = none) :
    runPass i p s = checkDetected i 4
      (lastBlockCheck (passData s i p) ((passValues (passData s i p)).take 2048) (getStall s i).bufs[n])
      (checkDetected i 3 (blockCheck (passData s i p) (passValues (passData s i p)))
        (setStall s i (blockEntered (passData s i p) n (getStall s i)))) := by
  have hd := passData_of_no_stream (s := s) (i := i) hstream
  have hbufs : passBufs (passData s i p) = [(n, 0)] := by rw [hd]; exact hb
  have hchainStep := chainStep_of_no_chain (n := n)
    (getStall_setStall_self (blockEntered_ne_reset (passData s i p) n (getStall s i)) s i)
    (by rw [blockEntered_buf, bufBlock_chain, hd]; exact hchain)
  unfold runPass
  simp only [hk, hbufs, hstream, Option.isSome_none, Bool.false_eq_true, if_false, List.foldl_cons, List.foldl_nil, List.head?_filterMap,
    List.findSome?_singleton]
  exact congrArg (fun t => checkDetected i 4 _ (checkDetected i 3 _ t)) hchainStep

end RunPass

/-! ### Running sums (R48, R49, R101) -/

/-- R49: before the partial tile is complete a buffer takes no chain step. -/
theorem chainStep_of_incomplete {s : State} {i : Fin 1024} {n : Fin 4} {x : Stall} (hx : getStall s i = x)
    (h : (x.bufs[n]).complete = false) : chainStep i n s = s := by
  simp [-Fin.getElem_fin, chainStep, hx, h]

/-- R48: a stall once the oldest sum that waits for buffer n has been used: the buffer is b, and the sums of `rest` wait. -/
def sumTaken (n : Fin 4) (b : Buf) (rest : List (List W32)) (x : Stall) : Stall :=
  { x with bufs := x.bufs.set n b, sums := sput [] x.sums n.val rest, wait := none, busy := true }

/-- R48: the last stall's buffer with the chain's whole sum. -/
def sumDrained (c : List W32) (b : Buf) : Buf :=
  { b with state := .drain, vals := addTiles c b.vals, cascade := [], checks := [], complete := true }

section RunningSum

variable {s : State} {i : Fin 1024} {n : Fin 4} {x : Stall} {j m : Nat} {c : List W32} {rest : List (List W32)}
  (hx : getStall s i = x) (hchain : (x.bufs[n]).chain = some (j, m)) (hcomplete : (x.bufs[n]).complete = true)
  (hstate : (x.bufs[n]).state = .accumulate) (hj : 0 < j) (hsum : sget [] x.sums n.val = c :: rest)
include hx hchain hcomplete hstate hj hsum

/-- R48: a stall inside a chain adds the oldest sum that waits to its complete tile and sends the result on. -/
theorem chainStep_of_sends (hm : j + 1 < m) :
    chainStep i n s = settleOutput i (sendSum i j (addTiles c (x.bufs[n]).vals) (setStall s i (sumTaken n {} rest x))) := by
  simp [-Fin.getElem_fin, sumTaken, chainStep, hx, hchain, hcomplete, hstate, Nat.ne_of_gt hj, hsum, chainForward, hm]

/-- R48: the last stall of a chain adds the oldest sum that waits to its complete tile and drains. -/
theorem chainStep_of_drains (hm : j + 1 = m) :
    chainStep i n s = setStall s i (sumTaken n (sumDrained c x.bufs[n]) rest x) := by
  simp [-Fin.getElem_fin, sumTaken, sumDrained, chainStep, hx, hchain, hcomplete, hstate, Nat.ne_of_gt hj, hsum, chainForward, hm]

end RunningSum

/-- R49: a stall after a running sum has joined its receive queue. -/
def sumQueued (n : Fin 4) (c : List W32) (st : Stall) : Stall :=
  { st with sums := sput [] st.sums n.val (sget [] st.sums n.val ++ [c]) }

/-- The queue of running sums ends with the sum that has come. -/
theorem sumQueued_sums (n : Fin 4) (c : List W32) (st : Stall) :
    sget [] (sumQueued n c st).sums n.val = sget [] st.sums n.val ++ [c] :=
  sget_sput_of_ne [] _ _ _ (by simp)

/-- A running sum joins the queue, and the stall then adds what it can. -/
theorem runningSum_eq (i : Fin 1024) (n : Fin 4) (c : List W32) (s : State) :
    runningSum i n c s = chainStep i n (setStall s i (sumQueued n c (getStall s i))) := rfl

/-- A stall with a queued sum is not the reset stall. -/
theorem sumQueued_ne_reset (n : Fin 4) (c : List W32) (st : Stall) : sumQueued n c st ≠ {} :=
  stall_ne_reset_of_sums (sput_ne_nil (by simp) _ _)

/-! ### O44 -/

/-- Settles O44, by the equations above of each command for each state of the buffer. A state need not be in canonical form: every stall
that the commands write back here is busy or holds a sum, so that it reads back from any table. -/
theorem accumulatorBuffersFollowTheirStates : Obligations.AccumulatorBuffersFollowTheirStates := by
  unfold Obligations.AccumulatorBuffersFollowTheirStates
  refine ⟨?issue, ?issueIgnored, ?complete, ?pass, ?passIgnored, ?sum, ?sumWaits⟩
  case issue =>
    intro s i n src f only hf hok hfree
    have hfmt : preloadFmtOk f = true := by obtain rfl | rfl | rfl := hf <;> rfl
    exact congrArg Host.Outcome.next (preloadIssue_of_free src only hfree hfmt hok)
  case issueIgnored =>
    intro s i n src f only h
    exact congrArg Host.Outcome.next (preloadIssue_of_not_free src f only h)
  case complete =>
    rintro s i n codes b u rfl hp rfl
    refine ⟨fun hsrc => congrArg Host.Outcome.next (preloadComplete_of_cellar codes hp hsrc),
      fun id hsrc => ⟨fun hl => ?_, fun hl => ?_⟩⟩
    · exact congrArg Host.Outcome.next ((preloadComplete_of_stream codes hp hsrc).trans (if_pos hl))
    · exact congrArg Host.Outcome.next ((preloadComplete_of_stream codes hp hsrc).trans (if_neg (ne_true_of_eq_false hl)))
  case pass =>
    rintro s i n p b rfl hbufs h1 h64 hchain hok hchosen hring hheld
    have hb := passBufs_of_one hbufs h1 h64
    have waits : ∀ cause, passWait s i p = some cause → exec (.weightBlockPass i p) s = .next (stallWaits i cause s) :=
      fun cause hw => congrArg Host.Outcome.next (weightPass_of_wait hok hchosen hring hheld hw)
    have takes := fun hs => passWait_of_buf_takes hring hheld hb (bufWait_of_takes hs)
    refine ⟨fun hs => ?inDrain, fun hs => ?inPreload, fun hs haway => ?away, fun hs haway hrows => ?rows, ?runs⟩
    case inDrain => exact waits _ (passWait_of_buf_waits hb (bufWait_of_drain hs))
    case inPreload =>
      split
      · next hsrc => exact waits _ (passWait_of_buf_waits hb ((bufWait_of_preload hs).1 hsrc))
      · next id hsrc => exact waits _ (passWait_of_buf_waits hb ((bufWait_of_preload hs).2 id hsrc))
    case away => exact waits _ (by simp [takes hs, haway])
    case rows => exact waits _ (by simp [takes hs, haway, hrows])
    case runs =>
      rintro d tile hs honly hcomplete haway hrows hout hhalf hsound hstream rfl rfl
      have hrun : weightPass i p s = runPass i p s := weightPass_of_ready hok hchosen hring hheld
        (by simp [takes hs, haway, hrows, hout]) hhalf hb honly hcomplete hsound hstream
      refine ⟨fun k hk => congrArg Host.Outcome.next (hrun.trans (runPass_of_tile hstream hb hk)), fun hk => ?_⟩
      have hbecomes := stallBecomes_setStall (blockEntered_ne_reset (passData s i p) n (getStall s i)) s i
      have hd := passData_of_no_stream (s := s) (i := i) hstream
      refine ⟨_, _, congrArg Host.Outcome.next (hrun.trans (runPass_of_no_tile hstream hb hchain hk)), hbecomes.rest, hbecomes.others,
        fun m hm => ?_, ?_, fun hlast => ⟨if_neg (by simp [hd, hlast]), ?_⟩, fun hlast => ?_⟩
      all_goals rw [hbecomes.here]
      · exact bufs_set_of_ne _ _ hm
      all_goals rw [blockEntered_buf]
      · exact bufBlock_blocks _ _ _ _
      · exact bufBlock_of_not_last (by rw [hd]; exact hlast) _ _ _
      · exact bufBlock_of_last (by rw [hd]; exact hlast) (by rw [hd]; exact hchain) _ _ _
  case passIgnored =>
    intro s i p h
    exact congrArg Host.Outcome.next (weightPass_of_not_ok (passOk_of_beyond h))
  case sum =>
    rintro s i n c b j m rfl hchain hcomplete hstate hj hempty
    have hqueued := stallBecomes_setStall (sumQueued_ne_reset n c (getStall s i)) s i
    have hsum : sget [] (sumQueued n c (getStall s i)).sums n.val = [c] := by rw [sumQueued_sums, hempty]; rfl
    refine ⟨fun hm => ?sends, fun hm => ?drains⟩
    case sends =>
      have hsent := chainStep_of_sends hqueued.here hchain hcomplete hstate hj hsum hm
      have hfreed := hqueued.setStall (y := sumTaken n {} [] (sumQueued n c (getStall s i))) (stall_ne_reset_of_busy rfl)
      exact ⟨_, congrArg Host.Outcome.next hsent, hfreed.rest, congrArg Stall.bufs hfreed.here, congrArg Stall.wait hfreed.here,
        hfreed.others⟩
    case drains =>
      have hdrained := chainStep_of_drains hqueued.here hchain hcomplete hstate hj hsum hm
      have hheld := hqueued.setStall (y := sumTaken n (sumDrained c (getStall s i).bufs[n]) [] (sumQueued n c (getStall s i)))
        (stall_ne_reset_of_busy rfl)
      have hbuf := (congrArg (fun x : Stall => x.bufs[n]) hheld.here).trans (bufs_set_self _ n _)
      exact ⟨_, congrArg Host.Outcome.next hdrained, hheld.rest, rfl, congrArg Buf.state hbuf, congrArg Buf.vals hbuf, hheld.others⟩
  case sumWaits =>
    intro s i n c hcomplete
    have hqueued := stallBecomes_setStall (sumQueued_ne_reset n c (getStall s i)) s i
    have hkept := (runningSum_eq i n c s).trans (chainStep_of_incomplete hqueued.here hcomplete)
    refine ⟨_, congrArg Host.Outcome.next hkept, ?_, rfl, ?_, hqueued.others, hqueued.rest⟩
    all_goals rw [hqueued.here]
    · rfl
    · exact sumQueued_sums n c _

/-! ### Drained elements (R31, R76, R88) -/

/-- R31: an element that the drain path may not take changes nothing. -/
theorem drainElement_of_not_ok {s : State} {i : Fin 1024} {n : Fin 4} {d : DrainElem} (h : drainOk s i n d = false) :
    drainElement i n d s = s := by
  simp [drainElement, h]

/-- R22: an element of a shadow that a snapshot drains waits. -/
theorem drainElement_of_shadow {s : State} {i : Fin 1024} {n : Fin 4} {d : DrainElem} (hok : drainOk s i n d = true)
    (hwait : shadowWaits s d.tid = true) : drainElement i n d s = stallWaits i waitPeer s := by
  simp [drainElement, hok, hwait]

/-- R76, R88: an element of a plain output has the plain conversion and brings no block scale. -/
theorem drainConv_of_plain {d : DrainElem} (h : dcMxOut d.desc.control = false) (s : State) (i : Fin 1024) (w : TensorWrite) (b : Buf) :
    drainConv s i w d b = (drainPlain d.desc (drainScale s i d d.col) (drainBias s i d d.col) (writeDraw s w (drainIdx d d.row d.col))
      (b.vals.getD (32 * d.row + d.col) 0), none) := by
  simp [drainConv, h]

/-- R31: only an element of a buffer in DRAIN, not yet read and held by no span, is one that the drain path may take. -/
theorem drainOk_of_held {s : State} {i : Fin 1024} {n : Fin 4} {d : DrainElem} (h : ((getStall s i).bufs[n]).state ≠ .drain ∨
    32 * d.row + d.col ∈ ((getStall s i).bufs[n]).readSet ∨ ∃ sp, (getStall s i).span = some sp ∧ n ∈ sp.init.accs) :
    drainOk s i n d = false := by
  obtain h | h | ⟨sp, hspan, hn⟩ := h
  · simp [-Fin.getElem_fin, drainOk, h]
  · simp [-Fin.getElem_fin, drainOk, h]
  · simp [drainOk, hspan, hn]

/-- R31: an element that is not the tile's last is marked read. -/
theorem bufRead_of_more {d : DrainElem} {b : Buf} (h : b.readSet.length + 1 < d.tileRows * d.tileCols) :
    bufRead d b = { b with readSet := b.readSet ++ [32 * d.row + d.col] } := by
  simp [bufRead, Nat.not_le.mpr h]

/-- R31: the tile's last element frees the buffer. -/
theorem bufRead_of_last {d : DrainElem} {b : Buf} (h : d.tileRows * d.tileCols ≤ b.readSet.length + 1) : bufRead d b = {} := by
  simp [bufRead, h]

/-! ### Stream flits leave (R38, R39, R42) -/

/-- R42: a seal depends on the program, the plan, the slice and the run, not on the stalls. -/
@[simp] theorem streamSeal_withStalls (s : State) (x : Sparse Stall) (tid : W64) (content scales : Bytes) (r : WriteRecord) :
    streamSeal (s.withStalls x) tid content scales r = streamSeal s tid content scales r := rfl

/-- Forming a flit spends no credit. -/
@[simp] theorem formFlit_credits (s : State) (o : OutStream) (f : StreamFlit) : (formFlit s o f).2.credits = o.credits := by
  unfold formFlit
  cases f.last <;> rfl

/-- Forming a flit leaves the waiting ones. -/
@[simp] theorem formFlit_backlog (s : State) (o : OutStream) (f : StreamFlit) : (formFlit s o f).2.backlog = o.backlog := by
  unfold formFlit
  cases f.last <;> rfl

/-- R42: the tensor's last flit is sealed over all that the stream has carried, and the next tensor begins. -/
theorem formFlit_of_last {f : StreamFlit} (h : f.last = true) (s : State) (o : OutStream) :
    (formFlit s o f).1.carried = streamSeal s f.tid (o.content ++ f.bytes) (o.scales ++ f.scales) f.record ∧
      (formFlit s o f).2.sent = 0 ∧ (formFlit s o f).2.content = [] := by
  simp [formFlit, h]

/-- R37: another flit is counted and its bytes join the stream's content. -/
theorem formFlit_of_not_last {f : StreamFlit} (h : f.last = false) (s : State) (o : OutStream) :
    (formFlit s o f).2.sent = o.sent + 1 ∧ (formFlit s o f).2.content = o.content ++ f.bytes := by
  simp [formFlit, h]

/-- A stall whose output stream `id` is o. -/
def withOutStream (id : Nat) (o : OutStream) (x : Stall) : Stall := { x with outs := sput {} x.outs id o }

/-- A stream that has consumers is not the reset stream. -/
theorem outStream_ne_reset {o : OutStream} (h : o.credits ≠ []) : o ≠ {} := ne_of_apply_ne OutStream.credits h

/-- A stream that has consumers reads back. -/
theorem withOutStream_outs {o : OutStream} (h : o.credits ≠ []) (id : Nat) (x : Stall) : sget {} (withOutStream id o x).outs id = o :=
  sget_sput_of_ne ({} : OutStream) _ _ _ (outStream_ne_reset h)

/-- A stall that produces a stream with consumers is not the reset stall. -/
theorem withOutStream_ne_reset {o : OutStream} (h : o.credits ≠ []) (id : Nat) (x : Stall) : withOutStream id o x ≠ {} :=
  stall_ne_reset_of_outs (sput_ne_nil (outStream_ne_reset h) _ _)

/-- A stream whose next flit is formed and waits. -/
def flitFormed (s : State) (o : OutStream) (f : StreamFlit) : OutStream :=
  { (formFlit s o f).2 with backlog := [(formFlit s o f).1] }

/-- R42: no stall changes a flit that is formed. -/
theorem flitFormed_setStall (s : State) (i : Fin 1024) (x : Stall) (o : OutStream) (f : StreamFlit) :
    flitFormed (setStall s i x) o f = flitFormed s o f := rfl

/-- R38: a stream whose one waiting flit has left. -/
def flitSent (o : OutStream) : OutStream := { spendCredits o 1 with backlog := [] }

/-- A stream keeps its consumers when a flit is formed. -/
@[simp] theorem flitFormed_credits (s : State) (o : OutStream) (f : StreamFlit) : (flitFormed s o f).credits = o.credits :=
  formFlit_credits s o f

/-- A stream keeps its consumers when a flit leaves. -/
theorem flitSent_credits_ne_nil {o : OutStream} (h : o.credits ≠ []) : (flitSent o).credits ≠ [] := by
  simp [flitSent, spendCredits, h]

/-- R38: a flit formed and sent costs one credit of every consumer. -/
theorem flitSent_flitFormed {o : OutStream} (hb : o.backlog = []) (s : State) (f : StreamFlit) :
    flitSent (flitFormed s o f) = { (formFlit s o f).2 with credits := o.credits.map (fun c => (c.1, c.2 - 1)) } := by
  simp [flitSent, flitFormed, spendCredits, hb]

/-- A stall that goes on with its work. -/
def stallRuns (x : Stall) : Stall := { x with wait := none, busy := true }

/-- R37: one flit is formed and waits, and leaves if it has its credits. -/
theorem sendFlits_one {s : State} {i : Fin 1024} {id : Nat} (f : StreamFlit) {x : Stall} {o : OutStream} (hx : getStall s i = x)
    (ho : sget {} x.outs id = o) (hb : o.backlog = []) :
    sendFlits i id [f] s = flushStream i id 1 (setStall s i (withOutStream id (flitFormed s o f) x)) := by
  simp [sendFlits, hx, ho, hb, withOutStream, flitFormed]

/-- R38: a flit that waits alone leaves, spending a credit of every consumer. -/
theorem flushStream_one {s : State} {i : Fin 1024} {id : Nat} {f : StreamFlit} {x : Stall} {o : OutStream} (hx : getStall s i = x)
    (ho : sget {} x.outs id = o) (hb : o.backlog = [f]) (hc : hasCredits o 1 = true) :
    flushStream i id 1 s = aisleSend i .vc0 (.stream id f) (o.credits.map (·.1)) (setStall s i (withOutStream id (flitSent o) x)) := by
  simp [flushStream, hx, ho, hb, hc, withOutStream, flitSent]

/-- R38: a stream has a credit of every consumer exactly when none has 0. -/
theorem hasCredits_one_iff (o : OutStream) : hasCredits o 1 = true ↔ ∀ c ∈ o.credits, 1 ≤ c.2 := by
  simp [hasCredits]

/-- R38, R41: with a credit of every consumer a flit is formed and leaves towards each of them. -/
theorem streamSend_of_credits {s : State} {i : Fin 1024} {id : Nat} (f : StreamFlit) {o : OutStream}
    (ho : sget {} (getStall s i).outs id = o) (hne : o.credits ≠ []) (hc : ∀ c ∈ o.credits, 1 ≤ c.2) (hb : o.backlog = []) :
    ∃ u outs, streamSend i id f s = aisleSend i .vc0 (.stream id (formFlit s o f).1) (o.credits.map (·.1)) u ∧
      StallBecomes i { getStall s i with outs := outs, wait := none, busy := true } s u ∧
      sget {} outs id = { (formFlit s o f).2 with credits := o.credits.map (fun c => (c.1, c.2 - 1)) } := by
  have hcredits := (hasCredits_one_iff o).mpr hc
  have hformedNe : (flitFormed s o f).credits ≠ [] := by rw [flitFormed_credits]; exact hne
  have hsentNe := flitSent_credits_ne_nil hformedNe
  have hruns := stallBecomes_setStall (x := stallRuns (getStall s i)) (stall_ne_reset_of_busy rfl) s i
  have hform := hruns.setStall (withOutStream_ne_reset hformedNe id (stallRuns (getStall s i)))
  have hsent := hform.setStall (withOutStream_ne_reset hsentNe id (withOutStream id (flitFormed s o f) (stallRuns (getStall s i))))
  refine ⟨_, _, ?sends, hsent, (withOutStream_outs hsentNe id _).trans (flitSent_flitFormed hb s f)⟩
  calc streamSend i id f s
      = sendFlits i id [f] (setStall s i (stallRuns (getStall s i))) := by
        simp [streamSend, stallRuns, ho, hne, hcredits, hb]
    _ = flushStream i id 1 _ := by rw [sendFlits_one f hruns.here ho hb, flitFormed_setStall]
    _ = aisleSend i .vc0 (.stream id (formFlit s o f).1) ((flitFormed s o f).credits.map (·.1)) _ :=
        flushStream_one hform.here (withOutStream_outs hformedNe id _) rfl (by rw [hasCredits, flitFormed_credits]; exact hcredits)
    _ = _ := by rw [flitFormed_credits]

/-- R38, R39: without a credit of some consumer the stall waits. -/
theorem streamSend_of_no_credit {s : State} {i : Fin 1024} {id : Nat} (f : StreamFlit) {o : OutStream}
    (ho : sget {} (getStall s i).outs id = o) (hne : o.credits ≠ []) (hc : ∃ c ∈ o.credits, c.2 = 0) :
    streamSend i id f s = stallWaits i waitOutput s := by
  have hcredits : hasCredits o 1 = false := by
    obtain ⟨c, hmem, hzero⟩ := hc
    refine Bool.eq_false_iff.mpr fun h => ?_
    have hone := (hasCredits_one_iff o).mp h c hmem
    omega
  simp [streamSend, ho, hne, hcredits]

/-! ### Credits and flits arrive (R37, R38, R42) -/

/-- R39, R135: after an arrival at a stall that is not the reset stall, at most its wait settles. -/
theorem settleWait_setStall {x : Stall} (hx : ∀ w : Option (Fin 14), { x with wait := w } ≠ {}) (s : State) (i : Fin 1024) (cause : Fin 14) :
    ∃ w, StallBecomes i { x with wait := w } s (settleWait i cause (setStall s i x)) := by
  have h : StallBecomes i x s (setStall s i x) := stallBecomes_setStall (hx x.wait) s i
  unfold settleWait
  rw [h.here]
  dsimp only
  split
  · exact ⟨_, h.setStall (hx _)⟩
  · exact ⟨x.wait, h⟩

/-- R38: a credit that has not arrived changes nothing. -/
theorem creditReturn_of_none {s : State} {i : Fin 1024} {id c : Nat}
    (h : takeFlit (fun l => decide (l = .credit id c)) (getStall s i).arrived = none) : creditReturn i id c s = s := by
  simp [creditReturn, h]

/-- A stall whose output stream `id` is o, with `rest` left at its port. -/
def creditTaken (id : Nat) (rest : List AisleFlit) (o : OutStream) (x : Stall) : Stall := { withOutStream id o x with arrived := rest }

/-- A stall with a stream that has consumers is not the reset stall, whatever it waits for. -/
theorem creditTaken_ne_reset {o : OutStream} (h : o.credits ≠ []) (id : Nat) (rest : List AisleFlit) (x : Stall) (w : Option (Fin 14)) :
    { creditTaken id rest o x with wait := w } ≠ {} :=
  stall_ne_reset_of_outs (sput_ne_nil (outStream_ne_reset h) _ _)

/-- R38: an arrived credit of a stream's one consumer is held, up to Q, and leaves the stall's port. -/
theorem creditReturn_of_arrived {s : State} {i : Fin 1024} {id c n : Nat} {o : OutStream} {g : AisleFlit} {rest : List AisleFlit}
    (ho : sget {} (getStall s i).outs id = o) (hc : o.credits = [(c, n)]) (hb : o.backlog = [])
    (htake : takeFlit (fun l => decide (l = .credit id c)) (getStall s i).arrived = some (g, rest)) :
    creditReturn i id c s = settleWait i waitOutput
      (setStall s i (creditTaken id rest { o with credits := [(c, min o.q (n + 1))] } (getStall s i))) := by
  simp [creditReturn, htake, ho, hc, hb, flushStream, creditTaken, withOutStream]

/-- R37: with no flit of the stream at the port, none is received. -/
theorem streamReceive_of_none {s : State} {i : Fin 1024} {id : Nat} {f : StreamFlit}
    (h : takeFlit (isStream id) (getStall s i).arrived = none) : streamReceive i id f s = s := by
  simp [streamReceive, h]

/-- R37: a flit out of its order is not received. -/
theorem streamReceive_of_out_of_order {s : State} {i : Fin 1024} {id : Nat} {f : StreamFlit}
    (h : f.idx ≠ (sget {} (getStall s i).ins id).got) : streamReceive i id f s = s := by
  unfold streamReceive
  dsimp only
  split
  · rfl
  · exact if_pos h

/-- A stall that has queued a flit of stream `id`, with `rest` left at its port. -/
def flitQueued (id : Nat) (f : StreamFlit) (rest : List AisleFlit) (x : Stall) : Stall :=
  { x with ins := sput {} x.ins id (queueFlit (sget {} x.ins id) f), arrived := rest }

/-- A stream that holds a flit is not the reset stream. -/
theorem queueFlit_ne_reset (q : InStream) (f : StreamFlit) : queueFlit q f ≠ {} :=
  ne_of_apply_ne InStream.queue (by simp [queueFlit])

/-- The queued flit reads back. -/
theorem flitQueued_ins (id : Nat) (f : StreamFlit) (rest : List AisleFlit) (x : Stall) :
    sget {} (flitQueued id f rest x).ins id = queueFlit (sget {} x.ins id) f :=
  sget_sput_of_ne ({} : InStream) _ _ _ (queueFlit_ne_reset _ f)

/-- A stall with a queued flit is not the reset stall, whatever it waits for. -/
theorem flitQueued_ne_reset (id : Nat) (f : StreamFlit) (rest : List AisleFlit) (x : Stall) (w : Option (Fin 14)) :
    { flitQueued id f rest x with wait := w } ≠ {} :=
  stall_ne_reset_of_ins (sput_ne_nil (queueFlit_ne_reset _ f) _ _)

/-- R37, R42: the stream's next flit joins the queue, and a last flit whose seal differs from the consumer's own is a seal failure. -/
theorem streamReceive_of_next {s : State} {i : Fin 1024} {id : Nat} {f : StreamFlit} {q : InStream} {g : AisleFlit} {rest : List AisleFlit}
    (hq : sget {} (getStall s i).ins id = q) (htake : takeFlit (isStream id) (getStall s i).arrived = some (g, rest)) (hidx : f.idx = q.got) :
    ∃ u w, StallBecomes i { flitQueued id f rest (getStall s i) with wait := w } s u ∧ streamReceive i id f s =
      if f.last = true ∧ f.carried ≠ streamSeal s f.tid (q.content ++ f.bytes) (q.seen ++ f.scales) f.record then
        sealFailure (.stall i) (stallUnit q.producer) f.tid f.sec f.carried
          (streamSeal s f.tid (q.content ++ f.bytes) (q.seen ++ f.scales) f.record) u
      else u := by
  subst hq
  obtain ⟨w, hu⟩ := settleWait_setStall (flitQueued_ne_reset id f rest (getStall s i)) s i waitInput
  refine ⟨_, w, hu, ?_⟩
  have hseal : ∀ content scales, streamSeal (settleWait i waitInput (setStall s i (flitQueued id f rest (getStall s i)))) f.tid content
      scales f.record = streamSeal s f.tid content scales f.record := by
    intro content scales
    rw [hu.rest, streamSeal_withStalls]
  unfold streamReceive
  simp [htake, hidx, ← hseal, flitQueued]

/-! ### Contexts (R45) -/

/-- R45: at a tensor boundary a stall takes the next context that it holds. -/
theorem contextSwitch_of_next {s : State} {i : Fin 1024} {ctx : Nat} (htest : underTest s i.val = false)
    (hbound : atBoundary s (getStall s i) = true) (hmem : ctx ∈ (getStall s i).contexts) (hnext : nextContext s (getStall s i) ctx = true) :
    contextSwitch i ctx s = setStall s i { getStall s i with ctx := ctx, busy := false, wait := some waitInput } := by
  simp [contextSwitch, htest, hbound, hmem, hnext]

/-! ### O45 -/

/-- Settles O45, by the equations above of the drain path, of a stream's producer and consumer and of the contexts. A state need not be
in canonical form: a stall with a stream that has consumers or flits reads back from any table. -/
theorem drainsAndStreamsMoveElements : Obligations.DrainsAndStreamsMoveElements := by
  unfold Obligations.DrainsAndStreamsMoveElements
  refine ⟨⟨?drain, ?shadow, ?bufRead, ?held⟩, ⟨?send, ?form, ?credit, ?noCredit, ?receive, ?switch⟩⟩
  case drain =>
    rintro s u i n d b w rfl hok hshadow hplain rfl rfl
    refine congrArg Host.Outcome.next ?_
    simp [-Fin.getElem_fin, drainElement, hok, hshadow, drainConv_of_plain hplain]
  case shadow =>
    intro s i n d hok hwait
    exact congrArg Host.Outcome.next (drainElement_of_shadow hok hwait)
  case bufRead => exact fun d b => ⟨bufRead_of_more, bufRead_of_last⟩
  case held =>
    intro s i n d h
    exact congrArg Host.Outcome.next (drainElement_of_not_ok (drainOk_of_held h))
  case send =>
    intro s i id f o ho hne
    refine ⟨fun hc hb => ?_, fun hc => congrArg Host.Outcome.next (streamSend_of_no_credit f ho hne hc)⟩
    obtain ⟨u, outs, hsend, hu, hsent⟩ := streamSend_of_credits f ho hne hc hb
    refine ⟨u, congrArg Host.Outcome.next hsend, hu.rest, hu.others, ?_, ?_, ?_, ?_⟩
    all_goals rw [hu.here]
    exact hsent
  case form => exact fun s o f => ⟨rfl, rfl, fun h => formFlit_of_last h s o, fun h => formFlit_of_not_last h s o⟩
  case credit =>
    intro s i id c n o g rest ho hc hb _ htake
    have hne : ({ o with credits := [(c, min o.q (n + 1))] } : OutStream).credits ≠ [] := List.cons_ne_nil _ _
    obtain ⟨w, hu⟩ := settleWait_setStall (creditTaken_ne_reset hne id rest (getStall s i)) s i waitOutput
    refine ⟨_, congrArg Host.Outcome.next (creditReturn_of_arrived ho hc hb htake), ?_, ?_, ?_, hu.others, hu.rest⟩
    all_goals rw [hu.here]
    · exact withOutStream_outs hne id _
    · rfl
    · rfl
  case noCredit =>
    intro s i id c h
    exact congrArg Host.Outcome.next (creditReturn_of_none h)
  case receive =>
    rintro s i id f q rfl
    refine ⟨fun h => congrArg Host.Outcome.next (streamReceive_of_none h), fun g rest htake => ⟨fun h => ?outOfOrder, fun hidx => ?next⟩⟩
    case outOfOrder => exact congrArg Host.Outcome.next (streamReceive_of_out_of_order h)
    case next =>
      obtain ⟨u, w, hu, hreceive⟩ := streamReceive_of_next rfl htake hidx
      have hins : sget {} (getStall u i).ins id = queueFlit (sget {} (getStall s i).ins id) f := by
        rw [hu.here]
        exact flitQueued_ins id f rest (getStall s i)
      refine ⟨fun hsound => ?sound, fun hlast hbroken => ?broken⟩
      case sound =>
        rw [if_neg fun ⟨hlast, hbroken⟩ =>
          hsound.elim (fun hmore => absurd (hmore.symm.trans hlast) Bool.false_ne_true) hbroken] at hreceive
        refine ⟨u, congrArg Host.Outcome.next hreceive, hins, ?_, ?_, hu.others, hu.rest⟩
        all_goals rw [hu.here]; rfl
      case broken =>
        rw [if_pos ⟨hlast, hbroken⟩] at hreceive
        exact ⟨u, congrArg Host.Outcome.next hreceive, hu.rest, hins⟩
  case switch =>
    intro s i ctx htest hbound hmem hnext
    exact congrArg Host.Outcome.next (contextSwitch_of_next htest hbound hmem hnext)

end Sys2Proof.Machine

namespace Sys2Proof.Machine

/-! ### A code's sign and magnitude (R66) -/

/-- R66: the sign bit of a code of a floating-point format. -/
def codeNeg (f : Fmt) (c : Nat) : Bool := decide (c % 2 ^ fmtBits f / 2 ^ (fmtBits f - 1) = 1)

/-- R66: a code of a floating-point format without its sign bit. -/
def codeMag (f : Fmt) (c : Nat) : Nat := c % 2 ^ fmtBits f % 2 ^ (fmtBits f - 1)

theorem fmtBits_pos (f : Fmt) : 0 < fmtBits f := by cases f <;> decide

theorem withSign_codeNeg_codeMag {f : Fmt} (hf : fmtIsInt f = false) (c : Nat) :
    withSign f (codeNeg f c) (codeMag f c) = c % 2 ^ fmtBits f := by
  have hpow : 2 ^ fmtBits f = 2 ^ (fmtBits f - 1) * 2 := (Nat.two_pow_pred_mul_two (fmtBits_pos f)).symm
  have hbit : c % 2 ^ fmtBits f / 2 ^ (fmtBits f - 1) < 2 :=
    Nat.div_lt_of_lt_mul (hpow ▸ Nat.mod_lt c (Nat.two_pow_pos _))
  have hsplit := Nat.div_add_mod (c % 2 ^ fmtBits f) (2 ^ (fmtBits f - 1))
  rcases Nat.le_one_iff_eq_zero_or_eq_one.mp (Nat.le_of_lt_succ hbit) with h | h <;>
    simpa [withSign, codeNeg, codeMag, hf, h] using hsplit

/-! ### What a code of a floating-point format decodes to (R66, R68) -/

theorem decode_of_infinity {f : Fmt} {c : Nat} (hf : fmtIsInt f = false) (h : fmtMax f < codeMag f c)
    (hinf : fmtInf f = some (codeMag f c)) : decode f c = .inf (codeNeg f c) := by
  unfold codeMag at h hinf
  simp [decode, hf, h, hinf, codeNeg]

theorem decode_of_nan {f : Fmt} {c : Nat} (hf : fmtIsInt f = false) (h : fmtMax f < codeMag f c)
    (hinf : fmtInf f ≠ some (codeMag f c)) : decode f c = .nan := by
  unfold codeMag at h hinf
  simp [decode, hf, h, hinf]

theorem decode_of_subnormal {f : Fmt} {c : Nat} (hf : fmtIsInt f = false) (h : codeMag f c ≤ fmtMax f)
    (he : codeMag f c < 2 ^ fmtMan f) : decode f c = .fin (codeNeg f c) (codeMag f c) (1 - fmtBias f - fmtMan f) := by
  unfold codeMag at h he
  simp [decode, hf, Nat.not_lt.mpr h, Nat.div_eq_of_lt he, Nat.mod_eq_of_lt he, codeNeg, codeMag]

theorem decode_of_normal {f : Fmt} {c : Nat} (hf : fmtIsInt f = false) (h : codeMag f c ≤ fmtMax f)
    (he : codeMag f c / 2 ^ fmtMan f ≠ 0) :
    decode f c = .fin (codeNeg f c) (2 ^ fmtMan f + codeMag f c % 2 ^ fmtMan f)
      (((codeMag f c / 2 ^ fmtMan f : Nat) : Int) - fmtBias f - fmtMan f) := by
  unfold codeMag at h he
  simp only [decode, hf, Bool.false_eq_true, if_false, if_neg (Nat.not_lt.mpr h), if_neg he, codeNeg, codeMag]

/-! ### A decoded value is a multiple of its own spacing, so it encodes without rounding -/

theorem roundMag_of_ulpExp_eq {f : Fmt} {m : Nat} {e : Int} (h : ulpExp f m e = e) (rm : RMode) (r : Nat) :
    roundMag f rm r m e = (m, e) := by
  simp [roundMag, h, pow2]

theorem ulpExp_subnormal {f : Fmt} (hf : fmtIsInt f = false) {m : Nat} (hm : m ≠ 0) (hlt : m < 2 ^ fmtMan f) :
    ulpExp f m (1 - fmtBias f - fmtMan f) = 1 - fmtBias f - fmtMan f := by
  have hlog : Nat.log2 m < fmtMan f := (Nat.log2_lt hm).mpr hlt
  simp only [ulpExp, hf, floorLog2, Bool.false_eq_true, if_false]
  omega

theorem ulpExp_normal {f : Fmt} (hf : fmtIsInt f = false) {m e : Nat} (hm : m < 2 ^ fmtMan f) (he : e ≠ 0) :
    ulpExp f (2 ^ fmtMan f + m) ((e : Int) - fmtBias f - fmtMan f) = e - fmtBias f - fmtMan f := by
  have hlog : Nat.log2 (2 ^ fmtMan f + m) = fmtMan f :=
    (Nat.log2_eq_iff (by omega)).mpr ⟨Nat.le_add_right .., by rw [Nat.pow_succ]; omega⟩
  simp only [ulpExp, hf, floorLog2, hlog, Bool.false_eq_true, if_false]
  omega

theorem magCode_subnormal {f : Fmt} (hf : fmtIsInt f = false) (m : Nat) : magCode f m (1 - fmtBias f - fmtMan f) = m := by
  simp +contextual [magCode, hf]

theorem magCode_normal {f : Fmt} (hf : fmtIsInt f = false) {e : Nat} (he : e ≠ 0) (m : Nat) :
    magCode f (2 ^ fmtMan f + m) ((e : Int) - fmtBias f - fmtMan f) = e * 2 ^ fmtMan f + m := by
  have hexp : ((e : Int) - fmtBias f - fmtMan f - (1 - fmtBias f - fmtMan f)).toNat = e - 1 := by omega
  have hpos : 2 ^ fmtMan f + m ≠ 0 := by have := Nat.two_pow_pos (fmtMan f); omega
  have hbits : 2 ^ fmtMan f ≤ e * 2 ^ fmtMan f := Nat.le_mul_of_pos_left _ (Nat.pos_of_ne_zero he)
  simp only [magCode, hf, hexp, hpos, Bool.false_eq_true, if_false, Nat.sub_one_mul]
  omega

/-- A value on its format's own spacing, not beyond the largest finite value, converts to its own magnitude code in
every rounding mode. -/
theorem convert_code_of_exact {f : Fmt} (hf : fmtIsInt f = false) {m : Nat} {e : Int} (hu : m ≠ 0 → ulpExp f m e = e)
    (hmax : magCode f m e ≤ fmtMax f) (rm : RMode) (ovfInf : Bool) (r : Nat) (neg : Bool) :
    (convert f rm ovfInf r (.fin neg m e)).code = withSign f neg (magCode f m e) := by
  by_cases hm : m = 0
  · simp [convert, hm, magCode, hf]
  · simp [convert, hm, roundMag_of_ulpExp_eq (hu hm), beyond, hf, Nat.not_lt.mpr hmax]

/-- R66, R78: no code of a floating-point format is lost by the exact number model, in any rounding mode: a code that is
no NaN encodes back to its own bits, signed zeros, subnormals and infinities included. -/
theorem convert_decode_code {f : Fmt} (hf : fmtIsInt f = false) {c : Nat} (hnan : decode f c ≠ .nan) (rm : RMode)
    (ovfInf : Bool) (r : Nat) : (convert f rm ovfInf r (decode f c)).code = c % 2 ^ fmtBits f := by
  rw [← withSign_codeNeg_codeMag hf]
  rcases Nat.lt_or_ge (fmtMax f) (codeMag f c) with hmax | hmax
  · by_cases hinf : fmtInf f = some (codeMag f c)
    · simp [decode_of_infinity hf hmax hinf, hinf, convert]
    · exact absurd (decode_of_nan hf hmax hinf) hnan
  · by_cases he : codeMag f c / 2 ^ fmtMan f = 0
    · have hlt : codeMag f c < 2 ^ fmtMan f := (Nat.div_eq_zero_iff_lt (Nat.two_pow_pos _)).mp he
      have hcode := magCode_subnormal hf (codeMag f c)
      rw [decode_of_subnormal hf hmax hlt,
        convert_code_of_exact hf (fun hm => ulpExp_subnormal hf hm hlt) (hcode.trans_le hmax), hcode]
    · have hlt : codeMag f c % 2 ^ fmtMan f < 2 ^ fmtMan f := Nat.mod_lt _ (Nat.two_pow_pos _)
      have hcode := (magCode_normal hf he (codeMag f c % 2 ^ fmtMan f)).trans (Nat.div_add_mod' ..)
      rw [decode_of_normal hf hmax he,
        convert_code_of_exact hf (fun _ => ulpExp_normal hf hlt he) (hcode.trans_le hmax), hcode]

/-! ### O60 -/

/-- Settles O60: A32 is a floating-point format, so every word that is no NaN encodes back to its own bits, and a NaN is
one value, which encodes to the canonical NaN. -/
theorem accumulatorWordsRoundTrip : Obligations.AccumulatorWordsRoundTrip := by
  unfold Obligations.AccumulatorWordsRoundTrip
  intro x
  by_cases hnan : ofA32 x = .nan
  · simp [isNan32, hnan, toA32, convert, fmtNan, nan32]
  · have hcode : (convert .a32 .rne true 0 (ofA32 x)).code = x.toNat :=
      (convert_decode_code rfl hnan ..).trans (Nat.mod_eq_of_lt x.isLt)
    simp [isNan32, hnan, toA32, hcode]

end Sys2Proof.Machine

namespace Sys2Proof.Machine

/-! ### The pairwise sum (R93) -/

/-- R93: a level halves the sequence, an odd last element counting as a pair. -/
@[simp] theorem length_pairLevel (l : List W32) : (pairLevel l).length = (l.length + 1) / 2 := by
  induction l using List.twoStepInduction with
  | nil => simp [pairLevel]
  | singleton => simp [pairLevel]
  | cons_cons x y t ih => simp [pairLevel, ih]; omega

/-- R93: a sequence cut after whole pairs forms its level part by part. -/
theorem pairLevel_append {l : List W32} (h : Even l.length) (m : List W32) : pairLevel (l ++ m) = pairLevel l ++ pairLevel m := by
  induction l using List.twoStepInduction with
  | nil => rfl
  | singleton => simp at h
  | cons_cons x y t ih => simp [pairLevel, ih (by simpa [Nat.even_add_one] using h)]

/-- R93: blocks of whole pairs form their levels block by block. -/
theorem pairLevel_flatten {blocks : List (List W32)} (h : ∀ b ∈ blocks, Even b.length) :
    pairLevel blocks.flatten = (blocks.map pairLevel).flatten := by
  induction blocks with
  | nil => rfl
  | cons b bs ih =>
    obtain ⟨hb, hbs⟩ := List.forall_mem_cons.mp h
    simp [pairLevel_append hb, ih hbs]

/-- R93: one more level than a sequence needs changes nothing. -/
theorem pairwiseGo_succ {k : Nat} {l : List W32} (h : l.length ≤ k) : pairwiseGo (k + 1) l = pairwiseGo k l := by
  induction k generalizing l with
  | zero => rw [List.eq_nil_of_length_eq_zero (Nat.le_zero.mp h)]; rfl
  | succ k ih =>
    match l with
    | [] => rfl
    | [_] => rfl
    | x :: y :: t =>
      have hlen : (pairLevel (x :: y :: t)).length ≤ k := by simp at h ⊢; omega
      exact ih hlen

/-- R93: every bound that allows for the sequence's levels gives its pairwise sum. -/
theorem pairwiseGo_of_length_le {k : Nat} {l : List W32} (h : l.length ≤ k) : pairwiseGo k l = pairwise l := by
  induction k, h using Nat.le_induction with
  | base => rfl
  | succ k hk ih => rw [pairwiseGo_succ hk, ih]

/-- R93: the pairwise sum of a sequence is that of its next level. -/
theorem pairwise_pairLevel (l : List W32) : pairwise (pairLevel l) = pairwise l := by
  match l with
  | [] => rfl
  | [_] => rfl
  | x :: y :: t => exact (pairwiseGo_of_length_le (k := t.length + 1) (by simp; omega)).symm

/-- R97: the pairwise sum of full blocks' pairwise sums is that of all their leaves. -/
theorem pairwise_map_pairwise {k : Nat} {blocks : List (List W32)} (h : ∀ b ∈ blocks, b.length = 2 ^ k) :
    pairwise (blocks.map pairwise) = pairwise blocks.flatten := by
  induction k generalizing blocks with
  | zero =>
    have hsingle : ∀ b ∈ blocks, [pairwise b] = b := fun b hb => by
      obtain ⟨x, rfl⟩ := List.length_eq_one_iff.mp (h b hb)
      rfl
    rw [List.map_eq_flatMap, List.flatMap_def, List.map_congr_left hsingle, List.map_id']
  | succ k ih =>
    have heven : ∀ b ∈ blocks, Even b.length := fun b hb => by simp [h b hb, Nat.even_pow]
    have hhalf : ∀ b ∈ blocks.map pairLevel, b.length = 2 ^ k := by
      simp only [List.forall_mem_map, length_pairLevel]
      intro b hb
      rw [h b hb]
      omega
    calc pairwise (blocks.map pairwise)
        = pairwise ((blocks.map pairLevel).map pairwise) := by simp [pairwise_pairLevel, Function.comp_def]
      _ = pairwise (blocks.map pairLevel).flatten := ih hhalf
      _ = pairwise (pairLevel blocks.flatten) := by rw [pairLevel_flatten heven]
      _ = pairwise blocks.flatten := pairwise_pairLevel _

/-! ### The streaming cascade (R97) -/

/-- R97: the cascade after the values of a list have entered at a level, in order. -/
def cascadeFrom (lv : Nat) (es : List (Nat × W32)) (l : List W32) : List (Nat × W32) :=
  l.foldl (fun es t => cascadePush t lv es) es

/-- Every entry of the cascade stands above a level. -/
def EntriesAbove (lv : Nat) (es : List (Nat × W32)) : Prop := ∀ e ∈ es, lv < e.1

/-- The empty cascade stands above every level. -/
@[simp] theorem entriesAbove_nil (lv : Nat) : EntriesAbove lv [] := fun _ h => absurd h List.not_mem_nil

/-- R97: a value below every entry takes an entry of its own. -/
theorem cascadePush_of_entriesAbove {lv : Nat} {es : List (Nat × W32)} (h : EntriesAbove lv es) (t : W32) :
    cascadePush t lv es = (lv, t) :: es := by
  cases es with
  | nil => rfl
  | cons e rest => exact if_neg (Nat.ne_of_gt (h e List.mem_cons_self))

/-- R97: two values that enter a level below every entry go up one level as their sum. -/
theorem cascadePush_cascadePush {lv : Nat} {es : List (Nat × W32)} (h : EntriesAbove lv es) (x y : W32) :
    cascadePush y lv (cascadePush x lv es) = cascadePush (addRne x y) (lv + 1) es := by
  rw [cascadePush_of_entriesAbove h]
  exact if_pos rfl

/-- R97: a value that enters one level up leaves the cascade above the level below. -/
theorem entriesAbove_cascadePush {lv : Nat} {m : Nat} (hm : lv < m) {es : List (Nat × W32)} (h : EntriesAbove lv es) (t : W32) :
    EntriesAbove lv (cascadePush t m es) := by
  fun_induction cascadePush t m es with
  | case1 t m => simpa [EntriesAbove] using hm
  | case2 t m e rest ih => exact ih (by omega) fun x hx => h x (List.mem_cons_of_mem _ hx)
  | case3 t m l e rest hne => exact List.forall_mem_cons.mpr ⟨hm, h⟩

/-- R97: values that enter one level up leave the cascade above the level below. -/
theorem entriesAbove_cascadeFrom {lv : Nat} {es : List (Nat × W32)} (h : EntriesAbove lv es) (l : List W32) :
    EntriesAbove lv (cascadeFrom (lv + 1) es l) := by
  induction l generalizing es with
  | nil => exact h
  | cons t l ih => exact ih (entriesAbove_cascadePush (Nat.lt_succ_self lv) h t)

/-- R97: whole pairs that enter a level below every entry leave what R93's next level leaves one level up. -/
theorem cascadeFrom_of_even {lv : Nat} {es : List (Nat × W32)} (h : EntriesAbove lv es) {l : List W32} (hl : Even l.length) :
    cascadeFrom lv es l = cascadeFrom (lv + 1) es (pairLevel l) := by
  induction l using List.twoStepInduction generalizing es with
  | nil => rfl
  | singleton => simp at hl
  | cons_cons x y t ih =>
    have ht : Even t.length := by simpa [Nat.even_add_one] using hl
    calc cascadeFrom lv es (x :: y :: t)
        = cascadeFrom lv (cascadePush (addRne x y) (lv + 1) es) t :=
          congrArg (cascadeFrom lv · t) (cascadePush_cascadePush h x y)
      _ = cascadeFrom (lv + 1) es (pairLevel (x :: y :: t)) := ih (entriesAbove_cascadePush (Nat.lt_succ_self lv) h _) ht

/-- R97: the last value of a sequence enters the cascade of the others. -/
theorem cascadeFrom_concat (lv : Nat) (es : List (Nat × W32)) (l : List W32) (x : W32) :
    cascadeFrom lv es (l ++ [x]) = cascadePush x lv (cascadeFrom lv es l) := List.foldl_append

/-- R97: of an odd number of values that enter a level below every entry the last stays there, below its level's pairs. -/
theorem cascadeFrom_of_odd {lv : Nat} {es : List (Nat × W32)} (h : EntriesAbove lv es) {l : List W32} (hl : Even l.length) (x : W32) :
    cascadeFrom lv es (l ++ [x]) = (lv, x) :: cascadeFrom (lv + 1) es (pairLevel l) := by
  rw [cascadeFrom_concat, cascadeFrom_of_even h hl, cascadePush_of_entriesAbove (entriesAbove_cascadeFrom h _)]

/-- R97: the final merge, with a value below the lowest entry. -/
def mergeInto (x : W32) (es : List (Nat × W32)) : W32 := es.foldl (fun s e => addRne e.2 s) x

/-- R97: a value that enters and the final merge add to it every entry in ascending level, whatever entries it meets. -/
theorem cascadeMerge_cascadePush (t : W32) (lv : Nat) (es : List (Nat × W32)) :
    cascadeMerge (cascadePush t lv es) = mergeInto t es := by
  fun_induction cascadePush t lv es with
  | case1 => rfl
  | case2 t lv e rest ih => exact ih
  | case3 => rfl

/-- R97: the cascade of a sequence, merged with one more value, is the pairwise sum of the sequence with that value last. -/
theorem mergeInto_cascadeFrom (lv : Nat) (l : List W32) (x : W32) :
    mergeInto x (cascadeFrom lv [] l) = pairwise (l ++ [x]) := by
  induction hn : l.length using Nat.strong_induction_on generalizing lv l x with
  | _ n ih =>
    rcases Nat.even_or_odd l.length with heven | hodd
    · rcases eq_or_ne l [] with rfl | hne
      · rfl
      have hlen : (pairLevel l).length < n := by
        have := List.length_pos_iff.mpr hne
        obtain ⟨m, hm⟩ := heven
        rw [length_pairLevel]; omega
      calc mergeInto x (cascadeFrom lv [] l)
          = mergeInto x (cascadeFrom (lv + 1) [] (pairLevel l)) := by rw [cascadeFrom_of_even (entriesAbove_nil lv) heven]
        _ = pairwise (pairLevel l ++ [x]) := ih _ hlen _ _ _ rfl
        _ = pairwise (pairLevel (l ++ [x])) := by rw [pairLevel_append heven]; rfl
        _ = pairwise (l ++ [x]) := pairwise_pairLevel _
    · obtain ⟨p, z, rfl⟩ := List.eq_nil_or_concat' l |>.resolve_left (by rintro rfl; simp at hodd)
      have heven : Even p.length := by simpa [Nat.odd_add_one] using hodd
      have hlen : (pairLevel p).length < n := by simp at hn ⊢; omega
      calc mergeInto x (cascadeFrom lv [] (p ++ [z]))
          = mergeInto (addRne z x) (cascadeFrom (lv + 1) [] (pairLevel p)) := by rw [cascadeFrom_of_odd (entriesAbove_nil lv) heven]; rfl
        _ = pairwise (pairLevel p ++ [addRne z x]) := ih _ hlen _ _ _ rfl
        _ = pairwise (pairLevel (p ++ [z] ++ [x])) := by rw [List.append_assoc, pairLevel_append heven]; rfl
        _ = pairwise (p ++ [z] ++ [x]) := pairwise_pairLevel _

/-- R97: the cascade of a sequence merges to its pairwise sum. -/
theorem cascadeMerge_cascadeFrom (l : List W32) : cascadeMerge (cascadeFrom 0 [] l) = pairwise l := by
  rcases List.eq_nil_or_concat' l with rfl | ⟨p, x, rfl⟩
  · rfl
  · calc cascadeMerge (cascadeFrom 0 [] (p ++ [x]))
        = cascadeMerge (cascadePush x 0 (cascadeFrom 0 [] p)) := by rw [cascadeFrom_concat]
      _ = mergeInto x (cascadeFrom 0 [] p) := cascadeMerge_cascadePush ..
      _ = pairwise (p ++ [x]) := mergeInto_cascadeFrom ..

/-! ### The cascade over tiles, element by element (R97) -/

/-- R97: two tiles of one length add element by element. -/
theorem addTiles_of_length_eq {a b : List W32} (h : a.length = b.length) : addTiles a b = List.zipWith addRne a b := by
  fun_induction addTiles a b with
  | case1 ys => rw [List.eq_nil_of_length_eq_zero h.symm]; rfl
  | case2 xs => rw [List.eq_nil_of_length_eq_zero h]; rfl
  | case3 x xs y ys ih => simp [ih (Nat.succ.inj h)]

section Tiles

variable {n : Nat}

/-- Two tiles of n elements add to a tile of n elements. -/
theorem length_addTiles {a b : List W32} (ha : a.length = n) (hb : b.length = n) : (addTiles a b).length = n := by
  simp [addTiles_of_length_eq (ha.trans hb.symm), ha, hb]

/-- Every entry of a tile cascade has n elements. -/
def TilesOfLength (n : Nat) (es : List (Nat × List W32)) : Prop := ∀ e ∈ es, e.2.length = n

/-- The empty cascade holds tiles of every length. -/
@[simp] theorem tilesOfLength_nil : TilesOfLength n [] := fun _ h => absurd h List.not_mem_nil

/-- One element of a tile cascade: the cascade of that element. -/
def tileColumn (i : Nat) (es : List (Nat × List W32)) : List (Nat × W32) := es.map (fun e => (e.1, e.2.getD i 0))

/-- R97: a tile that enters keeps the tiles' length. -/
theorem tilesOfLength_tilePush {t : List W32} (ht : t.length = n) (lv : Nat) {es : List (Nat × List W32)} (hes : TilesOfLength n es) :
    TilesOfLength n (tilePush t lv es) := by
  fun_induction tilePush t lv es with
  | case1 t lv => simpa [TilesOfLength] using ht
  | case2 t lv e rest ih =>
    obtain ⟨he, hrest⟩ := List.forall_mem_cons.mp hes
    exact ih (length_addTiles he ht) hrest
  | case3 t lv l e rest hne => exact List.forall_mem_cons.mpr ⟨ht, hes⟩

/-- R97: tiles that enter keep the tiles' length. -/
theorem tilesOfLength_foldl_tilePush {tiles : List (List W32)} (ht : ∀ t ∈ tiles, t.length = n) {es : List (Nat × List W32)}
    (hes : TilesOfLength n es) : TilesOfLength n (tiles.foldl (fun es t => tilePush t 0 es) es) := by
  induction tiles generalizing es with
  | nil => exact hes
  | cons t ts ih =>
    obtain ⟨ht, hts⟩ := List.forall_mem_cons.mp ht
    exact ih hts (tilesOfLength_tilePush ht 0 hes)

/-- R97: a tile that enters leaves a cascade with an entry. -/
theorem tilePush_ne_nil (t : List W32) (lv : Nat) (es : List (Nat × List W32)) : tilePush t lv es ≠ [] := by
  fun_induction tilePush t lv es with
  | case1 => exact List.cons_ne_nil _ _
  | case2 t lv e rest ih => exact ih
  | case3 => exact List.cons_ne_nil _ _

/-- R97: tiles that enter leave a cascade with an entry. -/
theorem foldl_tilePush_ne_nil {tiles : List (List W32)} (h : tiles ≠ []) (es : List (Nat × List W32)) :
    tiles.foldl (fun es t => tilePush t 0 es) es ≠ [] := by
  obtain ⟨ts, t, rfl⟩ := (List.eq_nil_or_concat' tiles).resolve_left h
  rw [List.foldl_append]
  exact tilePush_ne_nil _ _ _

/-- R97: the final merge of a cascade with an entry is a tile of n elements. -/
theorem length_tileMerge {es : List (Nat × List W32)} (hne : es ≠ []) (hes : TilesOfLength n es) : (tileMerge es).length = n := by
  cases es with
  | nil => exact absurd rfl hne
  | cons e rest =>
    obtain ⟨he, hrest⟩ := List.forall_mem_cons.mp hes
    exact List.foldlRecOn (motive := fun s : List W32 => s.length = n) rest _ he fun s hs x hx => length_addTiles (hrest x hx) hs

variable {i : Nat} (hi : i < n)
include hi

/-- An element of a sum of tiles is the sum of the elements. -/
theorem getD_addTiles {a b : List W32} (ha : a.length = n) (hb : b.length = n) :
    (addTiles a b).getD i 0 = addRne (a.getD i 0) (b.getD i 0) := by
  simp [addTiles_of_length_eq (ha.trans hb.symm), ha, hb, hi]

/-- R97: each element of a tile that enters enters the cascade of that element. -/
theorem tileColumn_tilePush {t : List W32} (ht : t.length = n) (lv : Nat) {es : List (Nat × List W32)} (hes : TilesOfLength n es) :
    tileColumn i (tilePush t lv es) = cascadePush (t.getD i 0) lv (tileColumn i es) := by
  fun_induction tilePush t lv es with
  | case1 => rfl
  | case2 t lv e rest ih =>
    obtain ⟨he, hrest⟩ := List.forall_mem_cons.mp hes
    rw [ih (length_addTiles he ht) hrest, getD_addTiles hi he ht]
    exact (if_pos rfl).symm
  | case3 t lv l e rest hne => exact (if_neg hne).symm

/-- R97: each element of the tiles that enter enters the cascade of that element, in order. -/
theorem tileColumn_foldl_tilePush {tiles : List (List W32)} (ht : ∀ t ∈ tiles, t.length = n) {es : List (Nat × List W32)}
    (hes : TilesOfLength n es) : tileColumn i (tiles.foldl (fun es t => tilePush t 0 es) es) =
      cascadeFrom 0 (tileColumn i es) (tiles.map (fun t => t.getD i 0)) := by
  induction tiles generalizing es with
  | nil => rfl
  | cons t ts ih =>
    obtain ⟨ht, hts⟩ := List.forall_mem_cons.mp ht
    rw [List.foldl_cons, ih hts (tilesOfLength_tilePush ht 0 hes), tileColumn_tilePush hi ht 0 hes]
    rfl

/-- R97: each element of merged tiles is the merge of that element. -/
theorem getD_foldl_addTiles {s : List W32} (hs : s.length = n) {es : List (Nat × List W32)} (hes : TilesOfLength n es) :
    (es.foldl (fun s e => addTiles e.2 s) s).getD i 0 = mergeInto (s.getD i 0) (tileColumn i es) := by
  induction es generalizing s with
  | nil => rfl
  | cons e rest ih =>
    obtain ⟨he, hrest⟩ := List.forall_mem_cons.mp hes
    rw [List.foldl_cons, ih (length_addTiles he hs) hrest, getD_addTiles hi he hs]
    rfl

/-- R97: each element of the final merge is the final merge of the cascade of that element. -/
theorem getD_tileMerge {es : List (Nat × List W32)} (hes : TilesOfLength n es) :
    (tileMerge es).getD i 0 = cascadeMerge (tileColumn i es) := by
  cases es with
  | nil => rfl
  | cons e rest =>
    obtain ⟨he, hrest⟩ := List.forall_mem_cons.mp hes
    exact getD_foldl_addTiles hi he hrest

end Tiles

/-! ### O39 -/

/-- Settles O39: two values that meet at one level of the cascade go up as their sum, as one level of R93 pairs them; a
tile cascade is that cascade in each element, and full blocks are whole subtrees of R93. -/
theorem cascadesSumAsTheTree : Obligations.CascadesSumAsTheTree := by
  unfold Obligations.CascadesSumAsTheTree
  refine ⟨fun n tiles hne hlen => ?_, cascadeMerge_cascadeFrom, fun k blocks hlen => ?_⟩
  · have htiles := tilesOfLength_foldl_tilePush hlen tilesOfLength_nil
    have hmerge := length_tileMerge (foldl_tilePush_ne_nil hne []) htiles
    refine List.ext_getElem (by simpa using hmerge) fun i hi _ => ?_
    have hin : i < n := hmerge ▸ hi
    rw [← List.getD_eq_getElem _ 0 hi, getD_tileMerge hin htiles,
      tileColumn_foldl_tilePush hin hlen tilesOfLength_nil, List.getElem_map, List.getElem_range]
    exact cascadeMerge_cascadeFrom _
  · exact (cascadeMerge_cascadeFrom _).trans (pairwise_map_pairwise hlen)

end Sys2Proof.Machine

namespace Sys2Proof.Machine

/-! ### PUT to a region whose columns run downward (R119, R122) -/

/-- R119: an INT8 output region at byte 0x10100 of the stall store, of which each further column lies one byte lower
(STRIDE_COL is −1). -/
def downwardRegion : W128 := 0xFFFFFFFF000000008000000000010100

/-- R143 has no row that refuses the region. -/
theorem downwardRegion_not_refused : streamReserved downwardRegion = false ∧ stridesBad downwardRegion = false ∧
    regionBad downwardRegion = false ∧ outputMxBad downwardRegion = false := by decide

/-- A span of one row of two columns that puts its elements to that region. -/
def downwardSpan : Span where
  init :=
    { verb := 0, rows := 1, cols := 2, rowBase := 0, colBase := 0, rowLen := 2, accs := [], outTids := [1], queues := [],
      first := true, last := true, elems := 2 }
  header :=
    { instrs := [instrWord 0x3C 0 [0]], consts := [], ins := [], outs := [some downwardRegion], draws := [], slots := [],
      pDecision := [] }
  regs := List.replicate 2 (Vector.replicate 32 1)
  params := []
  decoded := []
  drawBase := []
  pc := 0

/-- Refutes O43: the statement cuts a negative row and column step off at 0 before it adds BASE, where R122 and the meaning
(`regionBit`) add the step to BASE first. With STRIDE_COL −1 the second element goes to the byte below BASE, which the
statement takes to be untouched. -/
theorem not_putKeepsTheOtherBytesOfTheStore : ¬ Obligations.PutKeepsTheOtherBytesOfTheStore := by
  unfold Obligations.PutKeepsTheOtherBytesOfTheStore
  intro h
  have hkept := h downwardRegion downwardSpan [{ code := 1 }, { code := 1 }] [] [] 0x100FF (by decide)
    (fun _ hr => absurd hr (Nat.not_lt_zero _))
  have hput : readByte (putRegion downwardRegion downwardSpan [{ code := 1 }, { code := 1 }] [] []) 0x100FF = 1 := by decide
  have hbefore : readByte [] 0x100FF = 0 := rfl
  exact absurd (hput.symm.trans (hkept.trans hbefore)) (by decide)

end Sys2Proof.Machine

namespace Sys2Proof.Machine

/-! ### How an instruction of a span runs (R115, R134) -/

section Instruction
variable {i : Fin 1024} {w : W64} {srcs : List (BitVec 6)} {run : Stall → Span → State → State} {s : State} {st : Stall} {sp : Span}

/-- R134: the verb's next instruction runs once its operands are ready. -/
theorem runInstr_of_ready (hst : getStall s i = st) (hsp : st.span = some sp) (hnext : runsNext sp w = true)
    (hready : operandsWait s st sp srcs = none) : runInstr i w srcs run s = run st sp s := by
  simp [runInstr, hst, hsp, hnext, hready]

/-- R39, R140: the verb's next instruction waits for an operand that is not ready. -/
theorem runInstr_of_wait {cause : Fin 14} (hst : getStall s i = st) (hsp : st.span = some sp) (hnext : runsNext sp w = true)
    (hwait : operandsWait s st sp srcs = some cause) : runInstr i w srcs run s = instrWaits i sp srcs cause s := by
  simp [runInstr, hst, hsp, hnext, hwait]

/-- R115: a word that is not the verb's next one does nothing. -/
theorem runInstr_of_not_next (h : ∀ sp, (getStall s i).span = some sp → runsNext sp w = false) : runInstr i w srcs run s = s := by
  cases hsp : (getStall s i).span with
  | none => simp [runInstr, hsp]
  | some sp => simp [runInstr, hsp, h sp hsp]

/-- A stall that runs a span is not the reset stall. -/
theorem stall_ne_reset_of_span (hsp : st.span = some sp) : st ≠ {} :=
  ne_of_apply_ne Stall.span (hsp ▸ Option.some_ne_none sp)

end Instruction

/-! ### The end of an instruction that another follows (R121, R132) -/

/-- The span after an instruction that leaves the registers `regs`. -/
def spanNext (sp : Span) (srcs : List (BitVec 6)) (regs : List (Vector W32 32)) : Span :=
  { sp with regs := regs, pc := sp.pc + 1, decoded := (sp.decoded ++ inputsOf srcs).eraseDups }

/-- The stall after an instruction that another follows. -/
def instrDone (sp : Span) (srcs : List (BitVec 6)) (regs : List (Vector W32 32)) (inv ovf nf : Nat) (x : Stall) : Stall :=
  { x with
    sticky := sput {} x.sticky sp.init.verb (addSticky (sget {} x.sticky sp.init.verb) inv ovf nf),
    bufs := releaseAccs sp srcs x.bufs, span := some (spanNext sp srcs regs), wait := none, busy := true }

/-- R134: an instruction that another follows changes its stall only. -/
theorem stallBecomes_endInstr {sp : Span} {s : State} {i : Fin 1024} {x : Stall} (hmore : sp.pc + 1 < sp.header.instrs.length)
    (hx : getStall s i = x) (srcs : List (BitVec 6)) (regs : List (Vector W32 32)) (inv ovf nf : Nat) :
    StallBecomes i (instrDone sp srcs regs inv ovf nf x) s (endInstr i sp srcs regs inv ovf nf s) := by
  have hend : endInstr i sp srcs regs inv ovf nf s = setStall s i (instrDone sp srcs regs inv ovf nf x) := hx ▸ if_pos hmore
  rw [hend]
  exact stallBecomes_setStall (stall_ne_reset_of_busy rfl) s i

/-! ### Instructions that write a register (R117, R126 to R131) -/

/-- R117: the destination registers hold the words of the lanes. -/
theorem writeDest_runLanes {f : Nat → List W32 → LaneOut} {g : Nat → List W32 → W32} (hf : ∀ e l, (f e l).word = g e l)
    (regs : List (Vector W32 32)) (d : BitVec 5) (s : State) (st : Stall) (sp : Span) (srcs : List (BitVec 6)) :
    writeDest regs d (runLanes s st sp srcs f) = List.zipWith (fun v x => v.set d.toNat x d.isLt) regs
      ((List.range (spanSize sp)).map (fun e => g e (srcs.map (fun q => (operand s st sp q e).1)))) := by
  simp [writeDest, runLanes, List.zipWith_map_right, hf]

/-- R117: an instruction that ends with the words of its lanes in register d, having marked at most saturated elements of its
span, writes its register and nothing else. -/
theorem verbWrites_of_endInstr {c : Instr} {i : Fin 1024} {w : W64} {d : BitVec 5} {srcs : List (BitVec 6)}
    {run : Stall → Span → State → State} {f : Nat → List W32 → LaneOut} {g : Nat → List W32 → W32} {s : State}
    (hc : exec c s = .next (runInstr i w srcs run s)) (hf : ∀ e l, (f e l).word = g e l)
    (hrun : ∀ st sp, ∃ sat inv ovf, run st sp s = endInstr i { sp with saturated := sat } srcs
      (writeDest sp.regs d (runLanes s st sp srcs f)) inv ovf 0 s) : VerbWrites c i w d srcs g s := by
  intro st sp hst hsp hnext hready hmore
  obtain ⟨sat, inv, ovf, hend⟩ := hrun st sp
  have hstep : exec c s = .next _ := hc.trans (congrArg _ ((runInstr_of_ready hst hsp hnext hready).trans hend))
  have hdone := stallBecomes_endInstr (sp := { sp with saturated := sat }) hmore hst srcs
    (writeDest sp.regs d (runLanes s st sp srcs f)) inv ovf 0
  refine ⟨_, hstep, hdone.rest, hdone.others, ?_⟩
  rw [hdone.here]
  exact ⟨rfl, rfl, rfl, _, rfl, rfl, rfl, rfl, writeDest_runLanes hf ..⟩

/-- An ALU instruction writes the words of its lanes. -/
theorem verbWrites_of_aluInstr {c : Instr} {i : Fin 1024} {w : W64} {d : BitVec 5} {srcs : List (BitVec 6)}
    {f : Nat → List W32 → LaneOut} {g : Nat → List W32 → W32} {s : State}
    (hc : exec c s = .next (aluInstr i w d srcs f s)) (hf : ∀ e l, (f e l).word = g e l) : VerbWrites c i w d srcs g s :=
  verbWrites_of_endInstr hc hf fun _ sp => ⟨sp.saturated, _, _, rfl⟩

/-- R149: marking saturated elements changes nothing else of a span. -/
theorem markSaturated_eq (f : Fmt) (l : List Bool) (sp : Span) : ∃ sat, markSaturated f l sp = { sp with saturated := sat } := by
  unfold markSaturated
  split
  · exact ⟨_, rfl⟩
  · exact ⟨sp.saturated, rfl⟩

/-- R130, R149: QNT ends as an ALU instruction does, with the saturated elements marked. -/
theorem qntSpan_eq (i : Fin 1024) (d : BitVec 5) (f : Fmt) (rm : RMode) (srcs : List (BitVec 6)) (st : Stall) (sp : Span) (s : State) :
    ∃ sat inv ovf, qntSpan i d f rm srcs st sp s = endInstr i { sp with saturated := sat } srcs
      (writeDest sp.regs d (runLanes s st sp srcs (fun _ l => qntOut f rm (op1 l) (op2 l)))) inv ovf 0 s := by
  obtain ⟨sat, hsat⟩ := markSaturated_eq f ((runLanes s st sp srcs (fun _ l => qntOut f rm (op1 l) (op2 l))).map (·.ovf)) sp
  exact ⟨sat, _, _, by rw [qntSpan, hsat]⟩

/-- R131: the draw word of an element, from the stream that the header binds to the slot. -/
theorem drawLane_of_stream {s : State} {i : Fin 1024} {slot : Fin 4} {sp : Span} {id : W32} (hsp : (getStall s i).span = some sp)
    (hid : sp.header.draws.getD slot.val none = some id) (e : Nat) :
    drawLane s i slot e = drawWord s.job.seed id (sp.drawBase.getD slot.val 0 + BitVec.ofNat 64 (spanIdx sp e)) := by
  simp only [drawLane, hsp, hid]

/-! ### O40 -/

/-- Settles O40: each instruction is the ALU instruction of its word, operands and lane function; QNT also marks saturated
elements (R149), and DRAW reads the stream of its slot (R131). -/
theorem verbInstructionsWriteTheirResults : Obligations.VerbInstructionsWriteTheirResults := by
  unfold Obligations.VerbInstructionsWriteTheirResults
  refine ⟨fun s i d a b c => ?floats, fun s i d a b c cc rm f => ⟨?fcmp, ?sel, ?mov, ?iadd, ?isub, ?imul, ?and, ?or, ?xor, ?shl, ?shr,
    ?sar, ?icmp, ?itof, ?ftoi, ?qnt, ?draw⟩⟩
  case floats =>
    refine ⟨?_, ?_, ?_, ?_, ?_, ?_, ?_, ?_, ?_, ?_, ?_, ?_, ?_, ?_⟩
    all_goals exact verbWrites_of_aluInstr rfl fun _ _ => rfl
  case qnt => exact verbWrites_of_endInstr rfl (fun _ _ => rfl) fun st sp => qntSpan_eq i d f rm [a, b] st sp s
  case draw => exact fun slot sp id hsp hid => verbWrites_of_aluInstr rfl fun e _ => drawLane_of_stream hsp hid e
  all_goals exact verbWrites_of_aluInstr rfl fun _ _ => rfl

end Sys2Proof.Machine

namespace Sys2Proof.Machine

/-! ### A stall written twice -/

/-- A value other than the default that is written over leaves no trace, whatever form the table has. -/
theorem sput_sput_of_ne {α : Type} [DecidableEq α] {d v : α} (hv : v ≠ d) (t : Sparse α) (k : Nat) (v' : α) :
    sput d (sput d t k v) k v' = sput d t k v' := by
  induction t with
  | nil => simp [sput, hv]
  | cons e t ih =>
    obtain hlt | heq | hgt := Nat.lt_trichotomy k e.1
    · simp [sput, hv, hlt]
    · simp [sput, hv, heq]
    · simp [sput, Nat.lt_asymm hgt, Nat.ne_of_gt hgt, ih]

/-- A stall written over leaves the state of the last write. -/
theorem setStall_setStall {x : Stall} (hx : x ≠ {}) (s : State) (i : Fin 1024) (y : Stall) :
    setStall (setStall s i x) i y = setStall s i y :=
  congrArg s.withStalls (sput_sput_of_ne hx s.stalls i.val y)

/-- R39: an instruction with no queue operand takes nothing: its stall only waits. -/
theorem instrWaits_of_no_inputs {s : State} {i : Fin 1024} {sp : Span} {srcs : List (BitVec 6)} (hin : inputsOf srcs = [])
    (hx : getStall s i ≠ {}) (cause : Fin 14) : instrWaits i sp srcs cause s = stallWaits i cause s := by
  simp only [instrWaits, hin, List.foldl_nil, stallWaits]
  rw [getStall_setStall_self hx, setStall_setStall hx]

/-- R39, R140: an instruction that `runInstr` runs waits for its operands. -/
theorem verbWaits_of_runInstr {c : Instr} {i : Fin 1024} {w : W64} {srcs : List (BitVec 6)} {run : Stall → Span → State → State}
    {s : State} (hc : exec c s = .next (runInstr i w srcs run s)) : VerbWaits c i w srcs s := by
  intro st sp cause hst hsp hnext hwait
  exact ⟨hc.trans (congrArg _ (runInstr_of_wait hst hsp hnext hwait)),
    fun hin => instrWaits_of_no_inputs hin (hst ▸ stall_ne_reset_of_span hsp) cause⟩

/-- R115: an instruction that `runInstr` runs keeps the verb's order. -/
theorem verbKeepsOrder_of_runInstr {c : Instr} {i : Fin 1024} {w : W64} {srcs : List (BitVec 6)} {run : Stall → Span → State → State}
    {s : State} (hc : exec c s = .next (runInstr i w srcs run s)) : VerbKeepsOrder c i w s :=
  fun h => hc.trans (congrArg _ (runInstr_of_not_next h))

/-! ### Operands that are not ready (R121, R124, R140) -/

/-- R124, R140: a parameter operand waits while its parameter is unwritten. -/
theorem operandWait_param {s : State} {st : Stall} {sp : Span} {k : Fin 8} {sel : BitVec 6} (hsel : sel.toNat = 48 + k.val) :
    operandWait s st sp sel = if (paramOf s sp k.val).isNone then some waitInput else none := by
  have hk := k.isLt
  have hin : ¬(32 ≤ sel.toNat ∧ sel.toNat < 40) := by omega
  have hacc : ¬(sel.toNat = 40 ∨ sel.toNat = 41) := by omega
  have hpar : 48 ≤ sel.toNat ∧ sel.toNat < 56 := by omega
  have hsub : sel.toNat - 48 = k.val := by omega
  simp only [operandWait, if_neg hin, if_neg hacc, if_pos hpar, hsub]

/-- R32, R121: an accumulator operand waits while its buffer is not in DRAIN. -/
theorem operandWait_acc {s : State} {st : Stall} {sp : Span} {k : Fin 2} {b : Fin 4} {sel : BitVec 6} (hsel : sel.toNat = 40 + k.val)
    (hb : sp.init.accs[k.val]? = some b) :
    operandWait s st sp sel = if (st.bufs[b]).state = .drain then none else some waitInput := by
  have hk := k.isLt
  have hin : ¬(32 ≤ sel.toNat ∧ sel.toNat < 40) := by omega
  have hacc : sel.toNat = 40 ∨ sel.toNat = 41 := by omega
  have hsub : sel.toNat - 40 = k.val := by omega
  simp only [operandWait, if_neg hin, if_pos hacc, hsub, hb]

/-! ### The start of a span (R117, R124, R131) -/

/-- The state in which the verb's run of the tensor holds the span's stall. -/
def verbRunKept (s : State) (verb : Nat) (r : VerbRun) : State :=
  s.withJob { s.job with verbRuns := sput none s.job.verbRuns verb (some r) }

/-- The stall that begins a span. -/
def spanBegun (sp : Span) (x : Stall) : Stall := { x with span := some sp, busy := true, wait := none }

/-- R124: a legal span of a chosen sentence with nothing to wait for starts. -/
theorem startSpan_of_ready {s : State} {i : Fin 1024} {v : SpanInit} {p : Program} {h : VerbHeader}
    (hspan : (getStall s i).span = none) (hp : s.load.prog = some p) (hv : p.verbs[v.verb]? = some h) (hok : spanOk s i h v = true)
    (hchosen : clauseChosen s (getStall s i).ctx = some true) (hring : clauseRing s (getStall s i).ctx = none)
    (hcounts : countsAwaited s (getStall s i).ctx = false) (hcopy : copyAwaited s (getStall s i).ctx = false)
    (hheld : heldBack s (getStall s i).ctx = false) :
    startSpan i v s = setStall (verbRunKept s v.verb (verbRun s i h v)) i
      (spanBegun (newSpan s h v (verbRun s i h v).bases) (getStall s i)) := by
  simp only [startSpan, hspan, hp, Option.bind_some, hv, hok, hchosen, openRing_of_no_ring hring, ringWaits_of_no_ring hring,
    hcounts, hcopy, hheld]
  rfl

/-! ### O41 -/

/-- Settles O41: by what `runInstr` does with an operand that waits and with a word out of order, by the waits of the two
kinds of operand, and by the state that `startSpan` leaves. -/
theorem verbInstructionsWaitForTheirOperands : Obligations.VerbInstructionsWaitForTheirOperands := by
  unfold Obligations.VerbInstructionsWaitForTheirOperands
  refine ⟨fun s i d a b k => ?waits, fun s i d a b k => ?keepsOrder, ?param, ?acc, ?start⟩
  case waits =>
    exact ⟨verbWaits_of_runInstr rfl, verbWaits_of_runInstr rfl, verbWaits_of_runInstr rfl, verbWaits_of_runInstr rfl,
      verbWaits_of_runInstr rfl⟩
  case keepsOrder =>
    exact ⟨verbKeepsOrder_of_runInstr rfl, verbKeepsOrder_of_runInstr rfl, verbKeepsOrder_of_runInstr rfl,
      verbKeepsOrder_of_runInstr rfl, verbKeepsOrder_of_runInstr rfl⟩
  case param =>
    intro s st sp k sel hsel
    simp [operandWait_param hsel]
  case acc =>
    intro s st sp k b sel hsel hb
    simp [operandWait_acc hsel hb]
  case start =>
    intro s i v p h hspan hp hv hok hchosen hring hcounts hcopy hheld
    have hstart := startSpan_of_ready hspan hp hv hok hchosen hring hcounts hcopy hheld
    have hdone := stallBecomes_setStall (x := spanBegun (newSpan s h v (verbRun s i h v).bases) (getStall s i))
      (stall_ne_reset_of_busy rfl) (verbRunKept s v.verb (verbRun s i h v)) i
    exact ⟨_, congrArg Host.Outcome.next hstart, rfl, rfl, rfl, rfl, rfl, rfl, hdone.others,
      _, congrArg Stall.span hdone.here, rfl, rfl, rfl, rfl, rfl, rfl⟩

end Sys2Proof.Machine

namespace Sys2Proof.Machine

/-! ### A stall that changes more than once -/

/-- A stall that becomes x and then y becomes y. -/
theorem StallBecomes.trans {i : Fin 1024} {x y : Stall} {s u t : State} (hx : StallBecomes i x s u) (hy : StallBecomes i y u t) :
    StallBecomes i y s t where
  rest := by rw [hy.rest, hx.rest]; rfl
  others j hj := (hy.others j hj).trans (hx.others j hj)
  here := hy.here

/-- A state in which one stall becomes another differs in its stalls only. -/
theorem StallBecomes.exists_stalls {i : Fin 1024} {x : Stall} {s t : State} (h : StallBecomes i x s t) : ∃ y, t = s.withStalls y :=
  ⟨_, h.rest⟩

/-! ### PUT (R122, R123, R129) -/

/-- The words that PUT and SUMM take: their operand's, element by element. -/
theorem runLanes_op1_words (s : State) (st : Stall) (sp : Span) (a : BitVec 6) :
    (runLanes s st sp [a] (fun _ l => { word := op1 l })).map (·.word) =
      (List.range (spanSize sp)).map (fun e => (operand s st sp a e).1) := by
  simp [runLanes, op1]

/-- R149: a PUT marks the saturated elements of a parameter, and changes nothing else of its span. -/
theorem ite_markSaturated_eq (marks : Bool) (f : Fmt) (l : List Bool) (sp : Span) :
    ∃ sat, (if marks then markSaturated f l sp else sp) = { sp with saturated := sat } := by
  cases marks with
  | false => exact ⟨sp.saturated, rfl⟩
  | true => exact markSaturated_eq f l sp

/-- The state in which the write of a tensor stays open. -/
def writeKept (tid : W64) (tw : TensorWrite) (s : State) : State :=
  s.withTens { s.tens with writes := sput none s.tens.writes tid.toNat (some tw) }

/-- A stall that has stored a region output. -/
def regionStored (w : W128) (sp : Span) (convs : List Conv) (scales : List Byte) (x : Stall) : Stall :=
  { x with store := putRegion w sp convs scales x.store }

/-- A write from which elements of the tensor are still missing stays open. -/
theorem keepWrite_of_more {tid : W64} {elems : Nat} {tw : TensorWrite} {s : State} (h : tw.codes.length < heldElems s tid elems) :
    keepWrite tid elems tw s = writeKept tid tw s :=
  if_neg (Nat.not_le.mpr h)

section Put
variable {i : Fin 1024} {k : Fin 4} {a : BitVec 6} {st : Stall} {sp : Span} {s : State} {w : W128} {tid : W64} {tw : TensorWrite}
  {raw convs : List Conv} {scales : List Byte}
  (hout : sp.header.outs.getD k.val none = some w) (htid : tid = sp.init.outTids.getD k.val 0)
  (htw : tw = openWrite s tid (if sdRm w = .sr then some (sdStream w) else none))
  (hraw : putConvs s w tw sp ((List.range (spanSize sp)).map (fun e => (operand s st sp a e).1)) = (raw, scales))
  (hconvs : convs = remainderConvs s tid sp raw)
include hout htid htw hraw hconvs

/-- R22, R38, R129: PUT waits for a credit of its queue, or for the drain of the shadow buffer, or writes its output; to a region
it writes the store and the open tensor write, and ends. -/
theorem putSpan_eq : ∃ t, putSpan i k a st sp s =
      (if sdQueue w && !hasCredits (sget {} st.outs (outQueue sp k.val)) 1 then stallWaits i waitOutput s
       else if shadowWaits s tid then stallWaits i waitPeer s else t) ∧
    (sdQueue w = false → ∃ sat nf, t = endInstr i { sp with saturated := sat } [a] sp.regs 0 (decodeOverflows st sp [a]) nf
      (keepWrite tid sp.init.elems (putWrite w i sp tw convs scales) (setStall s i (regionStored w sp convs scales st)))) := by
  subst htid htw hconvs
  obtain ⟨sat, hsat⟩ := ite_markSaturated_eq
    ((findTensor s (sp.init.outTids.getD k.val 0)).any (fun t : TensorDecl => decide (t.role = .param))) (sdFmt w)
    ((remainderConvs s (sp.init.outTids.getD k.val 0) sp raw).map Conv.sat) sp
  simp only [putSpan, hout, runLanes_op1_words, hraw, hsat]
  refine ⟨_, rfl, fun hq => ?_⟩
  simp only [hq, Bool.false_eq_true, if_false]
  exact ⟨sat, _, rfl⟩

/-- R38: PUT to a queue without a credit waits. -/
theorem putSpan_of_no_credit (hq : sdQueue w = true) (hcredit : hasCredits (sget {} st.outs (outQueue sp k.val)) 1 = false) :
    putSpan i k a st sp s = stallWaits i waitOutput s := by
  obtain ⟨t, ht, -⟩ := putSpan_eq (i := i) hout htid htw hraw hconvs
  simp [ht, hq, hcredit]

/-- R22: PUT to the shadow buffer waits while a snapshot drain of its contents runs. -/
theorem putSpan_of_shadow (hcredit : sdQueue w = true → hasCredits (sget {} st.outs (outQueue sp k.val)) 1 = true)
    (hshadow : shadowWaits s tid = true) : putSpan i k a st sp s = stallWaits i waitPeer s := by
  obtain ⟨t, ht, -⟩ := putSpan_eq (i := i) hout htid htw hraw hconvs
  have hsends : (sdQueue w && !hasCredits (sget {} st.outs (outQueue sp k.val)) 1) = false := by
    simpa using hcredit
  simp [ht, hsends, hshadow]

/-- R122, R129: PUT to a region of a tensor that is not yet whole changes the stall's store and the open tensor write, and ends. -/
theorem putSpan_of_region (hq : sdQueue w = false) (hshadow : shadowWaits s tid = false)
    (hmore : (putWrite w i sp tw convs scales).codes.length < heldElems s tid sp.init.elems) :
    ∃ sat nf, putSpan i k a st sp s = endInstr i { sp with saturated := sat } [a] sp.regs 0 (decodeOverflows st sp [a]) nf
      (writeKept tid (putWrite w i sp tw convs scales) (setStall s i (regionStored w sp convs scales st))) := by
  obtain ⟨t, ht, hregion⟩ := putSpan_eq (i := i) hout htid htw hraw hconvs
  obtain ⟨sat, nf, hend⟩ := hregion hq
  refine ⟨sat, nf, ?_⟩
  have hkeep := keepWrite_of_more (s := setStall s i (regionStored w sp convs scales st)) hmore
  rw [ht, hq, hshadow, hend, hkeep]
  rfl

end Put

/-! ### SUMM (R136) -/

/-- A stall whose slot of the span's verb has taken words. -/
def slotFed (kind : SlotKind) (sp : Span) (k : Fin 4) (words : List W32) (x : Stall) : Stall :=
  let key := 4 * sp.init.verb + k.val
  { x with slots := sput {} x.slots key (feedSlot kind sp words (sget {} x.slots key)) }

/-- R136: SUMM feeds the values of its span to its slot and ends. -/
theorem summSpan_of_slot {k : Fin 4} {sp : Span} {kind : SlotKind} (hslot : sp.header.slots.getD k.val none = some kind)
    (i : Fin 1024) (a : BitVec 6) (st : Stall) (s : State) :
    summSpan i k a st sp s = endInstr i sp [a] sp.regs 0 (decodeOverflows st sp [a]) 0
      (setStall s i (slotFed kind sp k ((List.range (spanSize sp)).map (fun e => (operand s st sp a e).1)) st)) := by
  simp only [summSpan, runLanes_op1_words, hslot]
  rfl

/-! ### Summaries and decisions (R138 to R140, R165) -/

/-- R138: the first partial of a slot that other roles also hold is kept. -/
theorem summaryPartial_of_first {s : State} {verb slot : Nat} {kind : SlotKind} (hkind : slotKind s verb slot = some kind)
    (hnone : s.job.partials = []) {roles : Nat} (hroles : 2 ≤ roles) (role : Nat) (v : W64) :
    summaryPartial verb slot role roles v s = s.withJob { s.job with partials := [(verb, slot, role, v)] } := by
  have hmore : ¬roles ≤ 1 := by omega
  simp [summaryPartial, hkind, hnone, hmore]

/-- R105, R138: the only partial of a count is its summary. -/
theorem summaryPartial_of_only {s : State} {verb slot : Nat} (hkind : slotKind s verb slot = some .nfc) (hnone : s.job.partials = [])
    (role : Nat) (v : W64) :
    summaryPartial verb slot role 1 v s = s.withJob { s.job with
      partials := [], summaries := s.job.summaries.filter (fun p => decide (p.1 ≠ (verb, slot))) ++ [((verb, slot), v)] } := by
  simp [summaryPartial, hkind, hnone, sortBy, insertBy, combinePartials]

/-- R138, R139: what a decision's test says of the value that it reads. -/
def decisionOutcome (d : Decision) (x : W32) (count : Option Nat) : Bool :=
  match d.test with
  | none => true
  | some (c, t) => decisionTest c t x count

/-- R157: only a decision with source NFFLAG guards the update. -/
theorem guardsUpdate_of_source {d : Decision} (h : d.source ≠ .nfflag) : guardsUpdate d = false := by
  simp [guardsUpdate, isSkipDecision, h]

/-- R139, R140: an undecided decision whose source exists, that writes no parameter and does not guard the update, keeps its
outcome. -/
theorem runDecision_of_value {s : State} {i : Nat} {p : Program} {d : Decision} {x : W32} {count : Option Nat}
    (hp : s.load.prog = some p) (hd : p.decisions[i]? = some d) (hnew : s.job.decided.any (fun q => decide (q.1 = i)) = false)
    (hx : decisionValue s d = some (x, count)) (hwrites : d.writes = []) (hsource : d.source ≠ .nfflag) :
    runDecision i s = holdUnvisited (s.withJob { s.job with decided := s.job.decided ++ [(i, decisionOutcome d x count)] }) := by
  simp only [runDecision, hp, Option.bind_some, hd, hnew, hx, hwrites, guardsUpdate_of_source hsource]
  rfl

/-- R165: before the visits of the step are counted no unvisited expert is settled. -/
theorem holdUnvisited_of_uncounted {s : State} (h : s.ledger.counted = false) : holdUnvisited s = s := by
  cases hp : s.load.prog with
  | none => simp [holdUnvisited, hp]
  | some p => simp [holdUnvisited, hp, h]

/-! ### O42 -/

/-- Settles O42: by the cases of PUT, the end of SUMM, and what the Clerk does with a partial and a decision. -/
theorem putAndSummFeedOutputsAndSlots : Obligations.PutAndSummFeedOutputsAndSlots := by
  unfold Obligations.PutAndSummFeedOutputsAndSlots
  refine ⟨?put, ?summ, ?partialFirst, ?partialOnly, ?decision, fun _ => holdUnvisited_of_uncounted⟩
  case put =>
    intro s i k a st sp w tid tw raw convs scales hst hsp hnext hready hmore hout htid htw hraw hconvs
    have hexec : exec (.put i k a) s = .next (putSpan i k a st sp s) :=
      congrArg Host.Outcome.next (runInstr_of_ready hst hsp hnext hready)
    refine ⟨fun hq hshadow hheld => ?_, fun hq hcredit => ?_, fun hcredit hshadow => ?_⟩
    · obtain ⟨sat, nf, hput⟩ := putSpan_of_region hout htid htw hraw hconvs hq hshadow hheld
      have hstored := stallBecomes_setStall (x := regionStored w sp convs scales st) (stall_ne_reset_of_span hsp) s i
      have hdone := stallBecomes_endInstr (sp := { sp with saturated := sat })
        (s := writeKept tid (putWrite w i sp tw convs scales) (setStall s i (regionStored w sp convs scales st)))
        hmore hstored.here [a] sp.regs 0 (decodeOverflows st sp [a]) nf
      obtain ⟨x, hx⟩ := hdone.exists_stalls
      refine ⟨_, hexec.trans (congrArg _ hput), ?rest, congrArg Stall.store hdone.here, ?tens,
        fun j hj => (hdone.others j hj).trans (hstored.others j hj), ⟨_, congrArg Stall.span hdone.here, rfl, rfl⟩, ?_⟩
      case rest => rw [hx]; rfl
      case tens => rw [hx]; rfl
      rw [hx]
      exact ⟨rfl, rfl, rfl, rfl⟩
    · rw [hexec, putSpan_of_no_credit hout htid htw hraw hconvs hq hcredit, stallWaits, hst]
    · rw [hexec, putSpan_of_shadow hout htid htw hraw hconvs hcredit hshadow, stallWaits, hst]
  case summ =>
    intro s i k a st sp kind hst hsp hnext hready hmore hslot
    have hexec : exec (.summ i k a) s = .next _ :=
      congrArg Host.Outcome.next ((runInstr_of_ready hst hsp hnext hready).trans (summSpan_of_slot hslot i a st s))
    have hfed := stallBecomes_setStall
      (x := slotFed kind sp k ((List.range (spanSize sp)).map (fun e => (operand s st sp a e).1)) st) (stall_ne_reset_of_span hsp) s i
    have hdone := hfed.trans (stallBecomes_endInstr hmore hfed.here [a] sp.regs 0 (decodeOverflows st sp [a]) 0)
    refine ⟨_, hexec, hdone.rest, hdone.others, ?_⟩
    rw [hdone.here]
    exact ⟨rfl, rfl, _, rfl, rfl, rfl⟩
  case partialFirst =>
    intro s verb slot role roles v kind hkind hnone hroles
    exact congrArg Host.Outcome.next (summaryPartial_of_first hkind hnone hroles role v)
  case partialOnly =>
    intro s verb slot role v hkind hnone
    exact congrArg Host.Outcome.next (summaryPartial_of_only hkind hnone role v)
  case decision =>
    intro s i p d x n hp hd hnew hx hwrites hsource
    exact congrArg Host.Outcome.next (runDecision_of_value hp hd hnew hx hwrites hsource)

end Sys2Proof.Machine

namespace Sys2Proof.Machine

/-! ### What an event in the Logbook changes (R479, R492, R500) -/

/-- What a record that the module writes can change. -/
structure LogMarks where
  /-- R492 the queue, what waits for it and what was lost -/
  log : Log
  /-- R479 the flag of a record of SEV 3 -/
  detected : Bool
  /-- R479 the flag of a record of SEV 4 -/
  fatal : Bool
  /-- R479 the SEQ of the last record of SEV 3 or 4 -/
  lastSeq : W64
  /-- R546 the count of replays -/
  replays : W32
  /-- R548 ALERT_N -/
  alert : Bool
  /-- R500 how often the MSI-X vector was raised -/
  msix : Nat

/-- The state with the marks of a record. -/
def State.marked (s : State) (m : LogMarks) : State :=
  ((s.withLog m.log).withSaf { s.saf with detected := m.detected, fatal := m.fatal, lastSeq := m.lastSeq, replays := m.replays }).withBus
    { s.bus with alert := m.alert, msix := m.msix }

/-- R479: a record that enters the queue changes two flags, the last SEQ and the replay count of the SAF_ block only. -/
theorem flagRecord_eq (f : Saf) (r : LogRec) (seq : W64) :
    ∃ d e q n, flagRecord f r seq = { f with detected := d, fatal := e, lastSeq := q, replays := n } := by
  unfold flagRecord
  (repeat' split) <;> exact ⟨_, _, _, _, rfl⟩

/-- R479: so does a group of records. -/
theorem flagAll_eq (rs : List LogRec) (f : Saf) (seq : W64) :
    ∃ d e q n, flagAll f seq rs = { f with detected := d, fatal := e, lastSeq := q, replays := n } := by
  induction rs generalizing f seq with
  | nil => exact ⟨_, _, _, _, rfl⟩
  | cons r t ih =>
    obtain ⟨d, e, q, n, hr⟩ := flagRecord_eq f r seq
    obtain ⟨d', e', q', n', ht⟩ := ih (flagRecord f r seq) (seq + 1)
    exact ⟨d', e', q', n', by rw [flagAll, ht, hr]⟩

/-- R492: a group that is entered, dropped or held leaves its marks only. -/
theorem offerGroup_eq (rs : List LogRec) (s : State) : ∃ m, offerGroup rs s = s.marked m := by
  have hlog : ∀ l : Log, ∃ m, s.withLog l = s.marked m := fun l =>
    ⟨{ log := l, detected := s.saf.detected, fatal := s.saf.fatal, lastSeq := s.saf.lastSeq, replays := s.saf.replays,
       alert := s.bus.alert, msix := s.bus.msix }, rfl⟩
  have henter : ∃ m, enterGroup rs s = s.marked m := by
    obtain ⟨d, e, q, n, hflags⟩ := flagAll_eq rs s.saf s.log.nextSeq
    unfold enterGroup
    dsimp only
    rw [hflags]
    exact ⟨⟨_, d, e, q, n, _, _⟩, rfl⟩
  unfold offerGroup
  split
  · exact hlog s.log
  · split
    · exact hlog _
    · split
      · exact henter
      · exact hlog _

/-- R488: an event that the module writes leaves marks only. -/
theorem logEvent_eq (code : W16) (sev : BitVec 3) (unit : UnitId) (detail : Bytes) (s : State) :
    ∃ m, logEvent code sev unit detail s = s.marked m := offerGroup_eq _ s

/-- R466: a detection is counted, and its record leaves marks only. -/
theorem countDetection_eq (mech : Nat) (unit : UnitId) (location : W32) (observed expected : W64) (s : State) :
    ∃ m, countDetection mech unit location observed expected s =
      (s.withSaf { s.saf with detections := add48 s.saf.detections 1 }).marked m := by
  unfold countDetection
  exact logEvent_eq _ _ _ _ _

section Records

variable (code : W16) (sev : BitVec 3) (mech addr : Nat) (unit : UnitId) (detail : Bytes) (location : W32) (observed expected : W64) (s : State)

@[simp] theorem logEvent_corrections : (logEvent code sev unit detail s).saf.corrections = s.saf.corrections := by
  obtain ⟨m, h⟩ := logEvent_eq code sev unit detail s; rw [h]; rfl
@[simp] theorem logEvent_detections : (logEvent code sev unit detail s).saf.detections = s.saf.detections := by
  obtain ⟨m, h⟩ := logEvent_eq code sev unit detail s; rw [h]; rfl
@[simp] theorem logEvent_cellars : (logEvent code sev unit detail s).saf.cellars = s.saf.cellars := by
  obtain ⟨m, h⟩ := logEvent_eq code sev unit detail s; rw [h]; rfl
@[simp] theorem logEvent_cxlEvents : (logEvent code sev unit detail s).bus.cxlEvents = s.bus.cxlEvents := by
  obtain ⟨m, h⟩ := logEvent_eq code sev unit detail s; rw [h]; rfl

@[simp] theorem countCorrection_corrections : (countCorrection mech unit addr s).saf.corrections = add48 s.saf.corrections 1 := by
  simp [countCorrection]
@[simp] theorem countCorrection_detections : (countCorrection mech unit addr s).saf.detections = s.saf.detections := by
  simp [countCorrection]

@[simp] theorem countDetection_detections :
    (countDetection mech unit location observed expected s).saf.detections = add48 s.saf.detections 1 := by simp [countDetection]
@[simp] theorem countDetection_cellars :
    (countDetection mech unit location observed expected s).saf.cellars = s.saf.cellars := by simp [countDetection]
@[simp] theorem countDetection_cxlEvents :
    (countDetection mech unit location observed expected s).bus.cxlEvents = s.bus.cxlEvents := by simp [countDetection]

end Records

/-! ### Errors in storage (R191 to R196) -/

/-- R195: a far-tier unit that is retired reads so, whatever form the table of units has. -/
theorem retireFar_retired (unit : Nat) (s : State) : (sget {} (retireFar unit s).mem.farPages unit).retired = true :=
  congrArg PageHist.retired (sget_sput_of_ne ({} : PageHist) _ _ _ (ne_of_apply_ne PageHist.retired Bool.noConfusion))

/-- R195: a Cellar page that is retired reads so. -/
theorem retireNear_retired (page : Nat) (s : State) : (sget {} (retireNear page s).mem.nearPages page).retired = true :=
  congrArg PageHist.retired (sget_sput_of_ne ({} : PageHist) _ _ _ (ne_of_apply_ne PageHist.retired Bool.noConfusion))

/-- R473: with no run no attempt becomes suspect. -/
theorem markSuspect_of_no_run {s : State} (h : s.step.run = none) (unit : UnitId) (seq : W64) : markSuspect unit seq s = s := by
  simp [markSuspect, h]

/-- R195: with no run a lost line that belongs to no section has no further effect. -/
theorem lostLine_of_no_run {s : State} (h : s.step.run = none) (unit : UnitId) (seq : W64) : lostLine unit seq none s = s :=
  markSuspect_of_no_run h unit seq

/-- R194: a corrected far-tier line changes its unit's history, the count of corrections and what its record marks. -/
theorem correctFar_eq (addr : Nat) (s : State) : ∃ pages saf m,
    correctFar addr s = ((s.withMem { s.mem with farPages := pages }).withSaf saf).marked m := by
  unfold correctFar countCorrection
  exact ⟨_, _, logEvent_eq _ _ _ _ _⟩

/-- R195, R466: a lost far-tier line changes its unit's history, the count of detections and what its record marks. -/
theorem recordFarLoss_eq (addr : Nat) (s : State) : ∃ pages saf m,
    recordFarLoss addr s = ((s.withMem { s.mem with farPages := pages }).withSaf saf).marked m := by
  obtain ⟨m, h⟩ := countDetection_eq 8 (.farCtl (farCtlOf addr)) (farLine addr) 0 0 s
  unfold recordFarLoss
  rw [h]
  exact ⟨(retireFar (addr / 4096) s).mem.farPages, { s.saf with detections := add48 s.saf.detections 1 }, m, rfl⟩

section FarErrors

variable (addr : Nat) (s : State)

@[simp] theorem correctFar_far : (correctFar addr s).mem.far = s.mem.far := by simp [correctFar]
@[simp] theorem correctFar_farScrub : (correctFar addr s).mem.farScrub = s.mem.farScrub := by simp [correctFar]
@[simp] theorem correctFar_corrections : (correctFar addr s).saf.corrections = add48 s.saf.corrections 1 := by simp [correctFar]
@[simp] theorem correctFar_detections : (correctFar addr s).saf.detections = s.saf.detections := by simp [correctFar]
@[simp] theorem correctFar_mbx : (correctFar addr s).mbx = s.mbx := by simp [correctFar]
@[simp] theorem correctFar_tens : (correctFar addr s).tens = s.tens := by simp [correctFar]
@[simp] theorem correctFar_step : (correctFar addr s).step = s.step := by simp [correctFar]
@[simp] theorem correctFar_out : (correctFar addr s).out = s.out := by simp [correctFar]

@[simp] theorem recordFarLoss_far : (recordFarLoss addr s).mem.far = s.mem.far := by simp [recordFarLoss, retireFar]
@[simp] theorem recordFarLoss_retired : (sget {} (recordFarLoss addr s).mem.farPages (addr / 4096)).retired = true :=
  retireFar_retired _ _
@[simp] theorem recordFarLoss_detections : (recordFarLoss addr s).saf.detections = add48 s.saf.detections 1 := by
  simp [recordFarLoss, retireFar]
@[simp] theorem recordFarLoss_cxlEvents : (recordFarLoss addr s).bus.cxlEvents = s.bus.cxlEvents := by simp [recordFarLoss, retireFar]
@[simp] theorem recordFarLoss_mbx : (recordFarLoss addr s).mbx = s.mbx := by simp [recordFarLoss, retireFar]
@[simp] theorem recordFarLoss_tens : (recordFarLoss addr s).tens = s.tens := by simp [recordFarLoss, retireFar]
@[simp] theorem recordFarLoss_step : (recordFarLoss addr s).step = s.step := by simp [recordFarLoss, retireFar]
@[simp] theorem recordFarLoss_out : (recordFarLoss addr s).out = s.out := by simp [recordFarLoss, retireFar]

end FarErrors

/-- R195: with no run a lost far-tier line that belongs to no section is recorded and nothing more. -/
theorem uncorrectableFar_of_no_run {s : State} (h : s.step.run = none) (addr : Nat) :
    uncorrectableFar addr none s = recordFarLoss addr s :=
  lostLine_of_no_run (by simpa using h) _ _

/-! ### The CXL.mem window (R208, R209, R212) -/

section Window

variable {s : State} (hlink : s.bus.linkUp = true) (line : BitVec 30)

include hlink

/-- R209: a clean read answers the line. -/
theorem cxlRead_clean : cxlRead line .clean s =
    s.withBus { s.bus with cxlData := some (readBytes s.mem.far (lineAddr line) 64, false) } := by
  simp [cxlRead, hlink]

/-- R209: a corrected read answers the line once its correction is recorded. -/
theorem cxlRead_corrected : cxlRead line .corrected s = (correctFar (lineAddr line) s).withBus { (correctFar (lineAddr line) s).bus with
    cxlData := some (readBytes (correctFar (lineAddr line) s).mem.far (lineAddr line) 64, false) } := by
  simp [cxlRead, hlink]

/-- R212: an uncorrectable read answers a poisoned line and adds the line to the event log. -/
theorem cxlRead_uncorrectable : ∃ data, cxlRead line .uncorrectable s =
    (recordFarLoss (lineAddr line) (s.withFree (s.free + 1))).withBus
      { (recordFarLoss (lineAddr line) (s.withFree (s.free + 1))).bus with
        cxlData := some (data, true),
        cxlEvents := (recordFarLoss (lineAddr line) (s.withFree (s.free + 1))).bus.cxlEvents ++ [lineAddr line] } :=
  ⟨bytesOf 512 (Config.freeValue 512 s.free) 64, by simp [cxlRead, hlink, takeFree]⟩

/-- R209: a write of 64 bytes stores them at the line's address. -/
theorem cxlWrite_of_length {b : Bytes} (hb : b.length = 64) :
    cxlWrite line b s = s.withMem { s.mem with far := writeBytes s.mem.far (lineAddr line) b } := by
  simp [cxlWrite, hlink, List.take_of_length_le hb.le]

end Window

/-! ### O34 -/

/-- Settles O34: the write stores the line's bytes and no other byte, and they read back since the tier is in canonical form. -/
theorem cxlWindowLinesReadBack : Obligations.CxlWindowLinesReadBack := by
  unfold Obligations.CxlWindowLinesReadBack
  intro s line b hlink hfar hb
  have hback : readBytes (writeBytes s.mem.far (lineAddr line) b) (lineAddr line) 64 = b := by
    rw [← hb]; exact readBytes_writeBytes b s.mem.far (lineAddr line) hfar
  have hread := cxlRead_clean (s := s.withMem { s.mem with far := writeBytes s.mem.far (lineAddr line) b }) hlink line
  exact ⟨_, congrArg Host.Outcome.next (cxlWrite_of_length hlink line hb), rfl,
    fun a ha => readByte_writeBytes_other b s.mem.far _ a (by rwa [hb]), rfl, rfl, rfl, rfl, rfl,
    _, congrArg Host.Outcome.next hread, congrArg (fun x => some (x, false)) hback, rfl, rfl, rfl⟩

end Sys2Proof.Machine

namespace Sys2Proof.Machine

/-! ### The CXL memory-device mailbox (R498) -/

section Mailbox

variable {s : State} (hlink : s.bus.linkUp = true)

include hlink

/-- R498: the device is identified. -/
theorem execIdentifyMemoryDevice_of_link :
    execIdentifyMemoryDevice s = .next (s.withBus { s.bus with cxlReturn := 0 }) := by
  simp [execIdentifyMemoryDevice, hlink, cxlAnswer, cxlSuccess]

/-- R498: the oldest events are returned. -/
theorem getEvents_of_link (n : Nat) :
    getEvents n s = s.withBus { s.bus with cxlReturn := 0, cxlOut := s.bus.cxlEvents.take n } := by
  simp [getEvents, hlink, cxlAnswer, cxlSuccess]

/-- R498: the oldest events are cleared. -/
theorem clearEvents_of_link (n : Nat) :
    clearEvents n s = s.withBus { s.bus with cxlReturn := 0, cxlEvents := s.bus.cxlEvents.drop n } := by
  simp [clearEvents, hlink, cxlAnswer, cxlSuccess]

/-- R498: a command that is not served is answered with Unsupported. -/
theorem execCxlMailboxUnsupported_of_not_served {op : W16} (hop : op ∉ cxlServed) :
    execCxlMailboxUnsupported op s = .next (s.withBus { s.bus with cxlReturn := cxlUnsupported }) := by
  simp [execCxlMailboxUnsupported, hlink, hop, cxlAnswer]

end Mailbox

/-! ### Reads of the far tier (R180, R192) -/

/-- R180: within the tier a read runs. -/
theorem exec_farTierRead_of_lt {addr : Nat} (h : addr < 0x18000000000) (ecc : EccOutcome) (holds : Option SectionRef) (s : State) :
    exec (.farTierRead addr ecc holds) s = .next (farTierRead addr ecc holds s) := if_neg (Nat.not_le.mpr h)

section Powered

variable {s : State} (hpg : s.pwr.pg = true)

include hpg

/-- R192: a clean read sends out its line. -/
theorem farTierRead_clean (addr : Nat) (holds : Option SectionRef) : farTierRead addr .clean holds s =
    s.withOut (s.out ++ [.memData (addr / 64 * 64) (readBytes s.mem.far (addr / 64 * 64) 64)]) := by
  simp [farTierRead, exchangeOn, hpg, emit]

/-- R192, R194: a corrected read sends out its line once its correction is recorded. -/
theorem farTierRead_corrected (addr : Nat) (holds : Option SectionRef) : farTierRead addr .corrected holds s =
    emit (.memData (addr / 64 * 64) (readBytes (correctFar (addr / 64 * 64) s).mem.far (addr / 64 * 64) 64))
      (correctFar (addr / 64 * 64) s) := by
  simp [farTierRead, exchangeOn, hpg]

/-- R192, R195: with no run an uncorrectable read of a line of no section records the loss and sends nothing. -/
theorem farTierRead_uncorrectable (hrun : s.step.run = none) (addr : Nat) : farTierRead addr .uncorrectable none s =
    recordFarLoss (addr / 64 * 64) s := by
  simp [farTierRead, exchangeOn, hpg, uncorrectableFar_of_no_run hrun]

/-! ### Scrubbing (R193) -/

/-- R193: a clean line of the far tier moves the pointer only. -/
theorem scrub_far_clean (holds : Option SectionRef) : scrub true .clean holds s =
    s.withMem { s.mem with farScrub := (s.mem.farScrub + 1) % farLines } := by
  simp [scrub, exchangeOn, hpg]

/-- R193, R194: a corrected line of the far tier moves the pointer and is handled as on any read. -/
theorem scrub_far_corrected (holds : Option SectionRef) : scrub true .corrected holds s =
    correctFar (64 * s.mem.farScrub) (s.withMem { s.mem with farScrub := (s.mem.farScrub + 1) % farLines }) := by
  simp [scrub, exchangeOn, hpg]

/-- R193: the scrubber yields to an access that waits at the line's bank. -/
theorem scrub_near_of_busy (ecc : EccOutcome) (holds : Option SectionRef)
    (hbusy : bankBusy s (cellarOfLine s.mem.nearScrub) (64 * (s.mem.nearScrub % 8388608)) = true) :
    scrub false ecc holds s = s := by
  simp [scrub, exchangeOn, hpg, hbusy]

/-- R193: a clean line of the near tier moves the pointer only. -/
theorem scrub_near_clean (holds : Option SectionRef)
    (hfree : bankBusy s (cellarOfLine s.mem.nearScrub) (64 * (s.mem.nearScrub % 8388608)) = false) :
    scrub false .clean holds s = s.withMem { s.mem with nearScrub := (s.mem.nearScrub + 1) % nearLines } := by
  simp [scrub, exchangeOn, hpg, hfree]

end Powered

/-! ### O35 -/

/-- Settles O35, by the equations above of each read and each line scrubbed: a correction or a detection is counted and leaves, beside
the history of its unit, the marks of its record only. -/
theorem cxlAndFarTierReadsReportTheirErrors : Obligations.CxlAndFarTierReadsReportTheirErrors := by
  unfold Obligations.CxlAndFarTierReadsReportTheirErrors
  refine ⟨⟨?poisoned, ?corrected, ?identify, ?events, ?unsupported⟩,
    ⟨?outside, ?farClean, ?farCorrected, ?farLost, ?scrubFar, ?scrubBusy, ?scrubNear, ?scrubCorrected⟩⟩
  case poisoned =>
    intro s line hlink
    obtain ⟨data, hread⟩ := cxlRead_uncorrectable hlink line
    refine ⟨_, congrArg Host.Outcome.next hread, ?frame, ?_⟩
    case frame =>
      obtain ⟨pages, saf, m, hloss⟩ := recordFarLoss_eq (lineAddr line) (s.withFree (s.free + 1))
      rw [hloss]; rfl
    simp
  case corrected =>
    intro s line hlink
    refine ⟨_, congrArg Host.Outcome.next (cxlRead_corrected hlink line), ?frame, ?_⟩
    case frame =>
      obtain ⟨pages, saf, m, hcorrect⟩ := correctFar_eq (lineAddr line) s
      rw [hcorrect]; rfl
    simp
  case identify => exact fun s hlink => execIdentifyMemoryDevice_of_link hlink
  case events =>
    intro s n hlink
    exact ⟨congrArg Host.Outcome.next (getEvents_of_link hlink n), congrArg Host.Outcome.next (clearEvents_of_link hlink n)⟩
  case unsupported => exact fun s op hlink hop => execCxlMailboxUnsupported_of_not_served hlink hop
  case outside => exact fun s a ecc h ha => if_pos ha
  case farClean =>
    intro s a h ha hpg
    rw [exec_farTierRead_of_lt ha, farTierRead_clean hpg]
  case farCorrected =>
    intro s a h ha hpg
    refine ⟨_, exec_farTierRead_of_lt ha _ _ s, ?_⟩
    rw [farTierRead_corrected hpg]
    simp [emit]
  case farLost =>
    intro s a ha hpg hrun
    refine ⟨_, exec_farTierRead_of_lt ha _ _ s, ?_⟩
    rw [farTierRead_uncorrectable hpg hrun]
    simp
  case scrubFar => exact fun s h hpg => congrArg Host.Outcome.next (scrub_far_clean hpg h)
  case scrubBusy => exact fun s h hpg hbusy => congrArg Host.Outcome.next (scrub_near_of_busy hpg .clean h hbusy)
  case scrubNear => exact fun s h hpg hfree => congrArg Host.Outcome.next (scrub_near_clean hpg h hfree)
  case scrubCorrected =>
    intro s h hpg
    refine ⟨_, congrArg Host.Outcome.next (scrub_far_corrected hpg h), ?_⟩
    simp [farLines]

end Sys2Proof.Machine

namespace Sys2Proof.Machine

/-! ### A Cellar's turn and the end of a wait (R176, R605) -/

section Turn

variable (c : Fin 1024) (x : CellarXfer) (s : State)

/-- R176: a Cellar whose turn has passed to its owner or to a remote stall. -/
def turnPassed (own : Bool) (k : Cellar) : Cellar := { k with ownerLast := own, ownerWaits := k.ownerWaits && !own }

@[simp] theorem cellarTurn_mem : (cellarTurn c x s).mem = { s.mem with
    cellars := sput {} s.mem.cellars c.val (turnPassed (decide (x.requester = c)) (sget {} s.mem.cellars c.val)) } := by
  unfold cellarTurn; dsimp only; split <;> simp [turnPassed]
@[simp] theorem cellarTurn_awn : (cellarTurn c x s).awn = s.awn := by unfold cellarTurn; dsimp only; split <;> simp
@[simp] theorem cellarTurn_saf : (cellarTurn c x s).saf = s.saf := by unfold cellarTurn; dsimp only; split <;> simp
@[simp] theorem cellarTurn_log : (cellarTurn c x s).log = s.log := by unfold cellarTurn; dsimp only; split <;> simp
@[simp] theorem cellarTurn_mbx : (cellarTurn c x s).mbx = s.mbx := by unfold cellarTurn; dsimp only; split <;> simp
@[simp] theorem cellarTurn_tens : (cellarTurn c x s).tens = s.tens := by unfold cellarTurn; dsimp only; split <;> simp
@[simp] theorem cellarTurn_step : (cellarTurn c x s).step = s.step := by unfold cellarTurn; dsimp only; split <;> simp
@[simp] theorem cellarTurn_out : (cellarTurn c x s).out = s.out := by unfold cellarTurn; dsimp only; split <;> simp

/-- R176: when the turn passes, no stall but the Cellar's own changes. -/
theorem getStall_cellarTurn_of_ne {i : Fin 1024} (h : i ≠ c) : getStall (cellarTurn c x s) i = getStall s i := by
  unfold cellarTurn
  dsimp only
  split
  · rfl
  · exact getStall_setStall_of_ne h _ _

/-- R176: a Cellar that has served its owner reads so, whatever form the table of Cellars has. -/
theorem sget_sput_turnPassed_own (k : Cellar) (t : Sparse Cellar) (n : Nat) :
    (sget {} (sput {} t n (turnPassed true k)) n).ownerLast = true :=
  congrArg Cellar.ownerLast (sget_sput_of_ne ({} : Cellar) t n _ (ne_of_apply_ne Cellar.ownerLast Bool.noConfusion))

end Turn

section Wait

variable (i : Fin 1024) (w : Fin 14) (s : State)

@[simp] theorem endWait_saf : (endWait i w s).saf = s.saf := by unfold endWait; dsimp only; split <;> simp
@[simp] theorem endWait_log : (endWait i w s).log = s.log := by unfold endWait; dsimp only; split <;> simp
@[simp] theorem endWait_mbx : (endWait i w s).mbx = s.mbx := by unfold endWait; dsimp only; split <;> simp
@[simp] theorem endWait_mem : (endWait i w s).mem = s.mem := by unfold endWait; dsimp only; split <;> simp
@[simp] theorem endWait_tens : (endWait i w s).tens = s.tens := by unfold endWait; dsimp only; split <;> simp
@[simp] theorem endWait_out : (endWait i w s).out = s.out := by unfold endWait; dsimp only; split <;> simp

/-- R605: after the end of a wait for a cause the stall does not wait for it. -/
theorem endWait_wait_ne : (getStall (endWait i w s) i).wait ≠ some w := by
  unfold endWait
  dsimp only
  split
  · rw [getStall_setStall_self (stall_ne_reset_of_busy rfl)]
    exact (Option.some_ne_none w).symm
  · assumption

end Wait

/-! ### Transfers at a Cellar (R174, R176, R191) -/

/-- R480: a Cellar in service has not stopped. -/
theorem cellarStopped_of_inService {s : State} {c : Fin 1024} (h : (sget {} s.saf.cellars c.val).state = .inService) :
    cellarStopped s c = false := by
  unfold cellarStopped
  rw [h]
  rfl

/-- R480, R482: a Cellar in service that is fenced takes its new entry in the fence table, which is recorded. -/
theorem fenceCellar_of_inService {s : State} {c : Fin 1024} (h : (sget {} s.saf.cellars c.val).state = .inService) (cause : W64) :
    fenceCellar c cause s = logFence (.cellar c) (fencedEntry s.awn.tick (sget {} s.saf.cellars c.val)).state cause
      (s.withSaf { s.saf with
        cellars := sput {} s.saf.cellars c.val (fencedEntry s.awn.tick (sget {} s.saf.cellars c.val)) }) := by
  unfold fenceCellar
  exact if_neg (by rw [h]; decide)

/-- R480: fencing a Cellar leaves the step alone. -/
@[simp] theorem fenceCellar_step (c : Fin 1024) (cause : W64) (s : State) : (fenceCellar c cause s).step = s.step := by
  unfold fenceCellar
  dsimp only
  split <;> simp [logFence]

section Transfer

variable {s : State} {c : Fin 1024} {x : CellarXfer}

/-- R176: a transfer at its turn is served once the turn has passed. -/
theorem cellarTransfer_of_serves (hon : fnOn s (.hall (hallOf c)) = true) (hstop : cellarStopped s c = false)
    (hserve : cellarServes s c x = true) : cellarTransfer c x s = servedTransfer c x (cellarTurn c x s) := by
  simp [cellarTransfer, hon, hstop, hserve]

/-- R176: a transfer that is not at its turn waits. -/
theorem cellarTransfer_of_not_serves (hon : fnOn s (.hall (hallOf c)) = true) (hstop : cellarStopped s c = false)
    (hserve : cellarServes s c x = false) : cellarTransfer c x s = cellarQueue c x s := by
  simp [cellarTransfer, hon, hstop, hserve]

/-- R174, R191: a served write of 64 bytes stores them and ends the requester's wait. -/
theorem servedTransfer_write {b : Bytes} (hcrc : x.crcFails < 4) (hw : x.write = some b) (hb : b.length = 64) :
    servedTransfer c x s = endWait x.requester waitCellar
      (s.withMem { s.mem with near := writeBytes s.mem.near (nearAddr c x.addr.toNat) b }) := by
  simp [servedTransfer, Nat.not_le.mpr hcrc, moveCellar, hw, List.take_of_length_le hb.le]

/-- R174, R191: a served clean read sends out its 64 bytes and ends the requester's wait. -/
theorem servedTransfer_read_clean (hcrc : x.crcFails < 4) (hw : x.write = none) (hecc : x.ecc = .clean) :
    servedTransfer c x s = endWait x.requester waitCellar
      (emit (.memData (nearAddr c x.addr.toNat) (readBytes s.mem.near (nearAddr c x.addr.toNat) 64)) s) := by
  simp [servedTransfer, Nat.not_le.mpr hcrc, moveCellar, hw, hecc]

/-- R195: with no run a served uncorrectable read of a line of no section is counted and retires the line's page. -/
theorem servedTransfer_read_uncorrectable (hcrc : x.crcFails < 4) (hw : x.write = none) (hecc : x.ecc = .uncorrectable)
    (hholds : x.holds = none) (hrun : s.step.run = none) : servedTransfer c x s =
      retireNear (nearPage c x.addr.toNat) (countDetection 8 (.cellar c) (BitVec.ofNat 32 x.addr.toNat) 0 0 s) := by
  simp only [servedTransfer, if_neg (Nat.not_le.mpr hcrc), hw, hecc, uncorrectableNear, hholds]
  exact lostLine_of_no_run (by simpa [retireNear] using hrun) _ _

/-- R191, R480: with no run the fourth CRC failure of a write is counted and fences the Cellar, and nothing is stored. -/
theorem servedTransfer_write_crc (hcrc : 4 ≤ x.crcFails) (hw : x.write.isSome = true) (hrun : s.step.run = none) : servedTransfer c x s =
    fenceCellar c (nextSeq s) (countDetection 9 (.cellar c) (BitVec.ofNat 32 x.addr.toNat) 0 0 s) := by
  simp only [servedTransfer, if_pos hcrc, if_pos hw]
  exact markSuspect_of_no_run (by simpa using hrun) _ _

end Transfer

/-! ### O36 -/

/-- Settles O36: the turn passes (`cellarTurn_mem`), then the served transfer does what the equations above say of its kind. -/
theorem cellarTransfersMoveSixtyFourBytes : Obligations.CellarTransfersMoveSixtyFourBytes := by
  unfold Obligations.CellarTransfersMoveSixtyFourBytes
  refine ⟨?write, ?read, ?lost, ?crc, ?queued, ?turns, fun _ _ => rfl⟩
  case write =>
    intro s c x b hon hstop hserve hcrc hw hb hnear
    have hserved := (cellarTransfer_of_serves hon hstop hserve).trans (servedTransfer_write hcrc hw hb)
    refine ⟨_, congrArg Host.Outcome.next hserved, ?_, fun a ha => ?_, ?_, fun hown => ?_, endWait_wait_ne _ _ _, ?_⟩
    · simpa [hb] using readBytes_writeBytes b s.mem.near (nearAddr c x.addr.toNat) hnear
    · simpa using readByte_writeBytes_other b s.mem.near _ a (by rwa [hb])
    · simp
    · simp [hown, sget_sput_turnPassed_own]
    · simp
  case read =>
    intro s c x hon hstop hserve hcrc hw hecc
    have hserved := (cellarTransfer_of_serves hon hstop hserve).trans (servedTransfer_read_clean hcrc hw hecc)
    refine ⟨_, congrArg Host.Outcome.next hserved, ?_, ?_, endWait_wait_ne _ _ _, ?_⟩
    all_goals simp [emit]
  case lost =>
    intro s c x hon hstop hserve hcrc hw hecc hrun hholds
    have hserved := (cellarTransfer_of_serves hon hstop hserve).trans
      (servedTransfer_read_uncorrectable hcrc hw hecc hholds (by simpa using hrun))
    refine ⟨_, congrArg Host.Outcome.next hserved, ?_, retireNear_retired _ _, ?_, ?_, ?_, ?_, fun i hi => ?stalls⟩
    case stalls =>
      rw [← getStall_cellarTurn_of_ne c x s hi]
      simp [getStall, retireNear]
    all_goals simp [retireNear]
  case crc =>
    intro s c x hon hserv hserve hcrc hw hrun
    have hserved := (cellarTransfer_of_serves hon (cellarStopped_of_inService hserv) hserve).trans
      (servedTransfer_write_crc hcrc hw (by simpa using hrun))
    refine ⟨_, congrArg Host.Outcome.next hserved, ?_⟩
    rw [fenceCellar_of_inService (by simpa using hserv)]
    simp [logFence]
  case queued =>
    intro s c x hon hstop hserve
    exact congrArg Host.Outcome.next (cellarTransfer_of_not_serves hon hstop hserve)
  case turns =>
    intro s c x
    refine ⟨fun hnone hown => ?_, fun hlast hsome hown => ?_, fun hlast hwaits hremote => ?_⟩
    · simp [cellarServes, hown, hnone]
    · simp [cellarServes, hown, hlast, hsome]
    · simp [cellarServes, hremote, hlast, hwaits]

end Sys2Proof.Machine

namespace Sys2Proof.Machine

/-! ### The order of scores (R217) -/

/-- A value that is not a NaN as an extended real. -/
noncomputable def Val.toEReal : Val → EReal
  | .nan => ⊥
  | .inf neg => if neg then ⊥ else ⊤
  | .fin neg m e => (signed neg m * (2 : ℝ) ^ e : ℝ)

/-- A significand scaled to a lower power of two. -/
theorem signed_mul_pow2 (neg : Bool) (m : Nat) {e g : Int} (h : g ≤ e) :
    ((signed neg (m * pow2 (e - g)) : Int) : ℝ) * (2 : ℝ) ^ g = signed neg m * (2 : ℝ) ^ e := by
  have hpow : ((pow2 (e - g) : Nat) : ℝ) * (2 : ℝ) ^ g = (2 : ℝ) ^ e := by
    rw [pow2, Nat.cast_pow, Nat.cast_ofNat, ← zpow_natCast, Int.toNat_of_nonneg (by omega), ← zpow_add₀ two_ne_zero,
      sub_add_cancel]
  cases neg <;> simp [signed, mul_assoc, hpow]

/-- The order of values that are not NaN is that of the extended reals. -/
theorem Val.lt_iff_toEReal {a b : Val} (ha : a ≠ .nan) (hb : b ≠ .nan) : Val.lt a b = true ↔ a.toEReal < b.toEReal := by
  match a, b with
  | .nan, _ => exact absurd rfl ha
  | _, .nan => exact absurd rfl hb
  | .inf x, .inf y => cases x <;> cases y <;> simp [Val.lt, Val.toEReal]
  | .inf x, .fin y n f => cases x <;> simp [Val.lt, Val.toEReal, EReal.bot_lt_coe, -EReal.coe_mul]
  | .fin x m e, .inf y => cases y <;> simp [Val.lt, Val.toEReal, EReal.coe_lt_top, -EReal.coe_mul]
  | .fin x m e, .fin y n f =>
    have hpos : (0 : ℝ) < (2 : ℝ) ^ min e f := by positivity
    simp only [Val.lt, Val.toEReal, decide_eq_true_eq, EReal.coe_lt_coe_iff]
    rw [← signed_mul_pow2 x m (min_le_left e f), ← signed_mul_pow2 y n (min_le_right e f), mul_lt_mul_iff_left₀ hpos, Int.cast_lt]

/-- R217: where a score stands: a NaN below every number, a zero without its sign. -/
noncomputable def scoreKey (x : W32) : WithBot EReal := if isNan32 x then ⊥ else ((ofA32 x).toEReal : EReal)

/-- R217: the place of an expert: the higher score first, then the lower index. -/
noncomputable def rankKey (a : Nat × W32) : Lex ((WithBot EReal)ᵒᵈ × Nat) := toLex (OrderDual.toDual (scoreKey a.2), a.1)

/-- Below in FP32 is below in the order of scores. -/
theorem below32_iff_scoreKey {x y : W32} (hx : isNan32 x = false) (hy : isNan32 y = false) :
    below32 x y = true ↔ scoreKey x < scoreKey y := by
  rw [scoreKey, scoreKey, hx, hy, below32, Val.lt_iff_toEReal (of_decide_eq_false hx) (of_decide_eq_false hy)]
  simp

/-- R217: an expert ranks before another when its place is not behind the other's. -/
theorem ranksBefore_iff_rankKey (a b : Nat × W32) : ranksBefore a b = true ↔ rankKey a ≤ rankKey b := by
  rw [rankKey, rankKey, Prod.Lex.toLex_le_toLex, OrderDual.toDual_lt_toDual, OrderDual.toDual_inj]
  unfold ranksBefore
  cases ha : isNan32 a.2 <;> cases hb : isNan32 b.2
  · have h1 := below32_iff_scoreKey hb ha
    have h2 := below32_iff_scoreKey ha hb
    simp only [Bool.or_eq_true, Bool.and_eq_true, Bool.not_eq_true', ← Bool.not_eq_true, h1, h2, decide_eq_true_eq]
    rcases lt_trichotomy (scoreKey a.2) (scoreKey b.2) with h | h | h
    · simp [h, h.ne, h.not_gt]
    · simp [h]
    · simp [h]
  · simp [scoreKey, ha, hb]
  · simp [scoreKey, ha, hb]
  · simp [scoreKey, ha, hb]

theorem ranksBefore_total (a b : Nat × W32) : ranksBefore a b = true ∨ ranksBefore b a = true := by
  simpa only [ranksBefore_iff_rankKey] using le_total (rankKey a) (rankKey b)

theorem ranksBefore_trans {a b c : Nat × W32} (hab : ranksBefore a b = true) (hbc : ranksBefore b c = true) :
    ranksBefore a c = true := by
  rw [ranksBefore_iff_rankKey] at *
  exact hab.trans hbc

/-! ### Sorting -/

/-- Insertion is the library's. -/
theorem insertBy_eq_orderedInsert {α : Type} (le : α → α → Bool) (x : α) (l : List α) :
    insertBy le x l = l.orderedInsert (fun a b => le a b = true) x := by
  induction l with
  | nil => rfl
  | cons y t ih => rw [insertBy, List.orderedInsert_cons, ih]

/-- Sorting is the library's insertion sort. -/
theorem sortBy_eq_insertionSort {α : Type} (le : α → α → Bool) (l : List α) :
    sortBy le l = l.insertionSort (fun a b => le a b = true) := by
  induction l with
  | nil => rfl
  | cons x t ih => rw [sortBy, ih, insertBy_eq_orderedInsert, List.insertionSort_cons]

/-- Under a total and transitive order the sorted list is in order. -/
theorem sortBy_pairwise {α : Type} {le : α → α → Bool} (total : ∀ a b, le a b = true ∨ le b a = true)
    (trans : ∀ {a b c}, le a b = true → le b c = true → le a c = true) (l : List α) :
    (sortBy le l).Pairwise (fun a b => le a b = true) := by
  have : Std.Total (fun a b => le a b = true) := ⟨total⟩
  have : IsTrans α (fun a b => le a b = true) := ⟨fun _ _ _ => trans⟩
  rw [sortBy_eq_insertionSort]
  exact List.pairwise_insertionSort _ l

/-- A list in order stays as it is. -/
theorem sortBy_of_pairwise {α : Type} {le : α → α → Bool} {l : List α} (h : l.Pairwise (fun a b => le a b = true)) :
    sortBy le l = l := by
  rw [sortBy_eq_insertionSort, List.Pairwise.insertionSort_eq h]

/-! ### The chosen experts (R217) -/

/-- An expert of a token with its score. -/
theorem mem_scored_iff {scores : List W32} {c : Nat × W32} :
    c ∈ scores.zipIdx.map (fun x => (x.2, x.1)) ↔ scores[c.1]? = some c.2 := by
  obtain ⟨e, x⟩ := c
  simp [List.mem_zipIdx_iff_getElem?]

/-- The k chosen and the rest are the scored experts in rank order. -/
theorem chosen_append_drop (k : Nat) (scores : List W32) :
    chosen k scores ++ (sortBy ranksBefore (scores.zipIdx.map (fun x => (x.2, x.1)))).drop k =
      sortBy ranksBefore (scores.zipIdx.map (fun x => (x.2, x.1))) := List.take_append_drop _ _

theorem mem_chosen_score {k : Nat} {scores : List W32} {c : Nat × W32} (h : c ∈ chosen k scores) : scores[c.1]? = some c.2 :=
  mem_scored_iff.1 ((sortBy_perm _ _).mem_iff.1 (List.mem_of_mem_take h))

theorem chosen_length (k : Nat) (scores : List W32) : (chosen k scores).length = min k scores.length := by
  rw [chosen, List.length_take, (sortBy_perm _ _).length_eq, List.length_map, List.length_zipIdx]

theorem chosen_nodup (k : Nat) (scores : List W32) : ((chosen k scores).map (·.1)).Nodup := by
  have hscored : ((scores.zipIdx.map (fun x => (x.2, x.1))).map (·.1)).Nodup := by
    rw [List.map_map]
    exact (List.zipIdx_map_snd 0 scores) ▸ List.nodup_range'
  have hsorted := ((sortBy_perm ranksBefore _).map (·.1)).nodup_iff.2 hscored
  exact hsorted.sublist ((List.take_sublist k _).map _)

/-- R217: the chosen are in rank order and rank before all the rest. -/
theorem chosen_ranks (k : Nat) (scores : List W32) :
    (chosen k scores).Pairwise (fun a b => ranksBefore a b = true) ∧
    ∀ c e x, c ∈ chosen k scores → scores[e]? = some x → (e, x) ∉ chosen k scores → ranksBefore c (e, x) = true := by
  have hsorted := sortBy_pairwise ranksBefore_total ranksBefore_trans (scores.zipIdx.map (fun x => (x.2, x.1)))
  rw [← chosen_append_drop k, List.pairwise_append] at hsorted
  obtain ⟨hchosen, -, hbefore⟩ := hsorted
  refine ⟨hchosen, fun c e x hc hx hout => hbefore c hc (e, x) ?_⟩
  have hmem : (e, x) ∈ sortBy ranksBefore (scores.zipIdx.map (fun x => (x.2, x.1))) :=
    (sortBy_perm _ _).mem_iff.2 (mem_scored_iff.2 hx)
  rw [← chosen_append_drop k, List.mem_append] at hmem
  exact hmem.resolve_left hout

/-! ### O46 -/

/-- Settles O46: the experts are sorted by a linear order, `rankKey`, and the first k of them are taken. -/
theorem chosenExpertsRankBest : Obligations.ChosenExpertsRankBest := by
  unfold Obligations.ChosenExpertsRankBest
  intro k scores
  obtain ⟨hsorted, hbefore⟩ := chosen_ranks k scores
  exact ⟨chosen_length k scores, fun c => mem_chosen_score, chosen_nodup k scores, hsorted, hbefore, by decide, by decide⟩

/-! ### Grants of one expert (R224) -/

/-- R224: the grants over a list of pairs of rank and member. -/
def grantPairs (defer : Bool) (cap : Nat) (n : Nat → Nat → Nat) (pairs : List (Nat × Nat)) : List (Nat × Nat × Nat × Nat) × Nat :=
  pairs.foldl (fun x jm => (x.1 ++ [(jm.1, jm.2, x.2, if defer then n jm.1 jm.2 else min (n jm.1 jm.2) (cap - x.2))],
    x.2 + n jm.1 jm.2)) ([], 0)

/-- R224: the choices of all the pairs of a list. -/
def pairTotal (n : Nat → Nat → Nat) (pairs : List (Nat × Nat)) : Nat := (pairs.map (fun x => n x.1 x.2)).foldl (· + ·) 0

theorem pairTotal_concat (n : Nat → Nat → Nat) (pairs : List (Nat × Nat)) (p : Nat × Nat) :
    pairTotal n (pairs ++ [p]) = pairTotal n pairs + n p.1 p.2 := by
  simp [pairTotal]

section Grants

variable (defer : Bool) (cap : Nat) (n : Nat → Nat → Nat)

/-- One pair more starts where the pairs before it end. -/
theorem grantPairs_concat (pairs : List (Nat × Nat)) (p : Nat × Nat) :
    grantPairs defer cap n (pairs ++ [p]) = 
      ((grantPairs defer cap n pairs).1 ++ [(p.1, p.2, (grantPairs defer cap n pairs).2,
        if defer then n p.1 p.2 else min (n p.1 p.2) (cap - (grantPairs defer cap n pairs).2))],
       (grantPairs defer cap n pairs).2 + n p.1 p.2) := by
  rw [grantPairs, List.foldl_concat]; rfl

theorem grantPairs_total (pairs : List (Nat × Nat)) : (grantPairs defer cap n pairs).2 = pairTotal n pairs := by
  induction pairs using List.reverseRecOn with
  | nil => rfl
  | append_singleton ps p ih => rw [grantPairs_concat, pairTotal_concat, ih]

/-- R224: the grants are those of the pairs in order, each with the total of the pairs before it as its start. -/
theorem grantPairs_eq_mapIdx (pairs : List (Nat × Nat)) : (grantPairs defer cap n pairs).1 = pairs.mapIdx (fun i p =>
    (p.1, p.2, pairTotal n (pairs.take i),
      if defer then n p.1 p.2 else min (n p.1 p.2) (cap - pairTotal n (pairs.take i)))) := by
  induction pairs using List.reverseRecOn with
  | nil => rfl
  | append_singleton ps p ih =>
    rw [grantPairs_concat, ih, grantPairs_total, List.mapIdx_concat, List.take_left]
    refine congrArg (· ++ _) (List.mapIdx_eq_mapIdx_iff.2 fun i hi => ?_)
    rw [List.take_append_of_le_length hi.le]

/-- R224: under drop the grants fill the expert up to its capacity. -/
theorem grantPairs_granted (pairs : List (Nat × Nat)) :
    ((grantPairs defer cap n pairs).1.map (·.2.2.2)).foldl (· + ·) 0 =
      if defer then pairTotal n pairs else min (pairTotal n pairs) cap := by
  induction pairs using List.reverseRecOn with
  | nil => cases defer <;> simp [grantPairs, pairTotal]
  | append_singleton ps p ih =>
    rw [grantPairs_concat, pairTotal_concat, List.map_append, List.foldl_append, ih, grantPairs_total]
    cases defer
    · simp; omega
    · simp

end Grants

/-- R224: the grants of an expert run over the ranks and, within a rank, over the members. -/
theorem grantExpert_eq_grantPairs (defer : Bool) (cap k q : Nat) (n : Nat → Nat → Nat) : grantExpert defer cap k q n =
    grantPairs defer cap n ((List.range k).flatMap (fun j => (List.range q).map (fun m => (j, m)))) := rfl

/-! ### O47 -/

/-- Settles O47: by induction on the pairs of rank and member, the last one taken off. -/
theorem grantsFillAnExpertInOrder : Obligations.GrantsFillAnExpertInOrder := by
  unfold Obligations.GrantsFillAnExpertInOrder
  intro defer cap k q n
  dsimp only
  rw [grantExpert_eq_grantPairs]
  generalize (List.range k).flatMap (fun j => (List.range q).map (fun m => (j, m))) = pairs
  have hgrants := grantPairs_eq_mapIdx defer cap n pairs
  refine ⟨?_, grantPairs_total defer cap n pairs, fun i h => ?_, fun x hx => ?_, ?_⟩
  · rw [hgrants]
    exact List.ext_getElem (by simp) (by simp)
  · simp only [hgrants, List.getElem_mapIdx, pairTotal]
  · rw [hgrants] at hx
    obtain ⟨i, hi, rfl⟩ := List.mem_mapIdx.1 hx
    rfl
  · rw [grantPairs_granted, grantPairs_total]

end Sys2Proof.Machine

namespace Sys2Proof.Machine

/-! ### A batch after it is written -/

/-- The list of batches with one put in place of the one with its key, or at the end. -/
def withBatch (b : Batch) (bs : List Batch) : List Batch :=
  if bs.any (fun x => x.key = b.key) then bs.map (fun x => if x.key = b.key then b else x) else bs ++ [b]

/-- Writing a batch replaces the list of batches. -/
theorem putBatch_eq (b : Batch) (s : State) :
    putBatch b s = s.withLedger { s.ledger with batches := withBatch b s.ledger.batches } := by
  unfold putBatch withBatch
  split <;> rfl

/-- The batch of a key has the key. -/
@[simp] theorem batchOf_key (s : State) (k : BatchKey) : (batchOf s k).key = k := by
  unfold batchOf
  cases h : s.ledger.batches.find? (fun b => b.key = k) with
  | none => rfl
  | some b => simpa using List.find?_some h

/-- Looking a batch up in the list with one replaced. -/
theorem find?_withBatch (b : Batch) (bs : List Batch) (k : BatchKey) : (withBatch b bs).find? (fun x => x.key = k) =
    if b.key = k then some b else bs.find? (fun x => x.key = k) := by
  unfold withBatch
  split
  · next hany =>
    have hkey : ((fun x : Batch => decide (x.key = k)) ∘ fun x => if x.key = b.key then b else x) =
        fun x => decide (x.key = k) := by
      funext x
      by_cases hx : x.key = b.key <;> simp [hx]
    rw [List.find?_map, hkey]
    cases hfind : bs.find? (fun x => x.key = k) with
    | none =>
      have hne : b.key ≠ k := by
        rintro rfl
        obtain ⟨x, hx, hxk⟩ : ∃ x ∈ bs, x.key = b.key := by simpa using hany
        simpa [hxk] using List.find?_eq_none.1 hfind x hx
      simp [hne]
    | some x =>
      have hx : x.key = k := by simpa using List.find?_some hfind
      by_cases hk : b.key = k
      · simp [hx, hk]
      · simp [hx, hk, Ne.symm hk]
  · next hany =>
    rw [List.find?_append]
    by_cases hk : b.key = k
    · have hnone : bs.find? (fun x => x.key = k) = none := List.find?_eq_none.2 (by simpa [hk] using hany)
      simp [hk, hnone]
    · simp [hk]

/-- A batch looked up after one is written. -/
theorem batchOf_putBatch (b : Batch) (s : State) (k : BatchKey) :
    batchOf (putBatch b s) k = if b.key = k then b else batchOf s k := by
  rw [putBatch_eq, batchOf, State.withLedger_ledger, find?_withBatch, apply_ite (fun o : Option Batch => o.getD { key := k })]
  rfl

/-- A written batch reads back. -/
theorem batchOf_putBatch_self {b : Batch} {k : BatchKey} (h : b.key = k) (s : State) : batchOf (putBatch b s) k = b := by
  rw [batchOf_putBatch, if_pos h]

/-- Writing a batch leaves the others. -/
theorem batchOf_putBatch_of_ne {b : Batch} {k : BatchKey} (h : k ≠ b.key) (s : State) : batchOf (putBatch b s) k = batchOf s k := by
  rw [batchOf_putBatch, if_neg h.symm]

@[simp] theorem batchOf_emits (os : List Out) (s : State) (k : BatchKey) : batchOf (emits os s) k = batchOf s k := rfl

@[simp] theorem serveOf_setServe (b : Batch) (back : Bool) (x : Serve) : serveOf (setServe b back x) back = x := by
  cases back <;> rfl
@[simp] theorem setServe_key (b : Batch) (back : Bool) (x : Serve) : (setServe b back x).key = b.key := by
  cases back <;> rfl

/-! ### What the routed exchange leaves alone -/

/-- The state without its batches: what writing a batch leaves alone. -/
def State.sansBatches (s : State) : State := s.withLedger { s.ledger with batches := [] }

/-- The state without its Ledger and its messages: what the routed exchange leaves alone. -/
def State.sansExchange (s : State) : State := (s.withLedger {}).withOut []

@[simp] theorem sansBatches_putBatch (b : Batch) (s : State) : (putBatch b s).sansBatches = s.sansBatches := by
  rw [putBatch_eq]; rfl

theorem sansBatches_startPasses (w : Nat) (back : Bool) (key : BatchKey) (s : State) :
    (startPasses w back key s).sansBatches = s.sansBatches := sansBatches_putBatch _ s

section SansBatches

variable {s t : State} (h : t.sansBatches = s.sansBatches)
include h

theorem sansExchange_of_sansBatches : t.sansExchange = s.sansExchange := congrArg (fun u => u.sansExchange) h
theorem out_of_sansBatches : t.out = s.out := congrArg (fun u => u.out) h
theorem entries_of_sansBatches : t.ledger.entries = s.ledger.entries := congrArg (fun u => u.ledger.entries) h
theorem fetches_of_sansBatches : t.ledger.fetches = s.ledger.fetches := congrArg (fun u => u.ledger.fetches) h

end SansBatches

@[simp] theorem putBatch_out (b : Batch) (s : State) : (putBatch b s).out = s.out := out_of_sansBatches (sansBatches_putBatch b s)
@[simp] theorem putBatch_entries (b : Batch) (s : State) : (putBatch b s).ledger.entries = s.ledger.entries :=
  entries_of_sansBatches (sansBatches_putBatch b s)

@[simp] theorem sansExchange_withLedger (s : State) (x : Ledger) : (s.withLedger x).sansExchange = s.sansExchange := rfl
@[simp] theorem sansExchange_emits (os : List Out) (s : State) : (emits os s).sansExchange = s.sansExchange := rfl
@[simp] theorem sansExchange_putBatch (b : Batch) (s : State) : (putBatch b s).sansExchange = s.sansExchange :=
  sansExchange_of_sansBatches (sansBatches_putBatch b s)

/-- A state that agrees apart from the Ledger and the messages is the other one with its Ledger and messages. -/
theorem eq_of_sansExchange {s t : State} (h : t.sansExchange = s.sansExchange) : t = (s.withLedger t.ledger).withOut t.out :=
  congrArg (fun u => (u.withLedger t.ledger).withOut t.out) h

/-- If it has sent nothing either, it is the other one with its Ledger. -/
theorem eq_of_sansExchange_of_out {s t : State} (h : t.sansExchange = s.sansExchange) (hout : t.out = s.out) :
    t = s.withLedger t.ledger := by
  have heq := eq_of_sansExchange h
  rw [hout] at heq
  exact heq

/-! ### Return records (R237, R272, R274) -/

/-- A message is a return record. -/
def IsReturn (o : Out) : Prop := ∃ h v n, o = Out.returnRec h v ∨ o = Out.backwardRet h n

/-- From s to t a module has at most started passes of a batch and sent return records. -/
structure ReturnsSent (key : BatchKey) (back : Bool) (s t : State) : Prop where
  rest : t.sansExchange = s.sansExchange
  done : (serveOf (batchOf t key) back).done = (serveOf (batchOf s key) back).done
  outs : (serveOf (batchOf t key) back).outs = (serveOf (batchOf s key) back).outs
  sent : ∃ rs, (∀ o ∈ rs, IsReturn o) ∧ t.out = s.out ++ rs

theorem ReturnsSent.refl (key : BatchKey) (back : Bool) (s : State) : ReturnsSent key back s s :=
  ⟨rfl, rfl, rfl, [], by simp, by simp⟩

theorem ReturnsSent.trans {key : BatchKey} {back : Bool} {s t u : State} (h : ReturnsSent key back s t)
    (h' : ReturnsSent key back t u) : ReturnsSent key back s u := by
  obtain ⟨rs, hrs, hout⟩ := h.sent
  obtain ⟨rs', hrs', hout'⟩ := h'.sent
  refine ⟨h'.rest.trans h.rest, h'.done.trans h.done, h'.outs.trans h.outs, rs ++ rs', fun o ho => ?_, ?_⟩
  · exact (List.mem_append.1 ho).elim (hrs o) (hrs' o)
  · rw [hout', hout, List.append_assoc]

/-- The batch's exchange written with what its passes have produced unchanged. -/
theorem returnsSent_putBatch {key : BatchKey} {back : Bool} {s : State} {x : Serve}
    (hdone : x.done = (serveOf (batchOf s key) back).done) (houts : x.outs = (serveOf (batchOf s key) back).outs) :
    ReturnsSent key back s (putBatch (setServe (batchOf s key) back x) s) := by
  have hread := batchOf_putBatch_self (b := setServe (batchOf s key) back x) (k := key) (by simp) s
  refine ⟨by simp, ?_, ?_, [], by simp, by simp⟩
  · rw [hread, serveOf_setServe, hdone]
  · rw [hread, serveOf_setServe, houts]

theorem returnsSent_emit {o : Out} (ho : IsReturn o) (key : BatchKey) (back : Bool) (s : State) :
    ReturnsSent key back s (emit o s) := ⟨rfl, rfl, rfl, [o], by simpa using ho, rfl⟩

theorem returnsSent_freeSlots (k key : BatchKey) (src token : Nat) (back : Bool) (s : State) :
    ReturnsSent key back s (freeSlots k src token s) := ⟨rfl, rfl, rfl, [], by simp, by simp [freeSlots]⟩

theorem returnsSent_startPasses (w : Nat) (back : Bool) (key : BatchKey) (s : State) :
    ReturnsSent key back s (startPasses w back key s) := returnsSent_putBatch rfl rfl

/-- R237, R274: a record whose outputs are all there is answered once. -/
theorem returnsSent_sendReturn (l : ExpertLayer) (back : Bool) (key : BatchKey) (s : State) (h : RecHeader) :
    ReturnsSent key back s (sendReturn l back key s h) := by
  unfold sendReturn
  dsimp only
  split
  · exact .refl key back s
  · split
    · exact .refl key back s
    · have hmark := fun r => returnsSent_putBatch (key := key) (back := back) (s := s)
        (x := { serveOf (batchOf s key) back with returned := r }) rfl rfl
      split
      · exact ((hmark _).trans (returnsSent_emit ⟨_, [], _, .inr rfl⟩ key back _)).trans (returnsSent_freeSlots ..)
      · have hsent := fun r h v => (hmark r).trans (returnsSent_emit ⟨h, v, [], .inl rfl⟩ key back _)
        split
        · exact (hsent _ _ _).trans (returnsSent_freeSlots ..)
        · exact hsent _ _ _

theorem returnsSent_sendReturns (l : ExpertLayer) (back : Bool) (key : BatchKey) (s : State) :
    ReturnsSent key back s (sendReturns l back key s) :=
  List.foldlRecOn (motive := ReturnsSent key back s) _ _ (.refl key back s)
    fun _ ht h _ => ht.trans (returnsSent_sendReturn l back key _ h)

/-! ### A pass completes (R234) -/

/-- R234: a pass that is not running, or is complete, does not complete. -/
theorem passComplete_of_not_running {s : State} {key : BatchKey} {e p : Nat} {back : Bool} (outs : List (Nat × List W32))
    (h : (e, p) ∉ (serveOf (batchOf s key) back).started ∨ (e, p) ∈ (serveOf (batchOf s key) back).done) :
    passComplete key e p back outs s = s := by
  unfold passComplete
  split
  · rfl
  · exact if_pos h

/-- A batch with a pass done and its outputs kept. -/
def passDone (b : Batch) (e p : Nat) (back : Bool) (outs : List (Nat × List W32)) : Batch :=
  setServe b back { serveOf b back with
    done := (serveOf b back).done ++ [(e, p)],
    outs := (serveOf b back).outs ++ outs.map (fun o => { expert := e, pass := p, slot := o.1, vec := o.2 }) }

/-- R265, R282: the stage of `passComplete` that counts a pass streamed from the far tier. -/
def countStreamed (x : ExpertRef) (s : State) : State :=
  if inFarTier s x && decide ((dirFind s x).map (·.home) = some (ownSeg s)) && !s.ledger.fetches.any (fun f => f.1 = x) then
    residCount x.layer (fun t => { t with streamedPasses := add48 t.streamedPasses 1 }) s
  else s

/-- R234: the stage that credits pass p + 2 to its sources. -/
def creditNext (key : BatchKey) (b : Batch) (e p : Nat) (back : Bool) (s : State) : State :=
  match b.split.find? (fun y => decide (y.expert = e) && decide (y.pass = p + 2)) with
  | some y => emit (.passCredit key e (p + 2) back y.sources) s
  | none => s

/-- R264: the stage that gives up the fetch of an expert whose last pass is done. -/
def dropFetch (l : ExpertLayer) (x : ExpertRef) (back : Bool) (s : State) : State :=
  if back != inEval s && lastPassDone s l x then
    s.withLedger { s.ledger with fetches := s.ledger.fetches.filter (fun f => decide (f.1 ≠ x)) }
  else s

/-- R234, R237: a running pass completes in stages, after which passes start and return records leave. -/
theorem passComplete_of_running {s : State} {key : BatchKey} {l : ExpertLayer} {e p : Nat} {back : Bool}
    (outs : List (Nat × List W32)) (hl : layerOf s key.layer = some l) (hs : (e, p) ∈ (serveOf (batchOf s key) back).started)
    (hd : (e, p) ∉ (serveOf (batchOf s key) back).done) :
    passComplete key e p back outs s = sendReturns l back key (startPasses l.width back key
      (dropFetch l ⟨key.layer, e⟩ back (creditNext key (batchOf s key) e p back
        (putBatch (passDone (batchOf s key) e p back outs) (countStreamed ⟨key.layer, e⟩ s))))) := by
  have hrun : ¬((e, p) ∉ (serveOf (batchOf s key) back).started ∨ (e, p) ∈ (serveOf (batchOf s key) back).done) := by
    simp [hs, hd]
  unfold passComplete
  rw [hl]
  exact if_neg hrun

theorem sansExchange_countStreamed (x : ExpertRef) (s : State) : (countStreamed x s).sansExchange = s.sansExchange := by
  unfold countStreamed
  split <;> rfl

theorem countStreamed_out (x : ExpertRef) (s : State) : (countStreamed x s).out = s.out := by
  unfold countStreamed
  split <;> rfl

theorem returnsSent_dropFetch (l : ExpertLayer) (x : ExpertRef) (key : BatchKey) (back : Bool) (s : State) :
    ReturnsSent key back s (dropFetch l x back s) := by
  unfold dropFetch
  split
  · exact ⟨rfl, rfl, rfl, [], by simp, by simp⟩
  · exact .refl key back s

/-- R234: the credit that the end of pass p gives for pass p + 2, if the expert has one. -/
def passCredits (key : BatchKey) (b : Batch) (e p : Nat) (back : Bool) : List Out :=
  match b.split.find? (fun y => decide (y.expert = e) && decide (y.pass = p + 2)) with
  | some y => [Out.passCredit key e (p + 2) back y.sources]
  | none => []

theorem creditNext_eq_emits (key : BatchKey) (b : Batch) (e p : Nat) (back : Bool) (s : State) :
    creditNext key b e p back s = emits (passCredits key b e p back) s := by
  unfold creditNext passCredits
  split
  · rfl
  · simp [emits]

/-- R234, R237: what a running pass that completes changes. -/
theorem passComplete_changes {s : State} {key : BatchKey} {l : ExpertLayer} {e p : Nat} {back : Bool}
    (outs : List (Nat × List W32)) (hl : layerOf s key.layer = some l) (hs : (e, p) ∈ (serveOf (batchOf s key) back).started)
    (hd : (e, p) ∉ (serveOf (batchOf s key) back).done) :
    ∃ u, u.sansExchange = s.sansExchange ∧ batchOf u key = passDone (batchOf s key) e p back outs ∧
      u.out = s.out ++ passCredits key (batchOf s key) e p back ∧ ReturnsSent key back u (passComplete key e p back outs s) := by
  refine ⟨creditNext key (batchOf s key) e p back (putBatch (passDone (batchOf s key) e p back outs)
    (countStreamed ⟨key.layer, e⟩ s)), ?_, ?_, ?_, ?_⟩
  · simp [creditNext_eq_emits, sansExchange_countStreamed]
  · rw [creditNext_eq_emits, batchOf_emits, batchOf_putBatch_self (by simp [passDone])]
  · simp [creditNext_eq_emits, emits, countStreamed_out]
  · rw [passComplete_of_running outs hl hs hd]
    exact ((returnsSent_dropFetch ..).trans (returnsSent_startPasses ..)).trans (returnsSent_sendReturns ..)

/-! ### Records leave (R230, R234, R270) -/

/-- R42: forming records changes of the state the bytes of the record streams alone. -/
theorem formRecords_streams (l : ExpertLayer) (back : Bool) (key : BatchKey) (s : State) (pairs : List (Nat × Nat)) :
    ∃ st, (formRecords l back key s pairs).2 = s.withLedger { s.ledger with streams := st } := by
  unfold formRecords
  refine List.foldlRecOn (motive := fun x : List Out × State × List (Nat × Nat) =>
    ∃ st, x.2.1 = s.withLedger { s.ledger with streams := st }) pairs _ ⟨s.ledger.streams, rfl⟩ ?_
  rintro ⟨out, _, sent⟩ ⟨st, rfl⟩ y -
  exact ⟨_, rfl⟩

/-- A batch with records marked as sent. -/
def recordsMarked (b : Batch) (back : Bool) (pairs : List (Nat × Nat)) : Batch :=
  if back then { b with backSent := b.backSent ++ pairs } else { b with sent := b.sent ++ pairs }

@[simp] theorem recordsMarked_key (b : Batch) (back : Bool) (pairs : List (Nat × Nat)) : (recordsMarked b back pairs).key = b.key := by
  cases back <;> rfl

/-- R230, R270: the records that may leave do, and the batch and the record streams alone keep track of it. -/
theorem sendRecords_eq (l : ExpertLayer) (back : Bool) (key : BatchKey) (s : State) :
    ∃ os st, sendRecords l back key s = emits os (putBatch (recordsMarked (batchOf s key) back (sendable (batchOf s key) back))
      (s.withLedger { s.ledger with streams := st })) := by
  obtain ⟨st, hst⟩ := formRecords_streams l back key s (sendable (batchOf s key) back)
  refine ⟨(formRecords l back key s (sendable (batchOf s key) back)).1, st, ?_⟩
  unfold sendRecords
  dsimp only
  rw [hst]
  rfl

@[simp] theorem sansExchange_sendRecords (l : ExpertLayer) (back : Bool) (key : BatchKey) (s : State) :
    (sendRecords l back key s).sansExchange = s.sansExchange := by
  obtain ⟨os, st, h⟩ := sendRecords_eq l back key s
  simp [h]

@[simp] theorem sendRecords_entries (l : ExpertLayer) (back : Bool) (key : BatchKey) (s : State) :
    (sendRecords l back key s).ledger.entries = s.ledger.entries := by
  obtain ⟨os, st, h⟩ := sendRecords_eq l back key s
  simp [h]

theorem batchOf_sendRecords (l : ExpertLayer) (back : Bool) (key : BatchKey) (s : State) :
    batchOf (sendRecords l back key s) key = recordsMarked (batchOf s key) back (sendable (batchOf s key) back) := by
  obtain ⟨os, st, h⟩ := sendRecords_eq l back key s
  rw [h, batchOf_emits, batchOf_putBatch_self (by simp)]

theorem sendRecords_out (l : ExpertLayer) (back : Bool) (key : BatchKey) (s : State) :
    ∃ os, (sendRecords l back key s).out = s.out ++ os := by
  obtain ⟨os, st, h⟩ := sendRecords_eq l back key s
  exact ⟨os, by simp [h, emits]⟩

/-- R234: a credit of a forward pass admits the pass, and what may leave now does. -/
theorem passCredit_of_granted {s : State} {key : BatchKey} {l : ExpertLayer} (e p : Nat) (hl : layerOf s key.layer = some l)
    (hg : (batchOf s key).granted = true) : passCredit key e p false s = sendRecords l false key
      (putBatch { batchOf s key with admitted := (batchOf s key).admitted ++ [(e, p)] } s) := by
  unfold passCredit
  simp [hl, hg]

/-! ### A fetch completes (R236, R264) -/

/-- The state with the fetches of an expert complete. -/
def fetchMarked (x : ExpertRef) (s : State) : State :=
  s.withLedger { s.ledger with fetches := s.ledger.fetches.map (fun f => if f.1 = x then (x, true) else f) }

/-- R236: an expert whose fetches are complete is at hand. -/
theorem expertReady_of_fetchMarked {s t : State} {x : ExpertRef} (h : t.ledger.fetches = (fetchMarked x s).ledger.fetches) :
    expertReady t x = true := by
  simp only [expertReady, h, fetchMarked, State.withLedger_ledger, Bool.not_eq_true', List.any_eq_false, List.mem_map]
  rintro _ ⟨f, -, rfl⟩
  split <;> simp_all

/-- R236, R264: a fetch that completes is marked so, and passes start. -/
theorem expertFetchDone_of_fetched {s : State} {x : ExpertRef} (h : (x, false) ∈ s.ledger.fetches) :
    (expertFetchDone x s).sansBatches = (fetchMarked x s).sansBatches := by
  unfold expertFetchDone
  rw [if_pos (List.any_eq_true.2 ⟨_, h, by simp⟩)]
  dsimp only
  split
  · rfl
  · exact foldl_keeps State.sansBatches _ (fun s k => by rw [sansBatches_startPasses, sansBatches_startPasses]) _ _

/-! ### O49 -/

/-- Settles O49: a completed pass by its stages (`passComplete_changes`), a credit by the records that it lets leave, a
fetch by the entry that it marks. -/
theorem passesRunAndAreCredited : Obligations.PassesRunAndAreCredited := by
  unfold Obligations.PassesRunAndAreCredited
  refine ⟨?complete, ?other, ?credit, ?first, ?later, ?fetched⟩
  case complete =>
    intro s key l e p back outs hl hs hd
    obtain ⟨u, hrest, hbatch, hout, hsent⟩ := passComplete_changes outs hl hs hd
    obtain ⟨rs, hrs, hrsOut⟩ := hsent.sent
    refine ⟨_, rfl, eq_of_sansExchange (hsent.rest.trans hrest), ?_, ?_, rs, hrs, ?_⟩
    · rw [hsent.done, hbatch, passDone, serveOf_setServe]
    · rw [hsent.outs, hbatch, passDone, serveOf_setServe]
    · exact hrsOut.trans (congrArg (· ++ rs) hout)
  case other =>
    intro s key e p back outs h
    exact congrArg Host.Outcome.next (passComplete_of_not_running outs h)
  case credit =>
    intro s key l e p hl hg
    refine ⟨_, congrArg Host.Outcome.next (passCredit_of_granted e p hl hg), eq_of_sansExchange (by simp), ?_, ?_⟩
    all_goals
      rw [batchOf_sendRecords, batchOf_putBatch_self (by simp)]
      rfl
  case first =>
    intro b back q h
    simp [passAdmitted, h]
  case later =>
    intro b q h hq
    simp [passAdmitted, hq, Nat.not_lt.mpr h]
  case fetched =>
    intro s x h
    have hdone := expertFetchDone_of_fetched h
    have hrest := sansExchange_of_sansBatches hdone
    have hout := out_of_sansBatches hdone
    have hentries := entries_of_sansBatches hdone
    exact ⟨_, rfl, eq_of_sansExchange_of_out hrest hout, expertReady_of_fetchMarked (fetches_of_sansBatches hdone), hentries⟩

end Sys2Proof.Machine

namespace Sys2Proof.Machine

/-! ### Outputs return and combine (R237 to R241) -/

/-- R171: whether an evaluation runs does not depend on the exchange. -/
theorem inEval_of_sansExchange {s t : State} (h : t.sansExchange = s.sansExchange) : inEval t = inEval s :=
  (congrArg inEval h : inEval t.sansExchange = inEval s.sansExchange)

@[simp] theorem convertRow_putBatch (b : Batch) (s : State) (d : DrainDesc) (c0 : W64) (vals : List W32) :
    convertRow (putBatch b s) d c0 vals = convertRow s d c0 vals := by
  rw [putBatch_eq]; rfl

@[simp] theorem rowCounter_putBatch (b : Batch) (s : State) (l : ExpertLayer) (back : Bool) (key : BatchKey) (token : Nat) :
    rowCounter (putBatch b s) l back key token = rowCounter s l back key token := by
  rw [putBatch_eq]; rfl

@[simp] theorem sansExchange_freeSources (key : BatchKey) (token : Nat) (m : Option Nat) (s : State) :
    (freeSources key token m s).sansExchange = s.sansExchange := rfl
@[simp] theorem freeSources_out (key : BatchKey) (token : Nat) (m : Option Nat) (s : State) :
    (freeSources key token m s).out = s.out := rfl
@[simp] theorem batchOf_freeSources (key k : BatchKey) (token : Nat) (m : Option Nat) (s : State) :
    batchOf (freeSources key token m s) k = batchOf s k := rfl

/-- R238, R239: without RENORM a combined row sums weight times output in rank order. -/
theorem combineRow_of_no_renorm {l : ExpertLayer} (h : rtRenorm l.desc = false) (b : Batch) (os : List (Placed × List W32)) :
    combineRow l b os = (List.range l.outLen).map (fun i => pairwise (os.map (fun o => mulRne o.1.weight (o.2.getD i 0)))) := by
  simp [combineRow, combineWeight, h]

/-- R93: a sum of one term is the term. -/
theorem pairwise_singleton (x : W32) : pairwise [x] = x := rfl

/-- A batch with a token's layer output. -/
def withCombined (b : Batch) (token : Nat) (row : List W32 × List Byte) : Batch :=
  { b with combined := b.combined ++ [(token, row)] }

/-- R239, R241: what the combine of a token whose outputs are all there changes. -/
theorem combineToken_of_outputs {l : ExpertLayer} {key : BatchKey} {token : Nat} {s : State} {os : List (Placed × List W32)}
    (hos : outputsOf (batchOf s key) token = some os) (hne : os ≠ []) (hnew : ∀ c ∈ (batchOf s key).combined, c.1 ≠ token) :
    (combineToken l key token s).sansExchange = s.sansExchange ∧ (combineToken l key token s).out = s.out ∧
    (inEval s = false → (combineToken l key token s).ledger.entries = s.ledger.entries) ∧
    batchOf (combineToken l key token s) key = withCombined (batchOf s key) token
      (convertRow s l.outConv (rowCounter s l false key token) (combineRow l (batchOf s key) os)) := by
  have hcond : ¬(os = [] ∨ (batchOf s key).combined.any (fun c => c.1 = token) = true) := by
    rintro (h | h)
    · exact hne h
    · obtain ⟨c, hc, htoken⟩ := List.any_eq_true.1 h
      exact hnew c hc (of_decide_eq_true htoken)
  have hread := batchOf_putBatch_self (b := withCombined (batchOf s key) token
    (convertRow s l.outConv (rowCounter s l false key token) (combineRow l (batchOf s key) os))) (batchOf_key s key) s
  have heq : combineToken l key token s = (if inEval s then freeSources key token none else id)
      (putBatch (withCombined (batchOf s key) token
        (convertRow s l.outConv (rowCounter s l false key token) (combineRow l (batchOf s key) os))) s) := by
    unfold combineToken
    dsimp only
    rw [hos]
    dsimp only
    rw [if_neg hcond, inEval_of_sansExchange (sansExchange_putBatch _ s)]
    split <;> rfl
  rw [heq]
  cases inEval s <;> exact ⟨by simp, by simp, by simp, hread⟩

/-- R241: the outputs of a return record for the choices that have not returned. -/
def newOutputs (b : Batch) (token server : Nat) (outs : List (Nat × List W32)) : List (Nat × Nat × List W32) :=
  (placedAt b token server).filterMap (fun p =>
    if b.returned.any (fun r => decide (r.1 = token) && decide (r.2.1 = p.rank)) then none
    else (outs.find? (fun o => o.1 = p.expert)).map (fun o => (token, p.rank, o.2)))

/-- A batch with outputs returned. -/
def withReturned (b : Batch) (new : List (Nat × Nat × List W32)) : Batch := { b with returned := b.returned ++ new }

/-- R241, R275: a return record whose seal passes is kept, and its token is combined once complete. -/
theorem returnRecord_of_seal {s : State} {h : RecHeader} {l : ExpertLayer} {outs : List (Nat × List W32)} (server : Nat)
    (hl : layerOf s h.key.layer = some l) (hseal : returnSealOk h (outputBytes h.pfmt outs) = true) :
    returnRecord h server outs s = combineToken l h.key h.token
      (putBatch (withReturned (batchOf s h.key) (newOutputs (batchOf s h.key) h.token server outs)) s) := by
  unfold returnRecord
  rw [hl]
  dsimp only
  rw [hseal]
  rfl

/-- R275: a return record whose seal fails is a seal failure. -/
theorem returnRecord_of_broken {s : State} {h : RecHeader} {l : ExpertLayer} {outs : List (Nat × List W32)} (server : Nat)
    (hl : layerOf s h.key.layer = some l) (hseal : returnSealOk h (outputBytes h.pfmt outs) = false) :
    returnRecord h server outs s = recordFailure h (crc64 (recHeaderBytes h ++ outputBytes h.pfmt outs)) s := by
  unfold returnRecord
  rw [hl]
  dsimp only
  rw [hseal]
  rfl

section OneChoice

/-! A token of one placed choice, none of whose outputs has returned. -/

variable {b : Batch} {token : Nat} {p : Placed} (hplaced : placedOf b token = [p])
  (hnone : ∀ r ∈ b.returned, r.1 ≠ token) (v : List W32)
include hplaced hnone

theorem newOutputs_of_one_choice : newOutputs b token p.server [(p.expert, v)] = [(token, p.rank, v)] := by
  have hat : placedAt b token p.server = [p] := by simp [placedAt, hplaced, sortBy, insertBy]
  have hret : b.returned.any (fun r => decide (r.1 = token) && decide (r.2.1 = p.rank)) = false := by
    simpa using fun a c d hr ha => absurd ha (hnone _ hr)
  simp [newOutputs, hat, hret]

theorem outputsOf_of_one_choice : outputsOf (withReturned b [(token, p.rank, v)]) token = some [(p, v)] := by
  have hfind : b.returned.find? (fun r => decide (r.1 = token) && decide (r.2.1 = p.rank)) = none :=
    List.find?_eq_none.2 fun r hr => by simp [hnone r hr]
  have hplaced' : placedOf (withReturned b [(token, p.rank, v)]) token = [p] := hplaced
  rw [outputsOf, hplaced']
  simp [withReturned, hfind]

end OneChoice

/-! ### Parking (R244) -/

theorem setParked_entries_length (key : BatchKey) (v : Bool) (s : State) :
    (setParked key v s).ledger.entries.length = s.ledger.entries.length := by
  simp [setParked]

/-- R244: the entries of the batch are parked, or not. -/
theorem setParked_parked {key : BatchKey} {v : Bool} {s : State} {e : LedgerEntry} (he : e ∈ (setParked key v s).ledger.entries)
    (hkey : e.key = key) : e.parked = v := by
  obtain ⟨x, -, rfl⟩ := List.mem_map.1 he
  by_cases hx : x.key = key
  · rw [if_pos hx]
  · rw [if_neg hx] at hkey
    exact absurd hkey hx

/-- R244: the entries of the other batches stay. -/
theorem setParked_others (key : BatchKey) (v : Bool) (s : State) :
    (setParked key v s).ledger.entries.filter (fun e => e.key ≠ key) = s.ledger.entries.filter (fun e => e.key ≠ key) := by
  unfold setParked
  rw [State.withLedger_ledger]
  dsimp only
  induction s.ledger.entries with
  | nil => rfl
  | cons x t ih => by_cases hx : x.key = key <;> simp_all

theorem park_of_combined {s : State} {key : BatchKey} (hdone : combineDone (batchOf s key) = true)
    (hback : (batchOf s key).backward = false) (heval : inEval s = false) : park key s = setParked key true s := by
  simp [park, hdone, hback, heval]

theorem park_of_not_combined {s : State} {key : BatchKey} (hdone : combineDone (batchOf s key) = false) : park key s = s := by
  simp [park, hdone]

/-! ### The backward exchange starts (R269, R270, R276) -/

/-- R79: a counter range passed is a matter of the job alone. -/
theorem passRange_eq (s : State) (id : W32) (e : W64) : ∃ job, passRange s id e = s.withJob job := by
  unfold passRange setDrawCounter
  (repeat' split) <;> exact ⟨_, rfl⟩

/-- R79, R154: opening a conversion takes draws under SR alone, and notes where they begin. -/
theorem openConv_eq (l : ExpertLayer) (layer : Nat) (back : Bool) (s : State) :
    ∃ bases job, openConv l layer back s = (s.withLedger { s.ledger with convBases := bases }).withJob job ∧
      (dcRm (layerConv l back).1.control ≠ .sr → job = s.job) := by
  unfold openConv
  dsimp only
  generalize nextRange s (dcStream (layerConv l back).1.control) = c0
  split
  · exact ⟨s.ledger.convBases, s.job, rfl, fun _ => rfl⟩
  · next hsr =>
    refine ⟨s.ledger.convBases ++ [(layer, back, c0)], ?_⟩
    split
    · exact ⟨s.job, rfl, fun _ => rfl⟩
    · exact ⟨_, (passRange_eq _ _ _).choose_spec, fun h => absurd (.inl h) hsr⟩

/-- With an empty receive queue no record is taken. -/
theorem takeEarly_of_none {l : ExpertLayer} {back : Bool} {key : BatchKey} {s : State}
    (h : (serveOf (batchOf s key) back).early = []) :
    takeEarly l back key s = putBatch (setServe (batchOf s key) back { serveOf (batchOf s key) back with early := [] }) s := by
  simp [takeEarly, h]

/-- A batch whose backward exchange has begun. -/
def backwardBegun (b : Batch) (up : List (Nat × List W32)) (zero : List (Nat × List W32 × List Byte)) : Batch :=
  { b with backward := true, upGrads := up, grads := zero }

/-- R276: the gradients of the combine weights, one message for each token. -/
def gateMessages (d : W128) (b : Batch) (grads : List (Nat × List W32)) : List Out :=
  b.tokens.map (fun t =>
    Out.gateGrad t.token (gateGrads d b t.token (((grads.find? (fun g => g.1 = t.token)).map (·.2)).getD [])))

/-- R276: a message holds a gradient for each of the k ranks. -/
theorem gateGrads_length (d : W128) (b : Batch) (token : Nat) (g : List W32) : (gateGrads d b token g).length = rtK d := by
  simp [gateGrads]

theorem mem_gateMessages (d : W128) {b : Batch} (grads : List (Nat × List W32)) {tok : TokenChoice} (h : tok ∈ b.tokens) :
    ∃ c, Out.gateGrad tok.token c ∈ gateMessages d b grads ∧ c.length = rtK d :=
  ⟨_, List.mem_map_of_mem h, gateGrads_length _ _ _ _⟩

/-- R269: the backward exchange of a batch whose entries agree with their seals starts in stages. -/
theorem unpark_of_ready {s : State} {key : BatchKey} {l : ExpertLayer} (grads : List (Nat × List W32))
    (hl : layerOf s key.layer = some l) (hdone : combineDone (batchOf s key) = true) (hback : (batchOf s key).backward = false)
    (heval : inEval s = false) (hseals : s.ledger.entries.any (entryBroken key) = false) :
    ∃ zero, unpark key grads s = takeEarly l true key (sendRecords l true key (emits (gateMessages l.desc (batchOf s key) grads)
      (putBatch (backwardBegun (batchOf s key) grads zero) (openConv l key.layer true (setParked key false s))))) := by
  refine ⟨droppedGrads (openConv l key.layer true (setParked key false s)) l (batchOf s key), ?_⟩
  unfold unpark
  rw [hl]
  dsimp only
  rw [hdone, hback, heval, hseals]
  rfl

/-- R269, R270, R276: what the start of the backward exchange changes. -/
theorem unpark_changes {s : State} {key : BatchKey} {l : ExpertLayer} (grads : List (Nat × List W32))
    (hl : layerOf s key.layer = some l) (hdone : combineDone (batchOf s key) = true) (hback : (batchOf s key).backward = false)
    (heval : inEval s = false) (hseals : s.ledger.entries.any (entryBroken key) = false) (hearly : (batchOf s key).bwd.early = []) :
    (unpark key grads s).sansExchange = (openConv l key.layer true (setParked key false s)).sansExchange ∧
    (unpark key grads s).ledger.entries = (setParked key false s).ledger.entries ∧
    (batchOf (unpark key grads s) key).backward = true ∧
    ∃ os, (unpark key grads s).out = s.out ++ gateMessages l.desc (batchOf s key) grads ++ os := by
  obtain ⟨zero, heq⟩ := unpark_of_ready grads hl hdone hback heval hseals
  obtain ⟨bases, job, hconv, -⟩ := openConv_eq l key.layer true (setParked key false s)
  generalize hu : openConv l key.layer true (setParked key false s) = u at *
  generalize hv : emits (gateMessages l.desc (batchOf s key) grads) (putBatch (backwardBegun (batchOf s key) grads zero) u) = v at *
  have hbegun : batchOf v key = backwardBegun (batchOf s key) grads zero := by
    rw [← hv, batchOf_emits, batchOf_putBatch_self (by exact batchOf_key s key)]
  have hsent := batchOf_sendRecords l true key v
  rw [hbegun] at hsent
  rw [heq, takeEarly_of_none (by rw [hsent]; exact hearly), hsent]
  refine ⟨?_, ?_, ?_, ?_⟩
  · simp [← hv]
  · simp [← hv, hconv]
  · rw [batchOf_putBatch_self (by exact batchOf_key s key)]; rfl
  · obtain ⟨os, hos⟩ := sendRecords_out l true key v
    refine ⟨os, ?_⟩
    rw [putBatch_out, hos, ← hv]
    simp [hconv, emits, setParked]

/-! ### O50 -/

/-- Settles O50: a return by what its token's combine changes, PARK and UNPARK by the entries that they mark, UNPARK also by
the stages in which the backward exchange starts (`unpark_changes`). -/
theorem returnsCombineTheToken : Obligations.ReturnsCombineTheToken := by
  unfold Obligations.ReturnsCombineTheToken
  refine ⟨?returned, ?broken, ?row, ?park, ?parkEarly, ?unpark⟩
  case returned =>
    rintro s h l _ v p hl hplaced rfl - hnone hnew hrenorm hseal
    have heq := returnRecord_of_seal p.server hl hseal
    have hkept := batchOf_putBatch_self (b := withReturned (batchOf s h.key) [(h.token, p.rank, v)]) (batchOf_key s h.key) s
    rw [newOutputs_of_one_choice hplaced hnone] at heq
    obtain ⟨hrest, hout, hentries, hbatch⟩ := combineToken_of_outputs (l := l) (os := [(p, v)])
      (by rw [hkept]; exact outputsOf_of_one_choice hplaced hnone v) (List.cons_ne_nil _ _) (by rw [hkept]; exact hnew)
    rw [← heq] at hrest hout hentries hbatch
    simp only [sansExchange_putBatch, putBatch_out, putBatch_entries, convertRow_putBatch, rowCounter_putBatch, hkept,
      inEval_of_sansExchange (sansExchange_putBatch _ s), combineRow_of_no_renorm hrenorm, List.map_cons, List.map_nil,
      pairwise_singleton] at hrest hout hentries hbatch
    refine ⟨_, rfl, eq_of_sansExchange_of_out hrest hout, hentries, ?_, ?_⟩
    · exact congrArg Batch.returned hbatch
    · exact congrArg Batch.combined hbatch
  case broken =>
    intro s h l server outs hl hseal
    exact congrArg Host.Outcome.next (returnRecord_of_broken server hl hseal)
  case row =>
    intro l b os hrenorm
    exact combineRow_of_no_renorm hrenorm b os
  case park =>
    intro s key hdone hback heval
    exact ⟨_, congrArg Host.Outcome.next (park_of_combined hdone hback heval), rfl, rfl,
      fun e he => setParked_parked he, setParked_entries_length key true s, setParked_others key true s⟩
  case parkEarly =>
    intro s key hdone
    exact congrArg Host.Outcome.next (park_of_not_combined hdone)
  case unpark =>
    intro s key l grads hl hdone hback heval hseals hearly
    obtain ⟨hrest, hentries, hbackward, os, hout⟩ := unpark_changes grads hl hdone hback heval hseals hearly
    obtain ⟨bases, job, hconv, hjob⟩ := openConv_eq l key.layer true (setParked key false s)
    rw [hconv] at hrest
    have hjobs : (unpark key grads s).job = job := congrArg (fun u => u.job) hrest
    refine ⟨_, rfl, ?_, fun hsr => hjobs.trans (hjob hsr), hbackward, fun e he hkey => ?_, ?_, fun tok htok => ?_⟩
    · have heq := eq_of_sansExchange hrest
      rw [hjobs]
      exact heq
    · exact setParked_parked (hentries ▸ he) hkey
    · exact (congrArg List.length hentries).trans (setParked_entries_length key false s)
    · obtain ⟨c, hc, hlen⟩ := mem_gateMessages l.desc grads htok
      exact ⟨c, by rw [hout]; simp [hc], hlen⟩

end Sys2Proof.Machine

namespace Sys2Proof.Machine

/-! ### SELECT (R217) -/

/-- A batch with one token more; the tokens stand by index. -/
def withToken (b : Batch) (t : TokenChoice) : Batch :=
  { b with tokens := sortBy (fun x y => decide (x.token ≤ y.token)) (b.tokens ++ [t]) }

/-- R217: a new token that fits its half, with a score for each expert and none a NaN, joins the batch and nothing else changes. -/
theorem select_of_new_token {s : State} {key : BatchKey} {l : ExpertLayer} {token : Nat} {scores : List W32} (vec : List W32)
    (hl : layerOf s key.layer = some l) (hcounted : (batchOf s key).counted = false) (hsome : scores ≠ [])
    (hlen : scores.length = rtE l.desc) (hnan : scores.any (fun x => isNan32 (gateScore l.desc x)) = false)
    (hfits : tokenFits s l key token = true) (hnew : ∀ x ∈ (batchOf s key).tokens, x.token ≠ token) :
    select key token scores vec false s = putBatch (withToken (batchOf s key)
      { token := token, vec := vec, choices := tokenChoices l.desc scores }) s := by
  have hold : (batchOf s key).tokens.any (fun x => decide (x.token = token)) = false := by simpa using hnew
  unfold select
  rw [hl]
  dsimp only
  simp [hcounted, hlen, hfits, hnan, hsome, hold, withToken]

/-- R217: when the batch's tokens stand by index, as every SELECT leaves them, a token above them comes last. -/
theorem withToken_of_ascending {b : Batch} {t : TokenChoice} (hb : b.tokens.Pairwise (fun x y => x.token ≤ y.token))
    (ht : ∀ x ∈ b.tokens, x.token < t.token) : withToken b t = { b with tokens := b.tokens ++ [t] } := by
  have hsorted : (b.tokens ++ [t]).Pairwise (fun x y => decide (x.token ≤ y.token) = true) := by
    simpa [List.pairwise_append] using ⟨hb, fun x hx => (ht x hx).le⟩
  rw [withToken, sortBy_of_pairwise hsorted]

/-! ### O48 -/

/-- An expert layer of one expert and one choice, with a bound of eight tokens. -/
def oneExpertLayer : ExpertLayer where
  desc := (1 : W128) <<< 32 ||| (1 : W128) <<< 48
  bound := 8
  width := 1
  expertParams := 0
  inFmt := { fmt := .bf16, mx := false }
  outFmt := { fmt := .bf16, mx := false }
  bwdFmt := { fmt := .bf16, mx := false }
  micros := 1
  pending := 0
  outLen := 1
  outConv := { control := 0, scale := 0, bias := 0, clipLo := 0, clipHi := 0, scaleTid := 0, biasTid := 0 }
  bwdConv := { control := 0, scale := 0, bias := 0, clipLo := 0, clipHi := 0, scaleTid := 0, biasTid := 0 }
  experts := []

/-- A program of that layer. -/
def oneLayerProgram : Program where
  sentences := []
  clauses := []
  streams := 0
  tensors := []
  verbs := []
  drains := []
  layers := [oneExpertLayer]
  residency := 0
  decisions := []
  collectives := []
  inputs := []
  evalInputs := []
  sectionExtents := []
  expertPool := 0

/-- The first routing batch of the layer. -/
def firstBatch : BatchKey := { layer := 0, micro := 0, half := false }

/-- Token 2 and after it token 1. -/
def tokensOutOfOrder : List TokenChoice := [{ token := 2, vec := [], choices := [] }, { token := 1, vec := [], choices := [] }]

/-- A module with that program and a batch of those tokens. -/
def stateOutOfOrder : State :=
  (State.reset.withLoad { prog := some oneLayerProgram }).withLedger
    { batches := [{ key := firstBatch, tokens := tokensOutOfOrder }] }

/-- R217: SELECT of token 3 puts the three tokens in order. -/
theorem select_tokensOutOfOrder :
    ((batchOf (select firstBatch 3 [0] [] false stateOutOfOrder) firstBatch).tokens).map (·.token) = [1, 2, 3] := by
  rw [select_of_new_token (l := oneExpertLayer) [] rfl rfl (by decide) (by decide) (by decide) (by decide) (by decide),
    batchOf_putBatch_self (by exact batchOf_key stateOutOfOrder firstBatch)]
  rfl

/-- Refutes O48: its first clause takes a token above all the others of its batch to be appended, where the meaning keeps
the tokens of a batch by index. With tokens 2 and 1 in this order in the batch, SELECT of token 3 puts all three in order.
The clause lacks the invariant that the batch's tokens already stand by index (`withToken_of_ascending`). -/
theorem not_selectionIsCountedAndGranted : ¬ Obligations.SelectionIsCountedAndGranted := by
  unfold Obligations.SelectionIsCountedAndGranted
  rintro ⟨⟨hselect, -⟩, -⟩
  obtain ⟨t, hexec, -, -, -, hbatch⟩ := hselect stateOutOfOrder firstBatch oneExpertLayer 3 [0] [] rfl rfl (by decide) (by decide)
    (by decide) (by decide) (by decide)
  have ht : select firstBatch 3 [0] [] false stateOutOfOrder = t := Host.Outcome.next.inj hexec
  have htokens : (batchOf t firstBatch).tokens.map (·.token) = [2, 1, 3] := by rw [hbatch]; rfl
  rw [← ht, select_tokensOutOfOrder] at htokens
  exact absurd htokens (by decide)

end Sys2Proof.Machine

namespace Sys2Proof.Machine

/-! ### One level of a pairwise tree (R93, R273, R274) -/

/-- R93: one level of a pairwise tree whose first pair has index k: neighbours join, and an odd last element goes up as it
is. -/
def pairUp {α : Type} (join : Nat → α → α → α) (k : Nat) : List α → List α
  | x :: y :: t => join k x y :: pairUp join (k + 1) t
  | l => l

section PairUp

variable {α : Type} {join : Nat → α → α → α}

@[simp] theorem length_pairUp (k : Nat) (l : List α) : (pairUp join k l).length = (l.length + 1) / 2 := by
  fun_induction pairUp join k l with
  | case1 k x y t ih => simp [ih]; omega
  | case2 k l h =>
    match l with
    | [] => simp
    | [_] => simp
    | x :: y :: t => exact absurd rfl (h x y t)

/-- Two elements that stand as a pair are joined, by the pair's index. -/
theorem getElem?_pairUp_of_pair {k i : Nat} {l : List α} {x y : α} (hx : l[2 * i]? = some x) (hy : l[2 * i + 1]? = some y) :
    (pairUp join k l)[i]? = some (join (k + i) x y) := by
  fun_induction pairUp join k l generalizing i with
  | case1 k a b t ih =>
    cases i with
    | zero => simp_all
    | succ i =>
      have hstep := ih (i := i) hx hy
      rwa [Nat.add_right_comm, Nat.add_assoc] at hstep
  | case2 k l h =>
    match l with
    | [] => simp at hx
    | [_] => simp at hy
    | a :: b :: t => exact absurd rfl (h a b t)

/-- A last element without a partner goes up as it is, and past it there is nothing. -/
theorem getElem?_pairUp_of_last {k i : Nat} {l : List α} (hlast : l.length ≤ 2 * i + 1) : (pairUp join k l)[i]? = l[2 * i]? := by
  fun_induction pairUp join k l generalizing i with
  | case1 k a b t ih =>
    cases i with
    | zero => simp at hlast
    | succ i => simpa [Nat.mul_succ] using ih (i := i) (by simp at hlast; omega)
  | case2 k l h =>
    match l with
    | [] => simp
    | [_] => cases i <;> simp [Nat.mul_succ]
    | a :: b :: t => exact absurd rfl (h a b t)

end PairUp

/-! ### The tree over whole rows (R93) -/

/-- R93: the nodes of each level of the tree over a list of rows, whoever forms them. -/
def treeRows (xs : List (List W32)) (level : Nat) : List (List W32) := (pairUp (fun _ => addTiles) 0)^[level] xs

theorem treeRows_succ (xs : List (List W32)) (level : Nat) :
    treeRows xs (level + 1) = pairUp (fun _ => addTiles) 0 (treeRows xs level) := Function.iterate_succ_apply' _ _ _

theorem length_treeRows_succ (xs : List (List W32)) (level : Nat) :
    (treeRows xs (level + 1)).length = ((treeRows xs level).length + 1) / 2 := by rw [treeRows_succ, length_pairUp]

/-- R93: the pairwise sums of a list of rows of n elements, element by element. -/
def rowSums (n : Nat) (xs : List (List W32)) : List W32 := (List.range n).map (fun i => pairwise (xs.map (fun x => x.getD i 0)))

theorem length_pairUp_addTiles {n k : Nat} {xs : List (List W32)} (h : ∀ x ∈ xs, x.length = n) :
    ∀ x ∈ pairUp (fun _ => addTiles) k xs, x.length = n := by
  fun_induction pairUp (fun _ => addTiles) k xs with
  | case1 k x y t ih =>
    simp only [List.forall_mem_cons] at h ⊢
    obtain ⟨hx, hy, ht⟩ := h
    exact ⟨length_addTiles hx hy, ih ht⟩
  | case2 => exact h

/-- R93: a level of the tree is in each element a level of the pairwise sum. -/
theorem column_pairUp_addTiles {n k i : Nat} (hi : i < n) {xs : List (List W32)} (h : ∀ x ∈ xs, x.length = n) :
    (pairUp (fun _ => addTiles) k xs).map (fun x => x.getD i 0) = pairLevel (xs.map (fun x => x.getD i 0)) := by
  fun_induction pairUp (fun _ => addTiles) k xs with
  | case1 k x y t ih =>
    simp only [List.forall_mem_cons] at h
    obtain ⟨hx, hy, ht⟩ := h
    simp only [List.map_cons, pairLevel, ih ht, getD_addTiles hi hx hy]
  | case2 k l hshort =>
    match l with
    | [] => rfl
    | [_] => rfl
    | x :: y :: t => exact absurd rfl (hshort x y t)

theorem length_of_mem_treeRows {n : Nat} {xs : List (List W32)} (h : ∀ x ∈ xs, x.length = n) (level : Nat) :
    ∀ x ∈ treeRows xs level, x.length = n := by
  induction level with
  | zero => exact h
  | succ level ih => rw [treeRows_succ]; exact length_pairUp_addTiles ih

/-- R93: every level of the tree has the pairwise sums of the rows. -/
theorem rowSums_treeRows {n : Nat} {xs : List (List W32)} (h : ∀ x ∈ xs, x.length = n) (level : Nat) :
    rowSums n (treeRows xs level) = rowSums n xs := by
  induction level with
  | zero => rfl
  | succ level ih =>
    rw [← ih, treeRows_succ]
    refine List.map_congr_left fun i hi => ?_
    rw [column_pairUp_addTiles (List.mem_range.1 hi) (length_of_mem_treeRows h level), pairwise_pairLevel]

/-- R93: the sum of one row is the row. -/
theorem rowSums_singleton (v : List W32) : rowSums v.length [v] = v :=
  List.ext_getElem (by simp [rowSums]) fun i hi hi' => by simp [rowSums, pairwise_singleton, hi']

/-- R93: the root of the tree holds the pairwise sums of the rows. -/
theorem root_eq_rowSums {n level : Nat} {xs : List (List W32)} {v : List W32} (h : ∀ x ∈ xs, x.length = n)
    (hroot : treeRows xs level = [v]) : v = rowSums n xs := by
  have hv : v.length = n := length_of_mem_treeRows h level v (by simp [hroot])
  rw [← rowSums_treeRows h level, hroot, ← hv, rowSums_singleton]

/-! ### The nodes that a serving module sends (R273) -/

/-- R273: a node holds what the tree over all rows has at its level and index. -/
def IsNode (xs : List (List W32)) (nd : TreeNode) : Prop := (treeRows xs nd.level)[nd.index]? = some nd.values

/-- R273: two values that a module has form their node; with one missing the node is missing. -/
def joinNodes (level index : Nat) : Option TreeNode → Option TreeNode → Option TreeNode
  | some a, some b => some { level := level, index := index, values := addTiles a.values b.values }
  | _, _ => none

/-- R273: of two values that form no node, the one that the module has. -/
def loneNodes : Option TreeNode → Option TreeNode → List TreeNode
  | some a, none => [a]
  | none, some b => [b]
  | _, _ => []

theorem mem_loneNodes {level k : Nat} {x y : Option TreeNode} {nd : TreeNode} :
    nd ∈ loneNodes x y ↔ joinNodes level k x y = none ∧ (x = some nd ∨ y = some nd) := by
  cases x <;> cases y <;> simp [loneNodes, joinNodes, eq_comm]

/-- R273: one level at a serving module, pair by pair. -/
theorem treeLevel_cons_cons (level k : Nat) (x y : Option TreeNode) (t : List (Option TreeNode)) :
    treeLevel level k (x :: y :: t) = (loneNodes x y ++ (treeLevel level (k + 1) t).1,
      joinNodes level k x y :: (treeLevel level (k + 1) t).2) := by
  cases x <;> cases y <;> rfl

theorem treeLevel_snd (level k : Nat) (l : List (Option TreeNode)) : (treeLevel level k l).2 = pairUp (joinNodes level) k l := by
  induction l using List.twoStepInduction generalizing k with
  | nil => rfl
  | singleton => rfl
  | cons_cons x y t ih => rw [treeLevel_cons_cons, ih, pairUp]

/-- R273: what a module sends, it held. -/
theorem mem_of_mem_treeLevel {level k : Nat} {l : List (Option TreeNode)} {nd : TreeNode} (h : nd ∈ (treeLevel level k l).1) :
    some nd ∈ l := by
  induction l using List.twoStepInduction generalizing k with
  | nil => simp [treeLevel] at h
  | singleton => simp [treeLevel] at h
  | cons_cons x y t ih =>
    rw [treeLevel_cons_cons, List.mem_append, mem_loneNodes (level := level) (k := k)] at h
    obtain ⟨-, rfl | rfl⟩ | ht := h
    · simp
    · simp
    · simp [ih ht]

/-- R273: a node that a module holds and that does not join its partner is sent. -/
theorem mem_treeLevel_of_lone {level k i : Nat} {l : List (Option TreeNode)} {x y : Option TreeNode} {nd : TreeNode}
    (hx : l[2 * i]? = some x) (hy : l[2 * i + 1]? = some y) (hlone : joinNodes level (k + i) x y = none)
    (hnd : x = some nd ∨ y = some nd) : nd ∈ (treeLevel level k l).1 := by
  induction l using List.twoStepInduction generalizing k i with
  | nil => simp at hx
  | singleton => simp at hy
  | cons_cons a b t ih =>
    rw [treeLevel_cons_cons, List.mem_append]
    cases i with
    | zero =>
      obtain rfl : a = x := by simpa using hx
      obtain rfl : b = y := by simpa using hy
      exact .inl (mem_loneNodes.2 ⟨hlone, hnd⟩)
    | succ i => exact .inr (ih (i := i) hx hy (by rwa [Nat.add_right_comm, Nat.add_assoc]))

theorem rankNodes_of_length_le_one (fuel level : Nat) {l : List (Option TreeNode)} (h : l.length ≤ 1) :
    rankNodes fuel level l = l.filterMap id := by
  cases fuel with
  | zero => rfl
  | succ fuel => exact if_pos h

theorem rankNodes_succ (fuel level : Nat) {l : List (Option TreeNode)} (h : 1 < l.length) : rankNodes (fuel + 1) level l =
    (treeLevel (level + 1) 0 l).1 ++ rankNodes fuel (level + 1) (pairUp (joinNodes (level + 1)) 0 l) := by
  rw [← treeLevel_snd]
  exact if_neg (Nat.not_le.2 h)

/-- What a module holds at a level are nodes of the tree over all rows, in their places. -/
def HoldsNodes (xs : List (List W32)) (level : Nat) (l : List (Option TreeNode)) : Prop :=
  l.length = (treeRows xs level).length ∧
  ∀ (i : Nat) (nd : TreeNode), l[i]? = some (some nd) → IsNode xs nd ∧ (treeRows xs level)[i]? = some nd.values

/-- A place of the next level is that of a pair, or of a last element without a partner. -/
theorem exists_pair_or_last {α : Type} (l : List α) (i : Nat) :
    (∃ x y, l[2 * i]? = some x ∧ l[2 * i + 1]? = some y) ∨ l.length ≤ 2 * i + 1 := by
  rcases Nat.lt_or_ge (2 * i + 1) l.length with h | h
  · exact .inl ⟨_, _, List.getElem?_eq_getElem (Nat.lt_of_succ_lt h), List.getElem?_eq_getElem h⟩
  · exact .inr h

theorem joinNodes_eq_some {level k : Nat} {x y : Option TreeNode} {nd : TreeNode} (h : joinNodes level k x y = some nd) :
    ∃ a b, x = some a ∧ y = some b ∧ nd = { level := level, index := k, values := addTiles a.values b.values } := by
  cases x <;> cases y <;> simp_all [joinNodes]

/-- R273: the nodes that a module forms from nodes of the tree are nodes of the tree. -/
theorem HoldsNodes.up {xs : List (List W32)} {level : Nat} {l : List (Option TreeNode)} (h : HoldsNodes xs level l) :
    HoldsNodes xs (level + 1) (pairUp (joinNodes (level + 1)) 0 l) := by
  obtain ⟨hlen, hnode⟩ := h
  refine ⟨by rw [length_pairUp, length_treeRows_succ, hlen], fun i nd hnd => ?_⟩
  obtain ⟨x, y, hx, hy⟩ | hlast := exists_pair_or_last l i
  · rw [getElem?_pairUp_of_pair hx hy] at hnd
    obtain ⟨a, b, rfl, rfl, rfl⟩ := joinNodes_eq_some (Option.some.inj hnd)
    have hrow : (treeRows xs (level + 1))[i]? = some (addTiles a.values b.values) := by
      rw [treeRows_succ]
      exact getElem?_pairUp_of_pair (hnode _ _ hx).2 (hnode _ _ hy).2
    exact ⟨by simpa [IsNode] using hrow, hrow⟩
  · rw [getElem?_pairUp_of_last hlast] at hnd
    rw [treeRows_succ, getElem?_pairUp_of_last (hlen ▸ hlast)]
    exact hnode _ _ hnd

/-- R273: every node that a serving module sends is a node of the tree. -/
theorem isNode_of_mem_rankNodes {xs : List (List W32)} {fuel level : Nat} {l : List (Option TreeNode)} (h : HoldsNodes xs level l)
    {nd : TreeNode} (hnd : nd ∈ rankNodes fuel level l) : IsNode xs nd := by
  have hheld : some nd ∈ l → IsNode xs nd := fun hmem => by
    obtain ⟨i, hi⟩ := List.mem_iff_getElem?.1 hmem
    exact (h.2 i nd hi).1
  induction fuel generalizing level l with
  | zero => exact hheld (by simpa [rankNodes] using hnd)
  | succ fuel ih =>
    rcases Nat.lt_or_ge 1 l.length with hlen | hlen
    · rw [rankNodes_succ fuel level hlen, List.mem_append] at hnd
      obtain hsent | hlater := hnd
      · exact hheld (mem_of_mem_treeLevel hsent)
      · exact ih h.up hlater fun hmem => by
          obtain ⟨i, hi⟩ := List.mem_iff_getElem?.1 hmem
          exact (h.up.2 i nd hi).1
    · rw [rankNodes_of_length_le_one _ _ hlen] at hnd
      exact hheld (by simpa using hnd)

/-! ### The tree at the token's module (R274) -/

/-- A node found among those received is one of them. -/
theorem mem_of_rankNodeAt {nodes : List TreeNode} {level index : Nat} {v : List W32} (h : rankNodeAt nodes level index = some v) :
    { level := level, index := index, values := v } ∈ nodes := by
  obtain ⟨nd, hfind, rfl⟩ := Option.map_eq_some_iff.1 h
  obtain ⟨rfl, rfl⟩ : nd.level = level ∧ nd.index = index := by simpa using List.find?_some hfind
  exact List.mem_of_find?_eq_some hfind

/-- A node that is not found was not received. -/
theorem not_mem_of_rankNodeAt_eq_none {nodes : List TreeNode} {nd : TreeNode}
    (h : rankNodeAt nodes nd.level nd.index = none) : nd ∉ nodes := fun hnd => by
  have hnone := List.find?_eq_none.1 (Option.map_eq_none_iff.1 h) nd hnd
  simp at hnone

/-- R274: a received node stands for its leaves; else the two below it are added. -/
def joinParts (nodes : List TreeNode) (level index : Nat) (x y : Option (List W32)) : Option (List W32) :=
  match rankNodeAt nodes level index with
  | some v => some v
  | none => match x, y with
    | some a, some b => some (addTiles a b)
    | _, _ => none

theorem joinParts_eq_some {nodes : List TreeNode} {level index : Nat} {x y : Option (List W32)} {v : List W32}
    (h : joinParts nodes level index x y = some v) :
    rankNodeAt nodes level index = some v ∨ ∃ a b, x = some a ∧ y = some b ∧ v = addTiles a b := by
  unfold joinParts at h
  cases hat : rankNodeAt nodes level index <;> cases x <;> cases y <;> simp_all

theorem joinParts_eq_none {nodes : List TreeNode} {level index : Nat} {x y : Option (List W32)}
    (h : joinParts nodes level index x y = none) : rankNodeAt nodes level index = none ∧ (x = none ∨ y = none) := by
  unfold joinParts at h
  cases hat : rankNodeAt nodes level index <;> cases x <;> cases y <;> simp_all

theorem mergeLevel_eq_pairUp (nodes : List TreeNode) (level k : Nat) (l : List (Option (List W32))) :
    mergeLevel nodes level k l = pairUp (joinParts nodes level) k l := by
  induction l using List.twoStepInduction generalizing k with
  | nil => rfl
  | singleton => rfl
  | cons_cons x y t ih => rw [pairUp, ← ih]; rfl

theorem mergeTree_succ (nodes : List TreeNode) (fuel level : Nat) {l : List (Option (List W32))} (h : 1 < l.length) :
    mergeTree nodes (fuel + 1) level l = mergeTree nodes fuel (level + 1) (pairUp (joinParts nodes (level + 1)) 0 l) := by
  rw [← mergeLevel_eq_pairUp]
  exact if_neg (Nat.not_le.2 h)

/-- Some module holds the node at place i of a level of `count` places and does not send it, though it sends whatever of its
tree can go no further: the place is a part of a larger node of that module. -/
def Withheld (nodes : List TreeNode) (fuel level count i : Nat) : Prop :=
  ∃ l nd, l.length = count ∧ rankNodes fuel level l ⊆ nodes ∧ l[i]? = some (some nd) ∧ nd ∉ nodes

/-- R273: a module that withholds one of a pair has both and withholds their node, if that is not received. -/
theorem Withheld.pair {nodes : List TreeNode} {fuel level count i j : Nat} (h : Withheld nodes (fuel + 1) level count j)
    (hpair : 2 * i + 1 < count) (hj : j = 2 * i ∨ j = 2 * i + 1) (hnone : rankNodeAt nodes (level + 1) i = none) :
    Withheld nodes fuel (level + 1) ((count + 1) / 2) i := by
  obtain ⟨l, nd, rfl, hsent, hheld, hnd⟩ := h
  rw [rankNodes_succ fuel level (by omega), List.append_subset] at hsent
  obtain ⟨hnow, hlater⟩ := hsent
  obtain ⟨x, y, hx, hy⟩ := (exists_pair_or_last l i).resolve_right (Nat.not_le.2 hpair)
  cases hjoin : joinNodes (level + 1) (0 + i) x y with
  | none =>
    have hone : x = some nd ∨ y = some nd := by
      obtain rfl | rfl := hj
      · exact .inl (Option.some.inj (hx.symm.trans hheld))
      · exact .inr (Option.some.inj (hy.symm.trans hheld))
    exact absurd (hnow (mem_treeLevel_of_lone hx hy hjoin hone)) hnd
  | some nd' =>
    refine ⟨_, nd', length_pairUp 0 l, hlater, by rw [getElem?_pairUp_of_pair hx hy, hjoin], ?_⟩
    obtain ⟨a, b, -, -, rfl⟩ := joinNodes_eq_some hjoin
    exact not_mem_of_rankNodeAt_eq_none (by simpa using hnone)

/-- R93: an odd last node that is withheld still is one level up. -/
theorem Withheld.last {nodes : List TreeNode} {fuel level count i : Nat} (h : Withheld nodes (fuel + 1) level count (2 * i))
    (hcount : 1 < count) (hlast : count ≤ 2 * i + 1) : Withheld nodes fuel (level + 1) ((count + 1) / 2) i := by
  obtain ⟨l, nd, rfl, hsent, hheld, hnd⟩ := h
  rw [rankNodes_succ fuel level hcount, List.append_subset] at hsent
  exact ⟨_, nd, length_pairUp 0 l, hsent.2, by rw [getElem?_pairUp_of_last hlast, hheld], hnd⟩

/-- R273: the root is not withheld. -/
theorem not_withheld_root (nodes : List TreeNode) (fuel level i : Nat) : ¬ Withheld nodes fuel level 1 i := by
  rintro ⟨l, nd, hlen, hsent, hheld, hnd⟩
  rw [rankNodes_of_length_le_one _ _ hlen.le] at hsent
  exact hnd (hsent (by simpa using List.mem_of_getElem? hheld))

/-- R274: what the token's module has at a level is of the tree over all rows, and what it lacks some module withholds. -/
structure MergedParts (xs : List (List W32)) (nodes : List TreeNode) (fuel level : Nat) (parts : List (Option (List W32))) : Prop where
  length : parts.length = (treeRows xs level).length
  value : ∀ (i : Nat) (v : List W32), parts[i]? = some (some v) → (treeRows xs level)[i]? = some v
  missing : ∀ i : Nat, parts[i]? = some none → Withheld nodes fuel level parts.length i

section Received

variable {xs : List (List W32)} {nodes : List TreeNode} (hnodes : ∀ nd ∈ nodes, IsNode xs nd)
include hnodes

/-- R274: a level merged at the token's module keeps this. -/
theorem MergedParts.up {fuel level : Nat} {parts : List (Option (List W32))} (h : MergedParts xs nodes (fuel + 1) level parts)
    (hlen : 1 < parts.length) : MergedParts xs nodes fuel (level + 1) (pairUp (joinParts nodes (level + 1)) 0 parts) where
  length := by rw [length_pairUp, length_treeRows_succ, h.length]
  value i v hv := by
    rw [treeRows_succ]
    obtain ⟨x, y, hx, hy⟩ | hlast := exists_pair_or_last parts i
    · rw [getElem?_pairUp_of_pair hx hy, Nat.zero_add] at hv
      obtain hat | ⟨a, b, rfl, rfl, rfl⟩ := joinParts_eq_some (Option.some.inj hv)
      · rw [← treeRows_succ]
        exact hnodes _ (mem_of_rankNodeAt hat)
      · exact getElem?_pairUp_of_pair (h.value _ _ hx) (h.value _ _ hy)
    · rw [getElem?_pairUp_of_last hlast] at hv
      rw [getElem?_pairUp_of_last (h.length ▸ hlast), h.value _ _ hv]
  missing i hi := by
    rw [length_pairUp]
    obtain ⟨x, y, hx, hy⟩ | hlast := exists_pair_or_last parts i
    · have hpair : 2 * i + 1 < parts.length := (List.getElem?_eq_some_iff.1 hy).1
      rw [getElem?_pairUp_of_pair hx hy, Nat.zero_add] at hi
      obtain ⟨hnone, rfl | rfl⟩ := joinParts_eq_none (Option.some.inj hi)
      · exact (h.missing _ hx).pair hpair (.inl rfl) hnone
      · exact (h.missing _ hy).pair hpair (.inr rfl) hnone
    · rw [getElem?_pairUp_of_last hlast] at hi
      exact (h.missing _ hi).last hlen hlast

/-- R274: the tree at the token's module ends in the root of the tree over all rows. -/
theorem mergeTree_eq_root {fuel level : Nat} {parts : List (Option (List W32))} (h : MergedParts xs nodes fuel level parts)
    (hne : parts ≠ []) (hfuel : parts.length ≤ fuel) :
    ∃ v k, mergeTree nodes fuel level parts = some v ∧ treeRows xs k = [v] := by
  induction fuel generalizing level parts with
  | zero => exact absurd (List.eq_nil_of_length_eq_zero (Nat.le_zero.1 hfuel)) hne
  | succ fuel ih =>
    have hpos := List.length_pos_iff.2 hne
    rcases Nat.lt_or_ge 1 parts.length with hlen | hlen
    · have hstep := ih (h.up hnodes hlen) (List.ne_nil_of_length_pos (by rw [length_pairUp]; omega))
        (by rw [length_pairUp]; omega)
      rwa [← mergeTree_succ nodes fuel level hlen] at hstep
    · obtain ⟨part, rfl⟩ := List.length_eq_one_iff.1 (Nat.le_antisymm hlen hpos)
      cases part with
      | none => exact absurd (h.missing 0 rfl) (not_withheld_root _ _ _ _)
      | some v =>
        obtain ⟨w, hw⟩ := List.length_eq_one_iff.1 h.length.symm
        have hv := h.value 0 v rfl
        rw [hw] at hv
        exact ⟨v, level, rfl, by rw [hw, Option.some.inj hv]⟩

end Received

/-! ### The leaves (R272, R273) -/

/-- R273: the leaves of the ranks that a module serves. -/
def leavesOf (xs : List (List W32)) (server : Nat → Nat) (m : Nat) : List (Option TreeNode) :=
  xs.zipIdx.map (fun x => if server x.2 = m then some { level := 0, index := x.2, values := x.1 } else none)

theorem getElem?_leavesOf {xs : List (List W32)} (server : Nat → Nat) (m : Nat) {i : Nat} {x : List W32} (hx : xs[i]? = some x) :
    (leavesOf xs server m)[i]? = some (if server i = m then some { level := 0, index := i, values := x } else none) := by
  simp [leavesOf, hx]

theorem holdsNodes_leavesOf (xs : List (List W32)) (server : Nat → Nat) (m : Nat) : HoldsNodes xs 0 (leavesOf xs server m) := by
  refine ⟨by simp [leavesOf, treeRows], fun i nd hnd => ?_⟩
  have hi : i < xs.length := by simpa [leavesOf] using (List.getElem?_eq_some_iff.1 hnd).1
  have hx := List.getElem?_eq_getElem hi
  rw [getElem?_leavesOf server m hx, Option.some_inj, Option.ite_none_right_eq_some] at hnd
  obtain ⟨-, heq⟩ := hnd
  obtain rfl := Option.some.inj heq
  exact ⟨hx, hx⟩

/-- R273: what the modules send of the leaves that they serve. -/
def nodesSent (xs : List (List W32)) (server : Nat → Nat) (modules : List Nat) : List TreeNode :=
  modules.flatMap (fun m => rankNodes xs.length 0 (leavesOf xs server m))

theorem isNode_of_mem_nodesSent {xs : List (List W32)} {server : Nat → Nat} {modules : List Nat} {nd : TreeNode}
    (h : nd ∈ nodesSent xs server modules) : IsNode xs nd := by
  obtain ⟨m, -, hnd⟩ := List.mem_flatMap.1 h
  exact isNode_of_mem_rankNodes (holdsNodes_leavesOf xs server m) hnd

/-- R274: a leaf that the token's module did not receive is withheld by the module that serves it. -/
theorem mergedParts_leaves {xs : List (List W32)} {server : Nat → Nat} {modules : List Nat}
    (hserved : ∀ i, i < xs.length → server i ∈ modules) :
    MergedParts xs (nodesSent xs server modules) xs.length 0
      ((List.range xs.length).map (rankNodeAt (nodesSent xs server modules) 0)) where
  length := by simp [treeRows]
  value i v hv := by
    obtain ⟨hi, hat⟩ := List.getElem?_eq_some_iff.1 hv
    rw [List.getElem_map, List.getElem_range] at hat
    exact isNode_of_mem_nodesSent (mem_of_rankNodeAt hat)
  missing i hi := by
    obtain ⟨hlt, hat⟩ := List.getElem?_eq_some_iff.1 hi
    rw [List.getElem_map, List.getElem_range] at hat
    rw [List.length_map, List.length_range] at hlt ⊢
    refine ⟨leavesOf xs server (server i), { level := 0, index := i, values := xs[i] }, by simp [leavesOf],
      fun _ hnd => List.mem_flatMap.2 ⟨_, hserved i hlt, hnd⟩, ?_, not_mem_of_rankNodeAt_eq_none hat⟩
    rw [getElem?_leavesOf server _ (List.getElem?_eq_getElem hlt), if_pos rfl]

/-! ### O52 -/

/-- Settles O52: a place of the tree that the token's module cannot form is part of a larger node that one module sends
(`MergedParts`), so the root comes out, and every received node is the tree's own (`isNode_of_mem_nodesSent`). -/
theorem treeNodesGiveThePairwiseSum : Obligations.TreeNodesGiveThePairwiseSum := by
  unfold Obligations.TreeNodesGiveThePairwiseSum
  intro xs server modules n hne hlen hserved
  obtain ⟨v, k, hroot, hrows⟩ := mergeTree_eq_root (fun _ => isNode_of_mem_nodesSent) (mergedParts_leaves hserved)
    (by simpa using hne) (by simp)
  exact hroot.trans (congrArg some (root_eq_rowSums hlen hrows))

end Sys2Proof.Machine

namespace Sys2Proof.Machine

/-! ### Records arrive (R206, R232, R271) -/

/-- R232: whether a record of the token from the same member has come before. -/
def recordHeld (b : Batch) (back : Bool) (h : RecHeader) : Bool :=
  ((serveOf b back).records ++ (serveOf b back).early.map (·.1)).any
    (fun r => decide (r.src = h.src) && decide (r.token = h.token))

/-- R42: the stage of `recordArrives` that adds a record to its stream; the stream ends with the record that carries a seal. -/
def noteStream (back : Bool) (h : RecHeader) (weights vec : List W32) (s : State) : State :=
  if recordHeld (batchOf s h.key) back h then s
  else putStream (h.key, h.src, back, true) (if h.carried.isSome then []
    else streamSoFar s (h.key, h.src, back, true) ++ recHeaderBytes h ++ payloadBytes h weights vec) s

theorem noteStream_eq (back : Bool) (h : RecHeader) (weights vec : List W32) (s : State) :
    ∃ st, noteStream back h weights vec s = s.withLedger { s.ledger with streams := st } := by
  unfold noteStream
  split
  · exact ⟨s.ledger.streams, rfl⟩
  · exact ⟨_, rfl⟩

/-- A batch with a record at the end of its receive queue. -/
def withEarly (b : Batch) (back : Bool) (x : RecHeader × List W32 × List W32) : Batch :=
  setServe b back { serveOf b back with early := (serveOf b back).early ++ [x] }

/-- A batch that has taken a backward record, after which passes have started. -/
def withBackward (b : Batch) (h : RecHeader) (rows : List SlotVec) (started : List (Nat × Nat)) : Batch :=
  { b with bwd := { b.bwd with records := b.bwd.records ++ [h], rows := b.bwd.rows ++ rows, started := started } }

/-- R271: the rows that a backward record adds: for each choice served here the gradient times the choice's weight. -/
def gradientRows (weights grad : List W32) (cs : List (Nat × Nat × Nat × Nat)) : List SlotVec :=
  cs.zipIdx.map (fun x =>
    { expert := x.1.1, pass := x.1.2.1, slot := x.1.2.2.1, vec := grad.map (mulRne (weights.getD x.2 0)) })

/-- R232: starting passes notes them in the batch's exchange alone. -/
theorem batchOf_startPasses (w : Nat) (back : Bool) (key : BatchKey) (s : State) :
    ∃ st, batchOf (startPasses w back key s) key =
      setServe (batchOf s key) back { serveOf (batchOf s key) back with started := st } :=
  ⟨_, batchOf_putBatch_self (by simp) s⟩

/-- R271, R272: a backward record that is no repeat adds its rows, passes may start, and no other batch and no other part of the
state changes. -/
theorem takeRecord_backward {s : State} {h : RecHeader} {l : ExpertLayer} {b : Batch} {cs : List (Nat × Nat × Nat × Nat)}
    (weights grad : List W32) (hb : batchOf s h.key = b) (hnew : ∀ r ∈ b.bwd.records, r.src = h.src → r.token ≠ h.token)
    (hcs : recordChoices s l.width b h = some cs) :
    (takeRecord l true h weights grad s).sansBatches = s.sansBatches ∧
    ∃ started, batchOf (takeRecord l true h weights grad s) h.key = withBackward b h (gradientRows weights grad cs) started := by
  subst hb
  have hrepeat : (serveOf (batchOf s h.key) true).records.any
      (fun r => decide (r.src = h.src) && decide (r.token = h.token)) = false :=
    List.any_eq_false.2 fun r hr => by simpa using hnew r hr
  have heq : takeRecord l true h weights grad s = startPasses l.width true h.key
      (putBatch (withBackward (batchOf s h.key) h (gradientRows weights grad cs) (batchOf s h.key).bwd.started) s) := by
    unfold takeRecord
    dsimp only
    rw [hrepeat, hcs]
    rfl
  obtain ⟨started, hstarted⟩ := batchOf_startPasses l.width true h.key
    (putBatch (withBackward (batchOf s h.key) h (gradientRows weights grad cs) (batchOf s h.key).bwd.started) s)
  rw [batchOf_putBatch_self (by exact batchOf_key s h.key)] at hstarted
  rw [heq]
  exact ⟨(sansBatches_startPasses ..).trans (sansBatches_putBatch ..), started, hstarted⟩

section Arrives

variable {s : State} {h : RecHeader} {l : ExpertLayer} {back : Bool} {weights vec : List W32}
  (hl : layerOf s h.key.layer = some l) (hepoch : h.epoch = runningEpoch s)
include hl hepoch

/-- R42: a record whose stream's seal holds joins its stream, and is taken or waits in the receive queue. -/
theorem recordArrives_of_seal (hseal : recordSealOk s back h weights vec = true) :
    recordArrives back h weights vec s =
      if takesRecords (batchOf s h.key) back then takeRecord l back h weights vec (noteStream back h weights vec s)
      else putBatch (withEarly (batchOf s h.key) back (h, weights, vec)) (noteStream back h weights vec s) := by
  unfold recordArrives
  rw [hl]
  dsimp only
  rw [if_neg (not_not.2 hepoch), hseal, Bool.not_true, Bool.and_false]
  rfl

/-- R206: a record that has not come before and whose stream's seal fails is a seal failure. -/
theorem recordArrives_of_broken (hseal : recordSealOk s back h weights vec = false)
    (hnew : recordHeld (batchOf s h.key) back h = false) :
    recordArrives back h weights vec s = recordFailure h (recordSeal s back h weights vec) s := by
  unfold recordHeld at hnew
  unfold recordArrives
  rw [hl]
  dsimp only
  rw [if_neg (not_not.2 hepoch), hnew, hseal]
  rfl

end Arrives

/-! ### Backward returns (R274, R275) -/

/-- A batch that keeps the nodes received for a token. -/
def withNodes (b : Batch) (token : Nat) (nodes : List TreeNode) : Batch :=
  { b with nodes := b.nodes.filter (fun n => decide (n.1 ≠ token)) ++ [(token, nodes)] }

/-- A batch with a token's input gradient. -/
def withGradient (b : Batch) (token : Nat) (row : List W32 × List Byte) : Batch := { b with grads := b.grads ++ [(token, row)] }

/-- R274: the stage of `backwardReturn` that converts the root, where the nodes give it, to the token's gradient. -/
def rootArrives (l : ExpertLayer) (h : RecHeader) (b : Batch) (s : State) : Option (List W32) → State
  | none => putBatch b s
  | some v =>
    if b.grads.any (fun g => g.1 = h.token) then putBatch b s
    else putBatch (withGradient b h.token (convertRow s l.bwdConv (rowCounter s l true h.key h.token) v)) s

section Returns

variable {s : State} {h : RecHeader} {l : ExpertLayer} {server : Nat} {nodes : List TreeNode}
  (hl : layerOf s h.key.layer = some l) (hback : (batchOf s h.key).backward = true)
  (hsent : (h.token, server) ∈ (batchOf s h.key).backSent)
include hl hback hsent

/-- R275: a backward return whose seal fails is a seal failure. -/
theorem backwardReturn_of_broken (hseal : returnSealOk h (nodeBytes nodes) = false) :
    backwardReturn h server nodes s = recordFailure h (crc64 (recHeaderBytes h ++ nodeBytes nodes)) s := by
  unfold backwardReturn
  rw [hl]
  dsimp only
  rw [hback, decide_eq_false (not_not.2 hsent), hseal]
  rfl

/-- R274, R275: the first nodes of a token are kept, the token's source entries for their sender are freed, and the nodes may give the
root. -/
theorem backwardReturn_of_first (hfirst : ∀ n ∈ (batchOf s h.key).nodes, n.1 ≠ h.token)
    (hseal : returnSealOk h (nodeBytes nodes) = true) :
    backwardReturn h server nodes s = rootArrives l h (withNodes (batchOf s h.key) h.token nodes)
      (freeSources h.key h.token (some server) s) (treeRoot nodes (placedOf (batchOf s h.key) h.token).length) := by
  have hguard : (!(batchOf s h.key).backward || decide ((h.token, server) ∉ (batchOf s h.key).backSent)) = false := by
    simp [hback, hsent]
  have hold : (batchOf s h.key).nodes.find? (fun n => n.1 = h.token) = none :=
    List.find?_eq_none.2 fun n hn => by simp [hfirst n hn]
  have hall : nodes.filter (fun n => (rankNodeAt [] n.level n.index).isNone) = nodes := by simp [rankNodeAt]
  unfold backwardReturn
  rw [hl]
  dsimp only
  rw [hguard, hseal, hold, Option.map_none, Option.getD_none, hall, List.nil_append]
  rfl

end Returns

/-- R274: a token's first gradient is kept. -/
theorem rootArrives_some {h : RecHeader} {b : Batch} (hnew : ∀ g ∈ b.grads, g.1 ≠ h.token) (l : ExpertLayer) (s : State)
    (v : List W32) : rootArrives l h b s (some v) =
      putBatch (withGradient b h.token (convertRow s l.bwdConv (rowCounter s l true h.key h.token) v)) s :=
  if_neg fun hold => by
    obtain ⟨g, hg, htoken⟩ := List.any_eq_true.1 hold
    exact hnew g hg (of_decide_eq_true htoken)

/-- The one node of a token of one choice is its root. -/
theorem treeRoot_singleton (v : List W32) : treeRoot [{ level := 0, index := 0, values := v }] 1 = some v := rfl

/-- R275: no source entry of the token at that module is left. -/
theorem not_mem_freeSources {key : BatchKey} {token m : Nat} {s : State} {e : LedgerEntry}
    (he : e ∈ (freeSources key token (some m) s).ledger.entries) :
    ¬(e.slotKind = false ∧ e.key = key ∧ e.token = token ∧ e.peer = m) := by
  rintro ⟨hkind, hkey, htoken, hpeer⟩
  simpa [hkind, hkey, htoken, hpeer] using List.of_mem_filter he

/-! ### O51 -/

/-- Settles O51: a record by its stages (`recordArrives_of_seal`, `takeRecord_backward`), a return by the nodes that it brings
and the root that they give (`backwardReturn_of_first`). -/
theorem backwardReturnsFollowTheTree : Obligations.BackwardReturnsFollowTheTree := by
  unfold Obligations.BackwardReturnsFollowTheTree
  refine ⟨fun s h l w g hl hepoch => ⟨?early, ?taken, ?broken⟩, ?root, ?nodes⟩
  case early =>
    intro htakes hseal
    have heq := recordArrives_of_seal hl hepoch hseal
    obtain ⟨st, hst⟩ := noteStream_eq true h w g s
    rw [htakes, if_neg Bool.false_ne_true, hst] at heq
    refine ⟨_, congrArg Host.Outcome.next heq, eq_of_sansExchange_of_out (by simp) (by simp), by simp, ?_⟩
    exact batchOf_putBatch_self (by simp [withEarly]) _
  case taken =>
    intro cs htakes hnew hseal hcs
    have heq := recordArrives_of_seal hl hepoch hseal
    obtain ⟨st, hst⟩ := noteStream_eq true h w g s
    rw [htakes, if_pos rfl, hst] at heq
    obtain ⟨hrest, started, hbatch⟩ := takeRecord_backward (s := s.withLedger { s.ledger with streams := st }) w g rfl hnew hcs
    have hexchange := sansExchange_of_sansBatches hrest
    have hout := out_of_sansBatches hrest
    have hentries := entries_of_sansBatches hrest
    refine ⟨_, congrArg Host.Outcome.next heq, eq_of_sansExchange_of_out hexchange hout, hentries, ?_, ?_, ?_⟩
    · exact congrArg (fun b => b.fwd) hbatch
    · exact congrArg (fun b => b.bwd.records) hbatch
    · exact congrArg (fun b => b.bwd.rows) hbatch
  case broken =>
    intro hseal hnew
    have hheld : recordHeld (batchOf s h.key) true h = false := List.any_eq_false.2 fun r hr => by simpa using hnew r hr
    exact congrArg Host.Outcome.next (recordArrives_of_broken hl hepoch hseal hheld)
  case root =>
    intro s h l server p v hl hback hsent hplaced hfirst hnew hseal
    have heq := backwardReturn_of_first hl hback hsent hfirst hseal
    rw [hplaced, List.length_singleton, treeRoot_singleton, rootArrives_some (by exact hnew)] at heq
    refine ⟨_, congrArg Host.Outcome.next heq, eq_of_sansExchange_of_out (by simp) (by simp), ?_, fun e he => ?_, ?_⟩
    · rw [batchOf_putBatch_self (by exact batchOf_key s h.key)]
      rfl
    · exact not_mem_freeSources (by simpa using he)
    · simp [freeSources]
  case nodes =>
    intro s h l server nodes hl hback hsent hfirst hnone
    refine ⟨fun hseal => congrArg Host.Outcome.next (backwardReturn_of_broken hl hback hsent hseal), fun hseal => ?_⟩
    have heq := backwardReturn_of_first hl hback hsent hfirst hseal
    rw [hnone] at heq
    have hbatch := batchOf_putBatch_self (b := withNodes (batchOf s h.key) h.token nodes) (batchOf_key s h.key)
      (freeSources h.key h.token (some server) s)
    refine ⟨_, congrArg Host.Outcome.next heq, ?_, congrArg (fun b => b.grads) hbatch, ?_⟩
    · exact eq_of_sansExchange_of_out (sansExchange_putBatch ..) (putBatch_out ..)
    · exact congrArg (fun b => b.nodes) hbatch ▸ List.mem_append_right _ (List.mem_singleton_self _)

end Sys2Proof.Machine

namespace Sys2Proof.Machine

/-! ### Copies of experts (R256 to R262, R267) -/

/-- R259, R262: a promotion copy is noted once, when its space is free. -/
theorem promotionCopyDone_of_pending {s : State} {x : ExpertRef} {e : DirEntry} (hfind : dirFind s x = some e)
    (hstate : e.state = .fetching) (hhome : e.home = ownSeg s) (hnew : x ∉ s.ledger.promoted) (hspace : spaceFree s = true) :
    promotionCopyDone x s = s.withLedger { s.ledger with promoted := s.ledger.promoted ++ [x] } := by
  unfold promotionCopyDone
  rw [hfind]
  exact if_pos ⟨hstate, hhome, hnew, hspace⟩

/-- R259, R262: away from the expert's home, or before its space is free, a promotion copy changes nothing. -/
theorem promotionCopyDone_of_blocked {s : State} {x : ExpertRef} {e : DirEntry} (hfind : dirFind s x = some e)
    (h : e.home ≠ ownSeg s ∨ spaceFree s = false) : promotionCopyDone x s = s := by
  unfold promotionCopyDone
  rw [hfind]
  refine if_neg fun ⟨_, hhome, _, hspace⟩ => h.elim (fun hne => hne hhome) fun hfull => ?_
  exact Bool.false_ne_true (hfull.symm.trans hspace)

/-- R205, R261: the copy of a pending replica is a seal failure at the replica itself when a seal does not agree; else it is noted, and
its sections are stored at the replica itself. -/
theorem replicaCopyDone_of_pending {s : State} {x : ExpertRef} {e : DirEntry} {c : ReplicaCopy} (hfind : dirFind s x = some e)
    (hreplica : c.member ∈ e.replicas) (hnew : ∀ r ∈ s.ledger.replicas, r.1 = x → r.2.1 ≠ c.member) : replicaCopyDone x c s =
    if decide (c.member = ownSeg s) && c.secs.any (unsound s) then unsoundFailure .none c.secs s
    else (if c.member = ownSeg s then setCommitted s (c.secs.foldl putSection (committed s)) else s).withLedger
      { s.ledger with replicas := s.ledger.replicas ++ [(x, c.member, false)] } := by
  have hnone : s.ledger.replicas.any (fun r => decide (r.1 = x) && decide (r.2.1 = c.member)) = false :=
    List.any_eq_false.2 fun r hr => by simpa using hnew r hr
  have hpending : (decide (c.member ∈ e.replicas) &&
      !(s.ledger.replicas.any (fun r => decide (r.1 = x) && decide (r.2.1 = c.member)))) = true := by
    simp [hreplica, hnone]
  unfold replicaCopyDone
  rw [hfind]
  dsimp only
  rw [if_pos hpending]
  split
  · rfl
  · split <;> rfl

/-- R261, R267: a member other than the home with no complete copy of an expert does not serve it. -/
theorem not_mem_servingModules {s : State} {x : ExpertRef} {e : DirEntry} {m : Nat} (hfind : dirFind s x = some e)
    (hhome : e.home ≠ m) (hcopies : ∀ r ∈ s.ledger.replicas, r.1 = x → r.2.1 = m → r.2.2 = false) : m ∉ servingModules s x := by
  unfold servingModules
  rw [hfind]
  simp only [List.mem_cons, List.mem_filter, List.any_eq_true, Bool.and_eq_true, decide_eq_true_eq, not_or]
  refine ⟨hhome.symm, fun ⟨_, r, hr, ⟨hx, hm⟩, hcomplete⟩ => ?_⟩
  exact Bool.false_ne_true ((hcopies r hr hx hm).symm.trans hcomplete)

/-! ### Gathers (R299, R300) -/

/-- What a list holds of which some elements are dropped and to which one is added. -/
theorem eq_or_mem_of_mem_drop_concat {α : Type} {l : List α} {n : Nat} {x y : α} (h : y ∈ l.drop n ++ [x]) : y = x ∨ y ∈ l := by
  rcases List.mem_append.1 h with h | h
  · exact .inr (List.mem_of_mem_drop h)
  · exact .inl (List.mem_singleton.1 h)

/-- R299, R300: a gather whose seals all agree is kept as the newest. -/
theorem gatherDone_of_sound {s : State} (layer : Nat) {secs : List Section} (hcut : 1 < cutD s) (hsound : secs.find? sealBroken = none) :
    ∃ n m, gatherDone layer secs s =
      (s.withTens { s.tens with gathered := (s.tens.gathered.filter (fun g => decide (g.1 ≠ layer))).drop n ++ [(layer, secs)] }).withLedger
        { s.ledger with gathered := (s.ledger.gathered.filter (fun g => decide (g ≠ layer))).drop m ++ [layer] } := by
  unfold gatherDone
  rw [if_neg (Nat.not_le.2 hcut), hsound]
  exact ⟨_, _, rfl⟩

/-- R173, R473: with fewer than three replays a detection in a training step makes the attempt suspect, and changes no state of the
Ledger or of the tensors. -/
theorem markSuspect_of_few_replays {s : State} (unit : UnitId) (seq : W64) (heval : inEval s = false) (hreplays : s.step.replays < 3) :
    (markSuspect unit seq s).ledger = s.ledger ∧ (markSuspect unit seq s).tens = s.tens ∧
    (markSuspect unit seq s).saf.detections = s.saf.detections ∧
    (s.step.run.isSome = true → (markSuspect unit seq s).step.suspect = true) := by
  unfold markSuspect
  split
  · next hrun => exact ⟨rfl, rfl, rfl, fun h => by simp [Option.isNone_iff_eq_none.1 hrun] at h⟩
  · rw [heval, if_neg Bool.false_ne_true]
    dsimp only
    split
    · next hlimit => exact absurd hlimit (Nat.not_le.2 hreplays)
    · exact ⟨rfl, rfl, rfl, fun _ => rfl⟩

/-- R205, R300: a gather with a broken seal is a detection. -/
theorem gatherDone_of_broken {s : State} (layer : Nat) {secs : List Section} (hcut : 1 < cutD s) (hbroken : ∃ x ∈ secs, sealBroken x = true) :
    ∃ o e, gatherDone layer secs s = markSuspect .none (nextSeq s) (countDetection 10 .none 0 o e s) := by
  unfold gatherDone
  rw [if_neg (Nat.not_le.2 hcut)]
  cases hfind : secs.find? sealBroken with
  | none =>
    obtain ⟨x, hx, hb⟩ := hbroken
    exact absurd hb (List.find?_eq_none.1 hfind x hx)
  | some x => exact ⟨_, _, rfl⟩

/-! ### The cascade over modules (R277, R278) -/

/-- The tiles' cascades with one put in place of that of its tile. -/
def withTile (k : ExpertRef × Nat) (c : List (Nat × List W32) × Nat) (l : List ((ExpertRef × Nat) × List (Nat × List W32) × Nat)) :
    List ((ExpertRef × Nat) × List (Nat × List W32) × Nat) := l.filter (fun t => decide (t.1 ≠ k)) ++ [(k, c)]

/-- Looking a cascade up after one is replaced. -/
theorem find?_withTile (k k' : ExpertRef × Nat) (c : List (Nat × List W32) × Nat)
    (l : List ((ExpertRef × Nat) × List (Nat × List W32) × Nat)) :
    (withTile k c l).find? (fun t => t.1 = k') = if k' = k then some (k, c) else l.find? (fun t => t.1 = k') := by
  rw [withTile, List.find?_append]
  split
  · next heq =>
    subst heq
    have hnone : (l.filter (fun t => decide (t.1 ≠ k'))).find? (fun t => t.1 = k') = none :=
      List.find?_eq_none.2 fun t ht => by simpa using List.of_mem_filter ht
    rw [hnone, List.find?_cons_of_pos (by simp)]
    rfl
  · next hne =>
    have hkept : (l.filter (fun t => decide (t.1 ≠ k))).find? (fun t => t.1 = k') = l.find? (fun t => t.1 = k') := by
      rw [List.find?_filter]
      refine congrArg (fun p => l.find? p) (funext fun t => ?_)
      by_cases ht : t.1 = k' <;> simp [ht, hne]
    rw [hkept, List.find?_cons_of_neg (by simpa using Ne.symm hne), List.find?_nil, Option.or_none]

/-- The state with a node alone in the queue of the tiles. -/
def nodeQueued (k : ExpertRef × Nat) (level index : Nat) (v : List W32) (s : State) : State :=
  s.withLedger { s.ledger with tileQueue := [(k, level, index, v)] }

@[simp] theorem tileState_nodeQueued (k k' : ExpertRef × Nat) (level index : Nat) (v : List W32) (s : State) :
    tileState (nodeQueued k level index v s) k' = tileState s k' := rfl

/-- R278: the cascade of a tile after a node has entered. -/
def cascadeAfter (level : Nat) (v : List W32) (c : List (Nat × List W32) × Nat) : List (Nat × List W32) × Nat :=
  (tilePush v level c.1, c.2 + 2 ^ level)

/-- R278: the state after a node has entered its tile's cascade. -/
def nodeEntered (k : ExpertRef × Nat) (level : Nat) (v : List W32) (s : State) : State :=
  s.withLedger { s.ledger with tiles := withTile k (cascadeAfter level v (tileState s k)) s.ledger.tiles }

/-- R278: entering a node changes the cascade of its tile alone. -/
theorem tileState_nodeEntered (k k' : ExpertRef × Nat) (level : Nat) (v : List W32) (s : State) :
    tileState (nodeEntered k level v s) k' = if k' = k then cascadeAfter level v (tileState s k) else tileState s k' := by
  rw [tileState, nodeEntered, State.withLedger_ledger, find?_withTile]
  split <;> rfl

/-- R278: a node alone in the queue enters when the leaves before it have entered, and waits until then. -/
theorem enterNodes_nodeQueued (k : ExpertRef × Nat) (level index : Nat) (v : List W32) {s : State} (hqueue : s.ledger.tileQueue = []) :
    enterNodes k 1 (nodeQueued k level index v s) =
      if index * 2 ^ level = (tileState s k).2 then nodeEntered k level v s else nodeQueued k level index v s := by
  have hfind : (nodeQueued k level index v s).ledger.tileQueue.find?
      (fun q => decide (q.1 = k) && decide (q.2.2.1 * 2 ^ q.2.1 = (tileState s k).2)) =
      if index * 2 ^ level = (tileState s k).2 then some (k, level, index, v) else none := by
    split <;> simp [nodeQueued, *]
  have herase : (nodeQueued k level index v s).ledger.tileQueue.erase (k, level, index, v) = s.ledger.tileQueue := by
    simp [nodeQueued, hqueue]
  unfold enterNodes
  dsimp only
  rw [tileState_nodeQueued, hfind]
  by_cases henter : index * 2 ^ level = (tileState s k).2
  · rw [if_pos henter, if_pos henter]
    dsimp only
    rw [herase]
    rfl
  · rw [if_neg henter, if_neg henter]

/-- R278, R279: a node joins an empty queue, enters when it may, and the tile may be whole. -/
theorem cascadeNode_of_empty_queue {s : State} {x : ExpertRef} {l : ExpertLayer} (tile level index : Nat) (v : List W32)
    (hqueue : s.ledger.tileQueue = []) (hl : layerOf s x.layer = some l) :
    cascadeNode x tile level index v s = (tileHolders s (x, tile)).foldl (fun s h => settleTile h.1 h.2 l.width s)
      (enterNodes (x, tile) 1 (nodeQueued (x, tile) level index v s)) := by
  unfold layerOf at hl
  unfold cascadeNode
  rw [hl, hqueue]
  rfl

/-! ### Tiles that are whole (R277 to R279) -/

section Settle

variable {s : State} {i : Fin 1024} {n : Fin 4} {k : ExpertRef × Nat} (w : Nat)
  (htile : ((getStall s i).bufs[n]).tile = some k) (hstate : ((getStall s i).bufs[n]).state = .accumulate)
include htile

/-- R277: a tile that still takes blocks stays. -/
theorem settleTile_of_incomplete (hcomplete : ((getStall s i).bufs[n]).complete = false) : settleTile i n w s = s := by
  unfold settleTile
  dsimp only
  rw [htile]
  dsimp only
  rw [hcomplete]
  rfl

include hstate

/-- R278, R279: at the home a tile whose blocks this module has all added is whole, or waits for its peers. -/
theorem settleTile_of_complete (hcomplete : ((getStall s i).bufs[n]).complete = true) (hhome : homeOf s k.1 = some (ownSeg s)) :
    ∃ b : Buf, b.state = .drain ∧ b.vals = tileMerge (tileState s k).1 ∧ settleTile i n w s =
      if tileKnown s k.1 && decide ((tileState s k).2 = passBlocks w (expertPasses s k.1)) then
        (setStall s i { getStall s i with bufs := (getStall s i).bufs.set n b, wait := none, busy := true }).withLedger
          { s.ledger with tiles := s.ledger.tiles.filter (fun t => decide (t.1 ≠ k)) }
      else stallWaits i waitPeer s := by
  unfold settleTile
  dsimp only
  rw [htile]
  dsimp only
  rw [hcomplete, hstate, if_neg (by decide), if_neg (not_not.2 hhome)]
  exact ⟨_, rfl, rfl, rfl⟩

end Settle

/-! ### O53 -/

/-- Settles O53: copies, gathers and nodes by what each of their commands says of its cases; a node that enters changes the cascade of
its tile alone (`tileState_nodeEntered`), and a whole tile writes its stall once (`settleTile_of_complete`). -/
theorem copiesGathersAndNodesComplete : Obligations.CopiesGathersAndNodesComplete := by
  unfold Obligations.CopiesGathersAndNodesComplete
  refine ⟨fun s x e hfind => ⟨?promotion, ?blocked, fun c hreplica hnew => ⟨?elsewhere, ?stored, ?unsound⟩, ?serves⟩,
    ?copyOut, fun s layer secs hcut => ⟨?sound, ?broken⟩, ?noShards, ?node, ?settle⟩
  case promotion =>
    intro hstate hhome hnew hspace
    exact congrArg Host.Outcome.next (promotionCopyDone_of_pending hfind hstate hhome hnew hspace)
  case blocked =>
    intro h
    exact congrArg Host.Outcome.next (promotionCopyDone_of_blocked hfind h)
  case elsewhere =>
    intro hother
    refine congrArg Host.Outcome.next ((replicaCopyDone_of_pending hfind hreplica hnew).trans ?_)
    simp [hother]
  case stored =>
    intro hown hsound
    refine congrArg Host.Outcome.next ((replicaCopyDone_of_pending hfind hreplica hnew).trans ?_)
    simp [hown, hsound]
  case unsound =>
    intro hown hunsound
    refine congrArg Host.Outcome.next ((replicaCopyDone_of_pending hfind hreplica hnew).trans ?_)
    simp [hown, hunsound]
  case serves =>
    intro m hcopies hhome
    exact not_mem_servingModules hfind hhome hcopies
  case copyOut =>
    intro s x m
    exact ⟨_, rfl, rfl, fun c => by simp [imp_iff_not_or]⟩
  case sound =>
    intro hsound
    obtain ⟨n, m, heq⟩ := gatherDone_of_sound layer hcut hsound
    refine ⟨_, congrArg Host.Outcome.next heq, rfl, ?_, ?_, ?_⟩
    · simp
    · simp
    · intro l hl
      exact (eq_or_mem_of_mem_drop_concat hl).imp_right List.mem_of_mem_filter
  case broken =>
    intro hbroken heval hreplays
    obtain ⟨o, e, heq⟩ := gatherDone_of_broken layer hcut hbroken
    have hmark := markSuspect_of_few_replays (s := countDetection 10 .none 0 o e s) .none (nextSeq s)
      (by simpa [inEval] using heval) (by simpa using hreplays)
    refine ⟨_, congrArg Host.Outcome.next heq, ?_⟩
    simpa using hmark
  case noShards =>
    intro s layer secs hcut
    exact congrArg Host.Outcome.next (if_pos hcut)
  case node =>
    intro s x tile level index v l hqueue hl
    refine ⟨enterNodes (x, tile) 1 (nodeQueued (x, tile) level index v s),
      congrArg Host.Outcome.next (cascadeNode_of_empty_queue tile level index v hqueue hl), ?_⟩
    rw [enterNodes_nodeQueued _ level index v hqueue]
    refine ⟨fun hwait => if_neg hwait, fun henter => ?_⟩
    rw [if_pos henter]
    refine ⟨rfl, ?_, fun k hk => ?_⟩
    · rw [tileState_nodeEntered, if_pos rfl, cascadeAfter]
    · rw [tileState_nodeEntered, if_neg hk]
  case settle =>
    rintro s i n w k b rfl htile hstate
    refine ⟨settleTile_of_incomplete w htile, fun hcomplete hhome => ?_⟩
    obtain ⟨b, hdrain, hvals, heq⟩ := settleTile_of_complete w htile hstate hcomplete hhome
    refine ⟨fun hwait => heq.trans (if_neg (by simp [hwait])), fun hknown hwhole => ?_⟩
    have hwritten := stallBecomes_setStall (x := { getStall s i with bufs := (getStall s i).bufs.set n b, wait := none, busy := true })
      (stall_ne_reset_of_busy rfl) s i
    have hbuf := bufs_set_self (getStall s i).bufs n b
    rw [heq, if_pos (by simp [hknown, hwhole])]
    refine ⟨?_, ?_, hwritten.others⟩
    · exact (congrArg (fun x : Stall => x.bufs[n].state) hwritten.here).trans ((congrArg Buf.state hbuf).trans hdrain)
    · exact (congrArg (fun x : Stall => x.bufs[n].vals) hwritten.here).trans ((congrArg Buf.vals hbuf).trans hvals)

end Sys2Proof.Machine

namespace Sys2Proof.Machine

/-! ### A load begins (R284, R302) -/

/-- From s to t a command has at most reported its progress and sent messages. -/
structure Reported (s t : State) : Prop where
  rest : t = (s.withMbx t.mbx).withOut t.out
  job : t.mbx.job = s.mbx.job

theorem Reported.refl (s : State) : Reported s s := ⟨rfl, rfl⟩

theorem Reported.trans {s t u : State} (h : Reported s t) (h' : Reported t u) : Reported s u where
  rest := by rw [h'.rest, h.rest]; rfl
  job := h'.job.trans h.job

theorem reported_emit (o : Out) (s : State) : Reported s (emit o s) := ⟨rfl, rfl⟩

/-- R524: progress reported touches the command and its status word. -/
theorem reported_setProgress (k : CmdRef) (n : Nat) (s : State) : Reported s (setProgress k n s) where
  rest := by apply State.eq_of_parts <;> simp
  job := by simp

/-- A report made before the load is written is one made after it. -/
theorem Reported.setLoading {s t : State} (h : Reported s t) (l : Loading) : Reported (setLoading l s) (setLoading l t) where
  rest := by rw [h.rest]; rfl
  job := h.job

/-- R302: the load that begins at a member: the lead holds its own report, which is all of them when it is alone. -/
def begunLoad (k : CmdRef) (p : Program) (b : Bytes) (s : State) : Loading :=
  { cmd := k, prog := p, digest := (imageHeader b).digest, planVersion := planUsed b, limits := (imageHeader b).limits,
    since := s.awn.tick, phase := if isLead s = true ∧ memberCount s ≤ 1 then .placement else .agreement,
    reports := if isLead s then [ownReport s (imageHeader b).digest] else [], plan := none, phys := none, result := none,
    restarted := false }

theorem begunLoad_setProgress (k : CmdRef) (p : Program) (b : Bytes) (n : Nat) (s : State) :
    begunLoad k p b (setProgress k n s) = begunLoad k p b s := by simp [begunLoad, ownReport]

/-- R302, R303: once the check has passed the load begins, and all else is reports. -/
theorem reported_startLoad (k : CmdRef) (p : Program) (b : Bytes) (s : State) :
    Reported (setLoading (begunLoad k p b s) s) (startLoad k p b s) := by
  have hload := fun l => (reported_setProgress k 2 s).setLoading l
  unfold startLoad begunLoad
  by_cases hlead : isLead s = true
  · by_cases halone : memberCount s ≤ 1
    · simpa [hlead, halone, agreementOver] using (hload _).trans (reported_setProgress k 3 _)
    · simpa [hlead, halone, agreementOver] using hload _
  · simpa [hlead] using (hload _).trans (reported_emit _ _)

/-- R284, R602: the check reads the image, the program and the Halls. -/
theorem checkRefusal_setProgress (k : CmdRef) (n : Nat) (s : State) (c : Cmd) (b : Bytes) (p : Program) :
    checkRefusal (setProgress k n s) c b p = checkRefusal s c b p := by simp [checkRefusal]

section ProgramLoad

variable {s : State} {k : CmdRef} {p : Program} {c : Cmd} {b : Bytes} (hready : ready s k 0x20 = some c) (hidle : loadingNow s = none)
  (hb : b = readBuf s (bufA c) 0 (min (bufA c).bytes (leNat (readBuf s (bufA c) 8 8))))
include hready hidle hb

/-- R302: a load whose check passes begins. -/
theorem programLoad_of_passes (hcheck : checkRefusal s c b p = none) :
    Reported (setLoading (begunLoad k p b s) s) (programLoad k p s) := by
  have hstart : programLoad k p s = startLoad k p b (setProgress k 1 s) := by
    simp [programLoad, hready, hidle, ← hb, checkRefusal_setProgress, hcheck]
  rw [hstart, ← begunLoad_setProgress k p b 1 s]
  exact ((reported_setProgress k 1 s).setLoading _).trans (reported_startLoad k p b _)

/-- R284, R308: a load whose check fails ends with its result and its NEED records. -/
theorem programLoad_of_refusal {r : Nat} {needs : List Need} (hcheck : checkRefusal s c b p = some (r, needs)) :
    programLoad k p s = endLoad k r { member := memberIndex s }
      (addRecords k (needs.flatMap (needRecords (memberIndex s))) (setProgress k 1 s)) := by
  simp [programLoad, hready, hidle, ← hb, checkRefusal_setProgress, hcheck]

end ProgramLoad

/-! ### A load succeeds (R252, R305) -/

/-- What a load has installed, and where the module stands. -/
def State.installed (s : State) : Load × Tensors × List DirEntry × Slice × Vector TPort 6 := (s.load, s.tens, s.ledger.dir, s.slice, s.ports)

@[simp] theorem installed_withSaf (s : State) (x : Saf) : (s.withSaf x).installed = s.installed := rfl
@[simp] theorem installed_withAwn (s : State) (x : Awn) : (s.withAwn x).installed = s.installed := rfl
@[simp] theorem installed_withStalls (s : State) (x : Sparse Stall) : (s.withStalls x).installed = s.installed := rfl
@[simp] theorem installed_withHouse (s : State) (x : House) : (s.withHouse x).installed = s.installed := rfl
@[simp] theorem installed_withSnap (s : State) (x : Snap) : (s.withSnap x).installed = s.installed := rfl
@[simp] theorem installed_withJob (s : State) (x : Job) : (s.withJob x).installed = s.installed := rfl
@[simp] theorem installed_withStep (s : State) (x : Step) : (s.withStep x).installed = s.installed := rfl
@[simp] theorem installed_withMbx (s : State) (x : Mbx) : (s.withMbx x).installed = s.installed := rfl

@[simp] theorem installed_logEvent (code : W16) (sev : BitVec 3) (unit : UnitId) (detail : Bytes) (s : State) :
    (logEvent code sev unit detail s).installed = s.installed := by simp [State.installed]

@[simp] theorem installed_addRecords (k : CmdRef) (bs : List Bytes) (s : State) : (addRecords k bs s).installed = s.installed :=
  foldl_keeps State.installed _ (by simp [State.installed]) bs s

@[simp] theorem installed_finish (k : CmdRef) (result : Nat) (s : State) : (finish k result s).installed = s.installed := by
  simp [State.installed]

@[simp] theorem installed_extend (reg : Fin 8) (d : Bytes) (s : State) : (extend reg d s).installed = s.installed := rfl

@[simp] theorem installed_armComparator (s : State) : (armComparator s).installed = s.installed := rfl

@[simp] theorem installed_setPartners (shift : Nat) (s : State) : (setPartners shift s).installed = s.installed := by
  unfold setPartners
  dsimp only
  split <;> rfl

/-- R53: the thin blocks are read into stores alone. -/
theorem fillThin_keeps {β : Type} (q : State → β) (hq : ∀ s i x, q (setStall s i x) = q s) (s : State) : q (fillThin s) = q s := by
  unfold fillThin
  split
  · rfl
  · exact foldl_keeps q _ (fun s r => by split <;> simp [hq]) _ s

@[simp] theorem installed_fillThin (s : State) : (fillThin s).installed = s.installed := fillThin_keeps State.installed (fun _ _ _ => rfl) s
@[simp] theorem fillThin_mbx (s : State) : (fillThin s).mbx = s.mbx := fillThin_keeps State.mbx (by simp) s

@[simp] theorem addRecords_mbx_job (k : CmdRef) (bs : List Bytes) (s : State) : (addRecords k bs s).mbx.job = s.mbx.job :=
  foldl_keeps (fun s => s.mbx.job) _ (by simp) bs s

/-- R252, R305: what a load that succeeds has installed. -/
theorem installed_finishLoad (l : Loading) (plan : Plan) (m : PhysMap) (shift : Nat) (s : State) :
    (finishLoad l plan m shift s).installed =
      ({ prog := some l.prog, digest := l.digest, plan := some plan, phys := some m, loading := none }, (freshTensors l.prog s).tens,
        freshDirectory l.prog plan (extentList s), s.slice, s.ports) := by
  unfold finishLoad
  dsimp only
  simp only [installed_finish, installed_addRecords, installed_fillThin, installed_withMbx, installed_logEvent, installed_extend,
    installed_withStep, installed_withJob, apply_ite State.installed, installed_armComparator, installed_setPartners, installed_withHouse,
    ite_self]
  rfl

/-- R305: a load that succeeds leaves the job LOADED. -/
theorem finishLoad_job (l : Loading) (plan : Plan) (m : PhysMap) (shift : Nat) (s : State) :
    (finishLoad l plan m shift s).mbx.job = .loaded := by
  simp [finishLoad]

section LoadResult

variable {s : State} {l : Loading} {results : List (Nat × W16)} (f shift : Nat) (records : List Bytes) (hload : loadingNow s = some l)
include hload

/-- R304: once every member has reported a fit the load succeeds. -/
theorem loadResult_of_fits {plan : Plan} {map : PhysMap} (hfits : lowestRefusal results = none) (hphase : l.phase = .result)
    (hplan : l.plan = some plan) (hmap : l.phys = some map) (hown : l.result = some 0) (hall : results.length = memberCount s) :
    loadResult results f shift records s = finishLoad l plan map shift s := by
  simp [loadResult, hload, hfits, hphase, hplan, hmap, hown, hall]

/-- R304: a refusal of the own member ends the load with its result. -/
theorem loadResult_of_own_refusal {m r : Nat} (hrefusal : lowestRefusal results = some (m, r)) (hown : m = memberIndex s) :
    loadResult results f shift records s = endLoad l.cmd r { member := m, field := f } s := by
  simp [loadResult, hload, hrefusal, hown]

end LoadResult

/-! ### O8 -/

/-- Settles O8: a load that begins is `begunLoad` with reports added (`programLoad_of_passes`); one that succeeds installs the program, the
plan, the map, the directory and the tensors, which nothing after touches (`installed_finishLoad`). -/
theorem programLoadsBeginAndEnd : Obligations.ProgramLoadsBeginAndEnd := by
  unfold Obligations.ProgramLoadsBeginAndEnd
  refine ⟨⟨?begins, ?refused⟩, ?succeeds, ?ownRefusal⟩
  case begins =>
    intro s k p c b hready hidle hb hcheck
    obtain ⟨hrest, hjob⟩ := programLoad_of_passes hready hidle hb hcheck
    refine ⟨programLoad k p s, rfl, ?_⟩
    generalize programLoad k p s = t at *
    rw [hrest]
    exact ⟨rfl, ⟨begunLoad k p b s, rfl, rfl, rfl, rfl, rfl, rfl⟩, rfl, hjob, rfl, rfl⟩
  case refused =>
    intro s k p c b r needs hready hidle hb hcheck
    exact congrArg Host.Outcome.next (programLoad_of_refusal hready hidle hb hcheck)
  case succeeds =>
    intro s l plan map results f shift records hload hfits hphase hplan hmap hown hall
    have hend := loadResult_of_fits f shift records hload hfits hphase hplan hmap hown hall
    have hinstalled := installed_finishLoad l plan map shift s
    simp only [State.installed, Prod.mk.injEq] at hinstalled
    obtain ⟨hnow, htens, hdir, hslice, hports⟩ := hinstalled
    exact ⟨_, congrArg Host.Outcome.next hend, finishLoad_job l plan map shift s, hnow, hdir, htens, hslice, hports⟩
  case ownRefusal =>
    intro s l m r results f shift records hload hrefusal hown
    exact congrArg Host.Outcome.next (loadResult_of_own_refusal f shift records hload hrefusal hown)

end Sys2Proof.Machine

namespace Sys2Proof.Machine

/-! ### The phases of a load (R295, R297, R302, R303, R308) -/

section Phases

variable {s : State} {l : Loading} (hload : loadingNow s = some l)
include hload

section Agreement

variable {m : Nat} {digest : Bytes} {slice : W32} {board : W64} (hlead : isLead s = true) (hphase : l.phase = .agreement)
  (hmember : m < memberCount s) (hnew : l.reports.any (fun r => r.1 = m) = false) (hlast : memberCount s ≤ l.reports.length + 1)
include hlead hphase hmember hnew hlast

/-- R303: the last report, with every member's digest and slice that of the lead, moves the load to placement. -/
theorem loadAgreement_of_agreed (hagreed : loadMismatch (ownReport s l.digest) (l.reports ++ [(m, digest, slice, board)]) = none) :
    loadAgreement m digest slice board s = setProgress l.cmd 3
      (setLoading { l with reports := l.reports ++ [(m, digest, slice, board)], phase := .placement } s) := by
  simp [loadAgreement, hload, hlead, hphase, hmember, hnew, hlast, agreementOver, hagreed]

/-- R303: the last report, with a member that differs, ends the load at every member. -/
theorem loadAgreement_of_mismatch {x f : Nat}
    (hdiffers : loadMismatch (ownReport s l.digest) (l.reports ++ [(m, digest, slice, board)]) = some (x, f)) :
    loadAgreement m digest slice board s = endLoad l.cmd rMismatch { member := x, field := f }
      (emit (.cmdVerdict l.cmd x (BitVec.ofNat 8 f)) s) := by
  simp [loadAgreement, hload, hlead, hphase, hmember, hnew, hlast, agreementOver, hdiffers]

end Agreement

/-- R302, R303: LOAD_WAIT ends the load for the lowest absent member, and does nothing before its time. -/
theorem loadWait_of_absent {absent : Nat} (hlead : isLead s = true) (hphase : l.phase = .agreement) (hmember : absent < memberCount s)
    (hlowest : lowestAbsent l absent = true) :
    loadWait absent s = if 120000000000 ≤ (s.awn.tick - l.since).toNat then
      endLoad l.cmd rMismatch { member := absent, field := 0x03 } (emit (.cmdVerdict l.cmd absent 0x03) s) else s := by
  unfold loadWait
  rw [hload]
  simp only [hlead, hphase, hmember, hlowest, decide_true, Bool.true_and, decide_eq_true_eq]
  rfl

/-- R297, R302: the lead distributes the plan of the cut that it chooses. -/
theorem slicePlacement_of_cut {x : (Nat × Nat × Nat) × Nat} {plan : Plan} (hlead : isLead s = true) (hphase : l.phase = .placement)
    (hcut : chooseCut l.planVersion l.prog (extentList s) l.limits = some x) (hplan : plan = planOf l (extentList s) x) :
    slicePlacement s = setProgress l.cmd 5 (setLoading { l with phase := .localPlacement, plan := some plan }
      (addRecord l.cmd (summaryOf (memberIndex s) plan.version plan.prefetch (some plan)) (emit (.plan plan) s))) := by
  simp [slicePlacement, hload, hlead, hphase, hcut, hplan]

/-- R302: a member takes the plan that it forms itself. -/
theorem planDistribution_of_own {plan : Plan} (hlead : isLead s = false) (hphase : l.phase = .agreement)
    (hown : plan = planOf { l with planVersion := plan.version } (extentList s) ((plan.q, plan.p, plan.d), plan.estimate.toNat)) :
    planDistribution plan plan.digest s = setProgress l.cmd 5 (setLoading { l with phase := .localPlacement, plan := some plan }
      (addRecord l.cmd (summaryOf (memberIndex s) plan.version plan.prefetch (some plan)) s)) := by
  unfold planDistribution
  rw [hload]
  dsimp only
  rw [← hown, if_neg (by simp [hlead, hphase])]

/-- R302, R308: a legal map that fits is taken, and the fit is reported. -/
theorem localPlacement_of_fit {plan : Plan} {m m' : PhysMap} (hplan : l.plan = some plan) (hphase : l.phase = .localPlacement)
    (hstalls : m.roles.any (fun r => !stallPlaceable s r.stall.val) = false) (hok : mapOk l.prog plan (planStage s plan) m = true)
    (hfit : fitNeeds (retireDue s) l plan m = [])
    (hsealed : m' = { m with digest := Config.mapDigest plan.version { m with digest := 0 } })
    (hregions : verbRegionsBad l.prog m' = false) :
    localPlacement m s = setProgress l.cmd 6 (setLoading { l with phase := .result, phys := some m', result := some 0 }
      (emit (.fitReport 0 []) (retireDue s))) := by
  unfold localPlacement
  rw [hload]
  dsimp only
  rw [hplan]
  dsimp only
  rw [if_neg (by simp [hphase, hstalls, hok]), hfit, ← hsealed, hregions]
  rfl

end Phases

/-! ### O9 -/

/-- Settles O9: by what each phase's event says of a load in that phase. -/
theorem loadPhasesFollowInOrder : Obligations.LoadPhasesFollowInOrder := by
  unfold Obligations.LoadPhasesFollowInOrder
  refine ⟨?agreement, ?wait, ?placement, ?distribution, ?localPlacement⟩
  case agreement =>
    intro s l m digest slice board hload hlead hphase hmember hnew hlast
    exact ⟨fun h => congrArg Host.Outcome.next (loadAgreement_of_agreed hload hlead hphase hmember hnew hlast h),
      fun x f h => congrArg Host.Outcome.next (loadAgreement_of_mismatch hload hlead hphase hmember hnew hlast h)⟩
  case wait =>
    intro s l absent hload hlead hphase hmember hlowest
    exact congrArg Host.Outcome.next (loadWait_of_absent hload hlead hphase hmember hlowest)
  case placement =>
    intro s l x plan hload hlead hphase hcut hplan
    exact congrArg Host.Outcome.next (slicePlacement_of_cut hload hlead hphase hcut hplan)
  case distribution =>
    intro s l plan hload hlead hphase hown
    exact congrArg Host.Outcome.next (planDistribution_of_own hload hlead hphase hown)
  case localPlacement =>
    intro s l plan m m' hload hplan hphase hstalls hok hfit hsealed hregions
    exact congrArg Host.Outcome.next (localPlacement_of_fit hload hplan hphase hstalls hok hfit hsealed hregions)

end Sys2Proof.Machine

namespace Sys2Proof.Machine

/-! ### The width of a port (R333) -/

/-- R333: a run of lanes is good when no bad lane lies under the mask of the run. -/
theorem lanesGood_iff_and_mask {bad mask : W16} {lo n : Nat}
    (hmask : ∀ i < 16, mask.getLsbD i = decide (lo ≤ i ∧ i < lo + n)) (hle : lo + n ≤ 16) :
    lanesGood bad lo n = true ↔ bad &&& mask = 0 := by
  simp only [lanesGood, List.all_eq_true, List.mem_range, Bool.not_eq_true']
  constructor
  · intro hgood
    refine BitVec.eq_of_getLsbD_eq fun i hi => ?_
    rw [BitVec.getLsbD_and, hmask i hi]
    by_cases hrun : lo ≤ i ∧ i < lo + n
    · simpa [hrun, Nat.add_sub_cancel' hrun.1] using hgood (i - lo) (by omega)
    · simp [hrun]
  · intro hzero i hi
    have hbit := congrArg (BitVec.getLsbD · (lo + i)) hzero
    simpa [hmask (lo + i) (by omega), hi] using hbit

/-- R333: every run inside a good run is good. -/
theorem lanesGood_of_subrun {bad : W16} {lo n lo' n' : Nat} (h : lanesGood bad lo n = true) (hlo : lo ≤ lo')
    (hhi : lo' + n' ≤ lo + n) : lanesGood bad lo' n' = true := by
  simp only [lanesGood, List.all_eq_true, List.mem_range] at h ⊢
  intro i hi
  rw [show lo' + i = lo + (lo' - lo + i) by omega]
  exact h _ (by omega)

/-- R333: all sixteen lanes are good when none is bad. -/
theorem lanesGood_all_iff {bad : W16} : lanesGood bad 0 16 = true ↔ bad = 0 := by
  rw [lanesGood_iff_and_mask (mask := BitVec.allOnes 16) (by decide) (by decide), BitVec.and_allOnes]

/-- R333: a half is good when the port's byte for it names no bad lane. -/
theorem lanesGood_half_iff {bad : W16} :
    (lanesGood bad 0 8 = true ↔ bad &&& 0x00FF = 0) ∧ (lanesGood bad 8 8 = true ↔ bad &&& 0xFF00 = 0) :=
  ⟨lanesGood_iff_and_mask (by decide) (by decide), lanesGood_iff_and_mask (by decide) (by decide)⟩

/-- R333: a quarter is good when the port's nibble for it names no bad lane. -/
theorem lanesGood_quarter_iff {bad : W16} :
    (lanesGood bad 0 4 = true ↔ bad &&& 0x000F = 0) ∧ (lanesGood bad 4 4 = true ↔ bad &&& 0x00F0 = 0) ∧
    (lanesGood bad 8 4 = true ↔ bad &&& 0x0F00 = 0) ∧ (lanesGood bad 12 4 = true ↔ bad &&& 0xF000 = 0) :=
  ⟨lanesGood_iff_and_mask (by decide) (by decide), lanesGood_iff_and_mask (by decide) (by decide),
    lanesGood_iff_and_mask (by decide) (by decide), lanesGood_iff_and_mask (by decide) (by decide)⟩

/-- R333: the width is the sixteen lanes, one good half, one good quarter or nothing. -/
theorem widthOf_cases (bad : W16) :
    (lanesGood bad 0 16 = true ∧ widthOf bad = 16) ∨
    (lanesGood bad 0 16 = false ∧ (lanesGood bad 0 8 = true ∨ lanesGood bad 8 8 = true) ∧ widthOf bad = 8) ∨
    (lanesGood bad 0 16 = false ∧ lanesGood bad 0 8 = false ∧ lanesGood bad 8 8 = false ∧
      (lanesGood bad 0 4 = true ∨ lanesGood bad 4 4 = true ∨ lanesGood bad 8 4 = true ∨ lanesGood bad 12 4 = true) ∧ widthOf bad = 4) ∨
    (lanesGood bad 0 16 = false ∧ lanesGood bad 0 8 = false ∧ lanesGood bad 8 8 = false ∧ lanesGood bad 0 4 = false ∧
      lanesGood bad 4 4 = false ∧ lanesGood bad 8 4 = false ∧ lanesGood bad 12 4 = false ∧ widthOf bad = 0) := by
  unfold widthOf
  split
  · next h16 => exact .inl ⟨h16, rfl⟩
  · next h16 =>
    rw [Bool.not_eq_true] at h16
    split
    · next h8 => exact .inr (.inl ⟨h16, by simpa using h8, rfl⟩)
    · next h8 =>
      obtain ⟨hlow, hhigh⟩ : lanesGood bad 0 8 = false ∧ lanesGood bad 8 8 = false := by simpa using h8
      split
      · next h4 => exact .inr (.inr (.inl ⟨h16, hlow, hhigh, by simpa [or_assoc] using h4, rfl⟩))
      · next h4 =>
        have hquarters := by simpa [and_assoc] using h4
        obtain ⟨h0, h1, h2, h3⟩ := hquarters
        exact .inr (.inr (.inr ⟨h16, hlow, hhigh, h0, h1, h2, h3, rfl⟩))

/-- R333: the width is 0 when every quarter has a bad lane, since a good half holds a good quarter. -/
theorem widthOf_eq_zero_iff (bad : W16) : widthOf bad = 0 ↔ lanesGood bad 0 4 = false ∧ lanesGood bad 4 4 = false ∧
    lanesGood bad 8 4 = false ∧ lanesGood bad 12 4 = false := by
  have hfull : lanesGood bad 0 16 = true → lanesGood bad 0 4 = true := fun h => lanesGood_of_subrun h (by decide) (by decide)
  have hlow : lanesGood bad 0 8 = true → lanesGood bad 0 4 = true := fun h => lanesGood_of_subrun h (by decide) (by decide)
  have hhigh : lanesGood bad 8 8 = true → lanesGood bad 8 4 = true := fun h => lanesGood_of_subrun h (by decide) (by decide)
  obtain ⟨h16, hw⟩ | ⟨-, h8 | h8, hw⟩ | ⟨-, -, -, h4 | h4 | h4 | h4, hw⟩ | ⟨-, -, -, h0, h1, h2, h3, hw⟩ := widthOf_cases bad
  · simp [hw, hfull h16]
  · simp [hw, hlow h8]
  · simp [hw, hhigh h8]
  iterate 4 simp [hw, h4]
  · simp [hw, h0, h1, h2, h3]

/-- Settles O33: a run is good when no bad lane lies under its mask, and a good run makes the runs inside it good. -/
theorem widthIsThatOfTheLowestGoodGroup : Obligations.WidthIsThatOfTheLowestGoodGroup := by
  unfold Obligations.WidthIsThatOfTheLowestGoodGroup
  intro bad
  obtain ⟨hlow, hhigh⟩ := lanesGood_half_iff (bad := bad)
  obtain ⟨hq0, hq1, hq2, hq3⟩ := lanesGood_quarter_iff (bad := bad)
  refine ⟨?sixteen, ?eight, ?zero, ?range⟩
  case sixteen =>
    rw [← lanesGood_all_iff]
    obtain ⟨h16, hw⟩ | ⟨h16, -, hw⟩ | ⟨h16, -, -, -, hw⟩ | ⟨h16, -, -, -, -, -, -, hw⟩ := widthOf_cases bad <;> simp [h16, hw]
  case eight =>
    rw [ne_eq, ← lanesGood_all_iff, ← hlow, ← hhigh]
    obtain ⟨h16, hw⟩ | ⟨h16, h8, hw⟩ | ⟨-, h0, h8, -, hw⟩ | ⟨-, h0, h8, -, -, -, -, hw⟩ := widthOf_cases bad
    · simp [h16, hw]
    · simp [h16, h8, hw]
    · simp [h0, h8, hw]
    · simp [h0, h8, hw]
  case zero =>
    rw [widthOf_eq_zero_iff, ne_eq, ne_eq, ne_eq, ne_eq, ← hq0, ← hq1, ← hq2, ← hq3]
    simp only [Bool.not_eq_true]
  case range =>
    obtain ⟨-, hw⟩ | ⟨-, -, hw⟩ | ⟨-, -, -, -, hw⟩ | ⟨-, -, -, -, -, -, -, hw⟩ := widthOf_cases bad <;> simp [hw]
end Sys2Proof.Machine

namespace Sys2Proof.Machine

/-! ### Arrivals on a port (R324, R328, R329) -/

/-- R355: a port that has counted a flit whose CRC failed. -/
def crcFailed (t : TPort) : TPort := { t with counts := { t.counts with crcFails := add48 t.counts.crcFails 1 } }

/-- R328: a port that has accepted the flit it expected. -/
def flitAccepted (f : Flit) (t : TPort) : TPort := { t with expected := t.expected + 1, unacked := t.unacked + 1, rx := t.rx ++ [f] }

/-- R328: a port that has sent a NAK at a tick. -/
def nakSent (now : W64) (t : TPort) : TPort :=
  { t with nak := some (t.expected, now), counts := { t.counts with naksSent := add48 t.counts.naksSent 1 } }

/-- R329: an acknowledgement of the last accepted flit leaves. -/
theorem sendAck_eq (p : Port) (s : State) : sendAck p s = (setPort s p { getPort s p with unacked := 0 }).withOut
    (s.out ++ [.control p ((getPort s p).expected - 1) false (getPort s p).freed.toList]) := by
  unfold sendAck sendControl emit
  simp

/-- R328: with a NAK of the expected number less than 2 µs old no other leaves. -/
theorem sendNak_of_recent {s : State} {p : Port} {at' : W64} (hnak : (getPort s p).nak = some ((getPort s p).expected, at'))
    (hrecent : (s.awn.tick - at').toNat < 2000) : sendNak p s = s := by
  simp [sendNak, hnak, hrecent, -BitVec.toNat_sub]

/-- R328: otherwise a NAK of the expected number leaves, and the port keeps its number and tick. -/
theorem sendNak_of_not_recent {s : State} {p : Port}
    (hnak : ∀ e at', (getPort s p).nak = some (e, at') → e = (getPort s p).expected → 2000 ≤ (s.awn.tick - at').toNat) :
    sendNak p s = (setPort s p (nakSent s.awn.tick (getPort s p))).withOut
      (s.out ++ [.control p (getPort s p).expected true (getPort s p).freed.toList]) := by
  cases h : (getPort s p).nak with
  | none => simp [sendNak, sendControl, emit, h, nakSent]
  | some x =>
    by_cases he : x.1 = (getPort s p).expected
    · simp [sendNak, sendControl, emit, h, nakSent, Nat.not_lt.2 (hnak x.1 x.2 h he), -BitVec.toNat_sub]
    · simp [sendNak, sendControl, emit, h, nakSent, he]

section DataFlit
variable {s : State} {p : Port} {f : Flit}

/-- R320: a port that is not UP takes no data flit. -/
theorem dataFlit_of_not_up (hup : (getPort s p).state ≠ .up) : dataFlit p f s = s := by
  simp [dataFlit, hup]

variable (hup : (getPort s p).state = .up)
include hup

/-- R324: a flit that fails its CRC is counted and answered by a NAK. -/
theorem dataFlit_of_crc (hok : flitOk f = false) : dataFlit p f s = sendNak p (setPort s p (crcFailed (getPort s p))) := by
  simp [dataFlit, hup, hok, crcFailed]

variable (hok : flitOk f = true) (hdata : isData f = true)
include hok hdata

/-- R328, R329: the expected flit is accepted, and every 32nd one acknowledged. -/
theorem dataFlit_of_expected (hseq : f.seq = (getPort s p).expected) : dataFlit p f s =
    if 32 ≤ (getPort s p).unacked + 1 then sendAck p (setPort s p (flitAccepted f (getPort s p)))
    else setPort s p (flitAccepted f (getPort s p)) := by
  simp [dataFlit, hup, hok, hdata, acceptFlit, hseq, flitAccepted]

/-- R328: a flit behind the expected number is counted as a duplicate. -/
theorem dataFlit_of_duplicate (hlow : 1 ≤ ((getPort s p).expected - f.seq).toNat) (hhigh : ((getPort s p).expected - f.seq).toNat ≤ 32768) :
    dataFlit p f s = setPort s p { getPort s p with
      counts := { (getPort s p).counts with dupFlits := add48 (getPort s p).counts.dupFlits 1 } } := by
  have hseq : f.seq ≠ (getPort s p).expected := fun h => by simp [h] at hlow
  simp [dataFlit, hup, hok, hdata, acceptFlit, hseq, hlow, hhigh, -BitVec.toNat_sub]

/-- R328: a flit beyond the expected number shows a loss, which a NAK answers. -/
theorem dataFlit_of_loss (hfar : 32768 < ((getPort s p).expected - f.seq).toNat) : dataFlit p f s = sendNak p s := by
  have hseq : f.seq ≠ (getPort s p).expected := fun h => by simp [h] at hfar
  simp [dataFlit, hup, hok, hdata, acceptFlit, hseq, Nat.not_le.2 hfar, -BitVec.toNat_sub]

end DataFlit

/-! ### O30 -/

/-- Settles O30, by the equation above of each arrival and of the NAK or acknowledgement that answers it. -/
theorem dataFlitsArriveOnceAndInOrder : Obligations.DataFlitsArriveOnceAndInOrder := by
  unfold Obligations.DataFlitsArriveOnceAndInOrder
  refine ⟨?accepted, ?duplicate, ?nak, ?recent, ?notUp⟩
  case accepted =>
    intro s p f hup hok hdata hseq
    have hflit := dataFlit_of_expected hup hok hdata hseq
    by_cases hack : 32 ≤ (getPort s p).unacked + 1
    · rw [if_pos hack, sendAck_eq] at hflit
      refine ⟨_, congrArg Host.Outcome.next hflit, rfl, ?_⟩
      simp +contextual [flitAccepted, getPort_setPort_other, hack, Nat.not_lt.2 hack]
    · rw [if_neg hack] at hflit
      refine ⟨_, congrArg Host.Outcome.next hflit, rfl, ?_⟩
      simp +contextual [flitAccepted, getPort_setPort_other, hack]
  case duplicate =>
    intro s p f hup hok hdata hlow hhigh
    exact congrArg Host.Outcome.next (dataFlit_of_duplicate hup hok hdata hlow hhigh)
  case nak =>
    intro s p f hup hnak hbad
    by_cases hok : flitOk f = true
    · obtain ⟨hdata, hfar⟩ : isData f = true ∧ 32768 < ((getPort s p).expected - f.seq).toNat := by simpa [hok] using hbad
      have hflit := (dataFlit_of_loss hup hok hdata hfar).trans (sendNak_of_not_recent hnak)
      refine ⟨_, congrArg Host.Outcome.next hflit, rfl, ?_⟩
      simp +contextual [nakSent, getPort_setPort_other]
    · have hflit := (dataFlit_of_crc hup (Bool.not_eq_true _ ▸ hok)).trans
        (sendNak_of_not_recent (by simpa [crcFailed] using hnak))
      refine ⟨_, congrArg Host.Outcome.next hflit, rfl, ?_⟩
      simp +contextual [nakSent, crcFailed, getPort_setPort_other]
  case recent =>
    intro s p f at' hup hnak hrecent
    refine ⟨fun hok hdata hfar => ?_, fun hok => ?_⟩
    · exact congrArg Host.Outcome.next ((dataFlit_of_loss hup hok hdata hfar).trans (sendNak_of_recent hnak hrecent))
    · exact congrArg Host.Outcome.next ((dataFlit_of_crc hup hok).trans
        (sendNak_of_recent (at' := at') (by simpa [crcFailed] using hnak) (by simpa using hrecent)))
  case notUp =>
    intro s p f hup
    exact congrArg Host.Outcome.next (dataFlit_of_not_up hup)

end Sys2Proof.Machine

namespace Sys2Proof.Machine

/-! ### What the records of a port leave alone (R489) -/

@[simp] theorem marked_mbx (s : State) (m : LogMarks) : (s.marked m).mbx = s.mbx := rfl
@[simp] theorem marked_awn (s : State) (m : LogMarks) : (s.marked m).awn = s.awn := rfl
@[simp] theorem marked_slice (s : State) (m : LogMarks) : (s.marked m).slice = s.slice := rfl
@[simp] theorem marked_mem (s : State) (m : LogMarks) : (s.marked m).mem = s.mem := rfl
@[simp] theorem marked_out (s : State) (m : LogMarks) : (s.marked m).out = s.out := rfl
@[simp] theorem marked_getPort (s : State) (m : LogMarks) : getPort (s.marked m) = getPort s := rfl
@[simp] theorem marked_marked (s : State) (m m' : LogMarks) : (s.marked m).marked m' = s.marked m' := rfl
@[simp] theorem setPort_marked (s : State) (m : LogMarks) (p : Port) (x : TPort) : setPort (s.marked m) p x = (setPort s p x).marked m := rfl

/-- The marks that stand in a state. -/
def State.marks (s : State) : LogMarks :=
  { log := s.log, detected := s.saf.detected, fatal := s.saf.fatal, lastSeq := s.saf.lastSeq, replays := s.saf.replays,
    alert := s.bus.alert, msix := s.bus.msix }

theorem marked_marks (s : State) : s.marked s.marks = s := rfl

/-- R489: a LINK record leaves marks only. -/
theorem logLink_eq (p : Port) (lane event : Nat) (more : Bytes) (s : State) : ∃ m, logLink p lane event more s = s.marked m :=
  logEvent_eq _ _ _ _ s

/-- R489: so do the records of several lanes. -/
theorem foldl_logLink_eq (p : Port) (lanes : List Nat) (s : State) :
    ∃ m, lanes.foldl (fun s i => logLink p i 0 [] s) s = s.marked m := by
  induction lanes generalizing s with
  | nil => exact ⟨s.marks, rfl⟩
  | cons i t ih =>
    obtain ⟨m, hm⟩ := logLink_eq p i 0 [] s
    obtain ⟨m', hm'⟩ := ih (s.marked m)
    exact ⟨m', by rw [List.foldl_cons, hm, hm', marked_marked]⟩

/-! ### Lanes, RETRAIN and DOWN (R320, R332, R334, R337) -/

/-- R332: a port that has dropped lanes. -/
def lanesDropped (mask : W16) (t : TPort) : TPort :=
  { t with
    dropped := t.dropped ||| mask
    counts := { t.counts with
      lanesDropped := add48 t.counts.lanesDropped ((List.range 16).filter (fun i => mask.getLsbD i && !t.dropped.getLsbD i)).length } }

/-- R332: lanes are dropped, and their records leave marks. -/
theorem dropLanes_eq (p : Port) (mask : W16) (s : State) :
    ∃ m, dropLanes p mask s = (setPort s p (lanesDropped mask (getPort s p))).marked m :=
  foldl_logLink_eq p _ _

/-- R334: a port in RETRAIN. -/
def retraining (t : TPort) : TPort :=
  { t with state := .retrain, retried := false, counts := { t.counts with retrains := add48 t.counts.retrains 1 } }

/-- R334, R335: a port whose link carries flits enters RETRAIN, and its record leaves marks. -/
theorem enterRetrain_eq {p : Port} {s : State} (hlive : portLive (getPort s p) = true) :
    ∃ m, enterRetrain p s = (setPort s p (retraining (getPort s p))).marked m := by
  unfold enterRetrain
  dsimp only
  rw [if_pos hlive]
  exact logLink_eq _ _ _ _ _

/-- R320: a port that has gone DOWN at a tick. -/
def wentDown (now : W64) (t : TPort) : TPort := { t with state := .down, phase := .detect, detectAt := now }

/-- R320, R337: a port goes DOWN; its record leaves marks and a message to the lead can leave. -/
theorem portDown_eq {p : Port} {s : State} (h : (getPort s p).state ≠ .down) :
    ∃ m out, portDown p s = ((setPort s p (wentDown s.awn.tick (getPort s p))).marked m).withOut out := by
  unfold portDown
  dsimp only
  obtain ⟨m, hm⟩ := logLink_eq p 0xFF 2 [] (setPort s p (wentDown s.awn.tick (getPort s p)))
  rw [if_neg h]
  unfold wentDown at hm
  rw [hm]
  split
  · exact ⟨m, _, rfl⟩
  · exact ⟨m, s.out, rfl⟩

/-! ### Training (R317 to R320) -/

/-- R333: a port that has ended its lock phase: its lanes, its width and its asymmetry. -/
def lanesLocked (failed far : W16) (asym : Int) (t : TPort) : TPort :=
  { lanesDropped failed t with
    farDropped := far, width := widthOf ((t.dropped ||| failed) ||| far), lanes := lanesOf ((t.dropped ||| failed) ||| far),
    alpha := asym, phase := .flitSync }

/-- R319: a port that trains is in the phase it is in. -/
theorem inPhase_of_training {t : TPort} {ph : TrainPhase} (hstate : t.state = .training) (hphase : t.phase = ph) : inPhase t ph = true := by
  simp [inPhase, hstate, hphase]

section Training
variable {s : State} {p : Port}

/-- R319: detection ends with signal on four lanes, in training or once a DOWN port detects again. -/
theorem linkDetect_of_signal {lanes : Nat} (hlanes : 4 ≤ lanes) (hdetect :
    ((getPort s p).state = .down ∧ 1000000000 ≤ (s.awn.tick - (getPort s p).detectAt).toNat) ∨
    ((getPort s p).state = .training ∧ (getPort s p).phase = .detect)) :
    linkDetect p lanes s = setPort s p { getPort s p with state := .training, phase := .probe } := by
  have hdetecting : detecting s (getPort s p) = true := by
    unfold detecting
    obtain ⟨hstate, hwaited⟩ | ⟨hstate, hphase⟩ := hdetect
    · rw [decide_eq_true hstate, decide_eq_true hwaited, Bool.and_self, Bool.or_true]
    · rw [inPhase_of_training hstate hphase, Bool.true_or]
  simp [linkDetect, hlanes, hdetecting]

/-- R319: fewer than four lanes are no signal. -/
theorem linkDetect_of_few {lanes : Nat} (hlanes : lanes < 4) : linkDetect p lanes s = s := by
  simp [linkDetect, Nat.not_le.2 hlanes]

/-- R319: a port in detection goes DOWN after 10 ms. -/
theorem detectRetry_of_training (hstate : (getPort s p).state = .training) (hphase : (getPort s p).phase = .detect) :
    detectRetry p s = if 10000000 ≤ (s.awn.tick - (getPort s p).detectAt).toNat then portDown p s else s := by
  simp [detectRetry, inPhase_of_training hstate hphase]

/-- R319: a DOWN port detects again after 1 s. -/
theorem detectRetry_of_down (hstate : (getPort s p).state = .down) : detectRetry p s =
    if 1000000000 ≤ (s.awn.tick - (getPort s p).detectAt).toNat then setPort s p { getPort s p with detectAt := s.awn.tick } else s := by
  simp [detectRetry, inPhase, hstate, -BitVec.toNat_sub]

variable (hstate : (getPort s p).state = .training)
include hstate

/-- R317: the probe phase ends with the reach class. -/
theorem linkProbe_of_probe (hphase : (getPort s p).phase = .probe) (loss : Nat) : linkProbe p loss s =
    setPort s p { getPort s p with phase := .equalise, reach := reachClass (getPort s p).reachReq loss } := by
  simp [linkProbe, inPhase_of_training hstate hphase]

/-- R318: the equalise phase ends with the failed lanes dropped. -/
theorem linkEqualise_of_equalise (hphase : (getPort s p).phase = .equalise) (failed : W16) :
    ∃ m, linkEqualise p failed s = (setPort s p { lanesDropped failed (getPort s p) with phase := .lock }).marked m := by
  obtain ⟨m, hm⟩ := dropLanes_eq p failed s
  refine ⟨m, ?_⟩
  simp [linkEqualise, inPhase_of_training hstate hphase, hm]

/-- R333: the lock phase ends with the width that the lanes left give. -/
theorem linkLock_of_width (hphase : (getPort s p).phase = .lock) {failed far : W16} (asym : Int)
    (hwidth : widthOf (((getPort s p).dropped ||| failed) ||| far) ≠ 0) :
    ∃ m, linkLock p failed far asym s = (setPort s p (lanesLocked failed far asym (getPort s p))).marked m := by
  obtain ⟨m, hm⟩ := dropLanes_eq p failed s
  refine ⟨m, ?_⟩
  simp [linkLock, inPhase_of_training hstate hphase, hm, lanesDropped, lanesLocked, hwidth]

/-- R333: with no group of lanes left the port goes DOWN. -/
theorem linkLock_of_no_width (hphase : (getPort s p).phase = .lock) {failed far : W16} (asym : Int)
    (hwidth : widthOf (((getPort s p).dropped ||| failed) ||| far) = 0) :
    ∃ m out, linkLock p failed far asym s =
      ((setPort s p (wentDown s.awn.tick (lanesLocked failed far asym (getPort s p)))).marked m).withOut out := by
  obtain ⟨m, hm⟩ := dropLanes_eq p failed s
  obtain ⟨m', out, hdown⟩ := portDown_eq (p := p) (s := (setPort s p (lanesLocked failed far asym (getPort s p))).marked m)
    (by simp [lanesLocked, lanesDropped, hstate])
  refine ⟨m', out, ?_⟩
  simp only [marked_awn, setPort_awn, marked_getPort, getPort_setPort_self, setPort_marked, setPort_setPort, marked_marked] at hdown
  rw [← hdown]
  simp [linkLock, inPhase_of_training hstate hphase, hm, lanesDropped, lanesLocked, hwidth]

/-- R319, R322: flit sync ends with a fresh link, and an IDENT leaves once the module knows its coordinates. -/
theorem linkFlitSync_of_flitSync (hphase : (getPort s p).phase = .flitSync) : linkFlitSync p s =
    (setPort s p { freshLink (getPort s p) with state := .unverified }).withOut
      (s.out ++ if s.slice.coords.isSome then [identOut s p] else []) := by
  unfold linkFlitSync
  dsimp only
  rw [if_pos (inPhase_of_training hstate hphase)]
  split
  · next hcoords =>
    rw [setPort_slice] at hcoords
    rw [if_pos hcoords]
    rfl
  · next hcoords =>
    rw [setPort_slice] at hcoords
    rw [if_neg hcoords, List.append_nil]
    rfl

end Training

/-! ### Identity (R321, R322) -/

section Identity
variable {s : State} {p : Port} {i : Ident}

/-- R320: on a port whose link carries no flits an IDENT does nothing. -/
theorem identFlit_of_not_live (hlive : portLive (getPort s p) = false) : identFlit p i s = s := by
  simp [identFlit, hlive]

variable (hlive : portLive (getPort s p) = true)
include hlive

/-- R324: an IDENT that fails its CRC is counted. -/
theorem identFlit_of_crc (hok : identOk i = false) : identFlit p i s = setPort s p (crcFailed (getPort s p)) := by
  simp [identFlit, hlive, hok, crcFailed]

variable (hok : identOk i = true)
include hok

/-- R321: before both ends know their coordinates an IDENT is kept. -/
theorem identFlit_of_unassigned (h : s.slice.coords = none ∨ i.assigned = false) :
    identFlit p i s = setPort s p { getPort s p with farIdent := some i } := by
  have hkept : (s.slice.coords.isNone || !i.assigned) = true := by simpa using h
  simp [identFlit, hlive, hok, hkept]

variable (hcoords : s.slice.coords.isSome = true) (hassigned : i.assigned = true)
include hcoords hassigned

/-- R321: an IDENT that fits puts the port UP. -/
theorem identFlit_of_fit (hfits : identFits s p i = true) :
    identFlit p i s = setPort s p { getPort s p with farIdent := some i, state := .up } := by
  have hnone : s.slice.coords.isNone = false := by simpa using hcoords
  have hfits' : identFits (setPort s p { getPort s p with farIdent := some i }) p i = true := hfits
  simp [identFlit, hlive, hok, hnone, hassigned, hfits']

/-- R321: one that does not fit finds the port miswired, with one LINK record of both IDENTs. -/
theorem identFlit_of_misfit (hfits : identFits s p i = false) (hstate : (getPort s p).state ≠ .miswired) :
    identFlit p i s = logLink p 0xFF 3 (ownIdentBytes s p ++ farIdentBytes i)
      (setPort s p { getPort s p with farIdent := some i, state := .miswired }) := by
  have hnone : s.slice.coords.isNone = false := by simpa using hcoords
  have hfits' : identFits (setPort s p { getPort s p with farIdent := some i }) p i = false := hfits
  have hown : ownIdentBytes (setPort s p { getPort s p with farIdent := some i }) p = ownIdentBytes s p := by
    simp [ownIdentBytes]
  simp [identFlit, hlive, hok, hnone, hassigned, hfits', hstate, hown]

end Identity

/-- R339: the six ports are all the ports. -/
theorem mem_allPorts (p : Port) : p ∈ allPorts := by cases p <;> decide

/-! ### O29 -/

/-- Settles O29, by the equation above of each phase that ends and of each IDENT. -/
theorem linksTrainAndVerify : Obligations.LinksTrainAndVerify := by
  unfold Obligations.LinksTrainAndVerify
  refine ⟨⟨?detect, ?few, ?retry, ?retryDown, ?probe, ?equalise, ?lock, ?flitSync⟩, ?fits, ?misfits, ?unassigned, ?crc, ?notLive, ?timer⟩
  case detect =>
    intro s p lanes hlanes hdetect
    exact congrArg Host.Outcome.next (linkDetect_of_signal hlanes hdetect)
  case few =>
    intro s p lanes hlanes
    exact congrArg Host.Outcome.next (linkDetect_of_few hlanes)
  case retry =>
    intro s p hstate hphase
    have hretry := detectRetry_of_training hstate hphase
    refine ⟨fun hearly => congrArg Host.Outcome.next (hretry.trans (if_neg (Nat.not_le.2 hearly))), fun hlate => ?_⟩
    obtain ⟨m, out, hdown⟩ := portDown_eq (p := p) (s := s) (by simp [hstate])
    refine ⟨_, congrArg Host.Outcome.next (hretry.trans ((if_pos hlate).trans hdown)), rfl, ?_⟩
    simp +contextual [wentDown, hphase, getPort_setPort_other]
  case retryDown =>
    intro s p hstate
    exact congrArg Host.Outcome.next (detectRetry_of_down hstate)
  case probe =>
    intro s p loss hstate hphase
    exact congrArg Host.Outcome.next (linkProbe_of_probe hstate hphase loss)
  case equalise =>
    intro s p failed hstate hphase
    obtain ⟨m, h⟩ := linkEqualise_of_equalise hstate hphase failed
    refine ⟨_, congrArg Host.Outcome.next h, rfl, ?_⟩
    simp +contextual [lanesDropped, hstate, getPort_setPort_other]
  case lock =>
    intro s p failed far asym hstate hphase
    by_cases hwidth : widthOf (((getPort s p).dropped ||| failed) ||| far) = 0
    · obtain ⟨m, out, h⟩ := linkLock_of_no_width hstate hphase asym hwidth
      refine ⟨_, congrArg Host.Outcome.next h, rfl, ?_⟩
      simp +contextual [wentDown, lanesLocked, lanesDropped, hwidth, getPort_setPort_other]
    · obtain ⟨m, h⟩ := linkLock_of_width hstate hphase asym hwidth
      refine ⟨_, congrArg Host.Outcome.next h, rfl, ?_⟩
      simp +contextual [lanesLocked, lanesDropped, hstate, hwidth, getPort_setPort_other]
  case flitSync =>
    intro s p hstate hphase
    refine ⟨_, congrArg Host.Outcome.next (linkFlitSync_of_flitSync hstate hphase), rfl, ?_⟩
    simp +contextual [freshLink, getPort_setPort_other]
  case fits =>
    intro s p i hlive hok hcoords hassigned hlens hfar
    have hfits : identFits s p i = true := by simp [identFits, hlens, hfar]
    exact congrArg Host.Outcome.next (identFlit_of_fit hlive hok hcoords hassigned hfits)
  case misfits =>
    intro s p i hlive hok hstate hcoords hassigned hfits
    refine ⟨_, congrArg Host.Outcome.next (identFlit_of_misfit hlive hok hcoords hassigned hfits hstate), rfl, ?_⟩
    obtain ⟨m, hm⟩ := logLink_eq p 0xFF 3 (ownIdentBytes s p ++ farIdentBytes i)
      (setPort s p { getPort s p with farIdent := some i, state := .miswired })
    rw [hm]
    simp +contextual [getPort_setPort_other]
  case unassigned =>
    intro s p i hlive hok h
    exact congrArg Host.Outcome.next (identFlit_of_unassigned hlive hok h)
  case crc =>
    intro s p i hlive hok
    exact congrArg Host.Outcome.next (identFlit_of_crc hlive hok)
  case notLive =>
    intro s p i hlive
    exact congrArg Host.Outcome.next (identFlit_of_not_live hlive)
  case timer =>
    intro s
    refine ⟨sendIdents s, rfl, rfl, fun p hlive => ?_⟩
    exact List.mem_append_right _ (List.mem_map_of_mem (List.mem_filter.2 ⟨mem_allPorts p, hlive⟩))

end Sys2Proof.Machine

namespace Sys2Proof.Machine

/-! ### Waiting packets (R340, R341) -/

/-- R341: an output that no packet waits for serves none. -/
theorem servePort_of_no_waiting {s : State} {p : Port} (h : (getPort s p).waiting = []) : servePort p s = s := by
  unfold servePort
  rw [h]
  rfl

/-! ### Sending again (R329, R331) -/

/-- A state that differs in a port and its messages differs from another in no part beyond those that the links change. -/
theorem linkFrame_of_setPort {s t : State} {p : Port} {x : TPort} {out : List Out} (h : t = (setPort s p x).withOut out) :
    t = ((((s.withBus t.bus).withLog t.log).withOut t.out).withPorts t.ports).withSaf t.saf := by
  subst h
  cases s
  rfl

/-- R330: a held flit that leaves again at a tick. -/
def sentAgain (now : W64) (f : HeldFlit) : HeldFlit := { f with sentAt := now, sends := f.sends + 1 }

/-- R329, R331: a port whose held flits that `sel` names have left again. -/
def resent (now : W64) (sel : HeldFlit → Bool) (t : TPort) : TPort :=
  { t with
    replay := t.replay.map (fun f => if sel f then sentAgain now f else f)
    counts := { t.counts with replayed := add48 t.counts.replayed (t.replay.filter sel).length } }

/-- R329, R331: the held flits that `sel` names leave again in order. -/
theorem resend_setPort (p : Port) (sel : HeldFlit → Bool) (t : TPort) (s : State) : resend p sel (setPort s p t) =
    (setPort s p (resent s.awn.tick sel t)).withOut (s.out ++ (t.replay.filter sel).map (fun f => Out.flit p f.flit)) := by
  unfold resend emits
  simp [resent, sentAgain]

/-- R330: sending again changes no held flit. -/
theorem resent_flits (now : W64) (sel : HeldFlit → Bool) (t : TPort) :
    (resent now sel t).replay.map HeldFlit.flit = t.replay.map HeldFlit.flit := by
  simp only [resent, List.map_map]
  refine List.map_congr_left fun f _ => ?_
  dsimp only [Function.comp_apply]
  split <;> rfl

/-- R331: sending all held flits again marks each of them. -/
theorem resent_all_replay (now : W64) (t : TPort) : (resent now (fun _ => true) t).replay = t.replay.map (sentAgain now) := by
  simp [resent]

@[simp] theorem resent_waiting (now : W64) (sel : HeldFlit → Bool) (t : TPort) : (resent now sel t).waiting = t.waiting := rfl
@[simp] theorem takeCredits_waiting (freed : List W16) (t : TPort) : (takeCredits freed t).waiting = t.waiting := rfl
@[simp] theorem takeCredits_replay (freed : List W16) (t : TPort) : (takeCredits freed t).replay = t.replay := rfl

section Control
variable {s : State} {p : Port} {c : ControlFlit} (hlive : portLive (getPort s p) = true)
include hlive

/-- R324: a CONTROL flit that fails its CRC is counted. -/
theorem controlFlit_of_crc (hok : controlOk c = false) : controlFlit p c s = setPort s p (crcFailed (getPort s p)) := by
  simp [controlFlit, hlive, hok, crcFailed]

variable (hok : controlOk c = true)
include hok

/-- R327, R329: an acknowledgement returns credits and frees what it covers; the output then serves what it can. -/
theorem controlFlit_of_ack (hnak : c.nak = false) : controlFlit p c s =
    servePort p (setPort s p { takeCredits c.freed (getPort s p) with replay := freeAcked c.ackSeq (getPort s p).replay }) := by
  simp [controlFlit, hlive, hok, hnak, takeCredits]

/-- R327, R329: a NAK returns credits and has the held flits from its number on leave again. -/
theorem controlFlit_of_nak (hnak : c.nak = true) : controlFlit p c s =
    servePort p (resend p (heldFrom c.ackSeq) (setPort s p (takeCredits c.freed (getPort s p)))) := by
  simp [controlFlit, hlive, hok, hnak]

end Control

section Timeout
variable {s : State} {p : Port} {f : HeldFlit} {r : List HeldFlit} (hup : (getPort s p).state = .up)
  (hheld : (getPort s p).replay = f :: r) (hlate : 4000 ≤ (s.awn.tick - f.sentAt).toNat)
include hup hheld hlate

/-- R331: a held flit unacknowledged for 4 µs has all held flits leave again. -/
theorem replayTimeout_of_few_sends (hsends : f.sends < 16) : replayTimeout p s =
    resend p (fun _ => true) (setPort s p { getPort s p with
      counts := { (getPort s p).counts with replayTimeouts := add48 (getPort s p).counts.replayTimeouts 1 } }) := by
  unfold replayTimeout
  dsimp only
  rw [hheld]
  dsimp only
  rw [if_neg (by simp [hup, Nat.not_lt.2 hlate, -BitVec.toNat_sub]), if_neg (Nat.not_le.2 hsends)]

/-- R331: after sixteen sends the port enters RETRAIN. -/
theorem replayTimeout_of_many_sends (hsends : 16 ≤ f.sends) : replayTimeout p s = enterRetrain p s := by
  unfold replayTimeout
  dsimp only
  rw [hheld]
  dsimp only
  rw [if_neg (by simp [hup, Nat.not_lt.2 hlate, -BitVec.toNat_sub]), if_pos hsends]

end Timeout

/-! ### Lane errors and RETRAIN (R332 to R335) -/

/-- R332: lanes that are dropped already are not lost again. -/
theorem loseLanes_of_none {p : Port} {mask : W16} {s : State} (h : mask &&& ~~~(getPort s p).dropped = 0) : loseLanes p mask s = s :=
  if_pos h

/-- R332, R334: lanes that are lost are dropped, and the port enters RETRAIN. -/
theorem loseLanes_of_some {p : Port} {mask : W16} {s : State} (hlive : portLive (getPort s p) = true)
    (h : mask &&& ~~~(getPort s p).dropped ≠ 0) : ∃ m, loseLanes p mask s =
      (setPort s p (retraining (lanesDropped (mask &&& ~~~(getPort s p).dropped) (getPort s p)))).marked m := by
  obtain ⟨m, hdrop⟩ := dropLanes_eq p (mask &&& ~~~(getPort s p).dropped) s
  obtain ⟨m', hretrain⟩ := enterRetrain_eq (p := p)
    (s := (setPort s p (lanesDropped (mask &&& ~~~(getPort s p).dropped) (getPort s p))).marked m)
    (by simpa [lanesDropped, portLive] using hlive)
  refine ⟨m', (if_neg h).trans ?_⟩
  rw [hdrop, hretrain]
  simp

/-- R332: a window of lane errors is counted, and the lanes over budget are lost. -/
theorem laneWindow_of_live {p : Port} {s : State} (hlive : portLive (getPort s p) = true) (errors : List (Nat × Nat)) :
    laneWindow p errors s = loseLanes p (overBudget errors) (setPort s p (addFec (getPort s p) errors)) := by
  simp [laneWindow, hlive]

/-- R332: a lane's own bit is not among no lanes. -/
theorem lane_ne_zero (lane : Fin 16) : (1 : W16) <<< lane.val ≠ 0 := by
  revert lane
  decide

/-- R333, R334: a port that is back from RETRAIN. -/
def cameBack (far : W16) (state : PortState) (t : TPort) : TPort :=
  { t with state := state, farDropped := far, width := widthOf (t.dropped ||| far), lanes := lanesOf (t.dropped ||| far), retried := false }

/-- R333, R334: a port that has no lanes left. -/
def lanesGone (far : W16) (t : TPort) : TPort := { t with farDropped := far, width := 0, lanes := 0 }

section Retrain
variable {s : State} {p : Port} (hstate : (getPort s p).state = .retrain)
include hstate

/-- R334: with lanes left a port whose IDENT fits is UP again and sends its held flits again. -/
theorem retrain_of_fit {far : W16} {i : Ident} (hfar : (getPort s p).farIdent = some i) (hassigned : i.assigned = true)
    (hcoords : s.slice.coords.isSome = true) (hfits : identFits s p i = true)
    (hwidth : widthOf ((getPort s p).dropped ||| far) ≠ 0) : retrain p far s =
    servePort p (if (getPort s p).replay = [] then setPort s p (cameBack far .up (getPort s p))
      else resend p (fun _ => true) (setPort s p (cameBack far .up (getPort s p)))) := by
  simp [retrain, hstate, hwidth, hfar, hcoords, hassigned, hfits, cameBack]

/-- R333, R334: with no width left the port goes DOWN. -/
theorem retrain_of_no_width {far : W16} (hwidth : widthOf ((getPort s p).dropped ||| far) = 0) :
    ∃ m out, retrain p far s = ((setPort s p (wentDown s.awn.tick (lanesGone far (getPort s p)))).marked m).withOut out := by
  obtain ⟨m, out, hdown⟩ := portDown_eq (p := p) (s := setPort s p (lanesGone far (getPort s p))) (by simp [lanesGone, hstate])
  refine ⟨m, out, ?_⟩
  rw [setPort_awn, getPort_setPort_self, setPort_setPort] at hdown
  rw [← hdown]
  simp [retrain, hstate, hwidth, lanesGone]

/-- R335: a second failed RETRAIN takes the port DOWN. -/
theorem retrainFail_of_retried (failed : W16) (hretried : (getPort s p).retried = true) : ∃ m out, retrainFail p failed s =
    ((setPort s p (wentDown s.awn.tick (lanesDropped failed (getPort s p)))).marked m).withOut out := by
  obtain ⟨m, hdrop⟩ := dropLanes_eq p failed s
  obtain ⟨m', out, hdown⟩ := portDown_eq (p := p) (s := (setPort s p (lanesDropped failed (getPort s p))).marked m)
    (by simp [lanesDropped, hstate])
  refine ⟨m', out, ?_⟩
  simp only [marked_awn, setPort_awn, marked_getPort, getPort_setPort_self, setPort_marked, setPort_setPort, marked_marked] at hdown
  rw [← hdown]
  simp [retrainFail, hstate, hretried, hdrop]

/-- R335: the first failed RETRAIN is retried at the width left. -/
theorem retrainFail_of_first {failed : W16} (hretried : (getPort s p).retried = false)
    (hwidth : widthOf (((getPort s p).dropped ||| failed) ||| (getPort s p).farDropped) ≠ 0) : ∃ m, retrainFail p failed s =
    (setPort s p { lanesDropped failed (getPort s p) with retried := true }).marked m := by
  obtain ⟨m, hdrop⟩ := dropLanes_eq p failed s
  refine ⟨m, ?_⟩
  simp [retrainFail, hstate, hretried, hdrop, lanesDropped, hwidth]

end Retrain

/-! ### O31 -/

/-- Settles O31, by the equation above of each CONTROL flit, timeout, loss of lanes and end of a RETRAIN. -/
theorem acknowledgementsAndRetrainsKeepTheLink : Obligations.AcknowledgementsAndRetrainsKeepTheLink := by
  unfold Obligations.AcknowledgementsAndRetrainsKeepTheLink
  refine ⟨⟨?ack, ?nak, ?crc, ?ackTimer, ?timeout, ?sixteen⟩, ?inBudget, ?overBudget, ?lockLoss, ?back, ?noWidth, ?failed⟩
  case ack =>
    intro s p c hlive hok hnak
    have hack := controlFlit_of_ack hlive hok hnak
    refine ⟨congrArg Host.Outcome.next hack, fun hwaiting => congrArg Host.Outcome.next (hack.trans ?_)⟩
    exact servePort_of_no_waiting (by simpa using hwaiting)
  case nak =>
    intro s p c hlive hok hnak hwaiting
    have hresend := controlFlit_of_nak hlive hok hnak
    rw [resend_setPort, servePort_of_no_waiting (by simpa using hwaiting)] at hresend
    refine ⟨_, congrArg Host.Outcome.next hresend, rfl, ?_⟩
    simp +contextual [resent_flits, getPort_setPort_other]
  case crc =>
    intro s p c hlive hok
    exact congrArg Host.Outcome.next (controlFlit_of_crc hlive hok)
  case ackTimer =>
    intro s p hlive
    refine ⟨_, congrArg Host.Outcome.next ((if_pos hlive).trans (sendAck_eq p s)), rfl, ?_⟩
    simp
  case timeout =>
    intro s p f r hup hheld hlate hsends
    have hresend := replayTimeout_of_few_sends hup hheld hlate hsends
    rw [resend_setPort] at hresend
    refine ⟨_, congrArg Host.Outcome.next hresend, linkFrame_of_setPort rfl, ?_⟩
    simp [resent, sentAgain, hup]
  case sixteen =>
    intro s p f r hup hheld hlate hsends
    obtain ⟨m, hretrain⟩ := enterRetrain_eq (p := p) (s := s) (by simp [portLive, hup])
    refine ⟨_, congrArg Host.Outcome.next ((replayTimeout_of_many_sends hup hheld hlate hsends).trans hretrain), rfl, ?_⟩
    simp [retraining]
  case inBudget =>
    intro s p errors hlive hbudget
    refine congrArg Host.Outcome.next ((laneWindow_of_live hlive errors).trans (loseLanes_of_none ?_))
    simpa [addFec] using hbudget
  case overBudget =>
    intro s p errors hlive hbudget
    obtain ⟨m, hlose⟩ := loseLanes_of_some (p := p) (mask := overBudget errors) (s := setPort s p (addFec (getPort s p) errors))
      (by simpa [addFec, portLive] using hlive) (by simpa [addFec] using hbudget)
    refine ⟨_, congrArg Host.Outcome.next ((laneWindow_of_live hlive errors).trans hlose), rfl, ?_⟩
    simp +contextual [retraining, lanesDropped, addFec, getPort_setPort_other]
  case lockLoss =>
    intro s p lane hlive hdropped
    have hmask : (1 : W16) <<< lane.val &&& ~~~(getPort s p).dropped = (1 : W16) <<< lane.val := by
      rw [hdropped, show ~~~(0 : W16) = BitVec.allOnes 16 by decide, BitVec.and_allOnes]
    obtain ⟨m, hlose⟩ := loseLanes_of_some (mask := (1 : W16) <<< lane.val) hlive (by rw [hmask]; exact lane_ne_zero lane)
    rw [hmask] at hlose
    refine ⟨_, congrArg Host.Outcome.next ((if_pos hlive).trans hlose), rfl, ?_⟩
    simp [retraining, lanesDropped, hdropped]
  case back =>
    intro s p far i hstate hfar hassigned hcoords hfits hwaiting hwidth
    have hback := retrain_of_fit hstate hfar hassigned hcoords hfits hwidth
    by_cases hheld : (getPort s p).replay = []
    · rw [if_pos hheld, servePort_of_no_waiting (by simpa [cameBack] using hwaiting)] at hback
      refine ⟨_, congrArg Host.Outcome.next hback, linkFrame_of_setPort (withOut_self _).symm, ?_⟩
      simp [cameBack, hheld]
    · rw [if_neg hheld, resend_setPort, servePort_of_no_waiting (by simpa [cameBack] using hwaiting)] at hback
      refine ⟨_, congrArg Host.Outcome.next hback, linkFrame_of_setPort rfl, ?_⟩
      simp [resent, cameBack]
  case noWidth =>
    intro s p far hstate hwidth
    obtain ⟨m, out, hdown⟩ := retrain_of_no_width hstate hwidth
    refine ⟨_, congrArg Host.Outcome.next hdown, rfl, ?_⟩
    simp [wentDown]
  case failed =>
    intro s p failed hstate
    refine ⟨fun hretried => ?_, fun hretried hwidth => ?_⟩
    · obtain ⟨m, out, hdown⟩ := retrainFail_of_retried hstate failed hretried
      refine ⟨_, congrArg Host.Outcome.next hdown, rfl, ?_⟩
      simp [wentDown, lanesDropped]
    · obtain ⟨m, hretry⟩ := retrainFail_of_first hstate hretried hwidth
      refine ⟨_, congrArg Host.Outcome.next hretry, rfl, ?_⟩
      simp [lanesDropped, hstate]

end Sys2Proof.Machine

namespace Sys2Proof.Machine

/-! ### The hop of a packet (R338) -/

/-- R338: on a whole ring the hop goes the shorter way, the positive one on a tie. -/
theorem axisHop_of_ring {pos neg : Port} {cur dest ext len : Nat} (rel : Nat → Nat) (h : cur ≠ dest) (hring : ext = len) :
    axisHop pos neg cur dest ext len rel = some (if 2 * ((dest + len - cur) % len) ≤ len then (pos, decide (cur + 1 = len))
      else (neg, decide (cur = 0))) := by
  unfold axisHop
  rw [if_neg h, if_pos hring]
  dsimp only
  split <;> rfl

/-- R338: on a part of an axis the hop goes towards the destination and crosses no wrap link. -/
theorem axisHop_of_part {pos neg : Port} {cur dest ext len : Nat} (rel : Nat → Nat) (h : cur ≠ dest) (hpart : ext ≠ len) :
    axisHop pos neg cur dest ext len rel = some (if rel cur < rel dest then pos else neg, false) := by
  unfold axisHop
  rw [if_neg h, if_neg hpart]
  split <;> rfl

/-- R338: away from the destination an axis gives a hop on one of its two ports. -/
theorem axisHop_port {pos neg : Port} {cur dest ext len : Nat} {rel : Nat → Nat} (h : cur ≠ dest) :
    ∃ wrap, axisHop pos neg cur dest ext len rel = some (pos, wrap) ∨ axisHop pos neg cur dest ext len rel = some (neg, wrap) := by
  by_cases hring : ext = len
  · rw [axisHop_of_ring rel h hring]
    split
    · exact ⟨_, .inl rfl⟩
    · exact ⟨_, .inr rfl⟩
  · rw [axisHop_of_part rel h hring]
    split
    · exact ⟨_, .inl rfl⟩
    · exact ⟨_, .inr rfl⟩

/-- R338: an axis gives no hop exactly when the packet is there. -/
theorem axisHop_eq_none_iff {pos neg : Port} {cur dest ext len : Nat} {rel : Nat → Nat} :
    axisHop pos neg cur dest ext len rel = none ↔ cur = dest := by
  refine ⟨fun hnone => ?_, fun h => if_pos h⟩
  by_contra h
  obtain ⟨wrap, hhop | hhop⟩ := axisHop_port (pos := pos) (neg := neg) (ext := ext) (len := len) (rel := rel) h
  · exact Option.some_ne_none _ (hhop.symm.trans hnone)
  · exact Option.some_ne_none _ (hhop.symm.trans hnone)

section RouteHop
variable {s : State} {x y z : Nat} {pkt : Packet} (hcoords : s.slice.coords = some (x, y, z))
include hcoords

/-- R338: a hop along x goes first. -/
theorem routeHop_of_x {hop : Port × Bool}
    (h : axisHop .px .nx x pkt.destX s.slice.extent.1 s.slice.lens.1 (fun c => relCoord c s.slice.origin.1 s.slice.lens.1) = some hop) :
    routeHop s pkt = some hop := by
  simp [routeHop, hcoords, h]

/-- R338: with x agreed a hop along y goes next. -/
theorem routeHop_of_y (hx : x = pkt.destX) {hop : Port × Bool} (h : axisHop .py .ny y pkt.destY s.slice.extent.2.1 s.slice.lens.2.1
      (fun c => relCoord c s.slice.origin.2.1 s.slice.lens.2.1) = some hop) : routeHop s pkt = some hop := by
  simp [routeHop, hcoords, axisHop_eq_none_iff.2 hx, h]

/-- R338: with x and y agreed the hop is along z. -/
theorem routeHop_of_z (hx : x = pkt.destX) (hy : y = pkt.destY) : routeHop s pkt =
    axisHop .pz .nz z pkt.destZ s.slice.extent.2.2 s.slice.lens.2.2 (fun c => relCoord c s.slice.origin.2.2 s.slice.lens.2.2) := by
  simp [routeHop, hcoords, axisHop_eq_none_iff.2 hx, axisHop_eq_none_iff.2 hy]

/-- R338: there is no hop exactly at the destination. -/
theorem routeHop_eq_none_iff : routeHop s pkt = none ↔ x = pkt.destX ∧ y = pkt.destY ∧ z = pkt.destZ := by
  by_cases hx : x = pkt.destX
  · by_cases hy : y = pkt.destY
    · rw [routeHop_of_z hcoords hx hy, axisHop_eq_none_iff]
      simp [hx, hy]
    · obtain ⟨wrap, h | h⟩ := axisHop_port (pos := .py) (neg := .ny) (ext := s.slice.extent.2.1) (len := s.slice.lens.2.1)
        (rel := fun c => relCoord c s.slice.origin.2.1 s.slice.lens.2.1) hy
      · simp [routeHop_of_y hcoords hx h, hy]
      · simp [routeHop_of_y hcoords hx h, hy]
  · obtain ⟨wrap, h | h⟩ := axisHop_port (pos := .px) (neg := .nx) (ext := s.slice.extent.1) (len := s.slice.lens.1)
      (rel := fun c => relCoord c s.slice.origin.1 s.slice.lens.1) hx
    · simp [routeHop_of_x hcoords h, hx]
    · simp [routeHop_of_x hcoords h, hx]

end RouteHop

@[simp] theorem routeHop_setPort (s : State) (p : Port) (t : TPort) : routeHop (setPort s p t) = routeHop s := rfl
@[simp] theorem packetVc_setPort (s : State) (p q : Port) (t : TPort) : packetVc (setPort s p t) q = packetVc s q := rfl

/-! ### What an output serves (R341, R342) -/

/-- R341, R342: the packet served next waits there, leads its input and can be taken, and is PRIO when such a packet is. -/
theorem nextServed_eq_some {s : State} {p : Port} {x : Option Port × Packet} (h : nextServed s p = some x) :
    (x ∈ (getPort s p).waiting ∧ leadsInput (getPort s p) x = true ∧ outputTakes s p x = true) ∧
    ∀ y ∈ (getPort s p).waiting, leadsInput (getPort s p) y = true → outputTakes s p y = true → y.2.cls = 4 → x.2.cls = 4 := by
  unfold nextServed at h
  dsimp only at h
  split at h
  · next hprio =>
    have hx := (sortBy_perm _ _).mem_iff.1 (List.mem_of_mem_head? h)
    refine ⟨by simpa using hx, fun y hy hlead htakes hcls => ?_⟩
    have hnone := List.filter_eq_nil_iff.1 hprio y (by simp [hy, hlead, htakes])
    simp [hcls] at hnone
  · have hx := (sortBy_perm _ _).mem_iff.1 (List.mem_of_mem_head? h)
    simp only [List.mem_filter, Bool.and_eq_true, decide_eq_true_eq] at hx
    exact ⟨hx.1, fun _ _ _ _ _ => hx.2⟩

/-- R341: a port that has served a waiting packet. -/
def servedPacket (x : Option Port × Packet) (t : TPort) : TPort :=
  let u := { t with waiting := t.waiting.erase x }
  if x.2.cls = 4 then { u with lastPrio := inputIx x.1 } else { u with lastBulk := inputIx x.1 }

/-- R340: what waits for an output does not decide whether it takes a packet. -/
theorem outputTakes_setPort_waiting (s : State) (p : Port) (l : List (Option Port × Packet)) (x : Option Port × Packet) :
    outputTakes (setPort s p { getPort s p with waiting := l }) p x = outputTakes s p x := by
  simp [outputTakes, outputOpen, carriesSlice]

section SinglePacket
variable {s : State} {p : Port} {x : Option Port × Packet} (hwaiting : (getPort s p).waiting = [x])
include hwaiting

/-- R341: an output that cannot take its only waiting packet serves none. -/
theorem servePort_of_single_refused (htakes : outputTakes s p x = false) : servePort p s = s := by
  have hnone : nextServed s p = none := by
    cases h : nextServed s p with
    | none => rfl
    | some y =>
      obtain ⟨⟨hy, -, hyTakes⟩, -⟩ := nextServed_eq_some h
      rw [hwaiting, List.mem_singleton] at hy
      exact absurd (htakes.symm.trans (hy ▸ hyTakes)) Bool.false_ne_true
  unfold servePort
  rw [hwaiting]
  show serveOutput 1 p s = s
  unfold serveOutput
  rw [hnone]

/-- R341: an output serves its only waiting packet when it can take it. -/
theorem nextServed_of_single (htakes : outputTakes s p x = true) : nextServed s p = some x := by
  have hlead : leadsInput (getPort s p) x = true := by simp [leadsInput, hwaiting]
  unfold nextServed
  dsimp only
  rw [hwaiting]
  by_cases hcls : x.2.cls = 4 <;> simp [hlead, htakes, hcls, sortBy, insertBy]

/-- R340, R341: an output that can take its only waiting packet sends it. -/
theorem servePort_of_single (htakes : outputTakes s p x = true) : servePort p s =
    sendPacket p (packetVc s p x) x.2 (freeInput x.1 x.2 (setPort s p (servedPacket x (getPort s p)))) := by
  unfold servePort
  rw [hwaiting]
  show serveOutput 1 p s = _
  unfold serveOutput
  rw [nextServed_of_single hwaiting htakes]
  rfl

end SinglePacket

@[simp] theorem servedPacket_txNext (x : Option Port × Packet) (t : TPort) : (servedPacket x t).txNext = t.txNext := by
  unfold servedPacket
  split <;> rfl

@[simp] theorem servedPacket_replay (x : Option Port × Packet) (t : TPort) : (servedPacket x t).replay = t.replay := by
  unfold servedPacket
  split <;> rfl

/-! ### A packet leaves (R330, R340) -/

/-- R330: the flits of a packet on a virtual channel of a port. -/
def packetFlits (vc : VC) (pkt : Packet) (t : TPort) : List Flit := (List.range pkt.flits).map (packetFlit pkt vc t.txNext)

/-- R330, R340: a port that has sent a packet at a tick. -/
def sentPacket (now : W64) (vc : VC) (pkt : Packet) (t : TPort) : TPort :=
  { t with
    txNext := t.txNext + BitVec.ofNat 16 pkt.flits
    replay := t.replay ++ (packetFlits vc pkt t).map (fun f => { flit := f, sentAt := now, sends := 1 })
    credits := t.credits.set (vcIx vc) (t.credits[vcIx vc] - pkt.flits) }

/-- R330, R340: the flits of a packet leave and are held. -/
theorem sendPacket_setPort (p : Port) (vc : VC) (pkt : Packet) (t : TPort) (s : State) : sendPacket p vc pkt (setPort s p t) =
    (setPort s p (sentPacket s.awn.tick vc pkt t)).withOut (s.out ++ (packetFlits vc pkt t).map (Out.flit p)) := by
  unfold sendPacket emits
  simp [sentPacket, packetFlits]

/-! ### PACKET_FORWARD (R326, R338, R340) -/

/-- R340: the port of a packet's input when its slots are freed and it is counted discarded. -/
theorem discard_eq (q : Port) (pkt : Packet) (s : State) : ∃ rx freed,
    setPort (freeInput (some q) pkt s) q { getPort (freeInput (some q) pkt s) q with
        counts := { (getPort (freeInput (some q) pkt s) q).counts with
          discarded := add48 (getPort (freeInput (some q) pkt s) q).counts.discarded 1 } } =
      setPort s q { getPort s q with
        rx := rx, freed := freed
        counts := { (getPort s q).counts with discarded := add48 (getPort s q).counts.discarded 1 } } := by
  unfold freeInput
  dsimp only
  rw [setPort_setPort, getPort_setPort_self]
  exact ⟨_, _, rfl⟩

section Forward
variable {s : State} {pkt : Packet}

/-- R325: a packet that is not at the head of its input stays there. -/
theorem packetForward_of_not_atInput {q : Port} (h : atInput s q pkt = false) : packetForward (some q) pkt s = s := by
  simp [packetForward, h]

/-- R326: a bad packet of the module is dropped. -/
theorem packetForward_of_bad_own (hbad : badPacket s pkt = true) : packetForward none pkt s = s := by
  simp [packetForward, hbad, freeInput]

/-- R326: a bad packet of a port is counted there. -/
theorem packetForward_of_bad_port {q : Port} (hat : atInput s q pkt = true) (hbad : badPacket s pkt = true) : ∃ rx freed,
    packetForward (some q) pkt s = setPort s q { getPort s q with
      rx := rx, freed := freed
      counts := { (getPort s q).counts with discarded := add48 (getPort s q).counts.discarded 1 } } := by
  obtain ⟨rx, freed, h⟩ := discard_eq q pkt s
  refine ⟨rx, freed, ?_⟩
  rw [← h]
  simp [packetForward, hat, hbad]

/-- R338: a packet at its destination is delivered. -/
theorem packetForward_of_here (hbad : badPacket s pkt = false) (hhop : routeHop s pkt = none) :
    packetForward none pkt s = ringPacket pkt (emit (.hallPacket pkt) s) := by
  simp [packetForward, hbad, hhop, freeInput]

/-- R338, R341: any other packet waits for its output, which serves what it can. -/
theorem packetForward_of_hop {q : Option Port} {p : Port} {wrap : Bool} (hat : q.all (atInput s · pkt) = true)
    (hbad : badPacket s pkt = false) (hhop : routeHop s pkt = some (p, wrap)) :
    packetForward q pkt s = servePort p (setPort s p { getPort s p with waiting := (getPort s p).waiting ++ [(q, pkt)] }) := by
  have hhead : q.any (fun q => !atInput s q pkt) = false := by
    cases q with
    | none => rfl
    | some q => simpa using hat
  simp [packetForward, hhead, hbad, hhop]

/-- A state that differs in a port and its messages differs from another in no part beyond those that a router changes. -/
theorem routerFrame_of_setPort {t : State} {p : Port} {x : TPort} {out : List Out} (h : t = (setPort s p x).withOut out) :
    t = ((s.withOut t.out).withPorts t.ports).withStep t.step := by
  subst h
  cases s
  rfl

end Forward

/-! ### O32 -/

/-- Settles O32, by the equations above of a hop, of what an output serves and of each way a packet goes. -/
theorem packetsGoInDimensionOrder : Obligations.PacketsGoInDimensionOrder := by
  unfold Obligations.PacketsGoInDimensionOrder
  refine ⟨?here, ?leaves, ?notHead, ?closed, ?served, ?badOwn, ?badPort, ?alongX, ?alongY, ?arrived⟩
  case here =>
    intro s pkt hbad hhop
    exact congrArg Host.Outcome.next (packetForward_of_here hbad hhop)
  case leaves =>
    intro s pkt p wrap hbad hhop hopen hwaiting hcredits hroom
    have hforward := packetForward_of_hop (q := none) rfl hbad hhop
    have hvc : packetVc s p (none, pkt) = outVc none pkt p wrap := by simp [packetVc, hhop]
    rw [hwaiting, List.nil_append] at hforward
    have htakes : outputTakes s p (none, pkt) = true := by simpa [outputTakes, hopen, hvc, hroom] using hcredits
    rw [servePort_of_single (by simp) ((outputTakes_setPort_waiting ..).trans htakes), packetVc_setPort, hvc] at hforward
    simp only [freeInput, setPort_setPort, getPort_setPort_self, sendPacket_setPort] at hforward
    refine ⟨_, congrArg Host.Outcome.next hforward, routerFrame_of_setPort rfl, ?_⟩
    simp +contextual [sentPacket, packetFlits, getPort_setPort_other]
  case notHead =>
    intro s pkt q hat
    exact congrArg Host.Outcome.next (packetForward_of_not_atInput hat)
  case closed =>
    intro s pkt q p wrap hat hbad hhop hwaiting hclosed
    refine congrArg Host.Outcome.next ((packetForward_of_hop hat hbad hhop).trans ?_)
    rw [hwaiting, List.nil_append]
    refine servePort_of_single_refused (x := (q, pkt)) (by simp) ((outputTakes_setPort_waiting ..).trans ?_)
    simp [outputTakes, hclosed]
  case served =>
    intro s p x h
    obtain ⟨⟨hmem, hlead, htakes⟩, hprio⟩ := nextServed_eq_some h
    exact ⟨hmem, hlead, htakes, hprio⟩
  case badOwn =>
    intro s pkt hbad
    exact congrArg Host.Outcome.next (packetForward_of_bad_own hbad)
  case badPort =>
    intro s pkt q hat hbad
    obtain ⟨rx, freed, h⟩ := packetForward_of_bad_port hat hbad
    refine ⟨_, congrArg Host.Outcome.next h, routerFrame_of_setPort (withOut_self _).symm, ?_⟩
    simp +contextual [getPort_setPort_other]
  case alongX =>
    intro s x y z pkt hcoords hx hring
    exact routeHop_of_x hcoords (axisHop_of_ring _ hx hring)
  case alongY =>
    intro s x y z pkt hcoords hx hy
    obtain ⟨wrap, h⟩ := axisHop_port (pos := .py) (neg := .ny) (ext := s.slice.extent.2.1) (len := s.slice.lens.2.1)
      (rel := fun c => relCoord c s.slice.origin.2.1 s.slice.lens.2.1) hy
    exact ⟨wrap, h.imp (routeHop_of_y hcoords hx) (routeHop_of_y hcoords hx)⟩
  case arrived =>
    intro s x y z pkt hcoords
    exact routeHop_eq_none_iff hcoords

end Sys2Proof.Machine

namespace Sys2Proof.Machine

/-! ### What a change of the time state leaves alone (R347, R355) -/

@[simp] theorem marked_dev (s : State) (m : LogMarks) : (s.marked m).dev = s.dev := rfl
@[simp] theorem withAwn_marked (s : State) (m : LogMarks) (a : Awn) : (s.marked m).withAwn a = (s.withAwn a).marked m := rfl
@[simp] theorem withAwn_withAwn (s : State) (a b : Awn) : (s.withAwn a).withAwn b = s.withAwn b := rfl

/-- R489: a TIME record leaves marks only. -/
theorem logTime_eq (event : Nat) (old new : TimeState) (before after : W64) (s : State) :
    ∃ m, logTime event old new before after s = s.marked m := logEvent_eq _ _ _ _ s

/-- R347: the Awning in a time state, with its count of good exchanges and its note of the step taken. -/
def Awn.inState (a : Awn) (x : TimeState) (good : Nat) (stepped : Bool) : Awn :=
  { a with tstate := x, goodExch := good, stepped := stepped }

@[simp] theorem inState_self (a : Awn) : a.inState a.tstate a.goodExch a.stepped = a := rfl

/-- R347, R355: a change of the time state sets the state, starts its counts again, and its record leaves marks. -/
theorem setTimeState_eq (x : TimeState) (s : State) :
    ∃ good stepped m, setTimeState x s = (s.withAwn (s.awn.inState x good stepped)).marked m := by
  unfold setTimeState
  dsimp only
  split
  · next h => exact ⟨s.awn.goodExch, s.awn.stepped, s.marks, by rw [← h, inState_self, State.withAwn_self, marked_marks]⟩
  · obtain ⟨m, hm⟩ := logTime_eq 0 s.awn.tstate x 0 0 (s.withAwn (s.awn.inState x 0 false))
    exact ⟨0, false, m, hm⟩

/-- R347: the time state that stands needs no change. -/
theorem setTimeState_self {x : TimeState} {s : State} (h : s.awn.tstate = x) : setTimeState x s = s := if_pos h

/-! ### The election (R345, R347) -/

/-- R345: a module's place in the tree: whether it is the root, its parent, its HOPS and its root. -/
structure TreePlace where
  isRoot : Bool
  parent : Option Port
  hops : Byte
  rootId : W64

/-- R345: the place of the root. -/
def TreePlace.root (own : W64) : TreePlace := { isRoot := true, parent := none, hops := 0, rootId := own }

/-- R345: the place of a module under the port of an advertisement. -/
def TreePlace.under (p : Nat) (a : Advert) : TreePlace :=
  { isRoot := false, parent := some (portOfIx p), hops := BitVec.ofNat 8 (a.hops + 1), rootId := a.rootId }

/-- R345: the place that a module's ROOT_ID and its advertisements give it. -/
def electedPlace (own : W64) (l : Sparse Advert) : TreePlace :=
  match bestAdvert l with
  | some (p, a) => if a.rootId.toNat < own.toNat then .under p a else .root own
  | none => .root own

/-- R345: the place an Awning holds. -/
def Awn.place (a : Awn) : TreePlace := { isRoot := a.isRoot, parent := a.parent, hops := a.hops, rootId := a.rootId }

/-- R345: the Awning at a place. -/
def Awn.placed (a : Awn) (x : TreePlace) : Awn := { a with isRoot := x.isRoot, parent := x.parent, hops := x.hops, rootId := x.rootId }

/-- R345: what the statements say of an election, as a place. -/
theorem elects_of_place {s t : State} (h : t.awn.place = electedPlace (ownRootId s) t.awn.adverts) : Elects s t := by
  unfold electedPlace at h
  unfold Elects
  cases hbest : bestAdvert t.awn.adverts with
  | none =>
    simp only [hbest] at h ⊢
    injection h with hroot hparent hhops hid
    exact ⟨hroot, hparent, hhops, hid⟩
  | some x =>
    obtain ⟨p, a⟩ := x
    simp only [hbest] at h ⊢
    split at h
    · next hless =>
      rw [if_pos hless]
      injection h with hroot hparent hhops hid
      exact ⟨hroot, hparent, hhops, hid⟩
    · next hless =>
      rw [if_neg hless]
      injection h with hroot hparent hhops hid
      exact ⟨hroot, hparent, hhops, hid⟩

/-- R345, R347: a better advertisement makes its port the parent, and a module that gains a parent acquires. -/
theorem elect_of_better {s : State} {p : Nat} {a : Advert} (hbest : bestAdvert s.awn.adverts = some (p, a))
    (hless : a.rootId.toNat < (ownRootId s).toNat) : elect s =
      if s.awn.parent.isNone && (decide (s.awn.tstate = .free) || decide (s.awn.tstate = .holdover)) then
        setTimeState .acquiring (s.withAwn (s.awn.placed (.under p a)))
      else s.withAwn (s.awn.placed (.under p a)) := by
  unfold elect
  dsimp only
  rw [hbest]
  dsimp only
  rw [if_pos hless]
  rfl

/-- R345, R347: without one the module is the root. -/
theorem elect_of_no_better {s : State} (h : ∀ p a, bestAdvert s.awn.adverts = some (p, a) → ¬ a.rootId.toNat < (ownRootId s).toNat) :
    elect s = if s.awn.rackOk then setTimeState .synced (s.withAwn (s.awn.placed (.root (ownRootId s))))
      else if s.awn.tstate = .acquiring then setTimeState .free (s.withAwn (s.awn.placed (.root (ownRootId s))))
      else s.withAwn (s.awn.placed (.root (ownRootId s))) := by
  have hroot : elect s = elect.becomeRoot (ownRootId s) s := by
    unfold elect
    dsimp only
    split
    · next p a hbest => rw [if_neg (h p a hbest)]
    · rfl
  rw [hroot]
  rfl

/-- R345, R347: a module that has a parent changes its place alone when an advertisement is better. -/
theorem elect_of_better_child {s : State} {p : Nat} {a : Advert} (hbest : bestAdvert s.awn.adverts = some (p, a))
    (hless : a.rootId.toNat < (ownRootId s).toNat) (hparent : s.awn.parent.isSome = true) :
    elect s = s.withAwn (s.awn.placed (.under p a)) := by
  rw [elect_of_better hbest hless]
  refine if_neg ?_
  rw [Option.isNone_eq_false_iff.2 hparent, Bool.false_and]
  exact Bool.false_ne_true

/-- R345, R347: a SYNCED module that becomes the root with RACKCLK present changes its place alone. -/
theorem elect_of_synced_root {s : State} (h : bestAdvert s.awn.adverts = none) (hrack : s.awn.rackOk = true)
    (hstate : s.awn.tstate = .synced) : elect s = s.withAwn (s.awn.placed (.root (ownRootId s))) := by
  rw [elect_of_no_better fun p a hbest => absurd (h.symm.trans hbest) nofun, if_pos hrack]
  exact setTimeState_self hstate

/-- R347: the time states that an election can leave: the root with RACKCLK is SYNCED, and a module in HOLDOVER with a parent
stays there or acquires. -/
def ElectedState (a : Awn) (place : TreePlace) (x : TimeState) : Prop :=
  (place.isRoot = true → a.rackOk = true → x = .synced) ∧
  (place.isRoot = false → place.parent.isSome = true ∧ (a.tstate = .holdover → x = .holdover ∨ x = .acquiring))

/-- R345, R347: an election puts the module at its place and can change the time state; its record leaves marks. -/
theorem elect_eq (s : State) : ∃ x good stepped m, ElectedState s.awn (electedPlace (ownRootId s) s.awn.adverts) x ∧
    elect s = (s.withAwn ((s.awn.placed (electedPlace (ownRootId s) s.awn.adverts)).inState x good stepped)).marked m := by
  have hstays : ∀ place, s.withAwn (s.awn.placed place) =
      (s.withAwn ((s.awn.placed place).inState s.awn.tstate s.awn.goodExch s.awn.stepped)).marked s.marks := fun _ => rfl
  by_cases hbetter : ∃ p a, bestAdvert s.awn.adverts = some (p, a) ∧ a.rootId.toNat < (ownRootId s).toNat
  · obtain ⟨p, a, hbest, hless⟩ := hbetter
    have hplace : electedPlace (ownRootId s) s.awn.adverts = .under p a := by simp [electedPlace, hbest, hless]
    rw [hplace, elect_of_better hbest hless]
    split
    · obtain ⟨good, stepped, m, hm⟩ := setTimeState_eq .acquiring (s.withAwn (s.awn.placed (.under p a)))
      exact ⟨.acquiring, good, stepped, m, ⟨nofun, fun _ => ⟨rfl, fun _ => .inr rfl⟩⟩, hm⟩
    · exact ⟨_, _, _, _, ⟨nofun, fun _ => ⟨rfl, .inl⟩⟩, hstays _⟩
  · have hno : ∀ p a, bestAdvert s.awn.adverts = some (p, a) → ¬ a.rootId.toNat < (ownRootId s).toNat :=
      fun p a hbest hless => hbetter ⟨p, a, hbest, hless⟩
    have hplace : electedPlace (ownRootId s) s.awn.adverts = .root (ownRootId s) := by
      unfold electedPlace
      split
      · next p a hbest => exact if_neg (hno p a hbest)
      · rfl
    rw [hplace, elect_of_no_better hno]
    split
    · obtain ⟨good, stepped, m, hm⟩ := setTimeState_eq .synced (s.withAwn (s.awn.placed (.root (ownRootId s))))
      exact ⟨.synced, good, stepped, m, ⟨fun _ _ => rfl, nofun⟩, hm⟩
    · next hrack =>
      split
      · obtain ⟨good, stepped, m, hm⟩ := setTimeState_eq .free (s.withAwn (s.awn.placed (.root (ownRootId s))))
        exact ⟨.free, good, stepped, m, ⟨fun _ hok => absurd hok hrack, nofun⟩, hm⟩
      · exact ⟨_, _, _, _, ⟨fun _ hok => absurd hok hrack, nofun⟩, hstays _⟩

/-- R344 to R347: what an election and a change of the time state can reach. -/
theorem electionFrame {s t : State} {a : Awn} {m : LogMarks} (h : t = (s.withAwn a).marked m) :
    t = (((s.withAwn t.awn).withBus t.bus).withLog t.log).withSaf t.saf := by
  subst h
  cases s
  rfl

/-! ### What an exchange leaves alone (R346 to R348) -/

/-- R347, R348: what a step of fabric time and a change of the time state set. -/
structure TimeMarks where
  /-- R348 fabric time -/
  tick : W64
  frac : W32
  /-- R635 the last accepted FT_SYNC edge, moved with the time -/
  lastEdge : Option W64
  /-- R347 the time state and its counts -/
  tstate : TimeState
  goodExch : Nat
  stepped : Bool
  /-- R348 the telemetry window -/
  tal : Tal
  /-- R347 the fault of an offset beyond the limit -/
  timeFault : Bool
  /-- R489 the marks of the records -/
  marks : LogMarks

/-- The state with those parts set. -/
def State.retimed (s : State) (r : TimeMarks) : State :=
  let a := { s.awn with
    tick := r.tick, frac := r.frac, lastEdge := r.lastEdge, tstate := r.tstate, goodExch := r.goodExch, stepped := r.stepped }
  (((s.withAwn a).withTal r.tal).withSaf { s.saf with timeFault := r.timeFault }).marked r.marks

/-- R347, R348: a state that differs from another in those parts at most. -/
def Retimes (s t : State) : Prop := ∃ r, t = s.retimed r

/-- Those parts of a state. -/
def State.timeMarks (s : State) : TimeMarks :=
  { tick := s.awn.tick, frac := s.awn.frac, lastEdge := s.awn.lastEdge, tstate := s.awn.tstate, goodExch := s.awn.goodExch,
    stepped := s.awn.stepped, tal := s.tal, timeFault := s.saf.timeFault, marks := s.marks }

theorem Retimes.refl (s : State) : Retimes s s := ⟨s.timeMarks, by cases s; rfl⟩

theorem Retimes.trans {s t u : State} (h : Retimes s t) (h' : Retimes t u) : Retimes s u := by
  obtain ⟨r, rfl⟩ := h
  obtain ⟨r', rfl⟩ := h'
  exact ⟨r', by cases s; rfl⟩

theorem retimes_marked (s : State) (m : LogMarks) : Retimes s (s.marked m) := ⟨{ s.timeMarks with marks := m }, by cases s; rfl⟩

theorem retimes_inState (s : State) (x : TimeState) (good : Nat) (stepped : Bool) :
    Retimes s (s.withAwn (s.awn.inState x good stepped)) :=
  ⟨{ s.timeMarks with tstate := x, goodExch := good, stepped := stepped }, by cases s; rfl⟩

/-- R347: a change of the time state. -/
theorem retimes_setTimeState (x : TimeState) (s : State) : Retimes s (setTimeState x s) := by
  obtain ⟨good, stepped, m, h⟩ := setTimeState_eq x s
  rw [h]
  exact (retimes_inState s x good stepped).trans (retimes_marked _ m)

/-- R348: a step of fabric time sets the time and the telemetry window; its record leaves marks. -/
theorem stepTime_eq (at256 : Nat) (s : State) : ∃ frac lastEdge tal m, stepTime at256 s =
    ((s.withAwn { s.awn with tick := BitVec.ofNat 64 (at256 / 256), frac := frac, lastEdge := lastEdge }).withTal tal).marked m := by
  unfold stepTime
  dsimp only
  obtain ⟨m, hm⟩ := logTime_eq 1 _ _ _ _ _
  exact ⟨_, _, _, m, hm⟩

theorem retimes_stepTime (at256 : Nat) (s : State) : Retimes s (stepTime at256 s) := by
  obtain ⟨frac, lastEdge, tal, m, h⟩ := stepTime_eq at256 s
  rw [h]
  exact ⟨{ s.timeMarks with tick := BitVec.ofNat 64 (at256 / 256), frac := frac, lastEdge := lastEdge, tal := tal, marks := m },
    by cases s; rfl⟩

end Sys2Proof.Machine

namespace Sys2Proof.Machine

/-! ### The exchange with the parent (R346 to R348) -/

/-- R347: the single step of ACQUIRING, when no job is open. -/
def acquiringStep (theta : Int) (t4 : Nat) (s : State) : State :=
  if s.awn.tstate = .acquiring ∧ s.awn.stepped = false ∧ jobIsOpen s = false then
    stepTime ((t4 : Int) + theta).toNat (s.withAwn { s.awn with stepped := true })
  else s

/-- R347: the count of good exchanges after an offset. -/
def goodAfter (theta : Int) (s : State) : Nat := if theta.natAbs < 2560 then s.awn.goodExch + 1 else 0

/-- R347, R348: what an offset does to the time state. -/
def settleExchange (theta : Int) (s : State) : State :=
  match s.awn.tstate with
  | .acquiring => if 8 ≤ s.awn.goodExch then setTimeState .synced s else s
  | .synced =>
    if 25600 < theta.natAbs then
      let s := settleAlert (s.withSaf { s.saf with timeFault := true })
      if jobIsOpen s then logTime 0 .synced .synced 0 0 s else setTimeState .acquiring s
    else s
  | _ => s

/-- R347, R348: an exchange is the step of ACQUIRING, the count of good exchanges and the time state after them. -/
theorem afterExchange_eq (theta : Int) (t4 : Nat) (s : State) : afterExchange theta t4 s =
    let u := acquiringStep theta t4 s
    settleExchange theta (u.withAwn { u.awn with goodExch := goodAfter theta u }) := rfl

theorem retimes_acquiringStep (theta : Int) (t4 : Nat) (s : State) : Retimes s (acquiringStep theta t4 s) := by
  unfold acquiringStep
  split
  · exact (retimes_inState s s.awn.tstate s.awn.goodExch true).trans (retimes_stepTime _ _)
  · exact .refl s

/-- R347, R548: an offset beyond the limit sets the fault, and ALERT_N follows. -/
theorem retimes_timeFault (s : State) : Retimes s (settleAlert (s.withSaf { s.saf with timeFault := true })) :=
  ⟨{ s.timeMarks with
      timeFault := true
      marks := (settleAlert (s.withSaf { s.saf with timeFault := true })).marks }, by cases s; rfl⟩

theorem retimes_settleExchange (theta : Int) (s : State) : Retimes s (settleExchange theta s) := by
  unfold settleExchange
  split
  · split
    · exact retimes_setTimeState _ s
    · exact .refl s
  · split
    · refine (retimes_timeFault s).trans ?_
      dsimp only
      split
      · obtain ⟨m, hm⟩ := logTime_eq 0 .synced .synced 0 0 (settleAlert (s.withSaf { s.saf with timeFault := true }))
        rw [hm]
        exact retimes_marked _ m
      · exact retimes_setTimeState _ _
    · exact .refl s
  · exact .refl s

/-- R347, R348: an exchange sets fabric time and the time state at most. -/
theorem retimes_afterExchange (theta : Int) (t4 : Nat) (s : State) : Retimes s (afterExchange theta t4 s) := by
  rw [afterExchange_eq]
  refine (retimes_acquiringStep theta t4 s).trans (.trans ?_ (retimes_settleExchange theta _))
  exact retimes_inState _ _ _ _

/-- R347: a SYNCED module within the limit stays SYNCED and steps no time. -/
theorem afterExchange_of_synced {theta : Int} {s : State} (hstate : s.awn.tstate = .synced) (hsmall : theta.natAbs ≤ 25600) (t4 : Nat) :
    afterExchange theta t4 s = s.withAwn { s.awn with goodExch := goodAfter theta s } := by
  have hstep : acquiringStep theta t4 s = s := by simp [acquiringStep, hstate]
  rw [afterExchange_eq, hstep]
  simp [settleExchange, hstate, Nat.not_lt.2 hsmall]

/-- R346: the offset and the slew that an exchange with the parent gives. -/
def Awn.offset (a : Awn) (theta : Int) : Awn := { a with theta := BitVec.ofInt 32 theta, slew := slewOf theta }

/-- R346: an exchange with the parent that echoes sets the offset and the slew. -/
theorem exchange_of_parent {s : State} {p : Port} {f : TimeFlit} (hparent : s.awn.parent = some p) (hecho : f.echoTx ≠ 0) (rx : Nat) :
    let theta := thetaOf f.echoTx f.echoRx f.tx rx (getPort s p).alpha
    exchange p f rx s = afterExchange theta rx (s.withAwn (s.awn.offset theta)) := by
  unfold exchange
  rw [if_pos ⟨hparent, hecho⟩]
  rfl

/-- R346: any other TIME flit gives no offset. -/
theorem exchange_of_other {s : State} {p : Port} {f : TimeFlit} (h : s.awn.parent ≠ some p ∨ f.echoTx = 0) (rx : Nat) :
    exchange p f rx s = s :=
  if_neg fun ⟨hparent, hecho⟩ => h.elim (· hparent) hecho

/-! ### TIME flits (R324, R345, R346) -/

/-- R345: the advertisements after a TIME flit on a port. -/
def advertsAfter (p : Port) (f : TimeFlit) (a : Awn) : Sparse Advert :=
  if f.hops.toNat < 64 then sput { rootId := 0, hops := 64, heard := 0 } a.adverts (portIx p).val
    { rootId := f.rootId, hops := f.hops.toNat, heard := a.tick }
  else a.adverts

/-- R345, R346: the state in which a module that has received a TIME flit elects. -/
def timeHeard (p : Port) (f : TimeFlit) (rx : Nat) (s : State) : State :=
  (setPort s p { getPort s p with lastTime := some (f.tx, rx) }).withAwn { s.awn with adverts := advertsAfter p f s.awn }

/-- R345: its ROOT_ID is what it was. -/
theorem ownRootId_timeHeard (p : Port) (f : TimeFlit) (rx : Nat) (s : State) : ownRootId (timeHeard p f rx s) = ownRootId s := rfl

section TimeFlit
variable {s : State} {p : Port} {f : TimeFlit} (hon : s.awn.on = true) (hlive : portLive (getPort s p) = true)
include hon hlive

/-- R324: a TIME flit that fails its CRC is counted. -/
theorem timeFlit_of_crc (hok : timeOk f = false) (rx : Nat) : timeFlit p f rx s = setPort s p (crcFailed (getPort s p)) := by
  simp [timeFlit, hon, hlive, hok, crcFailed]

/-- R345, R346: any other one is heard, elects and is exchanged. -/
theorem timeFlit_of_ok (hok : timeOk f = true) (rx : Nat) : timeFlit p f rx s = exchange p f rx (elect (timeHeard p f rx s)) := by
  unfold timeFlit timeHeard advertsAfter
  dsimp only
  rw [if_neg (by simp [hon, hlive]), if_neg (by simp [hok])]
  split <;> rfl

end TimeFlit

@[simp] theorem retimed_getPort (s : State) (r : TimeMarks) : getPort (s.retimed r) = getPort s := rfl
@[simp] theorem withAwn_setPort_getPort (s : State) (p q : Port) (x : TPort) (a : Awn) :
    getPort ((setPort s p x).withAwn a) q = getPort (setPort s p x) q := rfl

/-- R346: the port of a TIME flit with its stamps. -/
def stamped (f : TimeFlit) (rx : Nat) (t : TPort) : TPort := { t with lastTime := some (f.tx, rx) }

/-- R345: the Awning after a TIME flit on a port: its advertisements and its place, in a time state. -/
def heardAwn (p : Port) (f : TimeFlit) (s : State) (x : TimeState) (good : Nat) (stepped : Bool) : Awn :=
  (({ s.awn with adverts := advertsAfter p f s.awn } : Awn).placed (electedPlace (ownRootId s) (advertsAfter p f s.awn))).inState x good stepped

/-- R345 to R348: a TIME flit stamps its port, is heard and elects; one from the parent that echoes also gives the offset and the slew,
and can set fabric time and the time state. -/
theorem timeFlit_cases {s : State} {p : Port} {f : TimeFlit} (hon : s.awn.on = true) (hlive : portLive (getPort s p) = true)
    (hok : timeOk f = true) (rx : Nat) : ∃ x good stepped,
    let heard := heardAwn p f s x good stepped
    ((heard.parent = some p ∧ f.echoTx ≠ 0) ∧ Retimes
      ((setPort s p (stamped f rx (getPort s p))).withAwn (heard.offset (thetaOf f.echoTx f.echoRx f.tx rx (getPort s p).alpha)))
      (timeFlit p f rx s)) ∨
    ((heard.parent ≠ some p ∨ f.echoTx = 0) ∧ ∃ m,
      timeFlit p f rx s = ((setPort s p (stamped f rx (getPort s p))).withAwn heard).marked m) := by
  obtain ⟨x, good, stepped, m, -, helect⟩ := elect_eq (timeHeard p f rx s)
  replace helect : elect (timeHeard p f rx s) =
    ((setPort s p (stamped f rx (getPort s p))).withAwn (heardAwn p f s x good stepped)).marked m := helect
  have hflit := timeFlit_of_ok hon hlive hok rx
  rw [helect] at hflit
  refine ⟨x, good, stepped, ?_⟩
  intro heard
  by_cases hexchange : heard.parent = some p ∧ f.echoTx ≠ 0
  · refine .inl ⟨hexchange, ?_⟩
    have halpha : (getPort (((setPort s p (stamped f rx (getPort s p))).withAwn heard).marked m) p).alpha = (getPort s p).alpha := by
      simp [stamped]
    have hparent : (((setPort s p (stamped f rx (getPort s p))).withAwn heard).marked m).awn.parent = some p := hexchange.1
    have hgiven := exchange_of_parent hparent hexchange.2 rx
    dsimp only at hgiven
    rw [halpha] at hgiven
    rw [hflit, hgiven, withAwn_marked]
    exact (retimes_marked _ m).trans (retimes_afterExchange _ rx _)
  · have hother : heard.parent ≠ some p ∨ f.echoTx = 0 := by
      by_cases hecho : f.echoTx = 0
      · exact .inr hecho
      · exact .inl fun hparent => hexchange ⟨hparent, hecho⟩
    exact .inr ⟨hother, m, hflit.trans (exchange_of_other hother rx)⟩

/-- R345 to R348: what a TIME flit can reach. -/
theorem timeFrame {s t : State} {p : Port} {x : TPort} {a : Awn} (h : Retimes ((setPort s p x).withAwn a) t) :
    t = (((((s.withAwn t.awn).withBus t.bus).withLog t.log).withPorts t.ports).withSaf t.saf).withTal t.tal := by
  obtain ⟨r, rfl⟩ := h
  cases s
  rfl

end Sys2Proof.Machine

namespace Sys2Proof.Machine

/-! ### The only advertisement (R345 to R347) -/

/-- R339: a port is that of its index. -/
theorem portOfIx_portIx (p : Port) : portOfIx (portIx p).val = p := by cases p <;> rfl

/-- R345: the advertisement that a TIME flit brings. -/
def advertOf (f : TimeFlit) (now : W64) : Advert := { rootId := f.rootId, hops := f.hops.toNat, heard := now }

/-- R345: the first advertisement of a module is the best. -/
theorem bestAdvert_advertsAfter {a : Awn} (hnone : a.adverts = []) {f : TimeFlit} (hhops : f.hops.toNat < 64) (p : Port) :
    bestAdvert (advertsAfter p f a) = some ((portIx p).val, advertOf f a.tick) := by
  have hne : advertOf f a.tick ≠ { rootId := 0, hops := 64, heard := 0 } := ne_of_apply_ne Advert.hops (Nat.ne_of_lt hhops)
  unfold advertsAfter
  rw [if_pos hhops, hnone]
  show bestAdvert (if advertOf f a.tick = _ then [] else _) = _
  rw [if_neg hne]
  rfl

/-- R345, R346: the Awning of a module under the parent whose advertisement is its only one. -/
def Awn.followed (a : Awn) (p : Port) (f : TimeFlit) (good : Nat) : Awn :=
  ({ a with adverts := advertsAfter p f a, goodExch := good } : Awn).placed (.under (portIx p).val (advertOf f a.tick))

/-- R345 to R347: the parent's TIME flit, the only advertisement of a SYNCED module, keeps it SYNCED within the limit. -/
theorem timeFlit_of_synced {s : State} {p : Port} {f : TimeFlit} (hon : s.awn.on = true) (hlive : portLive (getPort s p) = true)
    (hok : timeOk f = true) {rx : Nat} (hparent : s.awn.parent = some p) (hnone : s.awn.adverts = [])
    (hless : f.rootId.toNat < (ownRootId s).toNat) (hhops : f.hops.toNat < 64) (hecho : f.echoTx ≠ 0) (hstate : s.awn.tstate = .synced)
    (hsmall : (thetaOf f.echoTx f.echoRx f.tx rx (getPort s p).alpha).natAbs ≤ 25600) : ∃ good, timeFlit p f rx s =
      (setPort s p (stamped f rx (getPort s p))).withAwn
        ((s.awn.followed p f good).offset (thetaOf f.echoTx f.echoRx f.tx rx (getPort s p).alpha)) := by
  have helect : elect (timeHeard p f rx s) =
      (setPort s p (stamped f rx (getPort s p))).withAwn (s.awn.followed p f s.awn.goodExch) :=
    elect_of_better_child (s := timeHeard p f rx s) (bestAdvert_advertsAfter hnone hhops p) hless
      (show s.awn.parent.isSome = true by rw [hparent]; rfl)
  have hnow : ((setPort s p (stamped f rx (getPort s p))).withAwn (s.awn.followed p f s.awn.goodExch)).awn.parent = some p :=
    congrArg some (portOfIx_portIx p)
  have halpha : (getPort ((setPort s p (stamped f rx (getPort s p))).withAwn (s.awn.followed p f s.awn.goodExch)) p).alpha =
      (getPort s p).alpha := by simp [stamped]
  have hgiven := exchange_of_parent hnow hecho rx
  dsimp only at hgiven
  rw [halpha] at hgiven
  refine ⟨goodAfter (thetaOf f.echoTx f.echoRx f.tx rx (getPort s p).alpha) s, (timeFlit_of_ok hon hlive hok rx).trans ?_⟩
  rw [helect, hgiven, afterExchange_of_synced (by exact hstate) hsmall]
  rfl

/-! ### The time tree and RACKCLK (R344, R345, R347) -/

/-- R345: the election, then the TIME flit with the place that it gives. -/
theorem timeExchange_of_live {s : State} {p : Port} (hon : s.awn.on = true) (hlive : portLive (getPort s p) = true) :
    timeExchange p s = emit (.timeFlit p ((getPort (elect s) p).lastTime.getD (0, 0)).1 ((getPort (elect s) p).lastTime.getD (0, 0)).2
      (elect s).awn.rootId (elect s).awn.hops.toNat (elect s).awn.tstate) (elect s) := by
  unfold timeExchange
  rw [if_neg (by simp [hon, hlive])]

/-- R345: the Awning without the advertisement of a port. -/
def Awn.withoutAdvert (p : Port) (a : Awn) : Awn := { a with adverts := a.adverts.filter (fun x => decide (x.1 ≠ (portIx p).val)) }

/-- R345: an advertisement 1 ms old expires, and the module elects again. -/
theorem expireAdvert_of_old {s : State} {p : Port}
    (hold : ∃ a ∈ s.awn.adverts, a.1 = (portIx p).val ∧ 1000000 ≤ (s.awn.tick - a.2.heard).toNat) :
    expireAdvert p s = elect (s.withAwn (s.awn.withoutAdvert p)) := by
  obtain ⟨a, hmem, hport, hheard⟩ := hold
  refine if_pos (List.any_eq_true.2 ⟨a, hmem, ?_⟩)
  rw [decide_eq_true hport, decide_eq_true hheard, Bool.and_self]

/-- R344, R347: RACKCLK returns: the module elects, and leaves HOLDOVER for ACQUIRING under a parent. -/
theorem rackReturn_of_on {s : State} (hon : s.awn.on = true) : rackReturn s =
    let u := elect (s.withAwn { s.awn with rackOk := true })
    if u.awn.tstate = .holdover then setTimeState (if u.awn.parent.isSome then .acquiring else .free) u else u :=
  if_neg (by simp [hon])

@[simp] theorem inState_inState (a : Awn) (x x' : TimeState) (good good' : Nat) (stepped stepped' : Bool) :
    (a.inState x good stepped).inState x' good' stepped' = a.inState x' good' stepped' := rfl

/-- R347: a module in HOLDOVER that has RACKCLK again leaves it. -/
theorem leaveHoldover_eq (s : State) (a : Awn) (x : TimeState) (good : Nat) (stepped : Bool) (m : LogMarks) :
    let u := (s.withAwn (a.inState x good stepped)).marked m
    ∃ x' good' stepped' m', (x ≠ .holdover → x' = x) ∧ (x = .holdover → a.parent.isSome = true → x' = .acquiring) ∧
      (if u.awn.tstate = .holdover then setTimeState (if u.awn.parent.isSome then .acquiring else .free) u else u) =
        (s.withAwn (a.inState x' good' stepped')).marked m' := by
  intro u
  by_cases hx : x = .holdover
  · obtain ⟨good', stepped', m', h⟩ := setTimeState_eq (if a.parent.isSome then .acquiring else .free) u
    refine ⟨if a.parent.isSome then .acquiring else .free, good', stepped', m', absurd hx, fun _ hparent => if_pos hparent, (if_pos hx).trans (h.trans ?_)⟩
    simp [u]
  · exact ⟨x, good, stepped, m, fun _ => rfl, fun h => absurd h hx, if_neg hx⟩

/-- R344, R345, R347: after the return the root is SYNCED, and a module under a parent is no longer in HOLDOVER. -/
theorem rackReturn_eq {s : State} (hon : s.awn.on = true) :
    let place := electedPlace (ownRootId s) s.awn.adverts
    ∃ x good stepped m, (place.isRoot = true → x = .synced) ∧ (place.isRoot = false → s.awn.tstate = .holdover → x = .acquiring) ∧
      rackReturn s = (s.withAwn ((({ s.awn with rackOk := true } : Awn).placed place).inState x good stepped)).marked m := by
  intro place
  obtain ⟨x, good, stepped, m, ⟨hroot, hchild⟩, helect⟩ := elect_eq (s.withAwn { s.awn with rackOk := true })
  obtain ⟨x', good', stepped', m', hkeep, hleave, h⟩ := leaveHoldover_eq (s.withAwn { s.awn with rackOk := true })
    (({ s.awn with rackOk := true } : Awn).placed place) x good stepped m
  have hreturn := rackReturn_of_on hon
  rw [helect] at hreturn
  refine ⟨x', good', stepped', m', fun hr => ?_, fun hr hs => ?_, hreturn.trans h⟩
  · have hx := hroot hr rfl
    exact (hkeep (hx ▸ nofun)).trans hx
  · obtain ⟨hparent, hstate⟩ := hchild hr
    obtain hx | hx := hstate hs
    · exact hleave hx hparent
    · exact (hkeep (hx ▸ nofun)).trans hx

/-! ### FT_SYNC (R350, R351, R635) -/

/-- R350: the Awning after an accepted edge. -/
def Awn.captured (a : Awn) : Awn := { a with syncCapture := a.tick, lastEdge := some a.tick }

/-- R351: the Awning after an edge that was armed. -/
def Awn.disarmed (a : Awn) : Awn := { a.captured with syncArm := false, armTick := none }

/-- R351, R544: the value that an armed edge loads. -/
def Awn.syncLoad (a : Awn) : W64 :=
  match a.syncPrev with
  | some (x, old) => if x = a.tick then old else a.syncValue
  | none => a.syncValue

/-- R635: an edge sooner than 1 µs after the last accepted one is ignored. -/
theorem ftSyncEdge_of_soon {s : State} {e : W64} (hlast : s.awn.lastEdge = some e) (hsoon : (s.awn.tick - e).toNat < 1000) :
    ftSyncEdge s = s := by
  unfold ftSyncEdge
  dsimp only
  rw [hlast]
  exact if_pos (.inr (decide_eq_true hsoon))

section Edge
variable {s : State} (hon : s.awn.on = true) (hlate : ∀ e, s.awn.lastEdge = some e → 1000 ≤ (s.awn.tick - e).toNat)
include hon hlate

/-- R350: any other edge is captured, and an armed one takes effect. -/
theorem ftSyncEdge_of_late : ftSyncEdge s = armedEdge (s.withAwn s.awn.captured) := by
  unfold ftSyncEdge
  dsimp only
  cases hlast : s.awn.lastEdge with
  | none => exact if_neg (by simp [hon])
  | some e => exact if_neg (by simp [hon, hlate e hlast, -BitVec.toNat_sub])

/-- R351: an edge that is not armed, or armed in its own tick, is only captured. -/
theorem ftSyncEdge_of_unarmed (h : s.awn.syncArm = false ∨ s.awn.armTick = some s.awn.tick) :
    ftSyncEdge s = s.withAwn s.awn.captured := by
  rw [ftSyncEdge_of_late hon hlate]
  exact if_pos h

variable (harm : s.awn.syncArm = true) (htick : s.awn.armTick ≠ some s.awn.tick)
include harm htick

/-- R351: an armed edge is taken at the root with no job open, else refused. -/
theorem ftSyncEdge_of_armed : ftSyncEdge s =
    let u := s.withAwn s.awn.disarmed
    if s.awn.isRoot && !jobIsOpen s then stepTime (256 * s.awn.syncLoad.toNat) u
    else u.withAwn { u.awn with syncRefused := true, refusedAt := some s.awn.tick } := by
  rw [ftSyncEdge_of_late hon hlate]
  refine (if_neg (not_or.2 ⟨by simp [Awn.captured, harm], htick⟩)).trans ?_
  rfl

end Edge

/-- R351, R489: the load of a value steps fabric time to it. -/
theorem stepTime_load (v : W64) (s : State) : ∃ frac lastEdge tal m, stepTime (256 * v.toNat) s =
    ((s.withAwn { s.awn with tick := v, frac := frac, lastEdge := lastEdge }).withTal tal).marked m := by
  obtain ⟨frac, lastEdge, tal, m, h⟩ := stepTime_eq (256 * v.toNat) s
  rw [Nat.mul_div_cancel_left _ (by decide), BitVec.ofNat_toNat, BitVec.setWidth_eq] at h
  exact ⟨frac, lastEdge, tal, m, h⟩

/-- R351: what a load of fabric time can reach. -/
theorem loadFrame {s t : State} {a : Awn} {tal : Tal} {m : LogMarks} (h : t = ((s.withAwn a).withTal tal).marked m) :
    t = ((((s.withAwn t.awn).withBus t.bus).withLog t.log).withSaf t.saf).withTal t.tal := by
  subst h
  cases s
  rfl

/-! ### O27 -/

/-- Settles O27, by the equations above of the election, of an exchange with the parent and of an FT_SYNC edge. -/
theorem fabricTimeFollowsItsTree : Obligations.FabricTimeFollowsItsTree := by
  unfold Obligations.FabricTimeFollowsItsTree
  refine ⟨⟨?exchange, ?crc, ?heard, ?synced, ?expiry, ?lastExpiry, ?loss, ?back⟩, ?soon, ?unarmed, ?armedNow, ?load, ?refused⟩
  case exchange =>
    intro s p hon hlive
    obtain ⟨x, good, stepped, m, -, helect⟩ := elect_eq s
    have h := timeExchange_of_live hon hlive
    rw [helect] at h
    refine ⟨_, congrArg Host.Outcome.next h, ?_, rfl, rfl, rfl, List.mem_append_right _ (List.mem_singleton_self _)⟩
    cases s
    rfl
  case crc =>
    intro s p f rx hon hlive hok
    exact congrArg Host.Outcome.next (timeFlit_of_crc hon hlive hok rx)
  case heard =>
    intro s p f rx hon hlive hok
    obtain ⟨x, good, stepped, ⟨⟨hparent, hecho⟩, r, h⟩ | ⟨hother, m, h⟩⟩ := timeFlit_cases hon hlive hok rx
    · refine ⟨_, congrArg Host.Outcome.next h, timeFrame ⟨r, rfl⟩, ?_, fun q hq => ?_, rfl, elects_of_place rfl,
        fun _ _ => ⟨rfl, rfl⟩, fun hother => hother.elim (absurd hparent) (absurd · hecho)⟩
      · simp [stamped]
      · simp [getPort_setPort_other _ _ _ _ hq]
    · refine ⟨_, congrArg Host.Outcome.next h, timeFrame (retimes_marked _ m), ?_, fun q hq => ?_, rfl, elects_of_place rfl,
        fun hparent hecho => hother.elim (absurd hparent) (absurd · hecho), fun _ => ⟨rfl, rfl, rfl⟩⟩
      · simp [stamped]
      · simp [getPort_setPort_other _ _ _ _ hq]
  case synced =>
    intro s p f rx hon hlive hok hparent hadverts hless hhops hecho hstate hsmall
    obtain ⟨good, h⟩ := timeFlit_of_synced hon hlive hok hparent hadverts hless hhops hecho hstate hsmall
    exact ⟨_, congrArg Host.Outcome.next h, timeFrame (.refl _), rfl, rfl, rfl, rfl, rfl, congrArg some (portOfIx_portIx p), rfl, hstate,
      rfl, rfl, rfl⟩
  case expiry =>
    intro s p hold
    obtain ⟨x, good, stepped, m, -, helect⟩ := elect_eq (s.withAwn (s.awn.withoutAdvert p))
    refine ⟨_, congrArg Host.Outcome.next ((expireAdvert_of_old hold).trans helect), electionFrame rfl, rfl,
      elects_of_place rfl, rfl, rfl, rfl, rfl⟩
  case lastExpiry =>
    intro s p hparent hlast hrack hstate
    obtain ⟨a, hadverts, hold⟩ := hlast
    have hexpire := expireAdvert_of_old (p := p) (s := s) ⟨_, by rw [hadverts]; exact List.mem_singleton_self _, rfl, hold⟩
    have hnone : s.awn.withoutAdvert p = { s.awn with adverts := [] } := by simp [Awn.withoutAdvert, hadverts]
    rw [hnone] at hexpire
    exact congrArg Host.Outcome.next (hexpire.trans (elect_of_synced_root (s := s.withAwn { s.awn with adverts := [] }) rfl hrack hstate))
  case loss =>
    intro s hon
    obtain ⟨good, stepped, m, hset⟩ := setTimeState_eq .holdover (s.withAwn { s.awn with rackOk := false })
    exact ⟨_, congrArg Host.Outcome.next ((if_neg (by simp [hon])).trans hset), electionFrame rfl, rfl, rfl, rfl, rfl, rfl, rfl⟩
  case back =>
    intro s hon
    obtain ⟨x, good, stepped, m, hroot, hchild, h⟩ := rackReturn_eq hon
    exact ⟨_, congrArg Host.Outcome.next h, electionFrame rfl, rfl, elects_of_place rfl, rfl, hroot, hchild, rfl, rfl⟩
  case soon =>
    intro s e hon hlast hsoon
    exact congrArg Host.Outcome.next (ftSyncEdge_of_soon hlast hsoon)
  case unarmed =>
    intro s hon hlate harm
    exact congrArg Host.Outcome.next (ftSyncEdge_of_unarmed hon hlate (.inl harm))
  case armedNow =>
    intro s hon hlate htick
    exact congrArg Host.Outcome.next (ftSyncEdge_of_unarmed hon hlate (.inr htick))
  case load =>
    intro s hon hlate harm htick hroot hjob
    obtain ⟨frac, lastEdge, tal, m, hload⟩ := stepTime_load s.awn.syncLoad
      (s.withAwn s.awn.disarmed)
    have h := ftSyncEdge_of_armed hon hlate harm htick
    dsimp only at h
    rw [if_pos (by simp [hroot, hjob]), hload] at h
    refine ⟨_, congrArg Host.Outcome.next h, loadFrame rfl, (rfl : s.awn.syncLoad = _), ?_⟩
    simp [Awn.disarmed, Awn.captured]
  case refused =>
    intro s hon hlate harm htick hrefused
    have h := ftSyncEdge_of_armed hon hlate harm htick
    dsimp only at h
    rw [if_neg (by rcases hrefused with hroot | hjob <;> simp [*])] at h
    exact congrArg Host.Outcome.next h

end Sys2Proof.Machine

namespace Sys2Proof.Machine

/-! ### What a tick leaves alone (R343) -/

/-- What every part of a tick leaves alone but the count of a wait and the time itself. -/
def State.lasting (s : State) : Awn × List Instr × Load × Slice × Site := (s.awn, s.pending, s.load, s.slice, s.site)

/-- What a tick leaves alone while no command ends: the memory, the mailbox and the count of replays. -/
def State.hostSide (s : State) : Mem × Mbx × Nat := (s.mem, s.mbx, s.step.replays)

/-- Both together. -/
def State.quiet (s : State) : (Awn × List Instr × Load × Slice × Site) × (Mem × Mbx × Nat) := (s.lasting, s.hostSide)

theorem lasting_eq_iff {s t : State} : t.lasting = s.lasting ↔
    t.awn = s.awn ∧ t.pending = s.pending ∧ t.load = s.load ∧ t.slice = s.slice ∧ t.site = s.site := by
  simp [State.lasting]

theorem hostSide_eq_iff {s t : State} : t.hostSide = s.hostSide ↔ t.mem = s.mem ∧ t.mbx = s.mbx ∧ t.step.replays = s.step.replays := by
  simp [State.hostSide]

theorem quiet_eq_iff {s t : State} : t.quiet = s.quiet ↔ t.lasting = s.lasting ∧ t.hostSide = s.hostSide := by simp [State.quiet]

@[simp] theorem quiet_tallyTick (s : State) : (tallyTick s).quiet = s.quiet := rfl
@[simp] theorem quiet_restTick (s : State) : (restTick s).quiet = s.quiet := rfl
@[simp] theorem quiet_drivePins (s : State) : (drivePins s).quiet = s.quiet := rfl
@[simp] theorem quiet_setPort (s : State) (p : Port) (x : TPort) : (setPort s p x).quiet = s.quiet := rfl
@[simp] theorem quiet_sendPacket (p : Port) (vc : VC) (pkt : Packet) (s : State) : (sendPacket p vc pkt s).quiet = s.quiet := rfl

/-- R607: the close of a telemetry window. -/
@[simp] theorem quiet_windowClose (s : State) : (windowClose s).quiet = s.quiet := by
  unfold windowClose
  split <;> rfl

/-- R36: a flit that crosses a link of the Aisle. -/
@[simp] theorem quiet_crossLink (cur : Fin 1024) (d : AisleDir) (f : AisleFlit) (s : State) : (crossLink cur d f s).quiet = s.quiet := by
  unfold crossLink
  split <;> rfl

/-- R36: a round of the Aisle. -/
@[simp] theorem quiet_aisleRound (s : State) : (aisleRound s).quiet = s.quiet := by
  unfold aisleRound
  dsimp only
  rw [foldl_keeps State.quiet _ (fun _ _ => quiet_crossLink _ _ _ _)]
  refine foldl_keeps State.quiet _ (fun t x => ?_) _ _
  rfl

/-- R452: a section of a snapshot drain. -/
@[simp] theorem quiet_drainTick (s : State) : (drainTick s).quiet = s.quiet := by
  unfold drainTick
  split <;> rfl

/-- R340: the slots that a packet held. -/
@[simp] theorem quiet_freeInput (source : Option Port) (pkt : Packet) (s : State) : (freeInput source pkt s).quiet = s.quiet := by
  unfold freeInput
  split <;> rfl

/-- R341: the packets that an output serves. -/
@[simp] theorem quiet_serveOutput (n : Nat) (p : Port) (s : State) : (serveOutput n p s).quiet = s.quiet := by
  induction n generalizing s with
  | zero => rfl
  | succ n ih =>
    unfold serveOutput
    split
    · rfl
    · simp [ih]

@[simp] theorem quiet_servePort (p : Port) (s : State) : (servePort p s).quiet = s.quiet := quiet_serveOutput _ p s

/-! ### The copies that a tick makes (R165, R206) -/

/-- R480: a failure of no unit is noted in the SAF_ block alone. -/
theorem softFailure_none_eq (cause : W64) (s : State) : ∃ saf, softFailure .none cause s = s.withSaf saf := by
  unfold softFailure
  dsimp only
  split
  · exact ⟨s.saf, rfl⟩
  · exact ⟨_, rfl⟩

/-- R206: the reaction to an unsound section that no unit is named for. -/
theorem unsoundFailure_none_cases (l : List Section) (s : State) : unsoundFailure .none l s = s ∨
    ∃ seq saf m saf', unsoundFailure .none l s = markSuspect .none seq (((s.withSaf saf).marked m).withSaf saf') := by
  unfold unsoundFailure
  split
  · next x hx =>
    right
    unfold sealFailure
    dsimp only
    obtain ⟨m, hm⟩ := logEvent_eq 0x102 3 .none (natLe 8 x.desc.tid.toNat ++ natLe 2 x.desc.sec.toNat ++ natLe 2 (unitCode .none) ++
      natLe 8 x.sealWord.toNat ++ natLe 8 (sealOf (expectedDesc s x) x.content x.scales x.record).toNat)
      (s.withSaf { s.saf with detections := add48 s.saf.detections 1 })
    rw [hm]
    obtain ⟨saf', hsaf⟩ := softFailure_none_eq (nextSeq s) ((s.withSaf { s.saf with detections := add48 s.saf.detections 1 }).marked m)
    exact ⟨nextSeq s, _, m, saf', by rw [hsaf]⟩
  · exact .inl rfl

/-- R529: the end of a run. -/
theorem lasting_endRun (result : Nat) (x : Cause) (s : State) : (endRun result x s).lasting = s.lasting := by
  unfold endRun
  split
  · rfl
  · dsimp only
    split
    · simp [State.lasting]
    · rfl

/-- R473, R477: a suspect attempt, and the end of its command after three replays. -/
theorem lasting_markSuspect (unit : UnitId) (seq : W64) (s : State) : (markSuspect unit seq s).lasting = s.lasting := by
  unfold markSuspect
  split
  · rfl
  · split
    · rfl
    · dsimp only
      split
      · rw [replayLimit, lasting_endRun]
        simp [State.lasting]
      · rfl

/-- R473: with fewer than three replays no command ends. -/
theorem hostSide_markSuspect {s : State} (hreplays : s.step.replays < 3) (unit : UnitId) (seq : W64) :
    (markSuspect unit seq s).hostSide = s.hostSide := by
  unfold markSuspect
  split
  · rfl
  · split
    · rfl
    · dsimp only
      split
      · next hlimit => exact absurd hlimit (Nat.not_le.2 hreplays)
      · rfl

theorem lasting_unsoundFailure (l : List Section) (s : State) : (unsoundFailure .none l s).lasting = s.lasting := by
  obtain h | ⟨seq, saf, m, saf', h⟩ := unsoundFailure_none_cases l s
  · rw [h]
  · rw [h, lasting_markSuspect]
    rfl

theorem hostSide_unsoundFailure {s : State} (hreplays : s.step.replays < 3) (l : List Section) :
    (unsoundFailure .none l s).hostSide = s.hostSide := by
  obtain h | ⟨seq, saf, m, saf', h⟩ := unsoundFailure_none_cases l s
  · rw [h]
  · rw [h, hostSide_markSuspect (by exact hreplays)]
    rfl

/-- R158: the counters of draw streams alone move. -/
theorem quiet_advanceStreams (l : List (W32 × Nat)) (s : State) : (advanceStreams l s).quiet = s.quiet := by
  refine foldl_keeps State.quiet _ (fun s x => ?_) l s
  unfold setDrawCounter
  split <;> rfl

theorem quiet_holding (s : State) : (s.withStep { s.step with holding := true }).quiet = s.quiet := rfl

theorem quiet_setShadow (s : State) (l : List Section) : (setShadow s l).quiet = s.quiet := rfl

/-- R165: the copies of the unvisited experts keep what a quiet change and the failure of an old seal keep. -/
theorem holdUnvisited_keeps {β : Type} (q : State → β) {s : State} (hquiet : ∀ t u : State, t.quiet = u.quiet → q t = q u)
    (hfail : ∀ l t, t.quiet = s.quiet → q (unsoundFailure .none l t) = q t) : q (holdUnvisited s) = q s := by
  unfold holdUnvisited
  split
  · rfl
  · next pg _ =>
    split
    · rfl
    · dsimp only
      have hdraws := quiet_advanceStreams ((heldClauses s pg).flatMap (clauseDraws s pg)) s
      refine (hquiet _ _ (quiet_holding _)).trans (.trans ?_ (hquiet _ _ hdraws))
      split
      · exact hfail _ _ hdraws
      · exact hquiet _ _ (quiet_setShadow _ _)

theorem lasting_holdUnvisited (s : State) : (holdUnvisited s).lasting = s.lasting :=
  holdUnvisited_keeps State.lasting (fun _ _ h => (quiet_eq_iff.1 h).1) (fun l t _ => lasting_unsoundFailure l t)

theorem hostSide_holdUnvisited {s : State} (hreplays : s.step.replays < 3) : (holdUnvisited s).hostSide = s.hostSide := by
  refine holdUnvisited_keeps State.hostSide (fun _ _ h => (quiet_eq_iff.1 h).2) (fun l t h => hostSide_unsoundFailure ?_ l)
  obtain ⟨-, -, hsame⟩ := hostSide_eq_iff.1 (quiet_eq_iff.1 h).2
  exact hsame ▸ hreplays

/-! ### The tick (R343, R405) -/

/-- A 48-bit count that one was added to is not 0. -/
theorem add48_one_ne_zero (c : W48) : add48 c 1 ≠ 0 := by
  intro hzero
  have hval : min (c.toNat + 1) (2 ^ 48 - 1) % 2 ^ 48 = 0 := congrArg BitVec.toNat hzero
  omega

/-- R425: a tick in which the module waits for a site counts it, and leaves the rest alone. -/
theorem siteTick_eq (s : State) : ∃ site, siteTick s = s.withSite site ∧
    ∀ i, s.site.waitingFor = some i → (sget {} site.totals i).waitSiteTicks = add48 (sget {} s.site.totals i).waitSiteTicks 1 := by
  unfold siteTick
  split
  · next i hi =>
    refine ⟨_, rfl, fun j hj => ?_⟩
    obtain rfl : i = j := Option.some.inj (hi.symm.trans hj)
    have hne : ({ sget {} s.site.totals i with waitSiteTicks := add48 (sget {} s.site.totals i).waitSiteTicks 1 } : SiteTotal) ≠ {} :=
      ne_of_apply_ne SiteTotal.waitSiteTicks (add48_one_ne_zero _)
    exact congrArg SiteTotal.waitSiteTicks (sget_sput_of_ne {} s.site.totals i _ hne)
  · next hnone => exact ⟨s.site, rfl, fun i hi => absurd (hnone.symm.trans hi) nofun⟩

/-- R343: the work of a tick before fabric time moves, on the state in which the wait for a site is counted. -/
def tickWork (s : State) : State :=
  allPorts.foldl (fun s p => servePort p s) (holdUnvisited (drainTick (aisleRound s)))

theorem lasting_tickWork (s : State) : (tickWork s).lasting = s.lasting := by
  have hquiet := (quiet_drainTick (aisleRound s)).trans (quiet_aisleRound s)
  rw [tickWork, foldl_keeps State.lasting _ (fun s p => (quiet_eq_iff.1 (quiet_servePort p s)).1), lasting_holdUnvisited]
  exact (quiet_eq_iff.1 hquiet).1

theorem hostSide_tickWork {s : State} (hreplays : s.step.replays < 3) : (tickWork s).hostSide = s.hostSide := by
  have hquiet := (quiet_drainTick (aisleRound s)).trans (quiet_aisleRound s)
  obtain ⟨-, -, hsame⟩ := hostSide_eq_iff.1 (quiet_eq_iff.1 hquiet).2
  rw [tickWork, foldl_keeps State.hostSide _ (fun s p => (quiet_eq_iff.1 (quiet_servePort p s)).2),
    hostSide_holdUnvisited (by rw [hsame]; exact hreplays)]
  exact (quiet_eq_iff.1 hquiet).2

/-- R343: with the Awning on a tick does its work, then fabric time moves. -/
theorem idleTick_of_on {s : State} (hon : s.awn.on = true) : idleTick s =
    let v := tickWork (siteTick (restTick (tallyTick (windowClose s))))
    drivePins (windowClose (v.withAwn (tickTime v.awn))) := if_pos hon

/-! ### O2 -/

/-- Settles O2, by what each part of a tick leaves alone. -/
theorem emptyQueueTicksWithTheAwningOn : Obligations.EmptyQueueTicksWithTheAwningOn := by
  unfold Obligations.EmptyQueueTicksWithTheAwningOn
  refine ⟨fun s hempty hoff => ?off, fun s hempty hon => ?on⟩
  case off =>
    have hidle : idleTick s = s := by simp [idleTick, hoff]
    simp [step, hempty, hidle]
  case on =>
    obtain ⟨site, hsite, hwait⟩ := siteTick_eq (restTick (tallyTick (windowClose s)))
    have hbefore : (restTick (tallyTick (windowClose s))).quiet = s.quiet := by simp
    obtain ⟨hlasting, hhost⟩ := quiet_eq_iff.1 hbefore
    obtain ⟨hawn, hpending, hload, hslice, hsites⟩ := lasting_eq_iff.1 hlasting
    obtain ⟨hmem, hmbx, hreplays⟩ := hostSide_eq_iff.1 hhost
    have hidle := idleTick_of_on hon
    rw [hsite] at hidle
    generalize restTick (tallyTick (windowClose s)) = r at *
    have hafter : (idleTick s).quiet = ((tickWork (r.withSite site)).withAwn (tickTime (tickWork (r.withSite site)).awn)).quiet := by
      simp [hidle]
    obtain ⟨hlasting', hhost'⟩ := quiet_eq_iff.1 hafter
    obtain ⟨hawn', hpending', hload', hslice', hsites'⟩ := lasting_eq_iff.1 hlasting'
    obtain ⟨hmem', hmbx', -⟩ := hostSide_eq_iff.1 hhost'
    obtain ⟨hawnW, hpendingW, hloadW, hsliceW, hsiteW⟩ := lasting_eq_iff.1 (lasting_tickWork (r.withSite site))
    have hstep : step s = .next (idleTick s) := by simp [step, hempty]
    refine ⟨idleTick s, hstep, ?tick, ?_, ?_, ?_, fun hlow => ?_, fun i hi => ?wait⟩
    case tick => simp [hawn', hawnW, hawn, tickTime]
    case wait => simpa [hsites', hsiteW, hsites] using hwait i (hsites ▸ hi)
    · simp [hpending', hpendingW, hpending, hempty]
    · simp [hload', hloadW, hload]
    · simp [hslice', hsliceW, hslice]
    · obtain ⟨hmemW, hmbxW, -⟩ := hostSide_eq_iff.1 (hostSide_tickWork (s := r.withSite site) (by simpa [hreplays] using hlow))
      simp [hmem', hmemW, hmem, hmbx', hmbxW, hmbx]

end Sys2Proof.Machine

namespace Sys2Proof.Machine

/-! ### A collective after it is changed (R356) -/

theorem findColl_updColl {seq : W48} {f : Coll → Coll} (hseq : ∀ c, (f c).seq = c.seq) (s : State) :
    findColl (updColl seq f s) seq = (findColl s seq).map f := by
  change (s.house.colls.map (fun c => if c.seq = seq then f c else c)).find? (fun c => c.seq = seq) =
    (s.house.colls.find? (fun c => c.seq = seq)).map f
  induction s.house.colls with
  | nil => rfl
  | cons c l ih => by_cases h : c.seq = seq <;> simp [h, hseq, ih]

theorem seq_of_findColl {s : State} {seq : W48} {c : Coll} (h : findColl s seq = some c) : c.seq = seq := by
  simpa using List.find?_some h

/-! ### Headers at the caller (R362 to R364, R373) -/

section Header

variable {s : State} {c : Coll} {h : CHeader} (hfind : findColl s h.seq = some c) (hcaller : isCaller s c = true)
include hfind hcaller

/-- R364: a header of another attempt is STALE. -/
theorem takeHeader_of_stale (hattempt : h.attempt ≠ s.step.attempt) :
    takeHeader h s = collCount c (fun t => { t with staleContrib := add48 t.staleContrib 1 }) s := by
  simp [takeHeader, hfind, hcaller, hattempt]

variable (hattempt : h.attempt = s.step.attempt)
include hattempt

/-- R364: a header of a completed collective, or one that the caller has, is DUP. -/
theorem takeHeader_of_duplicate
    (hdup : h.seq ∈ s.house.completed ∨ (h.member, h.carried) ∈ c.taken.map (fun t => (t.1, t.2.1))) :
    takeHeader h s = collCount c (fun t => { t with dupContrib := add48 t.dupContrib 1 }) s := by
  have hhad : (c.taken.any (fun t => decide (t.1 = h.member) && decide (t.2.1 = h.carried)) ||
      decide (h.seq ∈ s.house.completed)) = true := by
    rcases hdup with hdone | htaken
    · simp [hdone]
    · obtain ⟨t, ht, heq⟩ := List.mem_map.1 htaken
      obtain ⟨hmember, hcarried⟩ := Prod.mk.inj heq
      rw [Bool.or_eq_true, List.any_eq_true]
      exact .inl ⟨t, ht, by simp [hmember, hcarried]⟩
  unfold takeHeader
  rw [hfind]
  simp only [hcaller, hattempt, hhad, Bool.not_true, Bool.false_eq_true, ne_eq, not_true_eq_false, if_false, if_true]

variable (hnew : (c.taken.any (fun t => decide (t.1 = h.member) && decide (t.2.1 = h.carried))) = false)
  (hopen : h.seq ∉ s.house.completed)
include hnew hopen

/-- R363: a header whose digest differs aborts the collective with the first field that differs. -/
theorem takeHeader_of_mismatch {f : Nat} (hdigest : h.digest ≠ c.own.digest) (hdiff : headerDiff c.own h = some f) :
    takeHeader h s = abortColl h.seq (groupMember s (collEntry s c).group h.member) (BitVec.ofNat 8 f)
      (emit (.mismatch h.seq h.member (BitVec.ofNat 8 f)) s) := by
  unfold takeHeader
  rw [hfind]
  simp [hcaller, hattempt, hnew, hopen, hdigest, hdiff]

/-- R364: a new header with the collective's digest is taken. -/
theorem takeHeader_of_new (hdigest : h.digest = c.own.digest) : takeHeader h s = recordHeader c h s := by
  unfold takeHeader
  rw [hfind]
  simp [hcaller, hattempt, hnew, hopen, hdigest]

end Header

/-- R373: the collective with a current header taken at a tick, the first of which opens the window. -/
def withHeader (h : CHeader) (now : W64) (c : Coll) : Coll :=
  { c with taken := c.taken ++ [(h.member, false, h.stepTag, now)], openAt := some (c.openAt.getD now) }

/-- R373 to R375: a current header in time, of which more are to come, is taken and closes nothing. -/
theorem recordHeader_of_more {s : State} {c : Coll} {h : CHeader} (hfind : findColl s h.seq = some c)
    (hcurrent : h.carried = false) (hlate : isLate s c = false)
    (hmore : (c.taken.filter (fun t => !t.2.1)).length + 1 < collSize s c) :
    recordHeader c h s = updColl h.seq (withHeader h s.awn.tick) s := by
  have hseq := seq_of_findColl hfind
  have hafter : findColl (updColl h.seq (withHeader h s.awn.tick) s) h.seq = some (withHeader h s.awn.tick c) := by
    rw [findColl_updColl (f := withHeader h s.awn.tick) (fun _ => rfl), hfind]
    rfl
  have hfew : ((withHeader h s.awn.tick c).taken.filter (fun t => !t.2.1)).length ≠ collSize s c := by
    simp only [withHeader, List.filter_append, List.length_append]
    exact Nat.ne_of_lt hmore
  have hopen : closeIfFull h.seq (updColl h.seq (withHeader h s.awn.tick) s) = updColl h.seq (withHeader h s.awn.tick) s := by
    unfold closeIfFull
    rw [hafter]
    refine if_neg fun hfull => hfew ?_
    exact of_decide_eq_true (Bool.and_eq_true_iff.1 hfull).2
  rw [← hopen, ← hseq]
  simp only [recordHeader, hcurrent, hlate, Bool.not_false, Bool.and_false, Bool.false_and, Bool.false_eq_true, if_false]
  rfl

/-! ### The end of a run and of an attempt (R475, R529) -/

/-- What the end of a run leaves alone: the job, the tensors, the Counting House, the load, the slice and the ports. -/
def State.runParts (s : State) : Job × Tensors × House × Load × Slice × Vector TPort 6 :=
  (s.job, s.tens, s.house, s.load, s.slice, s.ports)

theorem runParts_eq_iff {s t : State} : t.runParts = s.runParts ↔
    t.job = s.job ∧ t.tens = s.tens ∧ t.house = s.house ∧ t.load = s.load ∧ t.slice = s.slice ∧ t.ports = s.ports := by
  simp [State.runParts]

@[simp] theorem runParts_endRun (result : Nat) (x : Cause) (s : State) : (endRun result x s).runParts = s.runParts := by
  unfold endRun
  split
  · rfl
  · dsimp only
    split
    · simp [State.runParts]
    · rfl

@[simp] theorem endRun_run (result : Nat) (x : Cause) (s : State) : (endRun result x s).step.run = none := by
  unfold endRun
  split
  · assumption
  · dsimp only
    split
    · simp
    · rfl

/-- R184: which buffer is committed follows from the job and the tensors. -/
theorem committed_of {s t : State} (hjob : t.job = s.job) (htens : t.tens = s.tens) : committed t = committed s := by
  simp [committed, hjob, htens]

theorem shadow_of {s t : State} (hjob : t.job = s.job) (htens : t.tens = s.tens) : shadow t = shadow s := by
  simp [shadow, hjob, htens]

@[simp] theorem abandonAttempt_bufSel (attempt : Byte) (s : State) : (abandonAttempt attempt s).job.bufSel = s.job.bufSel := rfl
@[simp] theorem abandonAttempt_load (attempt : Byte) (s : State) : (abandonAttempt attempt s).load = s.load := by
  simp [abandonAttempt, setShadow]
@[simp] theorem abandonAttempt_slice (attempt : Byte) (s : State) : (abandonAttempt attempt s).slice = s.slice := by
  simp [abandonAttempt, setShadow]
@[simp] theorem abandonAttempt_ports (attempt : Byte) (s : State) : (abandonAttempt attempt s).ports = s.ports := by
  simp [abandonAttempt, setShadow]

@[simp] theorem committed_abandonAttempt (attempt : Byte) (s : State) : committed (abandonAttempt attempt s) = committed s := by
  change (if s.job.bufSel then (setShadow s []).tens.bufB else (setShadow s []).tens.bufA) = committed s
  unfold setShadow committed
  cases s.job.bufSel <;> rfl

@[simp] theorem shadow_abandonAttempt (attempt : Byte) (s : State) : shadow (abandonAttempt attempt s) = [] := by
  change (if s.job.bufSel then (setShadow s []).tens.bufA else (setShadow s []).tens.bufB) = []
  unfold setShadow
  cases s.job.bufSel <;> rfl

/-! ### An abort (R363) -/

/-- R363, R475: the state whose command an abort ends with MISMATCH: that of the last commit, the mismatch counted. -/
def abortedStep (s : State) : State :=
  let u := abandonAttempt s.step.attempt (s.withHouse { s.house with mismatches := add48 s.house.mismatches 1 })
  u.withHouse { u.house with reuse := [] }

theorem abortColl_of_step {s : State} {r : RunCmd} (hrun : s.step.run = some r) (heval : r.eval = false) (seq : W48) (member : Nat)
    (f : Byte) :
    abortColl seq member f s = endRun rMismatch { member := member, field := f.toNat, subject := some seq } (abortedStep s) := by
  have htrain : inEval (s.withHouse { s.house with mismatches := add48 s.house.mismatches 1 }) = false := by simp [inEval, hrun, heval]
  simp only [abortColl, hrun, htrain, Option.isNone_some, Bool.false_eq_true, if_false]
  rfl

/-! ### The roll (R374 to R378) -/

/-- R374, R375: the roll that closes at the deadline of a window opened at `opened`. -/
def deadlineRoll (s : State) (c : Coll) (opened : W64) : RollMsg :=
  { seq := c.seq, attempt := s.step.attempt,
    mask := sortNat ((c.taken.filter (fun t => !t.2.1 && decide (t.2.2.2.toNat < opened.toNat + (collEntry s c).d))).map (·.1)),
    carried := (c.taken.filter (fun t => t.2.1)).map (fun t => (t.1, t.2.2.1)) }

/-- R490: the audit records of a roll leave marks only. -/
theorem auditRoll_eq (m : Nat) (r : RollMsg) (s : State) : ∃ k, auditRoll m r s = s.marked k := by
  unfold auditRoll
  split
  · exact ⟨s.marks, rfl⟩
  · dsimp only
    obtain ⟨k, hk⟩ := logEvent_eq 0x301 0 .none (natLe 6 r.seq.toNat ++ natLe 2 m ++ natLe 2 (r.mask.length + r.carried.length) ++
      ((List.range m).filter (fun i => i ∉ r.mask)).flatMap (natLe 2)) s
    rw [hk]
    split
    · exact ⟨k, rfl⟩
    · obtain ⟨k', hk'⟩ := logEvent_eq 0x302 0 .none (natLe 6 r.seq.toNat ++
        (sortBy (fun a b => decide (a.1 ≤ b.1)) r.carried).flatMap (fun c => natLe 2 c.1 ++ natLe 6 c.2.toNat)) (s.marked k)
      exact ⟨k', hk'⟩

/-- R375, R378: under a deadline the roll that closes holds the current headers in time, and is applied here. -/
theorem closeRoll_of_deadline {s : State} {c : Coll} {opened : W64} (hpolicy : policyOf s c ≠ 0) (hopen : c.openAt = some opened)
    (hd : (collEntry s c).d ≠ 0) (hop : (collEntry s c).op ≠ 6) : closeRoll c s = applyRoll (deadlineRoll s c opened)
      (auditRoll (collSize s c) (deadlineRoll s c opened) (emit (.roll (deadlineRoll s c opened)) s)) := by
  obtain ⟨k, hk⟩ := auditRoll_eq (collSize s c) (deadlineRoll s c opened) (emit (.roll (deadlineRoll s c opened)) s)
  have hop' : (collEntry (auditRoll (collSize s c) (deadlineRoll s c opened) (emit (.roll (deadlineRoll s c opened)) s)) c).op ≠ 6 := by
    rw [hk]
    exact hop
  unfold closeRoll
  simp only [hpolicy, hd, hopen, decide_false, Bool.false_or, Option.getD_some]
  exact if_neg hop'

/-- R374: the window of a collective closes its roll. -/
theorem deadlineClose_of_late {s : State} {c : Coll} {seq : W48} (hfind : findColl s seq = some c) (hcaller : isCaller s c = true)
    (hpolicy : policyOf s c ≠ 0) (hroll : c.roll = none) (hlate : isLate s c = true) : deadlineClose seq s = closeRoll c s := by
  simp [deadlineClose, hfind, hcaller, hpolicy, hroll, hlate]

/-- R374: before its window closes a collective's roll stays open. -/
theorem deadlineClose_of_early {s : State} {c : Coll} {seq : W48} (hfind : findColl s seq = some c) (hearly : isLate s c = false) :
    deadlineClose seq s = s := by
  simp [deadlineClose, hfind, hearly]

theorem isLate_iff {s : State} {c : Coll} {opened : W64} (hopen : c.openAt = some opened) :
    isLate s c = true ↔ (collEntry s c).d ≠ 0 ∧ opened.toNat + (collEntry s c).d ≤ s.awn.tick.toNat := by
  simp [isLate, hopen]

/-- R376: under ALL a roll of the running attempt starts the adding. -/
theorem applyRoll_of_all {s : State} {c : Coll} {r : RollMsg} (hfind : findColl s r.seq = some c) (hattempt : r.attempt = s.step.attempt)
    (hroll : c.roll = none) (hpolicy : policyOf s c = 0) (hop : (collEntry s c).op ≠ 5) :
    applyRoll r s = advance r.seq (updColl r.seq (fun c => { c with roll := some r }) s) := by
  have hpolicy' : policyOf (updColl r.seq (fun c => { c with roll := some r }) s) c = 0 := hpolicy
  have hop' : (collEntry (updColl r.seq (fun c => { c with roll := some r }) s) c).op ≠ 5 := hop
  simp [applyRoll, hfind, hattempt, hroll, hpolicy', hop']

/-- R376: a roll of another attempt does nothing. -/
theorem applyRoll_of_other_attempt {s : State} {r : RollMsg} (hattempt : r.attempt ≠ s.step.attempt) : applyRoll r s = s := by
  unfold applyRoll
  split
  · rfl
  · exact if_pos (by simp [hattempt])

/-- R372: a BARRIER that is open is completed. -/
theorem barrierDone_of_open {s : State} {c : Coll} {seq : W48} (hfind : findColl s seq = some c) (hop : (collEntry s c).op = 6)
    (hopen : c.complete = false) : barrierDone seq s = completeColl c s := by
  simp [barrierDone, hfind, hop, hopen]

/-! ### Released chunks (R369 to R371) -/

section Released

variable {s : State} {c : Coll} {m : ReleasedMsg} (hfind : findColl s m.seq = some c) (hattempt : m.attempt = s.step.attempt)
  (hopen : c.complete = false)
include hfind hattempt hopen

/-- R371: a chunk that carries no seal, or the seal of its shard, is taken. -/
theorem releasedChunk_of_seal (hseal : m.last = false ∨ receivedSeal s c m = m.carried) : releasedChunk m s = takeResult c m s := by
  have hsound : (m.last && decide (receivedSeal s c m ≠ m.carried)) = false := by rcases hseal with h | h <;> simp [h]
  unfold releasedChunk
  rw [hfind]
  dsimp only
  rw [hsound]
  simp [hattempt, hopen]

/-- R371, R473: a seal that does not agree is a detection. -/
theorem releasedChunk_of_broken (hlast : m.last = true) (hseal : receivedSeal s c m ≠ m.carried) : releasedChunk m s =
    markSuspect .none (nextSeq s) (countDetection 10 .none 0 (receivedSeal s c m) m.carried s) := by
  simp [releasedChunk, hfind, hattempt, hopen, hlast, hseal]

end Released

/-- R356: a collective with a result still to come goes on. -/
theorem settleColl_of_missing {s : State} {seq : W48} {c : Coll} {x : Nat × Nat} (hfind : findColl s seq = some c)
    (hneeded : x ∈ neededResults s c) (hmissing : ∀ r ∈ c.results, (r.1, r.2.1) ≠ x) : settleColl seq s = s := by
  have hheld : ((neededResults s c).all (fun x => c.results.any (fun r => decide (r.1 = x.1) && decide (r.2.1 = x.2)))) = false := by
    refine List.all_eq_false.2 ⟨x, hneeded, ?_⟩
    simp only [List.any_eq_true, not_exists, not_and, Bool.and_eq_true, decide_eq_true_eq]
    exact fun r hr h1 h2 => hmissing r hr (Prod.ext h1 h2)
  unfold settleColl
  rw [hfind]
  dsimp only
  rw [hheld]
  exact if_pos (by simp)

/-- R356: a REDUCE_SCATTER needs each chunk of this module's own shard. -/
theorem mem_neededResults_of_scatter {s : State} {c : Coll} (hop : (collEntry s c).op = 2) {k : Nat}
    (hk : k < chunkCount (collEntry s c) (collSize s c) (collSelf s c)) : (collSelf s c, k) ∈ neededResults s c := by
  simp [neededResults, hop, hk]

/-- R432: a result of a collective that is no gradient is not mirrored. -/
theorem mirrorIfWhole_of_not_gradient {s : State} {seq : W48} {c : Coll} (hfind : findColl s seq = some c)
    (hgradient : isGradient s c = false) (shard : Nat) : mirrorIfWhole seq shard s = s := by
  simp [mirrorIfWhole, hfind, hgradient]

/-- R370: a result of a REDUCE_SCATTER stays at its owner. -/
theorem takeResult_of_scatter {s : State} {c : Coll} {m : ReleasedMsg} (hop : (collEntry s c).op = 2) (hnorm : c.entry ≠ normInst s) :
    takeResult c m s = settleColl m.seq (mirrorIfWhole m.seq m.shard (holdResult m s)) := by
  simp [takeResult, hop, hnorm]

/-- R370: the first of several results of an own shard is held and changes nothing else. -/
theorem takeResult_of_first {s : State} {c : Coll} {m : ReleasedMsg} (hfind : findColl s m.seq = some c)
    (hop : (collEntry s c).op = 2) (hnorm : c.entry ≠ normInst s) (hgradient : isGradient s c = false)
    (hmore : 2 ≤ chunkCount (collEntry s c) (collSize s c) (collSelf s c)) (hfirst : c.results = []) :
    takeResult c m s = holdResult m s ∧
    findColl (holdResult m s) m.seq = some { c with results := [(m.shard, m.chunk, m.values)] } := by
  have hheld : findColl (holdResult m s) m.seq = some { c with results := [(m.shard, m.chunk, m.values)] } := by
    unfold holdResult
    rw [findColl_updColl (fun c => by split <;> rfl), hfind]
    simp [hfirst]
  refine ⟨?_, hheld⟩
  rw [takeResult_of_scatter hop hnorm, mirrorIfWhole_of_not_gradient hheld hgradient]
  have hneeded := fun k hk => mem_neededResults_of_scatter (s := holdResult m s)
    (c := { c with results := [(m.shard, m.chunk, m.values)] }) hop (k := k) hk
  refine settleColl_of_missing hheld (hneeded (if m.chunk = 0 then 1 else 0) ?_) ?_
  · exact Nat.lt_of_lt_of_le (by split <;> decide) hmore
  · intro r hr heq
    obtain rfl := List.mem_singleton.1 hr
    have hchunk := congrArg Prod.snd heq
    dsimp only at hchunk
    split at hchunk <;> omega

/-! ### O37 -/

/-- Settles O37: a header by the cases of `takeHeader`, an abort by the state that it ends in (`abortColl_of_step`), a roll by its
close and its arrival, a released chunk by what is still to come (`takeResult_of_first`). -/
theorem callersTakeHeadersAndClose : Obligations.CallersTakeHeadersAndClose := by
  unfold Obligations.CallersTakeHeadersAndClose
  refine ⟨⟨?taken, ?stale, ?duplicate, ?mismatch, ?abort, ?noRun⟩, ⟨?deadline, ?early, ?roll, ?otherRoll, ?barrier⟩, ?released⟩
  case taken =>
    intro s c h hfind _ hcaller hattempt hnew hopen hdigest _ hlate hcurrent hmore
    refine congrArg Host.Outcome.next ((takeHeader_of_new hfind hcaller hattempt hnew hopen hdigest).trans ?_)
    exact recordHeader_of_more hfind hcurrent hlate hmore
  case stale =>
    intro s c h hfind hcaller hattempt
    exact congrArg Host.Outcome.next (takeHeader_of_stale hfind hcaller hattempt)
  case duplicate =>
    intro s c h hfind hcaller hattempt hdup
    exact congrArg Host.Outcome.next (takeHeader_of_duplicate hfind hcaller hattempt hdup)
  case mismatch =>
    intro s c h f hfind hcaller hattempt hnew hopen hdigest hdiff
    exact congrArg Host.Outcome.next (takeHeader_of_mismatch hfind hcaller hattempt hnew hopen hdigest hdiff)
  case abort =>
    intro s seq member f r k hrun _ heval
    obtain ⟨hjob, htens, hhouse, -⟩ := runParts_eq_iff.1 (runParts_endRun rMismatch
      { member := member, field := f.toNat, subject := some seq } (abortedStep s))
    refine ⟨_, congrArg Host.Outcome.next (abortColl_of_step hrun heval seq member f), endRun_run .., ?_⟩
    rw [hhouse, committed_of hjob htens, shadow_of hjob htens, htens, hjob]
    exact ⟨rfl, rfl, rfl, committed_abandonAttempt s.step.attempt _, shadow_abandonAttempt s.step.attempt _, rfl, rfl, rfl, rfl⟩
  case noRun =>
    intro s seq member f hrun
    exact congrArg Host.Outcome.next (if_pos (by simp [hrun]))
  case deadline =>
    intro s c opened hfind hcaller hpolicy hroll hopen hd hclosed hop
    refine ⟨deadlineRoll s c opened, congrArg Host.Outcome.next ?_, rfl, rfl, rfl, rfl⟩
    rw [deadlineClose_of_late hfind hcaller hpolicy hroll ((isLate_iff hopen).2 ⟨hd, hclosed⟩),
      closeRoll_of_deadline hpolicy hopen hd hop]
  case early =>
    intro s c opened hfind hopen hearly
    refine congrArg Host.Outcome.next (deadlineClose_of_early hfind (Bool.eq_false_iff.2 fun hlate => ?_))
    exact Nat.not_le.2 hearly ((isLate_iff hopen).1 hlate).2
  case roll =>
    intro s c r hfind hattempt hroll hpolicy hop
    exact congrArg Host.Outcome.next (applyRoll_of_all hfind hattempt hroll hpolicy hop)
  case otherRoll =>
    intro s c r _ hattempt
    exact congrArg Host.Outcome.next (applyRoll_of_other_attempt hattempt)
  case barrier =>
    intro s c seq hfind hop hopen
    exact congrArg Host.Outcome.next (barrierDone_of_open hfind hop hopen)
  case released =>
    intro s c m hfind _ hattempt hopen hlast hop hnorm hgradient hmore hfirst
    obtain ⟨htake, hheld⟩ := takeResult_of_first hfind hop hnorm hgradient hmore hfirst
    refine ⟨holdResult m s, congrArg Host.Outcome.next ?_, hheld, rfl, rfl, rfl, rfl, rfl⟩
    exact (releasedChunk_of_seal hfind hattempt hopen (.inl hlast)).trans htake

end Sys2Proof.Machine

namespace Sys2Proof.Machine

/-! ### Chunks that arrive (R367, R379) -/

/-- R367: a chunk of another attempt does nothing. -/
theorem chunkArrival_of_other_attempt {s : State} {m : ChunkMsg} (fails : List (Fin 16)) (hattempt : m.attempt ≠ s.step.attempt) :
    chunkArrival m fails s = s := by
  unfold chunkArrival
  split
  · rfl
  · exact if_pos (by simp [hattempt])

/-- R367, R379: another member's chunk of the attempt requests a lease and is held, and the collective goes on. -/
theorem chunkArrival_of_other_member {s : State} {c : Coll} {m : ChunkMsg} (hfind : findColl s m.seq = some c)
    (hattempt : m.attempt = s.step.attempt) (hopen : c.complete = false) (hother : m.index ≠ collSelf s c) :
    chunkArrival m [] s = advance m.seq (holdNode m (requestLease c s)) := by
  have hown : (decide (m.level = 0) && decide (m.index = collSelf s c)) = false := by simp [hother]
  have hnone : ∀ o : Option Coll, o.bind (fun _ => (none : Option (List Section))) = none := fun o => by cases o <;> rfl
  unfold chunkArrival
  rw [hfind]
  simp only [hattempt, hopen, hown, residueFailures, ne_eq, not_true_eq_false, decide_false, Bool.or_self, Bool.false_eq_true, if_false,
    Bool.not_false, if_true, Bool.false_and, hnone]

/-! ### Leases (R379 to R382) -/

/-- R389: the wait for a lease is counted. -/
def waitCounted (c : Coll) (s : State) : State :=
  collCount c (fun t => { t with slotWaitTicks := add48 t.slotWaitTicks (s.awn.tick - c.requested).toNat }) s

/-- R380: the wait is counted and the slots of the window are taken. -/
def slotsTaken (c : Coll) (s : State) : State :=
  (waitCounted c s).withHouse { (waitCounted c s).house with leased := s.house.leased + windowOf (collEntry s c) }

/-- R381: the wait is counted, and the change to endpoint reduction is counted by the caller or told to it. -/
def fallbackCounted (c : Coll) (s : State) : State :=
  let u := collCount c (fun t => { t with
    slotWaitTicks := add48 t.slotWaitTicks (s.awn.tick - c.requested).toNat,
    fallbacks := if isCaller s c then add48 t.fallbacks 1 else t.fallbacks }) s
  if isCaller s c then u else emit (.fallback c.seq) u

theorem fallBack_eq (c : Coll) (s : State) : fallBack c s =
    advance c.seq (updColl c.seq (fun c => { c with lease := none, endpoint := true }) (fallbackCounted c s)) := rfl

theorem fallbackCounted_house (c : Coll) (s : State) : (fallbackCounted c s).house = { s.house with
    totals := sput {} s.house.totals c.entry { sget {} s.house.totals c.entry with
      slotWaitTicks := add48 (sget {} s.house.totals c.entry).slotWaitTicks (s.awn.tick - c.requested).toNat,
      fallbacks := if isCaller s c then add48 (sget {} s.house.totals c.entry).fallbacks 1
        else (sget {} s.house.totals c.entry).fallbacks } } := by
  unfold fallbackCounted
  dsimp only
  split <;> rfl

theorem fallbackCounted_out (c : Coll) (s : State) :
    (fallbackCounted c s).out = if isCaller s c then s.out else s.out ++ [.fallback c.seq] := by
  unfold fallbackCounted
  dsimp only
  split <;> rfl

/-- R381: a waiting request is open until SLOT_WAIT has passed. -/
theorem leaseExpired_iff {s : State} {c : Coll} (hwait : c.lease = some false) :
    leaseExpired s c = true ↔ c.requested.toNat + s.job.slotWait.toNat ≤ s.awn.tick.toNat := by
  simp [leaseExpired, hwait]

theorem leaseExpired_of_early {s : State} {c : Coll} (hearly : s.awn.tick.toNat < c.requested.toNat + s.job.slotWait.toNat) :
    leaseExpired s c = false := by
  simp [leaseExpired, hearly]

section Grant

variable {s : State} {c : Coll} (hfirst : s.house.colls.find? (fun c => c.lease = some false) = some c)
include hfirst

/-- R381, R382, R385: a request whose window has closed, or that meets a Counting House off, is withdrawn. -/
theorem leaseGrant_of_closed (hclosed : (leaseExpired s c || houseOff s) = true) : leaseGrant s = fallBack c s := by
  unfold leaseGrant
  rw [hfirst]
  exact if_pos hclosed

variable (hopen : (leaseExpired s c || houseOff s) = false)
include hopen

/-- R380: an open request is granted when its window's slots are free. -/
theorem leaseGrant_of_free (hfree : s.house.leased + windowOf (collEntry s c) ≤ 3072) : leaseGrant s =
    advance c.seq (updColl c.seq (fun c => { c with lease := some true }) (slotsTaken c s)) := by
  unfold leaseGrant
  rw [hfirst]
  exact (if_neg (Bool.eq_false_iff.1 hopen)).trans (if_pos hfree)

/-- R380: an open request waits while they are not. -/
theorem leaseGrant_of_full (hfull : 3072 < s.house.leased + windowOf (collEntry s c)) : leaseGrant s = s := by
  unfold leaseGrant
  rw [hfirst]
  exact (if_neg (Bool.eq_false_iff.1 hopen)).trans (if_neg (Nat.not_le.2 hfull))

end Grant

/-- R381: the close of its window withdraws a request. -/
theorem slotWaitExpiry_of_find {s : State} {c : Coll} {seq : W48} (hfind : findColl s seq = some c) :
    slotWaitExpiry seq s = if leaseExpired s c then fallBack c s else s := by
  unfold slotWaitExpiry
  rw [hfind]

/-! ### O38 -/

/-- Settles O38: a chunk by whose it is, a lease by whether its window is open and its slots are free, a fallback by the state that
it counts (`fallbackCounted`), a released chunk by its seal. -/
theorem chunksTakeLeasesAndAreAdded : Obligations.ChunksTakeLeasesAndAreAdded := by
  unfold Obligations.ChunksTakeLeasesAndAreAdded
  refine ⟨?chunk, ?otherAttempt, fun s c hfirst hon hearly => ?grant, fun s c hwait => ?fallback,
    fun s c m hfind hattempt hopen => ?released⟩
  case chunk =>
    intro s c m hfind hattempt hopen hother
    exact congrArg Host.Outcome.next (chunkArrival_of_other_member hfind hattempt hopen hother)
  case otherAttempt =>
    intro s c m f _ hattempt
    exact congrArg Host.Outcome.next (chunkArrival_of_other_attempt f hattempt)
  case grant =>
    have hopen : (leaseExpired s c || houseOff s) = false := by rw [leaseExpired_of_early hearly, hon]; rfl
    refine ⟨fun hfree => ⟨slotsTaken c s, ?_, rfl, rfl, rfl⟩, fun hfull => ?_⟩
    · exact congrArg Host.Outcome.next (leaseGrant_of_free hfirst hopen hfree)
    · exact congrArg Host.Outcome.next (leaseGrant_of_full hfirst hopen hfull)
  case fallback =>
    refine ⟨fallbackCounted c s, fun hfirst hclosed => congrArg Host.Outcome.next ?_,
      fun seq hfind => ⟨fun hlate => ?_, fun hearly => ?_⟩, ?_, ?_, fallbackCounted_out c s, ?_⟩
    · refine (leaseGrant_of_closed hfirst (Bool.or_eq_true_iff.2 ?_)).trans (fallBack_eq c s)
      exact hclosed.symm.imp_left (leaseExpired_iff hwait).2
    · refine congrArg Host.Outcome.next ((slotWaitExpiry_of_find hfind).trans (.trans ?_ (fallBack_eq c s)))
      exact if_pos ((leaseExpired_iff hwait).2 hlate)
    · refine congrArg Host.Outcome.next ((slotWaitExpiry_of_find hfind).trans (if_neg ?_))
      exact Bool.eq_false_iff.1 (leaseExpired_of_early hearly)
    all_goals rw [fallbackCounted_house]
  case released =>
    refine ⟨fun hseal => ?_, fun hlast hseal => ?_⟩
    · exact congrArg Host.Outcome.next (releasedChunk_of_seal hfind hattempt hopen hseal)
    · exact congrArg Host.Outcome.next (releasedChunk_of_broken hfind hattempt hopen hlast hseal)

end Sys2Proof.Machine

namespace Sys2Proof.Machine

/-! ### What a commit leaves alone (R168, R184, R434) -/

@[simp] theorem runParts_emit (o : Out) (s : State) : (emit o s).runParts = s.runParts := rfl
@[simp] theorem runParts_withLedger (s : State) (x : Ledger) : (s.withLedger x).runParts = s.runParts := rfl
@[simp] theorem runParts_withSnap (s : State) (x : Snap) : (s.withSnap x).runParts = s.runParts := rfl
@[simp] theorem runParts_withStep (s : State) (x : Step) : (s.withStep x).runParts = s.runParts := rfl
@[simp] theorem runParts_withSite (s : State) (x : Site) : (s.withSite x).runParts = s.runParts := rfl
@[simp] theorem runParts_setDir (x : ExpertRef) (f : DirEntry → DirEntry) (s : State) : (setDir x f s).runParts = s.runParts := rfl
@[simp] theorem runParts_residCount (l : Nat) (f : ResidTotal → ResidTotal) (s : State) : (residCount l f s).runParts = s.runParts := rfl
@[simp] theorem runParts_pauseSlice (s : State) : (pauseSlice s).runParts = s.runParts := rfl
@[simp] theorem runParts_swapSlots (s : State) : (swapSlots s).runParts = s.runParts := rfl

@[simp] theorem runParts_addRecord (k : CmdRef) (b : Bytes) (s : State) : (addRecord k b s).runParts = s.runParts := by
  simp [State.runParts]

@[simp] theorem runParts_setProgress (k : CmdRef) (n : Nat) (s : State) : (setProgress k n s).runParts = s.runParts := by
  simp [State.runParts]

@[simp] theorem runParts_logCommit (d : DecisionMsg) (result : Nat) (digest : W64) (s : State) :
    (logCommit d result digest s).runParts = s.runParts := by
  simp [logCommit, State.runParts]

@[simp] theorem runParts_fillThin (s : State) : (fillThin s).runParts = s.runParts := fillThin_keeps State.runParts (fun _ _ _ => rfl) s

@[simp] theorem runParts_setComplete (x : PSlot) (s : State) : (setComplete x s).runParts = s.runParts := by
  unfold setComplete
  split <;> rfl

/-- R452, R457: what a commit starts between partners. -/
@[simp] theorem runParts_commitSnap (d : DecisionMsg) (old : List Section) (s : State) : (commitSnap d old s).runParts = s.runParts := by
  simp only [commitSnap, apply_ite State.runParts, runParts_withSnap, runParts_swapSlots, runParts_setComplete, ite_self]

/-! ### Residency decisions (R257) -/

@[simp] theorem runParts_startCopyOut (x : ExpertRef) (m : Nat) (s : State) : (startCopyOut x m s).runParts = s.runParts := by
  unfold startCopyOut
  split <;> rfl

@[simp] theorem runParts_cutReplicas (x : ExpertRef) (n : Nat) (s : State) : (cutReplicas x n s).runParts = s.runParts := by
  unfold cutReplicas
  split
  · rfl
  · simp only [runParts_setDir, runParts_withLedger]
    exact foldl_keeps State.runParts _ (by simp) _ s

@[simp] theorem runParts_demote (x : ExpertRef) (s : State) : (demote x s).runParts = s.runParts := by
  unfold demote
  split
  · rfl
  · simp [apply_ite State.runParts]

@[simp] theorem runParts_promote (x : ExpertRef) (s : State) : (promote x s).runParts = s.runParts := by
  unfold promote
  split
  · rfl
  · simp [apply_ite State.runParts]

@[simp] theorem runParts_addReplicas (x : ExpertRef) (n : Nat) (s : State) : (addReplicas x n s).runParts = s.runParts := by
  induction n generalizing s with
  | zero => rfl
  | succ n ih =>
    unfold addReplicas
    split
    · rfl
    · split
      · rfl
      · simp [ih, apply_ite State.runParts]

/-- R257: the six stages. -/
@[simp] theorem runParts_residencyDecisions (promoted : List ExpertRef) (s : State) :
    (residencyDecisions promoted s).runParts = s.runParts := by
  unfold residencyDecisions
  dsimp only
  rw [runParts_withLedger]
  refine (foldl_keeps State.runParts _ (fun s x => runParts_addReplicas x _ s) _ _).trans ?_
  refine (foldl_keeps State.runParts _ (fun s x => runParts_promote x s) _ _).trans ?_
  refine (foldl_keeps State.runParts _ (fun s x => runParts_setDir x _ s) _ _).trans ?_
  refine (foldl_keeps State.runParts _ (fun s x => runParts_demote x s) _ _).trans ?_
  refine (foldl_keeps State.runParts _ (fun s x => runParts_cutReplicas x _ s) _ _).trans ?_
  exact foldl_keeps State.runParts _ (fun s x => runParts_cutReplicas x 0 s) _ s

/-! ### COMMIT (R434) -/

/-- R434: a COMMIT of another epoch, or during an evaluation, does nothing. -/
theorem commitStep_of_stale {s : State} {d : DecisionMsg} {r : RunCmd} (hrun : s.step.run = some r)
    (hstale : r.eval = true ∨ d.epoch ≠ runningEpoch s) : commitStep d s = s := by
  unfold commitStep
  rw [hrun]
  exact if_pos hstale

/-- R489, R533: a step that commits is logged, where the lead has not done so with its decision, and reported. -/
def commitReported (d : DecisionMsg) (k : CmdRef) (s : State) : State :=
  let u := if s.step.logged then s else logCommit d (stepResult s d.skipped) (digestOf (shadow s)) s
  addRecord k (stepRecord u d (stepResult s d.skipped) (digestOf (shadow s))) u

@[simp] theorem runParts_commitReported (d : DecisionMsg) (k : CmdRef) (s : State) : (commitReported d k s).runParts = s.runParts := by
  simp [commitReported, apply_ite State.runParts]

section Current

variable {s : State} {d : DecisionMsg} {r : RunCmd} (hrun : s.step.run = some r) (heval : r.eval = false) (hepoch : d.epoch = runningEpoch s)
include hrun heval hepoch

/-- R485, R486: in an AUDIT_REPLAY a COMMIT is compared with the record. -/
theorem commitStep_of_audit {l : List AuditStep} (haudit : r.audit = some l) : commitStep d s = commitAudit d r l s := by
  unfold commitStep
  rw [hrun]
  dsimp only
  rw [if_neg (by simp [heval, hepoch]), haudit]

/-- R434, R529: the COMMIT of a command's last step flips the buffers, once it has logged and reported the step, and ends the run. -/
theorem commitStep_of_last {k : CmdRef} (hcmd : r.cmd = some k) (haudit : r.audit = none) (hlast : r.stepsLeft = 1) :
    ∃ u v result, u.runParts = s.runParts ∧ v.runParts = (flipBuffers d u).runParts ∧ commitStep d s = endRun result {} v := by
  unfold commitStep
  rw [hrun]
  dsimp only
  rw [if_neg (by simp [heval, hepoch]), haudit]
  simp only [afterCommit, hcmd, hlast, Nat.sub_self, if_true]
  refine ⟨commitReported d k s, _, _, runParts_commitReported d k s, ?_, rfl⟩
  simp only [runParts_setProgress, runParts_withStep, apply_ite State.runParts, runParts_pauseSlice, ite_self]
  split <;> simp [commitReported]

end Current

/-! ### COMMIT in an audit (R485, R486) -/

/-- R280: what every message leaves alone. -/
theorem recopyReplicas_keeps {β : Type} (q : State → β) (hq : ∀ o s, q (emit o s) = q s) (s : State) : q (recopyReplicas s) = q s := by
  refine foldl_keeps q _ (fun s e => ?_) _ s
  split
  · exact foldl_keeps q (fun s m => emit (.replicaCopy (dirRef e) m) s) (fun s m => hq _ s) _ s
  · rfl

@[simp] theorem seedStandby_step (s : State) : (seedStandby s).step = s.step := by
  unfold seedStandby
  split <;> rfl

@[simp] theorem runParts_seedStandby (s : State) : (seedStandby s).runParts = s.runParts := by
  unfold seedStandby
  split <;> rfl

@[simp] theorem runParts_endAudit (result : Nat) (s : State) : (endAudit result s).runParts = s.runParts := by
  rw [endAudit, runParts_seedStandby, recopyReplicas_keeps State.runParts (fun _ _ => rfl), runParts_endRun]

@[simp] theorem endAudit_run (result : Nat) (s : State) : (endAudit result s).step.run = none := by
  rw [endAudit, seedStandby_step, recopyReplicas_keeps State.step (fun _ _ => rfl), endRun_run]

/-- R486: the shadow digest of a role of the replayed step, as this member knows it. -/
def auditDigest (s : State) (i : Nat) : W64 :=
  if i = memberIndex s then digestOf (shadow s) else ((s.step.held.find? (fun m => m.role = i)).map (·.digest)).getD 0

/-- R486: the recorded digests that this member compares: every role's at the lead, elsewhere its own. -/
def auditRoles (s : State) (x : AuditStep) : List (Nat × W64) := x.roles.filter (fun p => isLead s || decide (p.1 = memberIndex s))

/-- R486: the replayed step has the recorded digests. -/
def auditMatches (d : DecisionMsg) (x : AuditStep) (s : State) : Bool :=
  decide (d.sliceDigest = x.sliceDigest) && (auditRoles s x).all (fun p => decide (p.2 = auditDigest s p.1))

/-- R486, R533: the state in which the comparison is reported. -/
def auditReported (k : CmdRef) (r : RunCmd) (x : AuditStep) (s : State) : State :=
  setProgress k (r.done + 1)
    ((auditRoles s x).foldl (fun u p => addRecord k (auditRecord x.epoch (p.1, p.2, auditDigest s p.1)) u) s)

/-- R399, R486: the anchor and the momentum that a replayed outer step leaves. -/
def auditAnchored (x : AuditStep) (s : State) : State :=
  if x.outer then
    s.withSite { s.site with
      anchor := (roleCodes s (committed s) .param).map (BitVec.ofNat 16), momentum := s.site.nextMomentum, accepted := [], boundary := 0 }
  else s

/-- R485: the run of an audit with the steps that remain. -/
def auditAdvanced (r : RunCmd) (rest : List AuditStep) (s : State) : State :=
  s.withStep { s.step with run := some { r with audit := some rest, done := r.done + 1, stepsLeft := r.stepsLeft - 1 } }

/-- R486: the replayed step is committed. -/
def auditCommitted (d : DecisionMsg) (k : CmdRef) (r : RunCmd) (x : AuditStep) (rest : List AuditStep) (s : State) : State :=
  auditAdvanced r rest (auditAnchored x (residencyDecisions d.promoted (fillThin (flipBuffers d (auditReported k r x s)))))

/-- R486: a replayed step that does not match ends the audit; one that does is committed, and the last one ends it. -/
theorem commitAudit_cons {r : RunCmd} {k : CmdRef} (hcmd : r.cmd = some k) (d : DecisionMsg) (x : AuditStep) (rest : List AuditStep)
    (s : State) :
    commitAudit d r (x :: rest) s =
      if !auditMatches d x s then
        endAudit rIntegrityFail (abandonAttempt (auditReported k r x s).step.attempt (auditReported k r x s))
      else if rest = [] then endAudit rOK (auditCommitted d k r x rest s) else beginAudit (auditCommitted d k r x rest s) := by
  unfold commitAudit
  dsimp -zeta only
  extract_lets own replayed seen same reported flipped site anchored steps advanced
  have hreported : reported = auditReported k r x s := by
    simp only [reported, hcmd]
    rfl
  have hflipped : flipped = residencyDecisions d.promoted (fillThin (flipBuffers d reported)) := rfl
  clear_value flipped reported
  subst hflipped hreported
  rfl

@[simp] theorem runParts_auditReported (k : CmdRef) (r : RunCmd) (x : AuditStep) (s : State) : (auditReported k r x s).runParts = s.runParts := by
  rw [auditReported, runParts_setProgress]
  exact foldl_keeps State.runParts _ (by simp) _ s

@[simp] theorem runParts_auditCommitted (d : DecisionMsg) (k : CmdRef) (r : RunCmd) (x : AuditStep) (rest : List AuditStep) (s : State) :
    (auditCommitted d k r x rest s).runParts = (flipBuffers d (auditReported k r x s)).runParts := by
  simp [auditCommitted, auditAdvanced, auditAnchored, apply_ite State.runParts]

theorem auditMatches_of_differs {d : DecisionMsg} {x : AuditStep} (hdiffers : d.sliceDigest ≠ x.sliceDigest) (s : State) :
    auditMatches d x s = false := by
  simp [auditMatches, hdiffers]

/-- R486: away from the lead the slice digest and the member's own digest decide. -/
theorem auditMatches_of_own {d : DecisionMsg} {x : AuditStep} {s : State} (hslice : d.sliceDigest = x.sliceDigest)
    (hmember : isLead s = false) (hroles : ∀ p ∈ x.roles, p.1 = memberIndex s → p.2 = digestOf (shadow s)) : auditMatches d x s = true := by
  have hall : (auditRoles s x).all (fun p => decide (p.2 = auditDigest s p.1)) = true := by
    refine List.all_eq_true.2 fun p hp => ?_
    obtain ⟨hmem, hseen⟩ := List.mem_filter.1 hp
    have hself : p.1 = memberIndex s := by simpa [hmember] using hseen
    simpa [auditDigest, hself] using hroles p hmem hself
  simp [auditMatches, hslice, hall]

/-! ### O13 -/

/-- R168, R184: buffers flipped on the job and the tensors of s, and the rest as it was. -/
theorem flipped_of_runParts {d : DecisionMsg} {s t u : State} (hu : u.runParts = s.runParts) (ht : t.runParts = (flipBuffers d u).runParts) :
    t.job.bufSel = (!s.job.bufSel) ∧ t.job.epoch = d.epoch ∧ (d.outer = false → t.job.cursors = advanceCursors s) ∧
    committed t = shadow s ∧ shadow t = committed s ∧ t.tens = s.tens ∧ t.load = s.load ∧ t.slice = s.slice ∧ t.ports = s.ports := by
  obtain ⟨hjobU, htensU, -, hloadU, hsliceU, hportsU⟩ := runParts_eq_iff.1 hu
  obtain ⟨hjob, htens, -, hload, hslice, hports⟩ := runParts_eq_iff.1 ht
  have hsel : t.job.bufSel = !s.job.bufSel := by rw [hjob, ← hjobU]; rfl
  have htens' : t.tens = s.tens := htens.trans htensU
  refine ⟨hsel, by rw [hjob]; rfl, fun hinner => ?_, ?_, ?_, htens', hload.trans hloadU, hslice.trans hsliceU, hports.trans hportsU⟩
  · rw [hjob]
    change (if d.outer then u.job.cursors else advanceCursors u) = _
    simp [hinner, advanceCursors, hjobU, hloadU]
  · rw [committed, shadow, hsel, htens']
    cases s.job.bufSel <;> rfl
  · rw [committed, shadow, hsel, htens']
    cases s.job.bufSel <;> rfl

/-- Settles O13: a COMMIT flips the buffers of a state that differs from the one before in what was logged and reported
(`commitStep_of_last`, `commitAudit_cons`), and what follows leaves the job, the tensors, the load, the slice and the ports alone. -/
theorem commitInvertsTheBufferSelect : Obligations.CommitInvertsTheBufferSelect := by
  unfold Obligations.CommitInvertsTheBufferSelect
  refine ⟨?last, ?stale, ?audit⟩
  case last =>
    intro s d r k hrun heval hcmd haudit hlast hepoch
    obtain ⟨u, v, result, hu, hv, hend⟩ := commitStep_of_last hrun heval hepoch hcmd haudit hlast
    refine ⟨_, congrArg Host.Outcome.next hend, ?_⟩
    obtain ⟨hsel, hnow, hcursors, hcommitted, hshadow, htens, hload, hslice, hports⟩ :=
      flipped_of_runParts hu ((runParts_endRun result {} v).trans hv)
    exact ⟨hsel, hnow, hcursors, hcommitted, hshadow, htens, endRun_run .., hload, hslice, hports⟩
  case stale =>
    intro s d r hrun hstale
    exact congrArg Host.Outcome.next (commitStep_of_stale hrun hstale)
  case audit =>
    intro s d r k x rest hrun heval hepoch haudit hcmd
    have hcommit := commitStep_of_audit hrun heval hepoch haudit
    refine ⟨fun hdiffers => ?_, fun hsame hmember hroles hrest => ?_⟩
    · have hend := hcommit.trans ((commitAudit_cons hcmd d x rest s).trans (if_pos (by rw [auditMatches_of_differs hdiffers]; rfl)))
      refine ⟨_, congrArg Host.Outcome.next hend, endAudit_run .., ?_⟩
      obtain ⟨hjobU, -, -, hloadU, hsliceU, hportsU⟩ := runParts_eq_iff.1 (runParts_auditReported k r x s)
      obtain ⟨hjob, -, -, hload, hslice, hports⟩ := runParts_eq_iff.1 (runParts_endAudit rIntegrityFail
        (abandonAttempt (auditReported k r x s).step.attempt (auditReported k r x s)))
      simp [hjob, hload, hslice, hports, hjobU, hloadU, hsliceU, hportsU]
    · have hmatches := auditMatches_of_own hsame hmember hroles
      have hend := hcommit.trans ((commitAudit_cons hcmd d x rest s).trans ((if_neg (by simp [hmatches])).trans (if_pos hrest)))
      refine ⟨_, congrArg Host.Outcome.next hend, endAudit_run .., ?_⟩
      obtain ⟨hsel, hnow, -, -, -, -, hload, hslice, hports⟩ := flipped_of_runParts (runParts_auditReported k r x s)
        ((runParts_endAudit rOK _).trans (runParts_auditCommitted d k r x rest s))
      exact ⟨hsel, hnow, hload, hslice, hports⟩

end Sys2Proof.Machine

namespace Sys2Proof.Machine

/-! ### What every command keeps -/

/-- A command either leaves the kept parts alone or takes them from one state of the invariant to the next. -/
theorem okNext_of_kept_or_ok {p : List Instr} {r : Result} {s : State} (hs : Ok p s.kept) (h : KeepsKept r s ∨ OkNext p r) : OkNext p r :=
  h.elim (fun hkept => keepsKept_ok p r s hkept hs) id

/-- Every command keeps the memories canonical, the partner slots apart and the queue: its own law under Laws/Keeps says so. -/
theorem exec_ok {p : List Instr} {s : State} (hs : Ok p s.kept) (c : Instr) : OkNext p (exec c s) := by
  refine okNext_of_kept_or_ok hs ?_
  cases c <;> simp [exec, hs]

/-- A well-formed state satisfies the invariant of a step with its own queue, and conversely. -/
theorem ok_kept_iff {p : List Instr} {s : State} : Ok p s.kept ↔ s.wf = true ∧ s.pending = p := by
  have hpending : s.kept.pending = s.pending := rfl
  simp [Ok, State.wf, State.memWf, State.slotsWf, and_assoc, hpending]

/-- Settles O1: it is how a step takes a command. -/
theorem commandsRunFromTheFront : Obligations.CommandsRunFromTheFront := by
  intro s c rest hqueue
  simp only [step, hqueue]

/-- Settles O5, by the invariant of a step (`exec_ok`). -/
theorem commandsLeaveTheQueueAlone : Obligations.CommandsLeaveTheQueueAlone := by
  intro s t c hwf hexec
  exact (ok_kept_iff.1 (exec_ok (ok_kept_iff.2 ⟨hwf, rfl⟩) c t hexec)).2

/-- Settles O4: a tick keeps the invariant (`idleTick_ok`), and so does a command on the queue's rest (`exec_ok`). -/
theorem stepsKeepStatesWellFormed : Obligations.StepsKeepStatesWellFormed := by
  intro s t hwf hstep
  cases hqueue : s.pending with
  | nil =>
    have htick : step s = .next (idleTick s) := by simp only [step, hqueue]
    obtain rfl : idleTick s = t := Host.Outcome.next.inj (htick.symm.trans hstep)
    exact (ok_kept_iff.1 (idleTick_ok [] s (ok_kept_iff.2 ⟨hwf, hqueue⟩))).1
  | cons c rest =>
    have hrest : Ok rest (s.withPending rest).kept := ok_kept_iff.2 ⟨hwf, rfl⟩
    rw [commandsRunFromTheFront s c rest hqueue] at hstep
    exact (ok_kept_iff.1 (exec_ok hrest c t hstep)).1

/-- Settles O3: the reset values are those of the register tables, and the empty images are canonical. -/
theorem resetHoldsTheStatedValues : Obligations.ResetHoldsTheStatedValues :=
  ⟨⟨rfl, rfl, rfl, rfl, rfl, rfl⟩, by decide⟩

end Sys2Proof.Machine

namespace Sys2Proof.Machine

/-! ### What an answer to the host leaves alone (R508 to R518) -/

/-- From s to t a command has at most written records, written status words and sent messages. -/
structure Answered (s t : State) : Prop where
  rest : t = ((s.withMbx t.mbx).withMem t.mem).withOut t.out
  job : t.mbx.job = s.mbx.job

theorem Answered.refl (s : State) : Answered s s := ⟨rfl, rfl⟩

theorem Answered.trans {s t u : State} (h : Answered s t) (h' : Answered t u) : Answered s u where
  rest := by rw [h'.rest, h.rest]; rfl
  job := h'.job.trans h.job

theorem answered_emits (os : List Out) (s : State) : Answered s (emits os s) := ⟨rfl, rfl⟩

theorem answered_emit (o : Out) (s : State) : Answered s (emit o s) := ⟨rfl, rfl⟩

theorem answered_sendIdents (s : State) : Answered s (sendIdents s) := answered_emits _ s

theorem answered_addRecord (k : CmdRef) (b : Bytes) (s : State) : Answered s (addRecord k b s) where
  rest := by apply State.eq_of_parts <;> simp
  job := by simp

theorem answered_finishWith (k : CmdRef) (result : Nat) (x : Cause) (s : State) : Answered s (finishWith k result x s) where
  rest := by apply State.eq_of_parts <;> simp
  job := by simp

theorem answered_finish (k : CmdRef) (result : Nat) (s : State) : Answered s (finish k result s) := answered_finishWith k result {} s

/-! ### Agreement on a slice command (R521) -/

/-- R521: reports that all agree with the lead's name no member. -/
theorem firstMismatch_of_agree {op : Nat} {lead : AgreeReport} {l : List AgreeReport} (h : ∀ r ∈ l, reportDiff op lead r = none) :
    firstMismatch op lead l = none := by
  induction l with
  | nil => rfl
  | cons r l ih =>
    have hhead := h r List.mem_cons_self
    have htail := ih fun x hx => h x (List.mem_cons_of_mem r hx)
    simp [firstMismatch, hhead, htail]

section Agreement

variable {s : State} {k : CmdRef} {c : Cmd}

/-- R521: with a report of every member the lead's decides. -/
theorem sliceAgreement_of_all {reports : List AgreeReport} {lead : AgreeReport} (hcmd : findCmd s k = some c)
    (hlead : (allReports s c reports).find? (fun r => r.member = leadIndex s) = some lead) (hslice : isSliceOp (cmdOp c) = true)
    (hrepeat : c.isRepeat = false) (hagreed : c.agreed = false)
    (hall : ∀ m, m < memberCount s → ∃ r ∈ allReports s c reports, r.member = m) :
    sliceAgreement k reports s = match firstMismatch (cmdOp c) lead (allReports s c reports) with
      | none => updCmd k (fun c => { c with agreed := true }) s
      | some (m, f) => finishWith k rMismatch { member := m, field := f } (emit (.cmdVerdict k m (BitVec.ofNat 8 f)) s) := by
  have hevery : (List.range (memberCount s)).all (fun m => (allReports s c reports).any (fun r => decide (r.member = m))) = true := by
    simpa [List.all_eq_true, List.any_eq_true] using hall
  unfold sliceAgreement
  rw [hcmd]
  dsimp only
  rw [hlead]
  dsimp only
  exact if_pos (by simp [hslice, hrepeat, hagreed, hevery])

/-- R521: a command that a member lacks ends when the lead has waited, and at another member when the lead says so. -/
theorem cmdAbsent_of_due {absent : Nat} (hcmd : findCmd s k = some c) (hslice : isSliceOp (cmdOp c) = true) (hload : cmdOp c ≠ 0x20)
    (hrepeat : c.isRepeat = false) (hagreed : c.agreed = false)
    (hdue : isLead s = true → cmdWaitTicks ≤ (s.awn.tick - c.takenAt).toNat) :
    cmdAbsent k absent s = finishWith k rMismatch { member := absent, field := 0x04 }
      (if isLead s then emit (.cmdVerdict k absent 0x04) s else s) := by
  unfold cmdAbsent
  rw [hcmd]
  exact if_pos (by cases h : isLead s <;> simp_all)

end Agreement

/-! ### HELLO, JOB_OPEN, JOB_CLOSE and SLICE_JOIN (R286, R287, R525 to R527) -/

/-- R525: a HELLO whose values the torus allows stores them. -/
theorem answered_hello {s : State} {k : CmdRef} {c : Cmd} {xyz l : Nat × Nat × Nat} {board : W64} (hready : ready s k 0x01 = some c)
    (hvalues : helloValues c = (xyz, l, board)) (hlens : lensOk l = true) (hcoords : coordsOk xyz l = true)
    (hjob : s.mbx.job = .noHello ∨ s.mbx.job = .idle) :
    Answered ((s.withSlice { s.slice with coords := some xyz, lens := l, board := board }).withMbx { s.mbx with job := .idle }) (hello k s) := by
  have hhello : hello k s = finish k rOK (addRecord k (identityRecord ((s.withSlice { s.slice with coords := some xyz, lens := l, board := board }).withMbx
      { s.mbx with job := .idle })) (sendIdents ((s.withSlice { s.slice with coords := some xyz, lens := l, board := board }).withMbx
      { s.mbx with job := .idle }))) := by
    simp [hello, hready, hvalues, hlens, hcoords, hjob]
    rfl
  rw [hhello]
  exact ((answered_sendIdents _).trans (answered_addRecord ..)).trans (answered_finish ..)

/-- R526: what JOB_OPEN sets before it answers. -/
def jobOpened (c : Cmd) (s : State) : State :=
  let j := jobOf (jobBlock s c) s.job
  (((s.withJob j).withSnap { s.snap with
    failures := [], times := [], flashAt := s.awn.tick, storeAt := s.awn.tick,
    interval := partnerInterval 1000000000 (j.mtbf.toNat * 1000000000 / memberCount s) }).withHouse
      { s.house with totals := [] }).withMbx { s.mbx with job := .opened }

theorem answered_jobOpen {s : State} {k : CmdRef} {c : Cmd} (hready : ready s k 0x10 = some c) (hblock : jobBlockBad (jobBlock s c) = false) :
    Answered (jobOpened c s) (jobOpen k s) := by
  have hopen : jobOpen k s = finish k rOK (jobOpened c s) := by
    unfold jobOpen
    rw [hready]
    exact if_neg (by simp [hblock])
  exact hopen ▸ answered_finish ..

/-- R527: JOB_CLOSE discards the job, whatever it announces and answers. -/
theorem answered_jobClose {s : State} {k : CmdRef} {c : Cmd} (hready : ready s k 0x11 = some c) :
    ∃ u, Answered s u ∧ Answered ((discardJob u).withMbx { u.mbx with job := .idle }) (jobClose k s) := by
  refine ⟨if 1 < memberCount s then emit (.selfFailed 9) s else s, ?_, ?_⟩
  · split
    · exact answered_emit _ s
    · exact .refl s
  · unfold jobClose
    rw [hready]
    exact (answered_sendIdents _).trans (answered_finish ..)

/-- R287: a SLICE_JOIN that nothing conflicts with stores the slice. -/
theorem answered_sliceJoin {s : State} {k : CmdRef} {c : Cmd} {id : W32} {l o a : Nat × Nat × Nat} (hready : ready s k 0x21 = some c)
    (hargs : joinArgs c = (id, l, o, a)) (hblock : joinBad s l o a = false) (hx : crossesWrap o.1 a.1 l.1 = false)
    (hy : crossesWrap o.2.1 a.2.1 l.2.1 = false) (hz : crossesWrap o.2.2 a.2.2 l.2.2 = false) (hslice : s.slice.sliceId = none)
    (hprog : s.load.prog = none) (hneighbours : neighbourConflict s id o a l = false) :
    Answered (s.withSlice { s.slice with sliceId := some id, origin := o, extent := a }) (sliceJoin k s) := by
  have hjoin : sliceJoin k s = finish k rOK (sendIdents (s.withSlice { s.slice with sliceId := some id, origin := o, extent := a })) := by
    simp [sliceJoin, hready, hargs, hblock, hx, hy, hz, hslice, hprog, hneighbours]
  rw [hjoin]
  exact (answered_sendIdents _).trans (answered_finish ..)

/-! ### O7 -/

/-- Settles O7: each command of the job sets its fields and then answers the host, which touches the mailbox, the memory and the
messages alone (`Answered`). -/
theorem commandsAgreeAndChangeTheJob : Obligations.CommandsAgreeAndChangeTheJob := by
  unfold Obligations.CommandsAgreeAndChangeTheJob
  refine ⟨⟨?agreement, ?absent⟩, ?hello, ?opened, ?close, ?join⟩
  case agreement =>
    intro s k c reports lead hcmd hlead hslice hrepeat hagreed hall
    have hdecide := sliceAgreement_of_all hcmd hlead hslice hrepeat hagreed hall
    refine ⟨fun hagree => congrArg Host.Outcome.next (hdecide.trans ?_), fun m f hdiff => congrArg Host.Outcome.next (hdecide.trans ?_)⟩
    · rw [firstMismatch_of_agree hagree]
    · rw [hdiff]
  case absent =>
    intro s k c absent hcmd hslice hload hrepeat hagreed
    refine ⟨fun hlead hlate => congrArg Host.Outcome.next ?_, fun hmember => congrArg Host.Outcome.next ?_⟩
    · rw [cmdAbsent_of_due hcmd hslice hload hrepeat hagreed fun _ => hlate, if_pos hlead]
    · rw [cmdAbsent_of_due hcmd hslice hload hrepeat hagreed fun hlead => absurd hlead (by simp [hmember]), if_neg (by simp [hmember])]
  case hello =>
    intro s k c xyz l board hready hvalues hlens hcoords hjob
    obtain ⟨hrest, hidle⟩ := answered_hello hready hvalues hlens hcoords hjob
    refine ⟨hello k s, rfl, ?_⟩
    generalize hello k s = t at *
    rw [hrest]
    exact ⟨rfl, rfl, hidle, rfl, rfl, rfl, rfl⟩
  case opened =>
    intro s k c hready hblock
    obtain ⟨hrest, hopened⟩ := answered_jobOpen hready hblock
    refine ⟨jobOpen k s, rfl, ?_⟩
    generalize jobOpen k s = t at *
    rw [hrest]
    refine ⟨rfl, hopened, ?_⟩
    simp [jobOpened]
  case close =>
    intro s k c hready
    obtain ⟨u, ⟨hbefore, -⟩, hrest, hidle⟩ := answered_jobClose hready
    refine ⟨jobClose k s, rfl, ?_⟩
    generalize jobClose k s = t at *
    rw [hrest, hbefore]
    refine ⟨hidle, ?_⟩
    simp [discardJob, houseAfterJob]
  case join =>
    intro s k c id l o a hready hargs hblock hx hy hz hslice hprog hneighbours
    obtain ⟨hrest, -⟩ := answered_sliceJoin hready hargs hblock hx hy hz hslice hprog hneighbours
    refine ⟨sliceJoin k s, rfl, ?_⟩
    generalize sliceJoin k s = t at *
    rw [hrest]
    exact ⟨rfl, rfl, rfl, rfl, rfl⟩

end Sys2Proof.Machine

namespace Sys2Proof.Machine

/-! ### STEP_RUN, EVAL_RUN and the steps of a site (R169 to R172, R395, R423, R529) -/

/-- R529: a STEP_RUN that nothing refuses begins its first step, unless a set FIRST_EPOCH is not that of the next step. -/
theorem stepRun_of_agreed {s : State} {k : CmdRef} {c : Cmd} (hready : ready s k 0x30 = some c) (hrun : s.step.run = none)
    (hjob : s.mbx.job ≠ .site) (hprog : s.load.prog.isSome = true) (hok : stepRunBad s c = false) (hagreed : agreedHere s c = true)
    (hpaused : s.snap.paused = false) : stepRun k s =
    if srFirst c ≠ 0 ∧ srFirst c ≠ (s.job.epoch + 1).toNat then
      finishWith k rMismatch { member := memberIndex s, field := 0x1D } s
    else beginStep (stepInputs c 0 (s.withStep { s.step with run := some {
      cmd := some k, eval := false, evalList := 0, drawBase := 0, cursor := 0, loader := decide (srInput c = 0),
      stepsLeft := srSteps c, done := 0, worst := 0 } })) := by
  unfold stepRun
  rw [hready]
  dsimp only
  rw [hrun]
  dsimp only
  rw [if_neg hjob, if_neg (by simpa [Option.isSome_iff_ne_none] using hprog), if_neg (by simp [hok]), if_neg (by simp [hagreed, hpaused])]

/-- R169: an EVAL_RUN with sentences begins once its slice agrees. -/
theorem evalRun_of_agreed {s : State} {k : CmdRef} {c : Cmd} (hready : ready s k 0x31 = some c) (hrun : s.step.run = none)
    (hprog : s.load.prog.isSome = true) (hinput : erInput c = 0) (hsentences : evalSentences s (erList c) ≠ [])
    (hagreed : agreedHere s c = true) : evalRun k s = beginEval k c s := by
  unfold evalRun
  rw [hready]
  dsimp only
  rw [hrun]
  dsimp only
  rw [if_neg (by simpa [Option.isSome_iff_ne_none] using hprog), if_neg (by simp [hinput, hsentences]), if_neg (by simp [hagreed]), if_neg (by simp [hinput])]

/-- R533: the SUMMARY records are written to the host's memory; the sentences of a list stand in the load. -/
theorem evalSentences_addRecords (k : CmdRef) (f : State → Nat × Nat → Bytes) (slots : List (Nat × Nat)) (s : State) (l : Nat) :
    evalSentences (slots.foldl (fun s x => addRecord k (f s x) s) s) l = evalSentences s l := by
  have hload : (slots.foldl (fun s x => addRecord k (f s x) s) s).load = s.load :=
    foldl_keeps State.load (fun s x => addRecord k (f s x) s) (by simp) slots s
  rw [evalSentences, hload, evalSentences]

/-- R169, R172, R533: an evaluation whose work is done ends with its SUMMARY records. -/
theorem evalRun_of_done {s : State} {k : CmdRef} {c : Cmd} {r : RunCmd} (hready : ready s k 0x31 = some c) (hrun : s.step.run = some r)
    (hcmd : r.cmd = some k) (hdone : evalDone s r.evalList = true) :
    evalRun k s = endRun (if lateDropped s then rLateDropped else rOK) {} (clearWork
      (setProgress k (evalSentences s r.evalList).length
        ((evalSlots s r.evalList).foldl (fun s x => addRecord k (summaryRecord s x.1 x.2) s) s))) := by
  unfold evalRun
  rw [hready]
  dsimp only
  rw [hrun]
  dsimp only
  rw [if_pos ⟨hcmd, hdone⟩, evalSentences_addRecords k (fun s x => summaryRecord s x.1 x.2)]

/-- R395, R423: a site that is at no boundary, joined, not excluded and not past its last round begins an inner step. -/
theorem innerStepStart_of_due {s : State} (hjob : s.mbx.job = .site) (hrun : s.step.run = none) (hboundary : s.site.boundary = 0)
    (hjoined : s.site.joining = none) (hexcluded : s.site.excluded = false) (hpaused : s.snap.paused = false)
    (hleaving : ∀ x, s.site.leaving = some x → s.site.round ≤ x.2) :
    innerStepStart s = beginStep (s.withStep { s.step with run := some siteRun }) := by
  unfold innerStepStart
  cases hleave : s.site.leaving with
  | none => simp [hjob, hrun, hboundary, hjoined, hexcluded, hpaused]
  | some x => simp [hjob, hrun, hboundary, hjoined, hexcluded, hpaused, hleaving x hleave]

/-! ### O10 -/

/-- Settles O10, by what each command does once nothing refuses it. -/
theorem runCommandsBeginTheirSteps : Obligations.RunCommandsBeginTheirSteps := by
  unfold Obligations.RunCommandsBeginTheirSteps
  refine ⟨?stepRun, ?evalBegins, ?evalEnds, ?inner⟩
  case stepRun =>
    rintro s k c r hready hrun hjob rfl hprog hok hagreed hpaused
    have hstep := stepRun_of_agreed hready hrun hjob hprog hok hagreed hpaused
    refine ⟨fun hfirst => congrArg Host.Outcome.next (hstep.trans (if_neg ?_)), fun hset hother =>
      congrArg Host.Outcome.next (hstep.trans (if_pos ⟨hset, hother⟩))⟩
    rintro ⟨hset, hother⟩
    exact hfirst.elim hset hother
  case evalBegins =>
    intro s k c hready hrun hprog hinput hsentences hagreed
    exact congrArg Host.Outcome.next (evalRun_of_agreed hready hrun hprog hinput hsentences hagreed)
  case evalEnds =>
    intro s k c r hready hrun hcmd hdone
    exact congrArg Host.Outcome.next (evalRun_of_done hready hrun hcmd hdone)
  case inner =>
    intro s hjob hrun hboundary hjoined hexcluded hpaused hleaving
    exact congrArg Host.Outcome.next (innerStepStart_of_due hjob hrun hboundary hjoined hexcluded hpaused hleaving)

end Sys2Proof.Machine

namespace Sys2Proof.Machine

/-! ### TENSOR_WRITE and TENSOR_READ (R207, R478, R530, R531) -/

section Tensors

variable {s : State} {k : CmdRef} {c : Cmd} {t : TensorDecl} (htensor : findTensor s (twTid c) = some t)
  (hfits : twFirst c + twCount c ≤ sectionCount t) (hcount : twCount c ≠ 0)
include htensor hfits hcount

/-- R530: a TENSOR_WRITE whose buffers fit takes its sections once the transfer's detections are recorded. -/
theorem tensorWrite_of_fits (fails : Nat) (hready : ready s k 0x40 = some c) (hrun : s.step.run = none)
    (hbytes : (bufA c).bytes = twBytes t c) (hseals : (bufB c).bytes = 0 ∨ (bufB c).bytes = 8 * twCount c) :
    tensorWrite k fails s =
      let u := transferDetections fails s
      if 2 ≤ fails ∨ hostSealsOk u c (takenSections u t c) = false then
        finishWith k rIntegrityFail { tid := twTid c, logSeq := if 2 ≤ fails then transferSeq s else 0 } u
      else finish k rOK (setProgress k (((bufA c).bytes + 4095) / 4096) ((takenSections u t c).foldl (fun s x => hostStore t x s) u)) := by
  unfold tensorWrite
  rw [hready]
  dsimp only
  rw [hrun, if_neg (by simp), htensor]
  exact if_neg (by omega)

/-- R531: a TENSOR_READ of sections that are all here with good seals writes each of them and its record. -/
theorem tensorRead_of_sound (hready : ready s k 0x41 = some c) (hroom : twBytes t c ≤ (bufA c).bytes)
    (hall : ((twSections c).filterMap (readSection s t)).length = twCount c)
    (hsound : ((twSections c).filterMap (readSection s t)).any (unsound s) = false) :
    tensorRead k 0 s = finish k rOK (setProgress k ((twBytes t c + 4095) / 4096)
      (((twSections c).filterMap (readSection s t)).foldl (fun (x : State × Nat) y =>
        (addRecord k (sectionRecordOf y) (writeBuf (bufA c) x.2 (y.content ++ y.scales) x.1),
         x.2 + y.content.length + y.scales.length)) (s, 0)).1) := by
  unfold tensorRead
  rw [hready]
  dsimp only
  rw [htensor]
  dsimp only
  rw [if_neg (by omega), if_neg (by simp [hall, hsound])]
  rfl

end Tensors

/-! ### CKPT_TAKE (R532) -/

/-- A module has a partner by its snapshot state and its run. -/
theorem hasPartner_of {a b : State} (hpartner : a.snap.partner = b.snap.partner) (hrun : a.step.run = b.step.run) :
    hasPartner a = hasPartner b := by
  simp [hasPartner, hpartner, auditing, hrun]

/-- R455: whether the drive holds an image depends on the job state and the anchor. -/
theorem driveHolds_of {a b : State} (hjob : a.mbx.job = b.mbx.job) (hsite : a.site = b.site) : driveHolds a = driveHolds b := by
  funext secs
  simp [driveHolds, hjob, hsite]

section TakeNow

variable {s : State}

/-- R532: with a partner the committed buffer drains and its epoch becomes the image epoch. -/
theorem takeNow_of_partner (hpartner : hasPartner s = true) : takeNow s = s.withSnap { s.snap with
    draining := some s.job.epoch, drainOut := committed s, awaiting := some (s.job.epoch, s.awn.tick, List.range (memberCount s)),
    trigger := false, filling := if s.snap.covers.isSome then some s.job.epoch else s.snap.filling,
    before := (completeSlot s).sections } := if_pos hpartner

/-- R455, R532: with no partner the module writes its own drive when that holds the image. -/
theorem takeNow_of_room (hpartner : hasPartner s = false) (hroom : driveHolds s (committed s) = true) :
    ∃ out, takeNow s = (s.withSnap { s.snap with flashWriting := some s.job.epoch, flashMark := false }).withOut out :=
  ⟨_, (if_neg (by simp [hpartner])).trans (if_pos (Bool.and_eq_true_iff.2 ⟨hroom, rfl⟩))⟩

/-- R455, R532: with no partner and no room on the drive the image is skipped and counted. -/
theorem takeNow_of_no_room (hpartner : hasPartner s = false) (hroom : driveHolds s (committed s) = false) :
    takeNow s = s.withSnap { s.snap with flashMark := true, flashSkipped := s.snap.flashSkipped + 1 } :=
  (if_neg (by simp [hpartner])).trans (if_neg (fun h => Bool.noConfusion (hroom.symm.trans (Bool.and_eq_true_iff.1 h).1)))

end TakeNow

/-- R532: what CKPT_TAKE notes before it drains or writes. -/
def takeNoted (k : CmdRef) (layer : Nat) (s : State) : State :=
  setRunning k (s.withSnap { s.snap with take := some (k, layer), flashMark := s.snap.flashMark || decide (0 < layer) })

/-- R508, R509: a command that runs touches the mailbox and the messages alone. -/
theorem takeNoted_eq (k : CmdRef) (layer : Nat) (s : State) : ∃ mbx out, mbx.job = s.mbx.job ∧ takeNoted k layer s =
    ((s.withSnap { s.snap with take := some (k, layer), flashMark := s.snap.flashMark || decide (0 < layer) }).withMbx mbx).withOut out :=
  ⟨(takeNoted k layer s).mbx, (takeNoted k layer s).out, by simp [takeNoted], by apply State.eq_of_parts <;> simp [takeNoted]⟩

/-- R524, R532: a CKPT_TAKE of a layer of the module at the lead, while nothing runs, takes the image at once. -/
theorem ckptTake_of_idle {s : State} {k : CmdRef} {c : Cmd} (hready : ready s k 0x50 = some c) (hlayer : field c.bytes 80 1 ≤ 1)
    (hlead : isLead s = true) (htake : s.snap.take = none) (hrun : s.step.run = none) (hawait : s.snap.awaiting = none)
    (hwriting : s.snap.flashWriting = none) : ckptTake k s = takeNow (takeNoted k (field c.bytes 80 1) s) := by
  unfold ckptTake
  rw [hready]
  dsimp only
  rw [if_neg (by simp [hlead]; omega), htake, if_neg (by simp), if_neg (by simp [hrun]), if_neg (by simp [hawait, hwriting])]
  rfl

/-! ### CKPT_RESTORE and AUDIT_REPLAY (R460, R484, R486) -/

section Restore

variable {s : State} {k : CmdRef} {c : Cmd} {img : RestoreImage} (hready : ready s k 0x51 = some c) (hagreed : agreedHere s c = true)
  (hlayer : field c.bytes 80 1 ≤ 2) (hvalid : img.valid = true) (hepoch : field c.bytes 81 6 = 0)
include hready hagreed hlayer hvalid hepoch

/-- R460: an image whose manifest differs from the loaded job is refused with the member and the field. -/
theorem ckptRestore_of_mismatch {m f : Nat} (hdiff : imageMismatch s img = some (m, f)) :
    ckptRestore k img s = finishWith k rMismatch { member := m, field := f } s := by
  unfold ckptRestore
  rw [hready]
  dsimp only
  rw [if_neg (by simp [hagreed]), if_neg (by simp [hvalid, hepoch]; omega), hdiff]

/-- R460: a matching image with good seals gives the member its role. -/
theorem ckptRestore_of_match {r : RoleImage} (hmatch : imageMismatch s img = none) (hsound : imageBroken img = false)
    (hrole : img.roles.find? (fun r => r.member = memberIndex s) = some r) :
    ckptRestore k img s = finish k rOK (setProgress k r.sections.length (seedStandby (recopyReplicas (fillThin (installRole r s))))) := by
  unfold ckptRestore
  rw [hready]
  dsimp only
  rw [if_neg (by simp [hagreed]), if_neg (by simp [hvalid, hepoch]; omega), hmatch]
  dsimp only
  rw [if_neg (by simp [hsound]), hrole]

end Restore

/-- R484 to R486: an AUDIT_REPLAY whose records and image fit installs the image and begins the recorded steps. -/
theorem auditReplay_of_match {s : State} {k : CmdRef} {c : Cmd} {a : AuditRun} {r : RoleImage} (hready : ready s k 0xA0 = some c)
    (hagreed : agreedHere s c = true) (hrun : s.step.run = none) (hspan : field c.bytes 80 6 < field c.bytes 86 6)
    (hlayer : field c.bytes 92 1 ≤ 2) (hvalid : a.image.valid = true)
    (hrecords : auditRecords s a (field c.bytes 80 6) (field c.bytes 86 6) = true) (hmatch : imageMismatch s a.image = none)
    (hrole : a.image.roles.find? (fun r => r.member = memberIndex s) = some r) (hepoch : r.epoch.toNat = field c.bytes 80 6)
    (hsound : imageBroken a.image = false) :
    auditReplay k a s = beginAudit (fillThin ((installRole r s).withStep { (installRole r s).step with run := some {
      cmd := some k, eval := false, evalList := 0, drawBase := 0, cursor := 0, audit := some a.steps,
      stepsLeft := a.steps.length, done := 0, worst := 0 } })) := by
  unfold auditReplay
  rw [hready]
  dsimp only
  rw [if_neg (by simp [hrun, hagreed]), if_neg (by simp [hvalid]; omega), if_neg (by simp [hrecords]), hmatch]
  dsimp only
  rw [hrole]
  dsimp only
  rw [if_neg (by simp [hepoch]), if_neg (by simp [hsound])]

/-! ### O11 -/

/-- Settles O11: the commands by what they do once nothing refuses them; CKPT_TAKE takes the image on a state that differs in the
command noted (`ckptTake_of_idle`), by a drain or, with no partner, by a write that room on the drive alone decides
(`takeNow_of_partner`, `takeNow_of_room`). -/
theorem tensorsAndCheckpointsMoveSections : Obligations.TensorsAndCheckpointsMoveSections := by
  unfold Obligations.TensorsAndCheckpointsMoveSections
  refine ⟨⟨?write, ?read⟩, ?take, ?restored, ?differs, ?audit⟩
  case write =>
    intro s k c t fails hready hrun htensor hfits hcount hbytes hseals
    have hwrite := tensorWrite_of_fits htensor hfits hcount fails hready hrun hbytes hseals
    refine ⟨?_, ?_, ?_⟩
    · rintro rfl hgood
      exact congrArg Host.Outcome.next (hwrite.trans (if_neg (by simpa [transferDetections] using hgood)))
    · rintro rfl hbad
      exact congrArg Host.Outcome.next (hwrite.trans (if_pos (.inr hbad)))
    · intro hfails
      refine congrArg Host.Outcome.next (hwrite.trans ((if_pos (.inl hfails)).trans ?_))
      rw [if_pos hfails]
  case read =>
    intro s k c t hready htensor hfits hcount hroom hall hsound
    exact congrArg Host.Outcome.next (tensorRead_of_sound htensor hfits hcount hready hroom hall hsound)
  case take =>
    rintro s k c layer hready rfl hlayer hlead htake hrun hawait hwriting
    have hidle := ckptTake_of_idle hready hlayer hlead htake hrun hawait hwriting
    refine ⟨_, congrArg Host.Outcome.next hidle, ?_⟩
    obtain ⟨mbx, out, hjob, hnoted⟩ := takeNoted_eq k (field c.bytes 80 1) s
    have hsame : hasPartner (takeNoted k (field c.bytes 80 1) s) = hasPartner s := hasPartner_of (by rw [hnoted]; rfl) (by rw [hnoted]; rfl)
    have hdrive : driveHolds (takeNoted k (field c.bytes 80 1) s) (committed (takeNoted k (field c.bytes 80 1) s)) =
        driveHolds s (committed s) := by
      rw [driveHolds_of (b := s) (by rw [hnoted]; exact hjob) (by rw [hnoted]; rfl), hnoted]
      rfl
    cases hpartner : hasPartner s with
    | true =>
      rw [takeNow_of_partner (hsame.trans hpartner), hnoted]
      exact ⟨rfl, rfl, fun _ => ⟨rfl, rfl, rfl, hwriting, rfl⟩, nofun, rfl, rfl, rfl, rfl⟩
    | false =>
      cases hroom : driveHolds s (committed s) with
      | true =>
        obtain ⟨out', hwritten⟩ := takeNow_of_room (hsame.trans hpartner) (hdrive.trans hroom)
        rw [hwritten, hnoted]
        exact ⟨rfl, rfl, nofun, fun _ => ⟨rfl, rfl, rfl, rfl, rfl⟩, rfl, rfl, rfl, rfl⟩
      | false =>
        rw [takeNow_of_no_room (hsame.trans hpartner) (hdrive.trans hroom), hnoted]
        exact ⟨rfl, rfl, nofun, fun _ => ⟨rfl, rfl, hwriting, rfl, rfl⟩, rfl, rfl, rfl, rfl⟩
  case restored =>
    intro s k c img r hready hagreed hlayer hvalid hepoch hmatch hsound hrole
    exact congrArg Host.Outcome.next (ckptRestore_of_match hready hagreed hlayer hvalid hepoch hmatch hsound hrole)
  case differs =>
    intro s k c img m f hready hagreed hlayer hvalid hepoch hdiff
    exact congrArg Host.Outcome.next (ckptRestore_of_mismatch hready hagreed hlayer hvalid hepoch hdiff)
  case audit =>
    rintro s k c a r run hready hagreed hrun hspan hlayer hvalid hrecords hmatch hrole hepoch hsound rfl
    exact congrArg Host.Outcome.next
      (auditReplay_of_match hready hagreed hrun hspan hlayer hvalid hrecords hmatch hrole hepoch hsound)

end Sys2Proof.Machine

namespace Sys2Proof.Machine

/-! ### PREPARED (R431 to R433) -/

/-- R433: a member other than the lead holds no PREPARED. -/
theorem holdPrepared_of_member {s : State} (hmember : isLead s = false) (m : PreparedMsg) : holdPrepared m s = s :=
  if_pos (by simp [hmember])

/-- R433: the lead holds the last PREPARED of each role, of the running attempt, and decides. -/
theorem holdPrepared_of_lead {s : State} {m : PreparedMsg} (hlead : isLead s = true) (hrun : s.step.run.isSome = true)
    (heval : inEval s = false) (hepoch : m.epoch = runningEpoch s) (hattempt : m.attempt = s.step.attempt) :
    holdPrepared m s = decideCommit (s.withStep { s.step with held := s.step.held.filter (fun x => x.role ≠ m.role) ++ [m] }) := by
  have hsome : s.step.run ≠ none := Option.isSome_iff_ne_none.1 hrun
  exact if_neg (by simp [hlead, hsome, heval, hepoch, hattempt])

/-- R432: at a member other than the lead a PREPARED leaves and nothing else happens. -/
theorem sendPrepared_of_member {s : State} (hmember : isLead s = false) (m : PreparedMsg) : sendPrepared m s = emit (.prepared m) s :=
  holdPrepared_of_member (by simpa using hmember) m

/-! ### The decision (R433, R453) -/

section Decision

variable {s : State}

/-- R433: nothing is decided while a role's PREPARED is missing. -/
theorem decideCommit_of_missing (hall : (List.range (memberCount s)).all (fun i => s.step.held.any (fun m => m.role = i)) = false) :
    decideCommit s = s := if_pos (by rw [hall]; simp)

/-- R433, R489: the decision in the Logbook leaves the job, the snapshot and the run alone. -/
theorem hasPartner_logDecision (d : DecisionMsg) (s : State) : hasPartner (logDecision d s) = hasPartner s := by
  unfold logDecision logCommit
  dsimp only
  split
  · rfl
  · exact hasPartner_of (by simp) (by simp)

/-- R433: with every role's PREPARED and no snapshot due the lead logs its decision, and tells its partner or commits. -/
theorem decideCommit_of_all (hnew : s.step.decision = none)
    (hall : (List.range (memberCount s)).all (fun i => s.step.held.any (fun m => m.role = i)) = true) (hsnap : snapDue s = false) :
    decideCommit s = if hasPartner s then emit (.decision (decisionOf s)) (logDecision (decisionOf s) s)
      else commitStep (decisionOf s) (emit (.commit (decisionOf s)) (logDecision (decisionOf s) s)) := by
  have hplain : (decisionOf s).snap = false := hsnap
  unfold decideCommit
  rw [if_neg (by rw [hall]; simp [hnew])]
  dsimp only
  rw [hplain, if_neg Bool.false_ne_true, hasPartner_logDecision]

end Decision

/-! ### O12 -/

/-- Settles O12, by what a PREPARED does at the lead and elsewhere, and by what the lead decides with and without a role missing. -/
theorem preparedMembersAreDecidedOn : Obligations.PreparedMembersAreDecidedOn := by
  unfold Obligations.PreparedMembersAreDecidedOn
  refine ⟨⟨?send, ?resend, ?held, ?kept, ?acked⟩, ?decided, ?logged⟩
  case send =>
    intro s hready hnew hmember
    have hsend := sendPrepared_of_member (s := s.withStep { s.step with prepared := true, preparedAt := s.awn.tick })
      (by simpa using hmember) (preparedMsg s)
    exact congrArg Host.Outcome.next ((if_pos (by simp [hready, hnew])).trans hsend)
  case resend =>
    intro s hsent hrun hmember
    refine congrArg Host.Outcome.next ?_
    unfold preparedResend
    by_cases hdue : 1000000 ≤ (s.awn.tick - s.step.preparedAt).toNat
    · have hsend := sendPrepared_of_member (s := s.withStep { s.step with preparedAt := s.awn.tick }) (by simpa using hmember)
        (preparedMsg s)
      rw [if_pos (by rw [hsent, hrun, decide_eq_true hdue]; rfl), if_pos hdue, hsend]
    · rw [if_neg (by rw [decide_eq_false hdue]; simp), if_neg hdue]
  case held =>
    intro s m hlead hrun heval hepoch hattempt hcovers
    refine congrArg Host.Outcome.next ((?_ : preparedArrives m s = holdPrepared m s).trans
      (holdPrepared_of_lead hlead hrun heval hepoch hattempt))
    rw [preparedArrives, if_neg hcovers]
  case kept =>
    intro s m hcovers hrun hepoch
    exact congrArg Host.Outcome.next (if_pos ⟨hcovers, hrun, hepoch⟩)
  case acked =>
    intro s d hdecision hlead
    refine congrArg Host.Outcome.next ?_
    simp [decisionAck, hdecision, hlead]
  case decided =>
    intro s hnew
    refine ⟨decideCommit_of_missing, fun hall hsnap hpartner => ?_, fun hall hpartner => ?_⟩
    · rw [decideCommit_of_all hnew hall hsnap, if_pos hpartner]
    · rw [decideCommit_of_all hnew hall (by simp [snapDue, hpartner]), if_neg (by simp [hpartner])]
  case logged =>
    intro s d haudit
    exact if_neg fun h => Bool.noConfusion (haudit.symm.trans h)

end Sys2Proof.Machine

namespace Sys2Proof.Machine

/-! ### Mirrors (R430, R432, R474) -/

section Mirror

variable {s : State} {index : Nat} {sec : Section} {last : Option MirrorRecord} (hcovers : s.snap.covers.isSome = true)
  (hidle : s.snap.updating = none)
include hcovers hidle

/-- R432: a section whose seal matches is kept and acknowledged. -/
theorem mirrorSection_of_sealed (hseal : sealOf sec.desc sec.content sec.scales sec.record = sec.sealWord) :
    mirrorSection (runningEpoch s) index sec last s = emit (.mirrorAck (runningEpoch s) index) (s.withSnap { s.snap with
      mirror := (if s.snap.mirrorEpoch = runningEpoch s then s.snap.mirror else []) ++ [sec], mirrorEpoch := runningEpoch s,
      mirrorRec := match last with | some r => some r | none => s.snap.mirrorRec,
      mirrorDone := last.isSome }) := by
  have hsome : s.snap.covers ≠ none := Option.isSome_iff_ne_none.1 hcovers
  unfold mirrorSection
  rw [if_neg (by simp [hsome, hidle])]
  exact if_neg (by simp [hseal])

/-- R432, R474: a section whose seal differs is a detection, and the attempt is suspect. -/
theorem mirrorSection_of_broken (hseal : sealOf sec.desc sec.content sec.scales sec.record ≠ sec.sealWord) :
    mirrorSection (runningEpoch s) index sec last s = markSuspect .none (nextSeq s)
      (countDetection 10 .none 0 (sealOf sec.desc sec.content sec.scales sec.record) sec.sealWord s) := by
  have hsome : s.snap.covers ≠ none := Option.isSome_iff_ne_none.1 hcovers
  unfold mirrorSection
  rw [if_neg (by simp [hsome, hidle]), if_pos hseal]

end Mirror

/-! ### Failed members (R436 to R445) -/

/-- R436: a member that the lead misses and that has not failed yet is announced as failed. -/
theorem heartbeatMissed_at_lead {s : State} {m : Nat} (hlead : isLead s = true) (hother : m ≠ memberIndex s) (hmember : m < memberCount s)
    (hnew : m ∉ s.step.failedMembers) (reason : Nat) (mirrored : Bool) :
    heartbeatMissed m reason mirrored s =
      let x : FailedMsg := { member := m, epoch := runningEpoch s, attempt := s.step.attempt + 1, partner := partnerOf s m,
                             row := if s.step.decision.isSome ∨ s.step.run.isNone then 1 else if mirrored then 2 else 3 }
      memberFailed x (emit (.failed x)
        (((logEvent 0x205 4 .none ([BitVec.ofNat 8 reason, 0] ++ natLe 2 m) s).withSnap
          { s.snap with failures := s.snap.failures ++ [s.awn.tick] }).withStep
        { s.step with failedMembers := s.step.failedMembers ++ [m] })) := by
  unfold heartbeatMissed
  dsimp only
  rw [if_neg (by simp [hlead]), if_neg (by simp [hlead, hother, hnew]; omega)]
  obtain ⟨marks, hlog⟩ := logEvent_eq 0x205 4 .none ([BitVec.ofNat 8 reason, 0] ++ natLe 2 m) s
  rw [hlog]
  rfl

section Failed

variable {s : State} {m : FailedMsg} (hother : m.member ≠ memberIndex s)
  (hnew : s.step.taken.any (fun t => decide (t.1 = m.member)) = false)
include hother hnew

/-- R427, R445: a member whose role has no standby ends the run. -/
theorem memberFailed_of_unprotected (hbare : unprotected s m.member = true) : memberFailed m s = endRun rFenced { member := m.member } s := by
  unfold memberFailed
  rw [if_neg (by simp [hother, hnew]), if_pos hbare]

/-- R440: with no step running, the role of a member other than the first is taken over and nothing else happens. -/
theorem memberFailed_of_idle (hprotected : unprotected s m.member = false) (hrun : s.step.run = none) (hlead : m.member ≠ 0) :
    memberFailed m s = takeSessions m (recordTakeover m s) := by
  have hrun' : (takeSessions m (recordTakeover m s)).step.run = none := by
    simp [takeSessions, recordTakeover, hrun, apply_ite State.step]
  unfold memberFailed
  rw [if_neg (by simp [hother, hnew]), if_neg (by simp [hprotected]), if_neg hlead]
  exact if_pos (by simp [hrun'])

end Failed

/-- R424, R444: the sessions that a partner opens for a role it has taken are requests for signatures. -/
theorem takeSessions_eq (m : FailedMsg) (s : State) : ∃ sec, takeSessions m s = s.withSec sec := by
  unfold takeSessions
  split
  · exact ⟨_, rfl⟩
  · exact ⟨s.sec, rfl⟩

/-- R440: with no step running a takeover is the map of the slice, the roles taken and a record in the Logbook. -/
theorem recordTakeover_of_idle {s : State} (hrun : s.step.run = none) (m : FailedMsg) : ∃ failed marks, recordTakeover m s =
    ((s.withStep { s.step with taken := s.step.taken ++ [(m.member, m.partner)], failedMembers := failed }).withSlice
      { s.slice with remap := s.slice.remap.filter (fun p => p.1 ≠ m.member) ++ [(m.member, m.partner)] }).marked marks := by
  obtain ⟨marks, hlog⟩ := logEvent_eq 0x203 1 .none (natLe 2 m.member ++ natLe 2 m.partner ++ natLe 1 m.row)
    ((s.withStep { s.step with
      taken := s.step.taken ++ [(m.member, m.partner)],
      failedMembers := if m.member ∈ s.step.failedMembers then s.step.failedMembers else s.step.failedMembers ++ [m.member] }).withSlice
      { s.slice with remap := s.slice.remap.filter (fun p => p.1 ≠ m.member) ++ [(m.member, m.partner)] })
  refine ⟨_, marks, Eq.trans ?_ hlog⟩
  unfold recordTakeover
  simp [hrun]

/-! ### O14 -/

/-- Settles O14, by what a mirrored section, a missed HEARTBEAT and a FAILED each do. -/
theorem partnersMirrorAndTakeOver : Obligations.PartnersMirrorAndTakeOver := by
  unfold Obligations.PartnersMirrorAndTakeOver
  refine ⟨⟨?kept, ?broken, ?acked⟩, ?beat, ?missed, ?fenced, ?taken⟩
  case kept =>
    intro s index sec last hcovers hidle hseal
    refine ⟨_, congrArg Host.Outcome.next (mirrorSection_of_sealed hcovers hidle hseal), ?_⟩
    refine ⟨by apply State.eq_of_parts <;> simp, ?_⟩
    simp [emit]
  case broken =>
    intro s index sec last hcovers hidle hseal
    exact congrArg Host.Outcome.next (mirrorSection_of_broken hcovers hidle hseal)
  case acked =>
    intro s index hrun hall hlast
    exact congrArg Host.Outcome.next (if_pos ⟨hrun, rfl, hall, hlast.le⟩)
  case beat =>
    intro s hprog
    exact congrArg Host.Outcome.next (if_pos hprog)
  case missed =>
    rintro s m reason mirrored x hlead hother hmember hnew rfl
    exact congrArg Host.Outcome.next (heartbeatMissed_at_lead hlead hother hmember hnew reason mirrored)
  case fenced =>
    intro s m hother hnew hbare
    exact congrArg Host.Outcome.next (memberFailed_of_unprotected hother hnew hbare)
  case taken =>
    intro s m hother hnew hprotected hrun hlead
    obtain ⟨failed, marks, hrecord⟩ := recordTakeover_of_idle hrun m
    obtain ⟨sec, hsessions⟩ := takeSessions_eq m (recordTakeover m s)
    refine ⟨_, congrArg Host.Outcome.next (memberFailed_of_idle hother hnew hprotected hrun hlead), ?_⟩
    rw [hsessions, hrecord]
    simp [State.marked]

end Sys2Proof.Machine

namespace Sys2Proof.Machine

/-! ### The partner slots (R185, R428) -/

section Slots

variable {x : PSlot} {s : State}

/-- R185: the FILLING slot is the one that is not COMPLETE, and keeps its place while its state stays. -/
theorem slots_setFilling (hstate : x.state = (fillingSlot s).state) :
    fillingSlot (setFilling x s) = x ∧ completeSlot (setFilling x s) = completeSlot s := by
  unfold fillingSlot at hstate
  by_cases hA : s.snap.slotA.state = .complete
  · have hset : setFilling x s = s.withSnap { s.snap with slotB := x } := if_pos hA
    rw [hset]
    exact ⟨if_pos hA, (if_pos hA).trans (if_pos hA).symm⟩
  · have hset : setFilling x s = s.withSnap { s.snap with slotA := x } := if_neg hA
    rw [if_neg hA] at hstate
    have hx : ¬ x.state = .complete := hstate ▸ hA
    rw [hset]
    exact ⟨if_neg hx, (if_neg hx).trans (if_neg hA).symm⟩

end Slots

/-- R185: a slot replaced is a change of the snapshot state alone, which keeps what is no slot. -/
theorem setComplete_eq (x : PSlot) (s : State) : ∃ a b, setComplete x s = s.withSnap { s.snap with slotA := a, slotB := b } := by
  unfold setComplete
  split <;> exact ⟨_, _, rfl⟩

theorem setFilling_eq (x : PSlot) (s : State) : ∃ a b, setFilling x s = s.withSnap { s.snap with slotA := a, slotB := b } := by
  unfold setFilling
  split <;> exact ⟨_, _, rfl⟩

/-! ### Standby updates, drains and catch-ups (R429, R450, R453, R454) -/

/-- R429: a standby update with the shadow digest of PREPARED fills the COMPLETE slot. -/
theorem standbyUpdateDone_of_match {s : State} {f : Nat} {secs : List Section} {epoch : W48} (hcovers : s.snap.covers = some f)
    (hupdating : s.snap.updating = some epoch) (hdigest : s.snap.coveredDigest = some (digestOf secs)) :
    standbyUpdateDone epoch (digestOf secs) secs s =
      setComplete { completeSlot s with epoch := epoch, sections := secs } (s.withSnap { s.snap with updating := none }) := by
  obtain ⟨a, b, hset⟩ := setComplete_eq { completeSlot s with epoch := epoch, sections := secs } (s.withSnap { s.snap with updating := none })
  unfold standbyUpdateDone
  rw [hcovers]
  dsimp only
  rw [if_neg (by simp), if_pos hupdating, hset]
  simp [hdigest]

/-- R452, R453: a drain with good seals stands in the FILLING slot, and catch-up starts. -/
theorem drainDone_of_sound {s : State} {secs : List Section} {epoch : W48} (hfilling : s.snap.filling = some epoch)
    (hcatch : s.snap.catchUp = false) (hsound : secs.any sealBroken = false) (hsame : sealDiffs secs s.snap.before = []) :
    drainDone epoch secs s =
      let t := setFilling { fillingSlot s with epoch := epoch - 1, sections := secs } s
      t.withSnap { t.snap with catchUp := true } := by
  have hnone : secs.filter sealBroken = [] := by simpa [List.filter_eq_nil_iff] using hsound
  unfold drainDone
  rw [if_pos ⟨hfilling, hcatch⟩, hnone]
  dsimp only [List.foldl_nil]
  rw [hsame]
  rfl

/-- R454: SNAP_DONE at a member other than the lead does nothing. -/
theorem snapDone_of_member {s : State} (hmember : isLead s = false) (member : Nat) (epoch : W48) : snapDone member epoch s = s := by
  unfold snapDone
  split
  · rfl
  · exact if_pos (by simp [hmember])

/-- R532: with no CKPT_TAKE none ends. -/
theorem endTake_of_none {s : State} (htake : s.snap.take = none) (layer : Nat) (epoch : W48) : endTake layer epoch s = s := by
  simp [endTake, htake]

/-- R455, R457: an image is written, or skipped and counted. -/
theorem writeImage_cases (member : Nat) (epoch : W48) (secs : List Section) (s : State) :
    ∃ more mark skipped, writeImage member epoch secs s = (s.withSnap { s.snap with
      flashWriting := if driveHolds s secs && (s.snap.flashMark || betweenFits s secs) then some epoch else s.snap.flashWriting,
      flashMark := mark, flashSkipped := skipped }).withOut (s.out ++ more) := by
  unfold writeImage
  by_cases hwrites : (driveHolds s secs && (s.snap.flashMark || betweenFits s secs)) = true
  · rw [if_pos hwrites, if_pos hwrites]
    exact ⟨[_], _, _, rfl⟩
  · rw [if_neg hwrites, if_neg hwrites]
    exact ⟨[], s.snap.flashMark, s.snap.flashSkipped + 1, by rw [List.append_nil]; rfl⟩

/-- R453: what catch-up has set when the image is written: the slots are swapped, with the drained one at its epoch. -/
def caughtUp (epoch : W48) (secs : List Section) (s : State) : State :=
  s.withSnap { s.snap with
    slotA := { s.snap.slotA with state := .filling }, slotB := { state := .complete, epoch := epoch, sections := secs },
    filling := none, catchUp := false, image := some epoch }

/-- R453: a catch-up whose digest agrees writes the image of the slot that held the epoch before, and sends SNAP_DONE. -/
theorem catchUpDone_of_match {s : State} {secs : List Section} {epoch : W48} (hfilling : s.snap.filling = some epoch)
    (hcatch : s.snap.catchUp = true) (hidle : s.snap.updating = none)
    (hdigest : s.snap.coveredDigest = none ∨ s.snap.coveredDigest = some (digestOf secs)) (hmember : isLead s = false)
    (hA : s.snap.slotA.state = .complete) (hB : s.snap.slotB.state = .filling) :
    catchUpDone epoch secs s =
      emit (.snapDone epoch) (writeImage (s.snap.covers.getD 0) epoch s.snap.slotA.sections (caughtUp epoch secs s)) := by
  have hfill : setFilling { fillingSlot s with epoch := epoch, sections := secs } s =
      s.withSnap { s.snap with slotB := { s.snap.slotB with epoch := epoch, sections := secs } } := by
    rw [fillingSlot, if_pos hA]
    exact if_pos hA
  have hswap : swapSlots (s.withSnap { s.snap with slotB := { s.snap.slotB with epoch := epoch, sections := secs } }) =
      s.withSnap { s.snap with
        slotA := { s.snap.slotA with state := .filling }, slotB := { state := .complete, epoch := epoch, sections := secs } } := by
    simp only [swapSlots, State.withSnap_snap, hA, hB]
    rfl
  have hslot : fillingSlot (caughtUp epoch secs s) = { s.snap.slotA with state := .filling } := if_neg nofun
  have hwritten : catchUpDone epoch secs s = snapDone (s.snap.covers.getD 0) epoch (emit (.snapDone epoch)
      (writeImage (s.snap.covers.getD 0) epoch (fillingSlot (caughtUp epoch secs s)).sections (caughtUp epoch secs s))) := by
    unfold catchUpDone
    rw [if_pos ⟨hfilling, hcatch, hidle⟩, hfill, hswap]
    dsimp only
    split
    · next d hd =>
      have hd' : s.snap.coveredDigest = some d := hd
      have hsame : d = digestOf secs := by rcases hdigest with h | h <;> simp_all
      rw [if_pos hsame]
      rfl
    · rfl
  obtain ⟨more, mark, skipped, hwrite⟩ := writeImage_cases (s.snap.covers.getD 0) epoch s.snap.slotA.sections (caughtUp epoch secs s)
  have hmember' : isLead (emit (.snapDone epoch)
      (writeImage (s.snap.covers.getD 0) epoch s.snap.slotA.sections (caughtUp epoch secs s))) = false := by
    rw [hwrite]
    simpa [caughtUp] using hmember
  rw [hwritten, hslot, snapDone_of_member hmember']

/-! ### The end of a snapshot (R450, R454) -/

section SnapDone

variable {s : State} {epoch : W48} {tick : W64} {l : List Nat} {member : Nat} (hawait : s.snap.awaiting = some (epoch, tick, l))
  (hlead : isLead s = true)
include hawait hlead

/-- R454: a member whose SNAP_DONE has come is no longer awaited. -/
theorem snapDone_of_more (hmore : l.filter (fun m => m ≠ member) ≠ []) :
    snapDone member epoch s = s.withSnap { s.snap with awaiting := some (epoch, tick, l.filter (fun m => m ≠ member)) } := by
  unfold snapDone
  rw [hawait]
  dsimp only
  rw [if_neg (by simp [hlead]), if_pos hmore]

/-- R450, R454: the last SNAP_DONE completes the image; with no CKPT_TAKE only the snapshot state changes. -/
theorem snapDone_of_last (hlast : l.filter (fun m => m ≠ member) = []) (htake : s.snap.take = none) :
    ∃ interval, snapDone member epoch s = s.withSnap { s.snap with
      awaiting := none, image := some epoch, interval := interval,
      times := (s.snap.times ++ [(s.awn.tick - tick).toNat]).drop (s.snap.times.length - 7) } := by
  unfold snapDone
  rw [hawait]
  dsimp only
  rw [if_neg (by simp [hlead]), if_neg (not_not.2 hlast), endTake_of_none]
  · exact ⟨_, rfl⟩
  · exact htake

end SnapDone

/-! ### Flash and store (R447, R455 to R458) -/

/-- R455: a flash write that ends with no CKPT_TAKE waiting keeps the last two images. -/
theorem flashWriteDone_of_written {s : State} {epoch : W48} (hwriting : s.snap.flashWriting = some epoch) (htake : s.snap.take = none) :
    flashWriteDone epoch s = s.withSnap { s.snap with flashWriting := none, flash := (epoch :: s.snap.flash).take 2 } := by
  have hnone := endTake_of_none (s := s.withSnap { s.snap with flashWriting := none, flash := (epoch :: s.snap.flash).take 2 }) htake
  unfold flashWriteDone
  rw [if_pos hwriting]
  dsimp only
  rw [hnone, ite_self, hnone]
  exact if_neg (by simp [htake])

/-- R458: the store copy of the latest flash image begins once its period has passed. -/
theorem storeInterval_of_due {s : State} {st : Store} {e : W48} {l : List W48} (hstore : s.job.store = some st)
    (hflash : s.snap.flash = e :: l) (hidle : s.snap.storing = none) (htaken : s.step.taken = [])
    (hdue : 1000000000 * s.job.storeInterval.toNat ≤ (s.awn.tick - s.snap.storeAt).toNat) : storeInterval s = startStore e s := by
  unfold storeInterval
  rw [if_neg (by rw [hstore, hidle, decide_eq_false (Nat.not_lt.2 hdue)]; simp), if_neg (by simp [htaken]), hflash]

section StoreCopy

variable {s : State} {epoch : W48} {l : List Nat} {role : Nat} (hstoring : s.snap.storing = some (epoch, l))
include hstoring

/-- R458: a role whose image is on the store is no longer copied. -/
theorem storeCopyDone_of_more (hmore : l.filter (fun r => r ≠ role) ≠ []) :
    storeCopyDone role epoch s = s.withSnap { s.snap with storing := some (epoch, l.filter (fun r => r ≠ role)) } := by
  unfold storeCopyDone
  rw [hstoring]
  dsimp only
  rw [if_neg (by simp), if_pos hmore]

/-- R458: with every role's image on the store the store snapshot is complete. -/
theorem storeCopyDone_of_last (hlast : l.filter (fun r => r ≠ role) = []) (htake : s.snap.take = none) (hpaused : s.snap.paused = false) :
    storeCopyDone role epoch s = s.withSnap { s.snap with storing := none, stored := some epoch, degraded := false } := by
  unfold storeCopyDone
  rw [hstoring]
  dsimp only
  rw [if_neg (by simp), if_neg (not_not.2 hlast), endTake_of_none]
  · exact if_neg (by simp [hpaused])
  · exact htake

end StoreCopy

/-! ### O15 -/

/-- Settles O15: a drain and a catch-up by what becomes of the slots (`slots_setFilling`, `caughtUp`), the rest by what each event does
with no CKPT_TAKE waiting. -/
theorem standbysAndImagesAreKept : Obligations.StandbysAndImagesAreKept := by
  unfold Obligations.StandbysAndImagesAreKept
  refine ⟨?standby, ?drain, ?catchUp, ?snap, ?flash, ?interval, ?store, ?copied⟩
  case standby =>
    rintro s f _ secs epoch hcovers hupdating hdigest rfl
    exact congrArg Host.Outcome.next (standbyUpdateDone_of_match hcovers hupdating hdigest)
  case drain =>
    intro s secs epoch hfilling hcatch hsound hsame
    refine ⟨_, congrArg Host.Outcome.next (drainDone_of_sound hfilling hcatch hsound hsame), ?_⟩
    obtain ⟨hfill, hcomplete⟩ := slots_setFilling (x := { fillingSlot s with epoch := epoch - 1, sections := secs }) (s := s) rfl
    obtain ⟨a, b, hset⟩ := setFilling_eq { fillingSlot s with epoch := epoch - 1, sections := secs } s
    refine ⟨hfill, hcomplete, rfl, ?_⟩
    rw [hset]
    exact ⟨rfl, rfl, rfl⟩
  case catchUp =>
    intro s secs epoch hfilling hcatch hidle hdigest hmember hA hB
    have hdone := catchUpDone_of_match hfilling hcatch hidle hdigest hmember hA hB
    obtain ⟨more, mark, skipped, hwrite⟩ := writeImage_cases (s.snap.covers.getD 0) epoch s.snap.slotA.sections (caughtUp epoch secs s)
    rw [hwrite] at hdone
    refine ⟨_, congrArg Host.Outcome.next hdone, ?_⟩
    have hroom : driveHolds (caughtUp epoch secs s) = driveHolds s := driveHolds_of rfl rfl
    have hfits : betweenFits (caughtUp epoch secs s) = betweenFits s := rfl
    refine ⟨by apply State.eq_of_parts <;> simp [caughtUp], ?_⟩
    rw [hroom, hfits]
    refine ⟨rfl, rfl, rfl, rfl, rfl, rfl, rfl, List.mem_append_right _ List.mem_cons_self, rfl, ?_⟩
    simp [caughtUp]
  case snap =>
    intro s member epoch tick l hawait hlead
    refine ⟨fun hmore => congrArg Host.Outcome.next (snapDone_of_more hawait hlead hmore), fun hlast htake => ?_⟩
    obtain ⟨interval, hdone⟩ := snapDone_of_last hawait hlead hlast htake
    exact ⟨_, congrArg Host.Outcome.next hdone, rfl, rfl, rfl, rfl, rfl, rfl, rfl⟩
  case flash =>
    intro s epoch hwriting htake
    exact congrArg Host.Outcome.next (flashWriteDone_of_written hwriting htake)
  case interval =>
    intro s hlead hprog
    refine congrArg Host.Outcome.next ?_
    unfold flashInterval
    simp only [hlead, hprog, true_and]
  case store =>
    intro s st e l hstore hflash hidle htaken hdue
    refine ⟨_, congrArg Host.Outcome.next (storeInterval_of_due hstore hflash hidle htaken hdue), ?_⟩
    exact ⟨rfl, rfl, rfl, decide_eq_false (by simp [htaken]), rfl, rfl, rfl⟩
  case copied =>
    intro s role epoch l hstoring
    exact ⟨fun hmore => congrArg Host.Outcome.next (storeCopyDone_of_more hstoring hmore),
      fun hlast htake hpaused => congrArg Host.Outcome.next (storeCopyDone_of_last hstoring hlast htake hpaused)⟩

end Sys2Proof.Machine

namespace Sys2Proof.Machine

/-! ### Detections on a stall, self-tests and retests (R470 to R482) -/

@[simp] theorem logEvent_stallFences (code : W16) (sev : BitVec 3) (unit : UnitId) (detail : Bytes) (s : State) :
    (logEvent code sev unit detail s).saf.stalls = s.saf.stalls := by
  obtain ⟨m, h⟩ := logEvent_eq code sev unit detail s
  rw [h]
  rfl

@[simp] theorem countDetection_stallFences (mech : Nat) (unit : UnitId) (location : W32) (observed expected : W64) (s : State) :
    (countDetection mech unit location observed expected s).saf.stalls = s.saf.stalls := by
  simp [countDetection]

/-- R480: a stall in service that is fenced: its entry changes, and the record leaves its marks. -/
theorem fenceStall_of_inService {s : State} {i : Fin 1024} (h : (sget {} s.saf.stalls i.val).state = .inService) (cause : W64) :
    ∃ st, fenceStall i cause s = logFence (.stall i) st cause
      (s.withSaf { s.saf with stalls := sput {} s.saf.stalls i.val (fencedEntry s.awn.tick (sget {} s.saf.stalls i.val)) }) := by
  unfold fenceStall
  rw [if_neg (by rw [h]; decide)]
  exact ⟨_, rfl⟩

/-- R480: the mechanisms 0 to 7 fence the stall that they name. -/
theorem fenceFor_of_stall {d : Detection} {i : Fin 1024} (hunit : d.unit = .stall i) (hmech : d.mechanism ≤ 7) (cause : W64)
    (s : State) : fenceFor d cause s = fenceStall i cause s := by
  obtain ⟨mech, unit, location, observed, expected, active⟩ := d
  subst hunit
  change mech ≤ 7 at hmech
  interval_cases mech <;> rfl

@[simp] theorem restartPlacement_of_not_loading {s : State} (h : s.load.loading = none) : restartPlacement s = s := by
  simp [restartPlacement, h]

@[simp] theorem logFence_load (unit : UnitId) (st : FenceState) (cause : W64) (s : State) :
    (logFence unit st cause s).load = s.load := by simp [logFence]

@[simp] theorem fenceStall_load (i : Fin 1024) (cause : W64) (s : State) : (fenceStall i cause s).load = s.load := by
  unfold fenceStall
  dsimp only
  split
  · rfl
  · simp

theorem retestEntry_of_not_due {now : W64} {f : Fence} (h : retestDue now f = false) (pass : Bool) : retestEntry now f pass = f :=
  if_pos (Or.inr h)

theorem retestEntry_of_pass {now : W64} {f : Fence} (hf : f.state = .fenced) (hdue : retestDue now f = true) (hfew : f.passes < 2) :
    retestEntry now f true = { f with passes := f.passes + 1, retested := some now } := by
  simp [retestEntry, hf, hdue, Nat.not_le.2 hfew]

theorem retestEntry_of_third_pass {now : W64} {f : Fence} (hf : f.state = .fenced) (hdue : retestDue now f = true)
    (hmany : 2 ≤ f.passes) :
    retestEntry now f true = { f with state := .restorable, passes := f.passes + 1, retested := some now } := by
  simp [retestEntry, hf, hdue, hmany]

theorem retestEntry_of_failure {now : W64} {f : Fence} (hf : f.state = .fenced) (hdue : retestDue now f = true) :
    retestEntry now f false = { f with passes := 0, retested := some now } := by
  simp [retestEntry, hf, hdue]

/-- R482: a retest after which the stall is not restorable changes the stall's entry alone. -/
theorem fencedRetest_of_kept {s : State} {i : Fin 1024} {pass : Bool} {f : Fence}
    (hentry : retestEntry s.awn.tick (sget {} s.saf.stalls i.val) pass = f) (hf : f.state = .fenced) :
    fencedRetest false i pass s = s.withSaf { s.saf with stalls := sput {} s.saf.stalls i.val f } := by
  subst hentry
  exact if_neg fun h => absurd (hf.symm.trans h.2) (by decide)

theorem fencedRetest_of_restorable {s : State} {i : Fin 1024} {pass : Bool} {f : Fence}
    (hfenced : (sget {} s.saf.stalls i.val).state = .fenced)
    (hentry : retestEntry s.awn.tick (sget {} s.saf.stalls i.val) pass = f) (hf : f.state = .restorable) :
    fencedRetest false i pass s =
      logFence (.stall i) .restorable 0 (s.withSaf { s.saf with stalls := sput {} s.saf.stalls i.val f }) := by
  subst hentry
  exact if_pos ⟨hfenced, hf⟩

/-! ### SUSPECT and REPLAY (R474 to R477) -/

theorem suspectAtLead_of_current {s : State} {m : SuspectMsg} (hlead : isLead s = true) (hrun : s.step.run.isSome = true)
    (hepoch : m.epoch = runningEpoch s) (hattempt : m.attempt = s.step.attempt) (hdecision : s.step.decision = none)
    (hsent : s.step.replaySent ≠ some (m.attempt + 1)) :
    suspectAtLead m s = if 3 ≤ s.step.replays ∧ inEval s = false then replayLimit s
      else emit (.replay m.epoch (m.attempt + 1)) (s.withStep { s.step with replaySent := some (m.attempt + 1) }) := by
  have hrunning : s.step.run.isNone = false := by rw [Option.isNone_eq_false_iff]; exact hrun
  unfold suspectAtLead
  rw [if_neg (by simp [hlead, hrunning]), if_neg (by simp [hepoch, hattempt, hdecision]), if_neg hsent]

/-- R310: with every role's stall in service no role moves. -/
theorem moveRoles_of_inService {s : State}
    (h : ∀ m, s.load.phys = some m → m.roles.all (fun r => stallInService s r.stall.val) = true) : moveRoles s = (s, true) := by
  unfold moveRoles
  split
  · rfl
  · next m hm =>
    have hnone : m.roles.filter (fun r => !stallInService s r.stall.val) = [] := by
      simpa [List.filter_eq_nil_iff, List.all_eq_true] using h m hm
    rw [hnone]

/-- R475: the state in which the step runs again, before its REPLAY record. -/
def replayStart (attempt : Byte) (s : State) : State :=
  let u := abandonAttempt attempt s
  u.withStep { u.step with replays := u.step.replays + 1 }

@[simp] theorem abandonAttempt_stallFences (attempt : Byte) (s : State) :
    (abandonAttempt attempt s).saf.stalls = s.saf.stalls := by
  simp [abandonAttempt, setShadow]

/-- R475, R489: the detail of the REPLAY record: the attempt, and the detection and member that made the old one suspect. -/
def replayDetail (attempt : Byte) (s : State) : Bytes :=
  natLe 1 attempt.toNat ++ natLe 7 0 ++ natLe 8 (if s.step.suspect then s.saf.lastSeq else 0).toNat ++
    natLe 2 (if s.step.suspect then memberIndex s else 0xFFFF)

/-- R475: a REPLAY of a later attempt whose roles all stay: the attempt is abandoned, and a record leaves its marks. -/
theorem replayStep_of_inService {s : State} {attempt : Byte} (hrun : s.step.run.isSome = true) (heval : inEval s = false)
    (hlater : s.step.attempt.toNat < attempt.toNat)
    (hroles : ∀ m, s.load.phys = some m → m.roles.all (fun r => stallInService s r.stall.val) = true) :
    replayStep (runningEpoch s) attempt s =
      startColls (readInputs (logEvent 0x201 1 .none (replayDetail attempt s) (replayStart attempt s))) := by
  have hstay : moveRoles (logEvent 0x201 1 .none (replayDetail attempt s) (replayStart attempt s)) =
      (logEvent 0x201 1 .none (replayDetail attempt s) (replayStart attempt s), true) := by
    refine moveRoles_of_inService fun m hm => ?_
    have hphys : s.load.phys = some m := by simpa [replayStart] using hm
    simpa [stallInService, replayStart] using hroles m hphys
  have hrunning : s.step.run.isNone = false := by rw [Option.isNone_eq_false_iff]; exact hrun
  unfold replayStep
  rw [if_neg (by simp [hrunning]), if_neg (by simpa using hlater), if_neg (by simp [heval])]
  exact (congrArg (fun x : State × Bool => if x.2 then startColls (readInputs x.1) else endRun rFenced {} x.1) hstay).trans
    (if_pos rfl)

/-- Settles O16: by what a detection, a SUSPECT, a REPLAY, a self-test and a retest each do in their own case. -/
theorem detectionsFenceAndReplaysRestore : Obligations.DetectionsFenceAndReplaysRestore := by
  unfold Obligations.DetectionsFenceAndReplaysRestore
  refine ⟨⟨?detect, ?entry⟩, ⟨?suspect, ?replay⟩, ?pass, ?faulty, ?notNow, ?unitFails, ?unitPasses, ?due, ?early, ?retest⟩
  case detect =>
    intro s d i hunit hmech hload hserves
    have hfence : (sget {} (countDetection d.mechanism (.stall i) d.location d.observed d.expected s).saf.stalls i.val).state =
        .inService := by simpa using hserves
    obtain ⟨st, hst⟩ := fenceStall_of_inService hfence (nextSeq s)
    refine ⟨congrArg Host.Outcome.next ?_, ?_, ?_⟩
    · unfold detect
      rw [hunit]
      dsimp only
      rw [fenceFor_of_stall hunit hmech, restartPlacement_of_not_loading (by simpa using hload)]
      have hreplay : replaysStep d = true := decide_eq_true (by omega)
      have hclerk : decide (d.mechanism = 13) = false := decide_eq_false (by omega)
      rw [hreplay, hclerk]
      cases d.active <;> rfl
    · rw [hst]
      simp [logFence]
    · rw [hst]
      simp [logFence]
  case entry =>
    exact fun now f => rfl
  case suspect =>
    intro s m hlead hrun heval hepoch hattempt hdecision hsent
    have hsuspect := suspectAtLead_of_current hlead hrun hepoch hattempt hdecision hsent
    exact ⟨fun hfew => congrArg Host.Outcome.next (hsuspect.trans (if_neg (by omega))),
      fun hmany => congrArg Host.Outcome.next (hsuspect.trans (if_pos ⟨hmany, heval⟩))⟩
  case replay =>
    intro s attempt hrun heval hlater hroles
    have hreplay := replayStep_of_inService hrun heval hlater hroles
    refine ⟨_, congrArg Host.Outcome.next hreplay, ?_⟩
    obtain ⟨m, hm⟩ := logEvent_eq 0x201 1 .none (replayDetail attempt s) (replayStart attempt s)
    rw [hm]
    have hcommitted : committed ((replayStart attempt s).marked m) = committed (abandonAttempt attempt s) := committed_of rfl rfl
    have hshadow : shadow ((replayStart attempt s).marked m) = shadow (abandonAttempt attempt s) := shadow_of rfl rfl
    exact ⟨rfl, rfl, rfl, rfl, rfl, rfl, rfl, rfl, hcommitted.trans (committed_abandonAttempt attempt s),
      hshadow.trans (shadow_abandonAttempt attempt s), rfl⟩
  case pass =>
    intro s i hmay
    exact congrArg Host.Outcome.next (if_neg (by simp [hmay]))
  case faulty =>
    intro s i p l hmay
    have htest : stallSelfTest i (.faultyUnit p l) s = _ := if_neg (by simp [hmay])
    refine ⟨fun hfree => congrArg Host.Outcome.next (htest.trans ?_), fun hheld => congrArg Host.Outcome.next (htest.trans ?_)⟩
    · exact if_neg (by rw [show holdsRole (beginTest i s) i = holdsRole s i from rfl, hfree]; simp)
    · exact if_pos (show holdsRole s i = true from hheld)
  case notNow =>
    intro s i t hmay
    exact congrArg Host.Outcome.next (if_pos (by simp [hmay]))
  case unitFails =>
    exact fun s row p => rfl
  case unitPasses =>
    exact fun s row u => rfl
  case due =>
    intro now f
    unfold retestDue
    split
    · next t ht => simp [ht]
    · next hnone => simp [hnone]
  case early =>
    intro s i f pass hf hfenced hdue
    refine congrArg Host.Outcome.next (fencedRetest_of_kept ?_ hfenced)
    rw [hf]
    exact retestEntry_of_not_due hdue pass
  case retest =>
    intro s i f w hf hfenced hdue hw
    subst hw
    refine ⟨fun hfew => ?_, fun hmany => ?_, ?_⟩
    · exact congrArg Host.Outcome.next
        (fencedRetest_of_kept ((congrArg (retestEntry _ · _) hf).trans (retestEntry_of_pass hfenced hdue hfew)) hfenced)
    · exact congrArg Host.Outcome.next (fencedRetest_of_restorable ((congrArg Fence.state hf).trans hfenced)
        ((congrArg (retestEntry _ · _) hf).trans (retestEntry_of_third_pass hfenced hdue hmany)) rfl)
    · exact congrArg Host.Outcome.next
        (fencedRetest_of_kept ((congrArg (retestEntry _ · _) hf).trans (retestEntry_of_failure hfenced hdue)) hfenced)

end Sys2Proof.Machine

namespace Sys2Proof.Machine

/-! ### Groups that enter the queue (R491, R492) -/

/-- R491: raising the reserve changes the reserve alone. -/
theorem raiseReserve_eq (l : Log) : ∃ r, raiseReserve l = { l with reserve := r } := by
  unfold raiseReserve
  split
  · exact ⟨_, rfl⟩
  · exact ⟨l.reserve, rfl⟩

/-- R491, R492: a group that enters lengthens the queue and raises the next SEQ by its records, beside the reserve. -/
theorem enterAll_eq (rs : List LogRec) (l : Log) : ∃ q r, q.length = rs.length ∧
    enterAll l rs = { l with queue := l.queue ++ q, nextSeq := l.nextSeq + BitVec.ofNat 64 rs.length, reserve := r } := by
  induction rs generalizing l with
  | nil => exact ⟨[], l.reserve, rfl, by simp [enterAll]⟩
  | cons x rs ih =>
    obtain ⟨r, hr⟩ := raiseReserve_eq l
    obtain ⟨q, r', hlen, hq⟩ := ih (enterOne l x)
    refine ⟨{ x with seq := l.nextSeq } :: q, r', by simp [hlen], ?_⟩
    change enterAll (enterOne l x) rs = _
    have hseq : l.nextSeq + 1 + BitVec.ofNat 64 rs.length = l.nextSeq + BitVec.ofNat 64 (rs.length + 1) := by
      rw [BitVec.ofNat_add, BitVec.add_assoc, BitVec.add_comm 1]
      rfl
    rw [hq]
    simp only [enterOne, hr, List.append_assoc, List.cons_append, List.nil_append, List.length_cons, hseq]

/-- R492: the one group that waits enters when it fits. -/
theorem admitWaiting_of_one {s : State} {g : List LogRec} (hwaits : s.log.waiting = [g]) (hfits : s.log.queue.length + g.length ≤ 4096) :
    admitWaiting s.log.waiting.length s = enterGroup g (s.withLog { s.log with waiting := [] }) := by
  have hone : s.log.waiting.length = 1 := congrArg List.length hwaits
  rw [hone]
  unfold admitWaiting
  rw [hwaits]
  exact if_pos hfits

/-! ### Records that reach the MRAM (R487, R492) -/

theorem endSegment_of_room {s : State} (h : (sget [] s.log.segs s.log.seg).length < 65536) : endSegment s = s := if_pos h

theorem reportLost_of_none {s : State} (h : s.log.lost = 0) : reportLost s = s := if_neg fun hlost => absurd hlost.1 (by omega)

/-- R492: the oldest record that is not FATAL moves to a current segment with room. -/
theorem mramWrite_of_cons {s : State} {r : LogRec} {l : List LogRec} (hqueue : s.log.queue = r :: l) (hsev : r.sev ≠ 4)
    (hlost : s.log.lost = 0) (hroom : (sget [] s.log.segs s.log.seg).length + 1 < 65536) :
    mramWrite s = s.withLog { s.log with queue := l, segs := sput [] s.log.segs s.log.seg (sget [] s.log.segs s.log.seg ++ [r]) } := by
  unfold mramWrite
  rw [hqueue]
  dsimp only
  rw [if_neg hsev, endSegment_of_room ?room, reportLost_of_none (by exact hlost)]
  case room =>
    rw [State.withLog_log, sget_sput_of_ne _ _ _ _ (by simp)]
    simpa using hroom

/-! ### LOGBOOK_READ (R495) -/

/-- R511: a write into a command's buffer changes memory alone. -/
theorem writeBuf_eq (r : BufRef) (off : Nat) (b : Bytes) (s : State) : ∃ m, writeBuf r off b s = s.withMem m := by
  unfold writeBuf
  split <;> exact ⟨_, rfl⟩

/-- R495: without a mask of segments, and with no release, LOGBOOK_READ writes the records of its range and their summary. -/
theorem logbookRead_of_range {s : State} {k : CmdRef} {c : Cmd} {out : List LogRec} (hready : ready s k 0x71 = some c)
    (hsegs : field c.bytes 96 2 = 0) (hflags : field c.bytes 98 1 = 0)
    (hout : out = ((heldRecords s).filter (fun r => decide (field c.bytes 80 8 ≤ r.seq.toNat) &&
      decide (r.seq.toNat ≤ field c.bytes 88 8))).take ((bufA c).bytes / 64)) :
    logbookRead k 0 s = finish k rOK (addRecord k
      (logSummary s out (absentCount s (field c.bytes 80 8) (field c.bytes 88 8) 0 out) [])
      (setProgress k out.length (writeBuf (bufA c) 0 (out.flatMap logBytes) s))) := by
  have hfrozen (l : List Nat) : l.filter (fun g => decide (g ∉ ([] : List Nat))) = l := by simp
  have hnone : maskList 0 = [] := by decide
  subst hout
  unfold logbookRead
  rw [hready]
  dsimp only
  rw [hsegs, hflags, hnone, if_neg (by simp), if_neg (by simp), if_neg (by omega), if_neg (by simp), if_neg (by simp), hfrozen,
    State.withLog_self]
  rfl

/-- Settles O17: by the group that enters, the record that is written and the one that is lost; STATS_READ by its legal and illegal
masks, and LOGBOOK_READ by its range. -/
theorem logbookRecordsAndCountersAreRead : Obligations.LogbookRecordsAndCountersAreRead := by
  unfold Obligations.LogbookRecordsAndCountersAreRead
  refine ⟨⟨?enter, ?write, ?lost⟩, ?stats, ?badMask, ?read⟩
  case enter =>
    intro s g hwaits hfits
    refine ⟨_, congrArg Host.Outcome.next (admitWaiting_of_one hwaits hfits), ?_, ?_⟩
    · apply State.eq_of_parts <;> simp
    · obtain ⟨q, r, hlen, hq⟩ := enterAll_eq g { s.log with waiting := [] }
      have hlog : (enterGroup g (s.withLog { s.log with waiting := [] })).log = enterAll { s.log with waiting := [] } g := by
        simp [enterGroup]
      rw [hlog, hq]
      exact ⟨rfl, by simp [hlen], rfl, rfl, by simp, by simp, by simp⟩
  case write =>
    intro s r l hqueue hsev hlost hroom
    exact congrArg Host.Outcome.next (mramWrite_of_cons hqueue hsev hlost hroom)
  case lost =>
    intro s r rs hsev hfull hdrop
    exact if_pos (by simp [hsev, hfull, hdrop])
  case stats =>
    intro s k c eval rs hready hsome hmask hclear heval hrs
    subst heval hrs
    refine congrArg Host.Outcome.next ?_
    unfold statsRead
    rw [hready]
    dsimp only
    rw [if_neg (by omega), if_neg (by simp [hclear])]
  case badMask =>
    intro s k c hready hmask
    refine congrArg Host.Outcome.next ?_
    unfold statsRead
    rw [hready]
    exact if_pos hmask
  case read =>
    intro s k c out hready hsegs hflags hout
    obtain ⟨m, hm⟩ := writeBuf_eq (bufA c) 0 (out.flatMap logBytes) s
    refine ⟨_, congrArg Host.Outcome.next (logbookRead_of_range hready hsegs hflags hout), ?_, ?_, ?_, ?_, ?_, rfl⟩ <;> simp [hm]

end Sys2Proof.Machine

namespace Sys2Proof.Machine

/-! ### Authenticated frames (R407, R410, R411, R414) -/

/-- R411, R414: what an authenticated frame leaves in its session: its SEQ, its epoch and the address it came from. -/
def noteFrame (h : FrameHeader) (now : W64) (x : Session) : Session :=
  { noteEpoch h.epoch.toNat now (noteSeq h.epoch.toNat h.seq.toNat x) with peerIf := h.source.drop 8 }

@[simp] theorem noteEpoch_rx (e : Nat) (now : W64) (x : Session) : (noteEpoch e now x).rx = x.rx := by
  unfold noteEpoch
  split <;> rfl

@[simp] theorem sessionKey_noteFrame (h : FrameHeader) (now : W64) (x : Session) : sessionKey (noteFrame h now x) = sessionKey x := by
  unfold noteFrame noteEpoch
  split <;> rfl

theorem replayed_of_rx {x y : Session} (h : y.rx = x.rx) (e n : Nat) : replayed y e n = replayed x e n := by
  simp only [replayed, h]

/-- R411: a SEQ that has been noted is seen. -/
theorem replayed_noteSeq (e n : Nat) (x : Session) : replayed (noteSeq e n x) e n = true := by
  have hnone : (x.rx.filter (fun r => decide (r.1 ≠ e))).find? (fun r => decide (r.1 = e)) = none := by simp
  unfold replayed noteSeq
  dsimp only
  rw [List.find?_append, hnone, Option.none_or, List.find?_cons_of_pos (by simp)]
  simp
  omega

theorem replayed_noteFrame (h : FrameHeader) (now : W64) (x : Session) :
    replayed (noteFrame h now x) h.epoch.toNat h.seq.toNat = true :=
  (replayed_of_rx (noteEpoch_rx ..) _ _).trans (replayed_noteSeq ..)

section Auth

variable {s : State} {n : Nat} {h : FrameHeader} {b : FrameBody} {x : Session}

/-- R407: a frame with no session is no frame. -/
theorem authFrame_of_no_session (hx : findSess s h.site h.shard.toNat = none) : authFrame n h b s = (none, s) := by
  simp [authFrame, authAs, hx]

/-- R410, R414: a tag passes under a held key of the frame's epoch. -/
theorem tagPasses_iff (hx : findSess s h.site h.shard.toNat = some x) :
    tagPasses s n h b = true ↔ ∃ k, (h.epoch.toNat, k) ∈ x.rxKeys ∧ h.tag = frameTag k n h b := by
  simp only [tagPasses, hx, List.any_eq_true, Bool.and_eq_true, decide_eq_true_eq]
  constructor
  · rintro ⟨⟨e, k⟩, hmem, rfl, htag⟩
    exact ⟨k, hmem, htag⟩
  · rintro ⟨k, hmem, htag⟩
    exact ⟨_, hmem, rfl, htag⟩

theorem holdsKey_eq_false {now : W64} {e : Nat}
    (hkeys : (∀ q ∈ x.rxKeys, q.1 ≠ e) ∨ (e < x.rxEpoch ∧ 2000000000 ≤ (now - x.rxSince).toNat)) : holdsKey now e x = false := by
  unfold holdsKey
  rcases hkeys with hnone | ⟨hold, hlate⟩
  · rw [Bool.and_eq_false_iff, List.any_eq_false]
    exact .inl fun q hq => by simpa using hnone q hq
  · rw [Bool.and_eq_false_iff, decide_eq_false (by omega), decide_eq_false (by omega)]
    exact .inr rfl

theorem holdsKey_eq_true {now : W64} {e : Nat} {k : Bytes} (hmem : (e, k) ∈ x.rxKeys)
    (hkept : x.rxEpoch ≤ e ∨ (now - x.rxSince).toNat < 2000000000) : holdsKey now e x = true := by
  unfold holdsKey
  rw [Bool.and_eq_true, List.any_eq_true]
  refine ⟨⟨_, hmem, decide_eq_true rfl⟩, ?_⟩
  rcases hkept with hnew | hearly
  · rw [decide_eq_true hnew, Bool.true_or]
  · rw [decide_eq_true hearly, Bool.or_true]

variable (hx : findSess s h.site h.shard.toNat = some x)
include hx

/-- R407: a frame outside its open session is no frame. -/
theorem authFrame_of_closed (hclosed : siteFrame h s = false ∨ x.opened = false ∨ x.id ≠ h.session) :
    authFrame n h b s = (none, s) := by
  simp only [authFrame, authAs, hx]
  exact if_pos (by rcases hclosed with h1 | h1 | h1 <;> simp [h1])

variable (hframe : siteFrame h s = true) (hopen : x.opened = true) (hid : x.id = h.session)
include hframe hopen hid

/-- R414: a frame whose epoch's key is not held is counted. -/
theorem authFrame_of_no_key (hkey : holdsKey s.awn.tick h.epoch.toNat x = false) :
    authFrame n h b s = (none, siteCount h.site (fun t => { t with epochDiscards := add48 t.epochDiscards 1 }) s) := by
  simp only [authFrame, authAs, hx]
  rw [if_neg (by simp [hframe, hopen, hid]), if_pos (by simp [hkey])]

variable (hkey : holdsKey s.awn.tick h.epoch.toNat x = true)
include hkey

/-- R410: a frame whose tag does not pass is counted. -/
theorem authFrame_of_bad_tag (htag : tagPasses s n h b = false) :
    authFrame n h b s = (none, siteCount h.site (fun t => { t with authFails := add48 t.authFails 1 }) s) := by
  simp only [authFrame, authAs, hx]
  rw [if_neg (by simp [hframe, hopen, hid]), if_neg (by simp [hkey]), if_pos (by simp [htag])]

/-- R411: a frame seen before is counted. -/
theorem authFrame_of_replayed (htag : tagPasses s n h b = true) (hseen : replayed x h.epoch.toNat h.seq.toNat = true) :
    authFrame n h b s = (none, siteCount h.site (fun t => { t with replayedFrames := add48 t.replayedFrames 1 }) s) := by
  simp only [authFrame, authAs, hx]
  rw [if_neg (by simp [hframe, hopen, hid]), if_neg (by simp [hkey]), if_neg (by simp [htag]), if_pos hseen]

/-- R407: any other frame is authentic, and its session notes it. -/
theorem authFrame_of_good (htag : tagPasses s n h b = true) (hnew : replayed x h.epoch.toNat h.seq.toNat = false) :
    authFrame n h b s =
      (some (noteFrame h s.awn.tick x), updSess h.site h.shard.toNat (noteFrame h s.awn.tick) s) := by
  simp only [authFrame, authAs, hx]
  rw [if_neg (by simp [hframe, hopen, hid]), if_neg (by simp [hkey]), if_neg (by simp [htag]), if_neg (by simp [hnew])]
  rfl

end Auth

theorem onFrame_of_discarded {n : Nat} {h : FrameHeader} {b : FrameBody} {s t : State} (ha : authFrame n h b s = (none, t))
    (f : Session → State → State) : onFrame n h b f s = t := by
  simp [onFrame, ha]

/-! ### Routes (R417) -/

/-- R417: a route without an echo for 1 s goes down and is probed. -/
theorem routeDown_of_silent {s : State} {site route : Nat} {x : Session} {r : Route} (hx : findSession s site = some x)
    (hr : x.routes[route]? = some r) (hup : r.up = true) (hsilent : 1000000000 ≤ (s.awn.tick - r.echoAt).toNat) :
    routeDown site route s = sendFrame site x.shard { ftype := 10, round := s.site.round, route := some route, body := .probe false }
      (updRoute site x.shard route (fun t => { t with up := false }) s) := by
  have hroute : x.routes.getD route { up := false } = r := by rw [List.getD_eq_getElem?_getD, hr, Option.getD_some]
  simp only [routeDown, hx, hroute]
  exact if_neg (by rw [hup, decide_eq_false (by omega)]; decide)

theorem routeDown_of_echoed {s : State} {site route : Nat} {x : Session} {r : Route} (hx : findSession s site = some x)
    (hr : x.routes[route]? = some r) (hearly : (s.awn.tick - r.echoAt).toNat < 1000000000) : routeDown site route s = s := by
  have hroute : x.routes.getD route { up := false } = r := by rw [List.getD_eq_getElem?_getD, hr, Option.getD_some]
  simp only [routeDown, hx, hroute]
  exact if_pos (by rw [decide_eq_true hearly, Bool.or_true])

/-- Settles O56: by the branches of authentication, each a lemma, and of ROUTE_DOWN. -/
theorem framesAreAuthenticated : Obligations.FramesAreAuthenticated := by
  unfold Obligations.FramesAreAuthenticated
  refine ⟨?noSession, ?session, ?probe, ?route⟩
  case noSession =>
    exact fun s n h b f hx => onFrame_of_discarded (authFrame_of_no_session hx) f
  case session =>
    intro s n h b f x hx
    refine ⟨tagPasses_iff hx, fun hclosed => onFrame_of_discarded (authFrame_of_closed hx hclosed) f, ?_⟩
    intro hframe hopen hid
    refine ⟨fun hkeys => onFrame_of_discarded (authFrame_of_no_key hx hframe hopen hid (holdsKey_eq_false hkeys)) f, ?_⟩
    intro k hmem hkept
    have hkey := holdsKey_eq_true hmem hkept
    refine ⟨fun htag => onFrame_of_discarded (authFrame_of_bad_tag hx hframe hopen hid hkey htag) f,
      fun htag hseen => onFrame_of_discarded (authFrame_of_replayed hx hframe hopen hid hkey htag hseen) f, fun htag hnew => ?_⟩
    have hkeyed := sessionKey_noteFrame h s.awn.tick x
    simp only [sessionKey, Prod.mk.injEq] at hkeyed
    exact ⟨_, _, onFrame_of_authFrame (authFrame_of_good hx hframe hopen hid hkey htag hnew), rfl, hkeyed.1, hkeyed.2, rfl,
      replayed_noteFrame h s.awn.tick x⟩
  case probe =>
    exact fun s h x u => ⟨fun ha => congrArg Host.Outcome.next (onFrame_of_authFrame ha),
      fun ha => congrArg Host.Outcome.next (onFrame_of_authFrame ha)⟩
  case route =>
    intro s site route x r hx hr hup
    refine ⟨fun hearly => congrArg Host.Outcome.next (routeDown_of_echoed hx hr hearly), fun hsilent => ?_⟩
    refine ⟨_, congrArg Host.Outcome.next (routeDown_of_silent hx hr hup hsilent), ?_, ?_⟩
    · have hsent := sends_state (s := s) (t := sendFrame site x.shard
        { ftype := 10, round := s.site.round, route := some route, body := .probe false }
        (updRoute site x.shard route (fun t => { t with up := false }) s)) (by simp)
      generalize sendFrame site x.shard _ _ = t at hsent ⊢
      rw [hsent]
      rfl
    · obtain ⟨-, hshard⟩ := findSess_key hx
      have hdown := findSess_updSess s site x.shard
        (fun y => { y with routes := y.routes.mapIdx (fun j t => if j = route then { t with up := false } else t) }) (fun _ => rfl)
      rw [hshard, show findSess s site (memberIndex s) = some x from hx] at hdown
      obtain ⟨k, hk⟩ := findSess_sendFrame _ site (memberIndex s)
        { ftype := 10, round := s.site.round, route := some route, body := .probe false } _ hdown
      have hmember (f) : memberIndex (sendFrame site x.shard f (updRoute site x.shard route (fun t => { t with up := false }) s)) =
          memberIndex s := memberIndex_of (by simp [updRoute, updSess])
      unfold findSession
      rw [hmember, hshard]
      exact ⟨_, hk, by simp [hr]⟩

end Sys2Proof.Machine

namespace Sys2Proof.Machine

/-! ### What authentication leaves (R411, R414) -/

/-- R407: an authentic frame's session has noted it, and nothing else of the state has changed. -/
theorem authFrame_some {n : Nat} {h : FrameHeader} {b : FrameBody} {s u : State} {x : Session} (ha : authFrame n h b s = (some x, u)) :
    ∃ x0, findSess s h.site h.shard.toNat = some x0 ∧ x = noteFrame h s.awn.tick x0 ∧
      u = updSess h.site h.shard.toNat (noteFrame h s.awn.tick) s := by
  unfold authFrame authAs at ha
  split at ha
  · simp at ha
  · next x0 hx0 =>
    dsimp only at ha
    split at ha
    · simp at ha
    split at ha
    · simp at ha
    split at ha
    · simp at ha
    split at ha
    · simp at ha
    · rw [Prod.mk.injEq, Option.some.injEq] at ha
      exact ⟨x0, hx0, ha.1.symm, ha.2.symm⟩

/-- R408, R410: after a frame is authentic, what only sends and draws on the keys changes no more than these parts. -/
theorem sent_after_auth {n : Nat} {h : FrameHeader} {b : FrameBody} {s u t : State} {x : Session} {v : Sec}
    (ha : authFrame n h b s = (some x, u)) (ht : forgetSends t = forgetSends (u.withSec v)) :
    ∃ o w, t = ((s.withSec v).withSite w).withOut o := by
  obtain ⟨x0, -, -, rfl⟩ := authFrame_some ha
  exact ⟨_, _, sends_state ht⟩

/-- The session found after its own update. -/
theorem findSess_updSess_of {s : State} {a b : Nat} {f : Session → Session} {x : Session} (hx : findSess s a b = some x)
    (hf : ∀ x, sessionKey (f x) = sessionKey x) : findSess (updSess a b f s) a b = some (f x) := by
  rw [findSess_updSess _ _ _ _ hf, hx, Option.map_some]

/-! ### Key epochs (R412 to R414) -/

@[simp] theorem sessionKey_deriveNext (own : Nat) (ss : Bytes) (x : Session) : sessionKey (deriveNext own ss x) = sessionKey x := rfl

/-- R413: a session that does not wait for its key does not switch when the key comes. -/
theorem endKeyWait_of_not_waiting {s : State} {site shard : Nat} {x : Session} (hx : findSess s site shard = some x)
    (hwait : x.keyWaiting = false) : endKeyWait site shard s = s := by
  simp only [endKeyWait, hx, hwait, Bool.false_and]
  exact if_neg Bool.false_ne_true

section KeyNext

variable {u : State} {h : FrameHeader} {kem : Bytes} {x : Session}

theorem keyNextArrives_at_lower (hown : ownSite u < x.site) : keyNextArrives h kem x u = u := if_pos (.inl hown)

variable (hx : findSess u x.site x.shard = some x) (hwait : x.keyWaiting = false)
include hx hwait

/-- R578: KEY_NEXT at the higher end: the key is derived and its ciphertext leaves. -/
theorem keyNextArrives_at_higher (hown : x.site ≤ ownSite u) (hagreed : agreedEpoch x = h.epoch.toNat) (hopen : x.opened = true) :
    ∃ t, keyNextArrives h kem x u = t ∧
      forgetSends t = forgetSends (u.withSec { u.sec with kemUsed := u.sec.kemUsed + 1 }) ∧
      findSess t x.site x.shard = some { deriveNext (ownSite u) (Config.kemEncap kem u.sec.kemUsed).2 x with txSeq := x.txSeq + 1 } := by
  have hderived := findSess_updSess_of (s := u.withSec { u.sec with kemUsed := u.sec.kemUsed + 1 }) hx
    (sessionKey_deriveNext (ownSite u) (Config.kemEncap kem u.sec.kemUsed).2)
  have hsent := findSess_sendNow _ _ _
    { ftype := 6, round := u.site.round, body := .kem (Config.kemEncap kem u.sec.kemUsed).1 } _ hderived
  have hopened : (deriveNext (ownSite u) (Config.kemEncap kem u.sec.kemUsed).2 x).opened = true := hopen
  rw [if_pos hopened] at hsent
  refine ⟨_, (if_neg (by omega)).trans (endKeyWait_of_not_waiting hsent hwait), ?_, hsent⟩
  simp

/-- R578: KEY_NEXT_ACK with a key pending: the next key is derived. -/
theorem keyNextAckArrives_of_pending (hkey : x.kemKey ≠ []) :
    keyNextAckArrives kem x u = updSess x.site x.shard (deriveNext (ownSite u) (Config.kemDecap x.kemKey kem)) u ∧
    findSess (updSess x.site x.shard (deriveNext (ownSite u) (Config.kemDecap x.kemKey kem)) u) x.site x.shard =
      some (deriveNext (ownSite u) (Config.kemDecap x.kemKey kem) x) := by
  have hderived := findSess_updSess_of hx (sessionKey_deriveNext (ownSite u) (Config.kemDecap x.kemKey kem))
  exact ⟨(if_neg hkey).trans (endKeyWait_of_not_waiting hderived hwait), hderived⟩

end KeyNext

/-- R413: the forced switch of a site's only session. -/
theorem forceSwitch_of_one {s : State} {x : Session} (hone : s.site.sessions = [x]) (hopen : x.opened = true) :
    forceSwitch x.site s = if switchDue s x then
      (if nextAgreed x then switchEpoch x.site x.shard s
        else if x.keyWaiting then s
        else updSess x.site x.shard (fun x => { x with keyWaiting := true })
          (siteCount x.site (fun t => { t with keyWaits := add48 t.keyWaits 1 }) s)) else s := by
  unfold forceSwitch
  cases hdue : switchDue s x <;> simp [hone, hopen, hdue]

/-- R425: a site's totals read back after a change that leaves a count. -/
theorem siteCount_totals {f : SiteTotal → SiteTotal} {i : Nat} {s : State} (h : f (sget {} s.site.totals i) ≠ {}) :
    sget {} (siteCount i f s).site.totals i = f (sget {} s.site.totals i) := sget_sput_of_ne _ _ _ _ h

/-- R412, R413: a session whose sender has moved to the next epoch: its SEQ starts from 0, and the key of the epoch before stays. -/
def nextEpoch (now : W64) (x : Session) : Session :=
  { x with epoch := x.epoch + 1, txPrev := x.txSeq, txSeq := 0, since := now, keyWaiting := false,
           txKeys := x.txKeys.filter (fun k => x.epoch ≤ k.1) }

/-- R412, R413: after a switch the session is in the next epoch, beside what KEY_NEXT adds. -/
theorem findSess_switchEpoch {s : State} {site shard : Nat} {x : Session} (hx : findSess s site shard = some x) :
    ∃ k n, findSess (switchEpoch site shard s) site shard = some { nextEpoch s.awn.tick x with kemKey := k, txSeq := n } ∧
      n.toNat ≤ 1 := by
  have hswitched := findSess_updSess_of (f := nextEpoch s.awn.tick) hx (fun _ => rfl)
  have hlogged : findSess (logSite 3 site s.site.round (natLe 4 (x.epoch + 1)) (updSess site shard (nextEpoch s.awn.tick) s)) site shard =
      some (nextEpoch s.awn.tick x) := (findSess_of_sessions (by simp [logSite]) site shard).trans hswitched
  obtain ⟨k, n, hkey, hn⟩ := findSess_startKeyNext _ _ _ _ hlogged
  refine ⟨k, n, ?_, ?_⟩
  · unfold switchEpoch
    rw [hx]
    exact hkey
  · change n = 0 ∨ n = 0 + 1 at hn
    rcases hn with rfl | rfl <;> decide

/-- Settles O58: by what KEY_NEXT, its answer, the forced switch and the end of the grace do, and by the session after a switch. -/
theorem keyEpochsSwitch : Obligations.KeyEpochsSwitch := by
  unfold Obligations.KeyEpochsSwitch
  refine ⟨?next, ?ack, ?force, ?grace, ?switch⟩
  case next =>
    intro s h kem x u ha hx hopen
    refine ⟨fun hown => congrArg Host.Outcome.next ((onFrame_of_authFrame ha).trans (keyNextArrives_at_lower hown)), ?_⟩
    intro hown hagreed hwait
    obtain ⟨t, ht, hforget, hsess⟩ := keyNextArrives_at_higher (kem := kem) hx hwait hown hagreed hopen
    refine ⟨t, congrArg Host.Outcome.next ((onFrame_of_authFrame ha).trans ht), ?_, _, hsess, ?_, rfl, ?_⟩
    · obtain ⟨o, w, rfl⟩ := sent_after_auth ha hforget
      apply State.eq_of_parts <;> simp
    · exact (agreedEpoch_deriveNext _ _ x).trans (by rw [hagreed])
    · rw [← hagreed]
      rfl
  case ack =>
    intro s h kem x u ha hx hopen
    refine ⟨fun hkey => congrArg Host.Outcome.next ((onFrame_of_authFrame ha).trans (if_pos hkey)), fun hkey hwait => ?_⟩
    obtain ⟨ht, hsess⟩ := keyNextAckArrives_of_pending (kem := kem) hx hwait hkey
    refine ⟨_, congrArg Host.Outcome.next ((onFrame_of_authFrame ha).trans ht), ?_, rfl, _, hsess,
      agreedEpoch_deriveNext _ _ x, rfl, rfl, rfl⟩
    obtain ⟨x0, -, -, rfl⟩ := authFrame_some ha
    apply State.eq_of_parts <;> simp [updSess]
  case force =>
    intro s site x hone hsite hopen
    subst hsite
    have hforce := forceSwitch_of_one hone hopen
    refine ⟨fun hdue => ?_, fun hdue hagreed => ?_, fun hdue hagreed hwait => ?_⟩
    · rw [hdue] at hforce
      exact congrArg Host.Outcome.next hforce
    · rw [hdue, hagreed] at hforce
      exact congrArg Host.Outcome.next hforce
    · rw [hdue, hagreed, hwait] at hforce
      refine ⟨_, congrArg Host.Outcome.next hforce, ?_, ?_⟩
      · rw [if_pos rfl, if_neg Bool.false_ne_true, if_neg Bool.false_ne_true, updSess_single _ x _ (by exact hone)]
        rfl
      · exact siteCount_totals (f := fun t => { t with keyWaits := add48 t.keyWaits 1 })
          (ne_of_apply_ne SiteTotal.keyWaits (add48_one_ne_zero _))
  case grace =>
    intro s site x hone hsite hopen
    refine ⟨fun hlate => congrArg Host.Outcome.next ?_, fun hlate => ?_⟩
    · simp only [graceExpiry, hone, List.map_cons, List.map_nil, hsite, hopen, decide_true, Bool.and_self, if_true, eraseTx]
      rw [if_neg (by omega)]
    · refine ⟨_, rfl, { x with
        rxKeys := x.rxKeys.filter (fun k => decide (x.rxEpoch ≤ k.1)), rx := x.rx.filter (fun r => decide (x.rxEpoch ≤ r.1)) }, ?_, rfl, rfl⟩
      simp only [graceExpiry, hone, List.map_cons, List.map_nil, hsite, hopen, decide_true, Bool.and_self, if_true, eraseRx,
        Bool.false_eq_true, if_false]
      rw [if_neg (by omega)]
  case switch =>
    intro s site shard x hx
    obtain ⟨k, n, hsess, hn⟩ := findSess_switchEpoch hx
    exact ⟨_, hsess, rfl, rfl, hn, rfl⟩

end Sys2Proof.Machine

namespace Sys2Proof.Machine

/-! ### Inbound contributions (R401, R409, R416, R419) -/

/-- What names an inbound contribution: its site, shard, round and kind. -/
def inboundKey (i : Inbound) : Nat × Nat × Nat × Bool := (i.site, i.shard, i.round, i.state)

theorem isInbound_of_key {i j : Inbound} (h : inboundKey i = inboundKey j) (site shard round : Nat) (st : Bool) :
    isInbound site shard round st i = isInbound site shard round st j := by
  simp only [inboundKey, Prod.mk.injEq] at h
  obtain ⟨hsite, hshard, hround, hstate⟩ := h
  simp only [isInbound, hsite, hshard, hround, hstate]

theorem findInbound_of_inbound {s t : State} (h : t.site.inbound = s.site.inbound) (f : FrameHeader) : findInbound f t = findInbound f s := by
  unfold findInbound
  rw [h]

/-- R409: a frame's contribution is found as it was last written. -/
theorem findInbound_setInbound {s : State} {h : FrameHeader} {i j : Inbound} (hi : findInbound h s = some i)
    (hkey : inboundKey j = inboundKey i) : findInbound h (setInbound j s) = some j := by
  have hmatch : isInbound h.site h.shard.toNat h.round.toNat (stateFlag h) i = true := List.find?_some hi
  have hj : isInbound h.site h.shard.toNat h.round.toNat (stateFlag h) j = true := by rw [isInbound_of_key hkey, hmatch]
  have hsame : isInbound j.site j.shard j.round j.state = isInbound h.site h.shard.toNat h.round.toNat (stateFlag h) := by
    simp only [isInbound, Bool.and_eq_true, decide_eq_true_eq] at hj
    obtain ⟨⟨⟨hsite, hshard⟩, hround⟩, hstate⟩ := hj
    rw [hsite, hshard, hround, hstate]
  unfold findInbound setInbound at *
  rw [hsame]
  change List.find? _ (s.site.inbound.map _) = _
  generalize s.site.inbound = l at hi
  induction l with
  | nil => simp at hi
  | cons y l ih =>
    cases hy : isInbound h.site h.shard.toNat h.round.toNat (stateFlag h) y with
    | true => rw [List.map_cons, if_pos hy, List.find?_cons_of_pos hj]
    | false =>
      rw [List.map_cons, if_neg (by simp [hy]), List.find?_cons_of_neg (by simp [hy])]
      exact ih (by rwa [List.find?_cons_of_neg (by simp [hy])] at hi)

/-- R401: a contribution that has its slot takes no other. -/
theorem openInbound_of_found {s : State} {h : FrameHeader} {i : Inbound} (hi : findInbound h s = some i) : openInbound h s = s := by
  unfold openInbound
  exact if_pos (by rw [hi]; rfl)

/-- R401: a contribution without its ROUND_OPEN, or with a group to come, is not complete. -/
theorem completeInbound_of_incomplete {s : State} {h : FrameHeader} {i : Inbound} (hi : findInbound h s = some i)
    (hmissing : i.opened = false ∨ i.decoded.length < i.groups) : completeInbound h s = s := by
  simp only [completeInbound, hi]
  exact if_pos (by rcases hmissing with h1 | h1 <;> simp [h1])

theorem inbound_of_forgetSends {s t : State} (h : forgetSends t = forgetSends s) : t.site.inbound = s.site.inbound := by
  have hinbound := congrArg (fun u : State => u.site.inbound) h
  exact hinbound

/-! ### DATA (R415 to R419) -/

section Data

variable {u : State} {h : FrameHeader} {payload : Bytes} {arrival : W64} {x : Session} {i : Inbound} {d : SiteDesc}

/-- R420: the state in which a route has noted its latest DATA. -/
def routeNoted (h : FrameHeader) (arrival : W64) (x : Session) (u : State) : State :=
  updRoute x.site x.shard h.route (fun t => { t with lastTx := some (h.txNs, arrival) }) u

/-- R418: a contribution that has seen a packet. -/
def withPacketSeen (h : FrameHeader) (arrival : W64) (i : Inbound) : Inbound :=
  { i with seen := i.seen ++ [(h.group, h.pkt)], lastAt := arrival }

/-- R418: judging a packet's lateness changes of the contribution only what its routes delivered first, and of the state only routes. -/
theorem judgeLate_eq (d : SiteDesc) (x : Session) (h : FrameHeader) (arrival : W64) (i : Inbound) (s : State) :
    ∃ late firsts t, judgeLate d x h arrival i s = (late, { i with firsts := firsts }, t) ∧ forgetSends t = forgetSends s ∧ t.out = s.out := by
  unfold judgeLate
  split
  · exact ⟨_, _, _, rfl, rfl, rfl⟩
  · exact ⟨_, _, _, rfl, forgetSends_updRoute .., rfl⟩

variable (hdesc : u.site.desc = some d) (hi : findInbound h u = some i) (hlen : payload.length = 8192) (hk : h.k ≠ 0)
  (hpkt : h.pkt < h.k + h.m)
include hdesc hi hlen hk hpkt

/-- R415: a packet seen before is counted. -/
theorem dataArrives_of_seen (hseen : (h.group, h.pkt) ∈ i.seen) : dataArrives h payload arrival x u =
    siteCount h.site (fun t => { t with dupPackets := add48 t.dupPackets 1 }) (routeNoted h arrival x u) := by
  have hfound : findInbound h (routeNoted h arrival x u) = some i := hi
  have hopen := openInbound_of_found hfound
  have hsite : (routeNoted h arrival x u).site.desc = some d := hdesc
  unfold dataArrives
  rw [show updRoute x.site x.shard h.route (fun t => { t with lastTx := some (h.txNs, arrival) }) u = routeNoted h arrival x u from rfl, hopen]
  simp only [hsite, hfound]
  rw [if_neg (by omega), if_pos hseen]

/-- R418, R419: a new packet of a group that has not decoded is held. -/
theorem dataArrives_of_new (hseen : (h.group, h.pkt) ∉ i.seen) (hdecoded : h.group ∉ i.decoded) :
    ∃ firsts t, dataArrives h payload arrival x u = holdPacket h payload { withPacketSeen h arrival i with firsts := firsts } t ∧
      t.site.inbound = u.site.inbound ∧ t.out = u.out := by
  have hfound : findInbound h (routeNoted h arrival x u) = some i := hi
  have hopen := openInbound_of_found hfound
  have hsite : (routeNoted h arrival x u).site.desc = some d := hdesc
  obtain ⟨late, firsts, t, hjudge, hforget, hout⟩ := judgeLate_eq d x h arrival (withPacketSeen h arrival i) (routeNoted h arrival x u)
  have hinbound : t.site.inbound = u.site.inbound := inbound_of_forgetSends hforget
  simp only [withPacketSeen] at hjudge
  refine ⟨firsts, if late then siteCount h.site (fun t => { t with latePackets := add48 t.latePackets 1 }) t else t, ?_, ?_, ?_⟩
  · unfold dataArrives
    rw [show updRoute x.site x.shard h.route (fun t => { t with lastTx := some (h.txNs, arrival) }) u = routeNoted h arrival x u from rfl,
      hopen]
    simp only [hsite, hfound]
    rw [if_neg (by omega), if_neg hseen, hjudge]
    exact if_neg hdecoded
  · cases late <;> exact hinbound
  · cases late <;> exact hout

end Data

section Hold

variable {u t : State} {h : FrameHeader} {payload : Bytes} {i j : Inbound} (hi : findInbound h u = some i)
  (hinbound : t.site.inbound = u.site.inbound) (hkey : inboundKey j = inboundKey i)
include hi hinbound hkey

/-- R419: a packet that leaves its group short of K is kept. -/
theorem holdPacket_of_short (hshort : (j.packets.filter (fun q => decide (q.1 = h.group))).length + 1 < h.k) :
    ∃ v, holdPacket h payload j t = v ∧ v.out = t.out ∧
      findInbound h v = some { j with packets := j.packets ++ [(h.group, h.pkt, payload)] } := by
  refine ⟨_, if_pos (by simpa [List.filter_append] using hshort), rfl, ?_⟩
  exact findInbound_setInbound ((findInbound_of_inbound hinbound h).trans hi) hkey

/-- R416: a contribution whose group has decoded: its packets give way to the data packets. -/
def withGroupDecoded (h : FrameHeader) (data : List Bytes) (packets : List (Nat × Nat × Bytes)) (j : Inbound) : Inbound :=
  { j with packets := packets.filter (fun q => q.1 ≠ h.group) ++ data.zipIdx.map (fun q => (h.group, q.2, q.1)),
           decoded := j.decoded ++ [h.group] }

/-- R416, R419: the packet with which a group holds K decodes it. -/
theorem holdPacket_of_full (hfull : (j.packets.filter (fun q => decide (q.1 = h.group))).length + 1 = h.k) (hopened : j.opened = false) :
    ∃ v, holdPacket h payload j t = v ∧ findInbound h v = some (withGroupDecoded h
      (decodeGroup h.k ((j.packets.filter (fun q => q.1 = h.group)).map (·.2) ++ [(h.pkt, payload)]))
      (j.packets ++ [(h.group, h.pkt, payload)]) j) := by
  have hgroup : (j.packets ++ [(h.group, h.pkt, payload)]).filter (fun q => decide (q.1 = h.group)) =
      j.packets.filter (fun q => decide (q.1 = h.group)) ++ [(h.group, h.pkt, payload)] := by simp [List.filter_append]
  have hput := findInbound_setInbound (j := withGroupDecoded h
      (decodeGroup h.k ((j.packets.filter (fun q => q.1 = h.group)).map (·.2) ++ [(h.pkt, payload)]))
      (j.packets ++ [(h.group, h.pkt, payload)]) j) ((findInbound_of_inbound hinbound h).trans hi) hkey
  refine ⟨_, rfl, ?_⟩
  unfold holdPacket
  dsimp only
  rw [hgroup, if_neg (by simp [hfull]), List.map_append]
  generalize hacked : sendAckFrame _ _ = v
  have hv := (findInbound_of_inbound (t := v) (by
    rw [← hacked]
    exact inbound_of_forgetSends (forgetSends_sendAckFrame _ _)) h).trans hput
  exact (congrArg (findInbound h) (completeInbound_of_incomplete hv (.inl hopened))).trans hv

end Hold

/-! ### ROUND_OPEN, REPAIR and ACK (R409, R419, R420) -/

theorem roundOpens_of_opened {u : State} {h : FrameHeader} {i : Inbound} (hi : findInbound h u = some i) (hopened : i.opened = true)
    (groups lastK : Nat) (w : W64) (r : WriteRecord) : roundOpens h groups lastK w r u = u := by
  simp only [roundOpens, openInbound_of_found hi, hi]
  exact if_pos hopened

/-- R409: a ROUND_OPEN fills in its contribution, which is not complete while a group has to come. -/
theorem roundOpens_of_new {u : State} {h : FrameHeader} {i : Inbound} (hi : findInbound h u = some i) (hopened : i.opened = false)
    {groups : Nat} (hmissing : i.decoded.length < groups) (lastK : Nat) (w : W64) (r : WriteRecord) :
    roundOpens h groups lastK w r u =
      setInbound { i with opened := true, groups := groups, lastK := lastK, sealWord := w, record := r } u := by
  simp only [roundOpens, openInbound_of_found hi, hi]
  rw [if_neg (by simp [hopened])]
  exact completeInbound_of_incomplete (findInbound_setInbound hi rfl) (.inr hmissing)

section Repair

variable {u : State} {h : FrameHeader} {x : Session} {d : SiteDesc} {o : Outbound} (held : BitVec 48) (hdesc : u.site.desc = some d)
  (hflag : stateFlag h = false) (ho : u.site.outbound.find? (fun o => decide (o.round = h.round.toNat)) = some o)
include hdesc hflag ho

theorem repairGroup_of_beyond (hgroup : groupTotal d.k o.stream ≤ h.group) : repairGroup h held x u = u := by
  simp only [repairGroup, hflag, Bool.false_eq_true, if_false, hdesc, ho]
  exact if_pos hgroup

/-- R419: the packets that the map lacks leave again. -/
theorem repairGroup_of_within (hgroup : h.group < groupTotal d.k o.stream) : repairGroup h held x u =
    ((List.range (groupK d.k o.stream h.group + d.m)).filter (fun i => !held.getLsbD i)).foldl (fun s i =>
      resendFrame x.site x.shard (((o.epochs.find? (fun e => e.1 = h.site)).map (·.2)).getD 0)
        (packetFrame d x o false true h.group i) s) u := by
  simp only [repairGroup, hflag, Bool.false_eq_true, if_false, hdesc, ho]
  exact if_neg (by omega)

end Repair

/-- R406: with no contribution to free or to send, an ACK adds its grants. -/
theorem ackArrives_of_no_outbound {u : State} {h : FrameHeader} {a : AckPayload} {x : Session} (hleaving : u.site.leaving = none)
    (hboundary : u.site.boundary ≠ 3) (houtbound : u.site.outbound = []) (hechoes : a.echoes = []) (hflag : stateFlag h = false) :
    ackArrives h a x u = updSess x.site x.shard (fun x => { x with grants := x.grants + a.grants }) u := by
  unfold ackArrives
  simp only [hechoes, hflag, List.foldl_nil, Bool.false_eq_true, if_false]
  have hsame (v : State) (put : Outbound → Outbound) (hv : v.site.outbound = []) :
      v.withSite { v.site with outbound := v.site.outbound.map put } = v := by
    rw [hv, List.map_nil, ← hv]
    rfl
  rw [hsame _ _ (by exact houtbound)]
  exact settlePeers_of_nil _ houtbound hboundary hleaving

/-! ### Deadlines and stalls (R419) -/

theorem repairDue_of_first {s : State} {i : Inbound} {group : Nat} (hnone : ∀ r ∈ i.repaired, r.1 ≠ group) :
    repairDue s i group = true := by
  have hfind : i.repaired.find? (fun r => decide (r.1 = group)) = none := by simpa using hnone
  simp only [repairDue, hfind]

section Deadline

variable {s : State} {site shard round group : Nat} {i : Inbound}
  (hi : s.site.inbound.find? (fun i => decide (i.site = site) && decide (i.shard = shard) && decide (i.round = round)) = some i)
include hi

theorem groupDeadline_of_decoded (hdecoded : group ∈ i.decoded) : groupDeadline site shard round group s = s := by
  simp only [groupDeadline, hi]
  exact if_pos (.inr (.inl hdecoded))

theorem groupDeadline_of_early (hearly : ∃ f ∈ i.firsts, f.1 = group ∧ (s.awn.tick.toNat : Int) < f.2.2.2) :
    groupDeadline site shard round group s = s := by
  obtain ⟨f, hf, hgroup, htick⟩ := hearly
  simp only [groupDeadline, hi]
  refine if_pos (.inr (.inr (.inr ?_)))
  rw [List.any_eq_true]
  exact ⟨f, List.mem_filter.2 ⟨hf, decide_eq_true hgroup⟩, decide_eq_true htick⟩

/-- R419: past the deadline of every route that delivered of it, a group that has not decoded is repaired when it is due. -/
theorem groupDeadline_of_passed (hdecoded : group ∉ i.decoded) (hfirst : ∃ f ∈ i.firsts, f.1 = group)
    (hpassed : ∀ f ∈ i.firsts, f.1 = group → f.2.2.2 ≤ s.awn.tick.toNat) :
    groupDeadline site shard round group s = if repairDue s i group = true then sendRepair i group s else s := by
  obtain ⟨f, hf, hgroup⟩ := hfirst
  have hsome : i.firsts.filter (fun f => decide (f.1 = group)) ≠ [] :=
    List.ne_nil_of_mem (List.mem_filter.2 ⟨hf, decide_eq_true hgroup⟩)
  have hlate : (i.firsts.filter (fun f => decide (f.1 = group))).any (fun f => decide ((s.awn.tick.toNat : Int) < f.2.2.2)) = false := by
    rw [List.any_eq_false]
    intro q hq
    obtain ⟨hmem, hq⟩ := List.mem_filter.1 hq
    have := hpassed q hmem (of_decide_eq_true hq)
    simpa using this
  simp only [groupDeadline, hi, hlate]
  cases hdue : repairDue s i group with
  | true => exact if_neg (by simp [hsome, hdecoded])
  | false => exact if_pos (.inr (.inr (.inl rfl)))

variable {d : SiteDesc} (hdesc : s.site.desc = some d)
include hdesc

theorem dataStall_of_early
    (hearly : (((s.awn.tick - i.lastAt).toNat : Nat) : Int) < 1000 * (d.skewMax : Int) + largestTrip s site shard) :
    dataStall site shard round s = s := by
  simp only [dataStall, hdesc, hi]
  exact if_pos hearly

/-- R419: once DATA has stopped, every group that has not decoded is repaired. -/
theorem dataStall_of_quiet
    (hquiet : 1000 * (d.skewMax : Int) + largestTrip s site shard ≤ (((s.awn.tick - i.lastAt).toNat : Nat) : Int)) :
    dataStall site shard round s = ((List.range (if i.opened then i.groups else
      ((streamBytes i s + 8191) / 8192 + d.k - 1) / max 1 d.k)).filter (fun g => decide (g ∉ i.decoded))).foldl
        (fun s g => sendRepair i g s) s := by
  simp only [dataStall, hdesc, hi]
  exact if_neg (Int.not_lt.2 hquiet)

end Deadline

/-- Settles O57: by the cases of DATA, and by what ROUND_OPEN, REPAIR, ACK, a deadline and a stall each do. -/
theorem contributionsArriveAndAreRepaired : Obligations.ContributionsArriveAndAreRepaired := by
  unfold Obligations.ContributionsArriveAndAreRepaired
  refine ⟨?data, ?opens, ?repair, ?ack, ?late⟩
  case data =>
    intro s h payload arrival x i d u ha hdesc hi hlen hk hpkt
    have hdata (t : State) (ht : dataArrives h payload arrival x u = t) : exec (.data h payload arrival) s = .next t :=
      congrArg Host.Outcome.next ((onFrame_of_authFrame ha).trans ht)
    refine ⟨fun hseen => ?_, fun hseen hdecoded hshort => ?_, fun hseen hdecoded hfull hopened => ?_⟩
    · refine ⟨_, hdata _ (dataArrives_of_seen hdesc hi hlen hk hpkt hseen), ?_, rfl, rfl, ?_⟩
      · obtain ⟨x0, -, -, rfl⟩ := authFrame_some ha
        apply State.eq_of_parts <;> simp [updSess, siteCount, routeNoted, updRoute]
      · exact siteCount_totals (s := routeNoted h arrival x u) (f := fun t => { t with dupPackets := add48 t.dupPackets 1 })
          (ne_of_apply_ne SiteTotal.dupPackets (add48_one_ne_zero _))
    · obtain ⟨firsts, t, ht, hinbound, hout⟩ := dataArrives_of_new (arrival := arrival) (x := x) hdesc hi hlen hk hpkt hseen hdecoded
      obtain ⟨v, hv, hvout, hfound⟩ := holdPacket_of_short (payload := payload)
        (j := { withPacketSeen h arrival i with firsts := firsts }) hi hinbound rfl hshort
      exact ⟨v, hdata v (ht.trans hv), hvout.trans hout, _, hfound, rfl, List.mem_append_right _ List.mem_cons_self, rfl, rfl⟩
    · obtain ⟨firsts, t, ht, hinbound, hout⟩ := dataArrives_of_new (arrival := arrival) (x := x) hdesc hi hlen hk hpkt hseen hdecoded
      obtain ⟨v, hv, hfound⟩ := holdPacket_of_full (payload := payload)
        (j := { withPacketSeen h arrival i with firsts := firsts }) hi hinbound rfl hfull hopened
      refine ⟨v, hdata v (ht.trans hv), _, hfound, rfl, ?_⟩
      simp [withGroupDecoded, withPacketSeen, List.filter_append, List.filter_map, Function.comp_def]
  case opens =>
    intro s h groups lastK w r x i u ha hi
    refine ⟨fun hopened => congrArg Host.Outcome.next ((onFrame_of_authFrame ha).trans (roundOpens_of_opened hi hopened ..)),
      fun hopened hmissing => ?_⟩
    exact ⟨_, congrArg Host.Outcome.next ((onFrame_of_authFrame ha).trans (roundOpens_of_new hi hopened hmissing ..)), rfl,
      findInbound_setInbound hi rfl⟩
  case repair =>
    intro s h held x u d o ha hdesc hflag ho
    exact ⟨fun hgroup => congrArg Host.Outcome.next ((onFrame_of_authFrame ha).trans (repairGroup_of_beyond held hdesc hflag ho hgroup)),
      fun hgroup => congrArg Host.Outcome.next ((onFrame_of_authFrame ha).trans (repairGroup_of_within held hdesc hflag ho hgroup))⟩
  case ack =>
    intro s h a x u ha hleaving hboundary houtbound hshard hechoes hflag hx
    refine ⟨_, congrArg Host.Outcome.next ((onFrame_of_authFrame ha).trans
      (ackArrives_of_no_outbound hleaving hboundary houtbound hechoes hflag)), ?_, rfl⟩
    rw [findSess_updSess_of (f := fun y => { y with grants := y.grants + a.grants }) hx (fun _ => rfl)]
    rfl
  case late =>
    intro s site shard round group i hi
    refine ⟨fun hdecoded => congrArg Host.Outcome.next (groupDeadline_of_decoded hi hdecoded), fun hdecoded hfirst hpassed => ?_,
      fun hearly => congrArg Host.Outcome.next (groupDeadline_of_early hi hearly), fun d hdesc => ?_⟩
    · have hdeadline := groupDeadline_of_passed hi hdecoded hfirst hpassed
      exact ⟨fun hnone => congrArg Host.Outcome.next (hdeadline.trans (if_pos (repairDue_of_first hnone))),
        congrArg Host.Outcome.next hdeadline⟩
    · exact ⟨fun hearly => congrArg Host.Outcome.next (dataStall_of_early hi hdesc hearly),
        fun hquiet => congrArg Host.Outcome.next (dataStall_of_quiet hi hdesc hquiet)⟩

end Sys2Proof.Machine

namespace Sys2Proof.Machine

/-! ### The outer update (R398, R399) -/

theorem foldl_marked {α : Type} {f : State → α → State} (h : ∀ s x, ∃ m, f s x = s.marked m) (l : List α) (s : State) (m : LogMarks) :
    ∃ m', l.foldl f (s.marked m) = s.marked m' := by
  induction l generalizing m with
  | nil => exact ⟨m, rfl⟩
  | cons x l ih =>
    obtain ⟨m', hm'⟩ := h (s.marked m) x
    rw [List.foldl_cons, hm']
    exact ih m'

/-- R488: the marks that are there already. -/
theorem marked_self (s : State) : ∃ m, s = s.marked m :=
  ⟨⟨s.log, s.saf.detected, s.saf.fatal, s.saf.lastSeq, s.saf.replays, s.bus.alert, s.bus.msix⟩, rfl⟩

/-- R400: the AUDIT_LEAF records leave marks only. -/
theorem auditLeaves_eq (leaves : List (SiteRound × W64)) (s : State) : ∃ m, auditLeaves leaves s = s.marked m := by
  obtain ⟨m, hm⟩ := marked_self s
  rw [hm]
  exact foldl_marked (fun s x => logEvent_eq _ _ _ _ s) leaves s m

/-- R397: counting NONFINITE contributions changes totals alone. -/
theorem countNonfinite_eq (set : List SiteRound) (p : Nat) (s : State) :
    ∃ totals, countNonfinite set p s = s.withSite { s.site with totals := totals } := by
  have hfold (l : List SiteRound) (s : State) : ∃ totals, l.foldl (fun s x =>
      siteCount x.site (fun t => { t with nonfiniteContrib := add48 t.nonfiniteContrib 1 }) s) s =
      s.withSite { s.site with totals := totals } := by
    induction l generalizing s with
    | nil => exact ⟨s.site.totals, rfl⟩
    | cons x l ih =>
      obtain ⟨totals, h⟩ := ih (siteCount x.site (fun t => { t with nonfiniteContrib := add48 t.nonfiniteContrib 1 }) s)
      exact ⟨totals, h⟩
  exact hfold _ s

theorem emit_emit (a b : Out) (s : State) : emit a (emit b s) = s.withOut (s.out ++ [b, a]) := by
  unfold emit
  rw [State.withOut_out, List.append_assoc]
  rfl

/-- R399: the state of an outer step as it begins, before the mirror has its anchor. -/
def outerBegun (run : RunCmd) (anchor : List Conv) (momentum : List W16) (set : List SiteRound) (s : State) : State :=
  let s := s.withStep { run := some run, outer := true, missed := s.step.missed,
                        failedMembers := s.step.failedMembers, taken := s.step.taken }
  let s := setShadow s (outerShadow s (committed s) anchor)
  s.withSite { s.site with boundary := 2, accepted := set, nextMomentum := momentum }

theorem outerBegun_eq (run : RunCmd) (anchor : List Conv) (momentum : List W16) (set : List SiteRound) (s : State) :
    ∃ st tn, outerBegun run anchor momentum set s = ((s.withStep st).withTens tn).withSite
      { s.site with boundary := 2, accepted := set, nextMomentum := momentum } ∧ st.outer = true :=
  ⟨_, _, rfl, rfl⟩

/-- R399, R430: an outer step begins: the run, the shadow buffer, the accepted set and the new momentum are in place. -/
theorem beginOuter_eq (run : RunCmd) (anchor : List Conv) (momentum : List W16) (set : List SiteRound) (s : State) :
    ∃ st tn o, beginOuter run anchor momentum set s = (((s.withStep st).withTens tn).withSite
      { s.site with boundary := 2, accepted := set, nextMomentum := momentum }).withOut (s.out ++ o) ∧ st.outer = true := by
  obtain ⟨st, tn, hbegun, houter⟩ := outerBegun_eq run anchor momentum set s
  have hsplit : beginOuter run anchor momentum set s = if hasPartner (outerBegun run anchor momentum set s) then
      emit (.mirrorRecord (mirrorRecordOf (outerBegun run anchor momentum set s)))
        (emit (.mirrorSection (runningEpoch (outerBegun run anchor momentum set s)) 0 (anchor.map (fun c => BitVec.ofNat 32 c.code)))
          ((outerBegun run anchor momentum set s).withStep { (outerBegun run anchor momentum set s).step with mirrored := 1 }))
      else outerBegun run anchor momentum set s := rfl
  rw [hsplit, hbegun]
  split
  · rw [emit_emit]
    exact ⟨{ st with mirrored := 1 }, tn, [_, _], rfl, houter⟩
  · exact ⟨st, tn, [], by rw [List.append_nil]; rfl, houter⟩

/-- R398: the next momentum that the outer rule forms from the accepted contributions. -/
def outerMomentum (s : State) (d : SiteDesc) (set : List SiteRound) : List W16 :=
  (List.range s.site.anchor.length).map (fun i => BitVec.ofNat 16 (outerElem d.mu d.eta
    ((set.filterMap (fun x => (leafOf s s.site.anchor.length x).map (·.1))).map (fun v => v.getD i 0))
    (s.site.momentum.getD i 0) (s.site.anchor.getD i 0)).1.code)

/-- R398: the momentum of the outer elements of the accepted contributions. -/
theorem outerElems_momentum (s : State) (d : SiteDesc) (set : List SiteRound) :
    (outerElems s d ((set.filterMap (fun x => (leafOf s s.site.anchor.length x).map (fun v => (x, v)))).map (·.2.1))).map
      (fun e => BitVec.ofNat 16 e.1.code) = outerMomentum s d set := by
  simp [outerElems, outerMomentum, List.map_filterMap, Function.comp_def]

/-- R398, R399: at the boundary the outer update begins the outer step with the accepted set. -/
theorem outerUpdate_of_boundary {s : State} {d : SiteDesc} (hdesc : s.site.desc = some d) (hboundary : s.site.boundary = 1)
    (hrun : s.step.run = none) (set : List SiteRound) : ∃ totals st tn o m, outerUpdate set s =
      ((((s.withStep st).withTens tn).withSite { s.site with
        totals := totals, boundary := 2, accepted := siteOrder set,
        nextMomentum := outerMomentum s d (siteOrder set) }).withOut (s.out ++ o)).marked m ∧ st.outer = true := by
  obtain ⟨totals, htotals⟩ := countNonfinite_eq (siteOrder set) s.site.anchor.length s
  unfold outerUpdate
  rw [hdesc]
  dsimp only
  rw [if_neg (by simp [hboundary, hrun]), htotals, outerElems_momentum]
  generalize outerMomentum s d (siteOrder set) = momentum
  generalize List.map Prod.snd (outerElems s d _) = anchor
  obtain ⟨st, tn, o, hbegin, houter⟩ := beginOuter_eq siteRun anchor momentum (siteOrder set)
    (s.withSite { s.site with totals := totals })
  rw [hbegin]
  generalize List.map _ (List.filterMap _ (siteOrder set)) = leaves
  obtain ⟨m, hm⟩ := auditLeaves_eq leaves (((((s.withSite { s.site with totals := totals }).withStep st).withTens tn).withSite
    { s.site with totals := totals, boundary := 2, accepted := siteOrder set, nextMomentum := momentum }).withOut (s.out ++ o))
  exact ⟨totals, st, tn, o, m, hm, houter⟩

/-! ### The roll of sites (R402, R403) -/

/-- R402: a boundary at which every member of the slice has reported. -/
structure RollReady (s : State) : Prop where
  lead : isLead s = true
  active : s.site.excluded = false
  boundary : s.site.boundary = 1
  idle : s.step.run = none
  reported : reporters s ≤ s.site.reports.length

/-- R402, R403: with every report, a site that lags is waited for, or the set that all hold is accepted. -/
theorem evaluateRoll_of_ready {s : State} (h : RollReady s) : evaluateRoll s =
    match laggingSite s (siteOrder (heldByAll s)) with
    | some i => s.withSite { s.site with
        waitingFor := some i, waitSince := if s.site.waitingFor = some i then s.site.waitSince else s.awn.tick }
    | none => outerUpdate (siteOrder (heldByAll s))
        (emit (.accepted (siteOrder (heldByAll s))) (s.withSite { s.site with waitingFor := none })) := by
  unfold evaluateRoll
  exact if_neg (by simp [h.lead, h.active, h.boundary, h.idle, h.reported])

/-- R402: the set is accepted: an outer step begins with it, or with no site nothing follows. -/
theorem accept_cases {s : State} {set : List SiteRound} (hboundary : s.site.boundary = 1) (hrun : s.step.run = none) :
    (s.site.desc = none ∧ outerUpdate set s = s) ∨
    ∃ d totals st tn o m, s.site.desc = some d ∧ outerUpdate set s =
      ((((s.withStep st).withTens tn).withSite { s.site with
        totals := totals, boundary := 2, accepted := siteOrder set,
        nextMomentum := outerMomentum s d (siteOrder set) }).withOut (s.out ++ o)).marked m ∧ st.outer = true := by
  cases hdesc : s.site.desc with
  | none => exact .inl ⟨rfl, by simp [outerUpdate, hdesc]⟩
  | some d =>
    obtain ⟨totals, st, tn, o, m, hupdate, houter⟩ := outerUpdate_of_boundary hdesc hboundary hrun set
    exact .inr ⟨d, totals, st, tn, o, m, rfl, hupdate, houter⟩

theorem outerUpdate_of_elsewhere {s : State} (h : s.site.boundary ≠ 1 ∨ s.step.run.isSome = true) (set : List SiteRound) :
    outerUpdate set s = s := by
  unfold outerUpdate
  split
  · rfl
  · exact if_pos h

/-- Settles O59: by the roll with every report, whose acceptance begins the outer step, and by the outer rule of one leaf. -/
theorem rollsAreEvaluatedAndApplied : Obligations.RollsAreEvaluatedAndApplied := by
  unfold Obligations.RollsAreEvaluatedAndApplied
  refine ⟨?other, ?kept, ?evaluated, ?applied, ?elsewhere, ?rule⟩
  case other =>
    exact fun s m held hlead => congrArg Host.Outcome.next (if_pos (by simp [hlead]))
  case kept =>
    intro s m held hlead hboundary
    have hreport : contributionReport m held s = s.withSite { s.site with
        reports := s.site.reports.filter (fun r => r.1 ≠ m) ++ [(m, held)] } :=
      (if_neg (by simp [hlead])).trans (evaluateRoll_of_not_waiting _ hboundary)
    refine ⟨_, congrArg Host.Outcome.next hreport, rfl, List.mem_append_right _ List.mem_cons_self, fun r hr => ?_⟩
    have hne : r ≠ (m, held) := fun h => hr (congrArg Prod.fst h)
    simp [hr, hne]
  case evaluated =>
    intro s m held u hu hlead hexcluded hboundary hrun hreported
    subst hu
    have hready : RollReady (s.withSite { s.site with reports := s.site.reports.filter (fun r => r.1 ≠ m) ++ [(m, held)] }) :=
      ⟨(isLead_of rfl).trans hlead, hexcluded, hboundary, hrun, hreported⟩
    have hreport : contributionReport m held s =
        evaluateRoll (s.withSite { s.site with reports := s.site.reports.filter (fun r => r.1 ≠ m) ++ [(m, held)] }) :=
      if_neg (by simp [hlead])
    rw [evaluateRoll_of_ready hready] at hreport
    generalize hu : s.withSite { s.site with reports := s.site.reports.filter (fun r => r.1 ≠ m) ++ [(m, held)] } = u at *
    refine ⟨fun i hlag => ?_, fun hlag => ?_⟩
    · rw [hlag] at hreport
      subst hu
      exact congrArg Host.Outcome.next hreport
    · rw [hlag] at hreport
      dsimp only at hreport
      rcases accept_cases (s := emit (.accepted (siteOrder (heldByAll u))) (u.withSite { u.site with waitingFor := none }))
        (set := siteOrder (heldByAll u)) (by subst hu; exact hboundary) (by subst hu; exact hrun) with
        ⟨hnone, hsame⟩ | ⟨d, totals, st, tn, o, k, hdesc, hupdate, houter⟩
      · rw [hsame] at hreport
        refine ⟨_, congrArg Host.Outcome.next hreport, ?_, ?_, rfl, ?_⟩
        · subst hu
          apply State.eq_of_parts <;> simp [emit]
        · simp [emit]
        · subst hu
          intro hsome
          rw [show s.site.desc = none from hnone] at hsome
          exact absurd hsome (by simp)
      · rw [hupdate] at hreport
        refine ⟨_, congrArg Host.Outcome.next hreport, ?_, ?_, rfl, fun _ => ⟨?_, houter⟩⟩
        · subst hu
          apply State.eq_of_parts <;> simp [emit, State.marked]
        · simp [emit, State.marked]
        · exact (siteOrder_perm _).trans (siteOrder_perm _)
  case applied =>
    intro s set d hdesc hboundary hrun
    obtain ⟨totals, st, tn, o, m, hupdate, houter⟩ := outerUpdate_of_boundary hdesc hboundary hrun set
    refine ⟨_, congrArg Host.Outcome.next hupdate, ?_, rfl, rfl, houter, rfl⟩
    apply State.eq_of_parts <;> simp [State.marked]
  case elsewhere =>
    exact fun s set h => congrArg Host.Outcome.next (outerUpdate_of_elsewhere h set)
  case rule =>
    intro mu eta x m a
    have hone : toA32 (.fin false 1 0) = 0x3F800000 := by decide
    unfold outerElem
    simp only [List.length_singleton, one_ne_zero, if_false, hone]
    rfl

end Sys2Proof.Machine

namespace Sys2Proof.Machine

/-! ### Session set-up (R577 to R579) -/

/-- R580: a session that is put in place is found. -/
theorem findSess_putSession (x : Session) (s : State) : ∃ old, findSess (putSession x s) x.site x.shard = some { x with replaces := old } := by
  have hnone : (s.site.sessions.filter (fun y => !(decide (y.site = x.site) && decide (y.shard = x.shard)))).find?
      (fun y => decide (y.site = x.site) && decide (y.shard = x.shard)) = none := by
    rw [List.find?_eq_none]
    intro y hy
    simpa [not_and_or, imp_iff_not_or] using (List.mem_filter.1 hy).2
  unfold findSess putSession
  dsimp only
  rw [State.withSite_site]
  dsimp only
  rw [List.find?_append, hnone, Option.none_or, List.find?_cons_of_pos (by simp)]
  exact ⟨_, rfl⟩

section Init

variable {s : State} {h : FrameHeader} {p : SessionPayload} {d : SiteDesc} (hdesc : s.site.desc = some d) (hframe : siteFrame h s = true)

/-- R577: of two sites the one of the lower index takes no SESSION_INIT. -/
theorem sessionInit_at_lower (hown : ownSite s < h.site) : sessionInit h p s = s := by
  unfold sessionInit
  split
  · rfl
  · exact if_pos (by simp [hown])

include hdesc hframe

/-- R577: a repeat of a frame is answered with the same SESSION_ACCEPT. -/
theorem sessionInit_of_repeat (hown : h.site < ownSite s) {x : Session} (hx : findSess s h.site h.shard.toNat = some x)
    (hsame : x.initFrame = setupFrame 12 h p) : sessionInit h p s = emitSetup x s := by
  have hkept : (findSess s h.site h.shard.toNat).filter (fun x => decide (x.initFrame = setupFrame 12 h p)) = some x := by
    rw [hx]
    exact Option.filter_some_pos (decide_eq_true hsame)
  simp only [sessionInit, hdesc, hkept]
  exact if_neg (by simp [hframe]; omega)

/-- R577: the state in which a SESSION_INIT that passes is kept and waits for its signature. -/
def initKept (h : FrameHeader) (p : SessionPayload) (d : SiteDesc) (s : State) : State :=
  let enc := Config.kemEncap p.kem s.sec.kemUsed
  let x := { newSession d h.site h.shard.toNat h.session with
    initFrame := setupFrame 12 h p, cipher := enc.1, secret := enc.2, peerIf := h.source.drop 8 }
  let s := putSession x s
  s.withSec { s.sec with
    kemUsed := s.sec.kemUsed + 1, signQueue := s.sec.signQueue ++ [.sessionAccept h.site h.shard.toNat] }

/-- R577: a new SESSION_INIT is judged. -/
theorem sessionInit_of_new (hown : h.site < ownSite s)
    (hnew : ∀ x, findSess s h.site h.shard.toNat = some x → x.initFrame ≠ setupFrame 12 h p) :
    sessionInit h p s = judgeSetup 12 h p [] (initKept h p d) s := by
  have hnone : (findSess s h.site h.shard.toNat).filter (fun x => decide (x.initFrame = setupFrame 12 h p)) = none := by
    rw [Option.filter_eq_none_iff]
    intro x hx
    simpa using hnew x hx
  simp only [sessionInit, hdesc, hnone]
  exact if_neg (by simp [hframe]; omega)

end Init

section Judge

variable {ftype : Nat} {h : FrameHeader} {p : SessionPayload} {init : Bytes} {good : State → State} {s : State}

theorem judgeSetup_of_failed {c : Nat} (hcheck : setupCheck s ftype h p init = some c) :
    judgeSetup ftype h p init good s = rejectSetup h.site c s := by simp only [judgeSetup, hcheck]

theorem judgeSetup_of_different {f : Nat} (hcheck : setupCheck s ftype h p init = none) (hdiff : setupDiff s p = some f) :
    judgeSetup ftype h p init good s = failJoin rMismatch { member := memberIndex s, field := f } s := by
  simp only [judgeSetup, hcheck, hdiff]

theorem judgeSetup_of_good (hcheck : setupCheck s ftype h p init = none) (hdiff : setupDiff s p = none) :
    judgeSetup ftype h p init good s = good s := by simp only [judgeSetup, hcheck, hdiff]

end Judge

/-- R578: SESSION_ACCEPT of the session that waits for it is judged. -/
theorem sessionAccept_of_waiting {s : State} {h : FrameHeader} {x : Session} (hx : findSess s h.site h.shard.toNat = some x)
    (hframe : siteFrame h s = true) (hclosed : x.opened = false) (hkey : x.kemKey ≠ []) (hid : x.id = h.session) (p : SessionPayload) :
    sessionAccept h p s = judgeSetup 13 h p x.initFrame (openSession { x with peerIf := h.source.drop 8 }
      (Config.kemDecap x.kemKey p.kem) (Config.shake256 (x.initFrame ++ setupFrame 13 h p) 32)) s := by
  simp only [sessionAccept, hx]
  exact if_neg (by simp [hframe, hclosed, hkey, hid])

/-! ### A session that opens (R578, R406, R412) -/

/-- R578: a session whose set-up is complete, at epoch 1. -/
def openedSession (lower : Bool) (now : W64) (km peerIf : Bytes) (x : Session) : Session :=
  { x with
    opened := true, peerIf := peerIf, km := km, epoch := 1, txKeys := [(1, directionKey km lower)],
    rxKeys := [(1, directionKey km (!lower))], since := now, rxEpoch := 1, rxSince := now, kemKey := [],
    cipher := [], secret := [], routes := x.routes.map (fun r => { r with echoAt := now }) }

/-- What a session keeps while its frames leave and KEY_NEXT is prepared: that it is open, its epoch and its keys. -/
structure SameKeys (x y : Session) : Prop where
  opened : y.opened = x.opened
  km : y.km = x.km
  epoch : y.epoch = x.epoch

theorem findSess_grantSlots {s : State} {site shard : Nat} {x : Session} (hx : findSess s site shard = some x) (n : Nat) :
    ∃ y, findSess (grantSlots site shard n s) site shard = some y ∧ SameKeys x y := by
  unfold grantSlots
  dsimp only
  split
  · exact ⟨x, hx, rfl, rfl, rfl⟩
  · obtain ⟨k, hk⟩ := findSess_sendFrame s site shard _ x hx
    exact ⟨_, hk, rfl, rfl, rfl⟩

/-- R412: KEY_NEXT sends, and draws a key pair. -/
theorem forgetSends_startKeyNext (site shard : Nat) (s : State) :
    ∃ v, forgetSends (startKeyNext site shard s) = forgetSends (s.withSec v) := by
  unfold startKeyNext
  split
  · refine ⟨{ s.sec with kemUsed := s.sec.kemUsed + 1 }, ?_⟩
    simp
  · exact ⟨s.sec, rfl⟩

theorem joining_of_forgetSends {s t : State} (h : forgetSends t = forgetSends s) : t.site.joining = s.site.joining := by
  have hjoining := congrArg (fun u : State => u.site.joining) h
  exact hjoining

theorem outbound_of_forgetSends {s t : State} (h : forgetSends t = forgetSends s) : t.site.outbound = s.site.outbound := by
  have houtbound := congrArg (fun u : State => u.site.outbound) h
  exact houtbound

theorem joinCheck_of_not_joining {s : State} (h : s.site.joining = none) : joinCheck s = s := by simp only [joinCheck, h]

/-- R578, R581, R412: the state in which a session has opened, is recorded and has prepared its next key. -/
def sessionKeyed (x : Session) (ss th : Bytes) (s : State) : State :=
  startKeyNext x.site x.shard (logSecurity 10 (natLe 1 x.site ++ natLe 2 x.shard ++ natLe 4 x.id.toNat ++ [if x.replaces then 0 else 1])
    (updSess x.site x.shard
      (openedSession (decide (ownSite s < x.site)) s.awn.tick (Config.shake256 (ss ++ th) 32) x.peerIf) s))

theorem findSess_sessionKeyed {s : State} {x y : Session} (ss th : Bytes) (hx : findSess s x.site x.shard = some y) :
    ∃ z, findSess (sessionKeyed x ss th s) x.site x.shard = some z ∧ z.opened = true ∧ z.km = Config.shake256 (ss ++ th) 32 ∧
      z.epoch = 1 := by
  have hopened := findSess_updSess_of
    (f := openedSession (decide (ownSite s < x.site)) s.awn.tick (Config.shake256 (ss ++ th) 32) x.peerIf) hx (fun _ => rfl)
  obtain ⟨k, n, hkey, -⟩ := findSess_startKeyNext x.site x.shard _ _
    ((findSess_of_sessions (congrArg Site.sessions (logSecurity_site _ 10 _)) x.site x.shard).trans hopened)
  exact ⟨_, hkey, rfl, rfl, rfl⟩

/-- R406, R412: opening a session frees no outbound slot, and takes part in no join that does not wait. -/
theorem sessionKeyed_site (x : Session) (ss th : Bytes) (s : State) :
    (sessionKeyed x ss th s).site.joining = s.site.joining ∧ (sessionKeyed x ss th s).site.outbound = s.site.outbound := by
  unfold sessionKeyed
  obtain ⟨v, hforget⟩ := forgetSends_startKeyNext x.site x.shard (logSecurity 10
    (natLe 1 x.site ++ natLe 2 x.shard ++ natLe 4 x.id.toNat ++ [if x.replaces then 0 else 1]) (updSess x.site x.shard
      (openedSession (decide (ownSite s < x.site)) s.awn.tick (Config.shake256 (ss ++ th) 32) x.peerIf) s))
  exact ⟨(joining_of_forgetSends hforget).trans (by simp [updSess]), (outbound_of_forgetSends hforget).trans (by simp [updSess])⟩

/-- R578: with no join that waits and nothing to send, an opened session stands at epoch 1 under its key. -/
theorem findSess_openSession {s : State} {x y : Session} (ss th : Bytes) (hx : findSess s x.site x.shard = some y)
    (hjoining : s.site.joining = none) (houtbound : s.site.outbound = []) :
    ∃ z, findSess (openSession x ss th s) x.site x.shard = some z ∧ z.opened = true ∧ z.km = Config.shake256 (ss ++ th) 32 ∧
      z.epoch = 1 := by
  obtain ⟨z, hz, hopen, hkm, hepoch⟩ := findSess_sessionKeyed ss th hx
  obtain ⟨hjoin, hout⟩ := sessionKeyed_site x ss th s
  have hsplit : ∃ n, openSession x ss th s =
      (let t := grantSlots x.site x.shard n (sessionKeyed x ss th s)
       let t := if x.site ∈ activePeers t then joinCheck t else t
       sendWaiting x.site t.site.outbound.length t) := ⟨_, rfl⟩
  obtain ⟨n, hn⟩ := hsplit
  obtain ⟨w, hw, hsame⟩ := findSess_grantSlots hz n
  have hforget := forgetSends_grantSlots x.site x.shard n (sessionKeyed x ss th s)
  rw [hn]
  dsimp only
  rw [joinCheck_of_not_joining ((joining_of_forgetSends hforget).trans (hjoin.trans hjoining)), ite_self,
    (outbound_of_forgetSends hforget).trans (hout.trans houtbound)]
  exact ⟨w, hw, hsame.opened.trans hopen, hsame.km.trans hkm, hsame.epoch.trans hepoch⟩

/-! ### Set-up that stays unanswered (R577) -/

theorem resendInit_of_early {s : State} {x : Session} (hone : s.site.sessions = [x]) (hearly : (s.awn.tick - x.sentAt).toNat < 1000000000)
    (site : Nat) : resendInit site s = s := by
  have hnone : s.site.sessions.filter (fun x => decide (x.site = site) && !x.opened && decide (x.kemKey ≠ []) &&
      decide (1000000000 ≤ (s.awn.tick - x.sentAt).toNat)) = [] := by
    rw [hone, List.filter_cons_of_neg, List.filter_nil]
    rw [decide_eq_false (by omega : ¬ 1000000000 ≤ (s.awn.tick - x.sentAt).toNat), Bool.and_false]
    exact Bool.false_ne_true
  unfold resendInit
  rw [hnone]
  rfl

/-- R577: the only session's set-up frame leaves again. -/
theorem resendInit_of_due {s : State} {x : Session} (hone : s.site.sessions = [x]) (hclosed : x.opened = false) (hkey : x.kemKey ≠ [])
    (hdue : 1000000000 ≤ (s.awn.tick - x.sentAt).toNat) :
    resendInit x.site s = emitSetup x (s.withSite { s.site with sessions := [{ x with sentAt := s.awn.tick }] }) := by
  have hall : s.site.sessions.filter (fun y => decide (y.site = x.site) && !y.opened && decide (y.kemKey ≠ []) &&
      decide (1000000000 ≤ (s.awn.tick - y.sentAt).toNat)) = [x] := by
    rw [hone, List.filter_cons_of_pos, List.filter_nil]
    rw [decide_eq_true hdue, hclosed, decide_eq_true hkey]
    simp
  unfold resendInit
  rw [hall, List.foldl_cons, List.foldl_nil, updSess_single s x _ hone]

theorem emitSetup_of_some {s : State} {x : Session} {q : Nat × FrameHeader × SessionPayload} (hq : x.setup = some q) :
    emitSetup x s = emit (.frame x.site q.1 (wireOf s x q.2.1.route) q.2.1 (.setup q.2.2))
      (siteCount x.site (fun t => { t with framesSent := add48 t.framesSent 1 }) s) := by
  simp only [emitSetup, hq]

theorem failJoin_of_joining {s : State} {k : CmdRef} (h : s.site.joining = some k) (result : Nat) (x : Cause) :
    failJoin result x s = finishWith k result x (s.withSite { totals := s.site.totals }) := by simp only [failJoin, h]

/-- Settles O55: by the cases of SESSION_INIT and SESSION_ACCEPT, the session that opens, and the two timeouts. -/
theorem sessionsAreSetUp : Obligations.SessionsAreSetUp := by
  unfold Obligations.SessionsAreSetUp
  refine ⟨?init, ?accept, ?resend, ?opened, ?timeout⟩
  case init =>
    intro s h p d hdesc hframe
    refine ⟨fun hown => congrArg Host.Outcome.next (sessionInit_at_lower hown), fun hown => ⟨fun x hx hsame => ?_, fun hnew => ?_⟩⟩
    · exact congrArg Host.Outcome.next (sessionInit_of_repeat hdesc hframe hown hx hsame)
    have hjudge := sessionInit_of_new hdesc hframe hown hnew
    refine ⟨fun c hcheck => congrArg Host.Outcome.next (hjudge.trans (judgeSetup_of_failed hcheck)),
      fun f hcheck hdiff => congrArg Host.Outcome.next (hjudge.trans (judgeSetup_of_different hcheck hdiff)), fun hcheck hdiff => ?_⟩
    refine ⟨_, congrArg Host.Outcome.next (hjudge.trans (judgeSetup_of_good hcheck hdiff)), ?_, rfl, ?_⟩
    · apply State.eq_of_parts <;> simp [initKept, putSession]
    · obtain ⟨old, hold⟩ := findSess_putSession { newSession d h.site h.shard.toNat h.session with
        initFrame := setupFrame 12 h p, cipher := (Config.kemEncap p.kem s.sec.kemUsed).1,
        secret := (Config.kemEncap p.kem s.sec.kemUsed).2, peerIf := h.source.drop 8 } s
      exact ⟨_, hold, rfl, rfl, rfl⟩
  case accept =>
    intro s h p x hx hframe hclosed hkey hid
    have hjudge := sessionAccept_of_waiting hx hframe hclosed hkey hid p
    refine ⟨fun c hcheck => congrArg Host.Outcome.next (hjudge.trans (judgeSetup_of_failed hcheck)), fun hcheck hdiff => ?_⟩
    refine ⟨_, congrArg Host.Outcome.next (hjudge.trans (judgeSetup_of_good hcheck hdiff)), fun hjoining houtbound => ?_⟩
    obtain ⟨hsite, hshard⟩ := findSess_key hx
    rw [← hsite, ← hshard] at hx ⊢
    exact findSess_openSession (x := { x with peerIf := h.source.drop 8 }) _ _ hx hjoining houtbound
  case resend =>
    intro s site x q hone hsite hclosed hkey hq
    subst hsite
    refine ⟨fun hearly => congrArg Host.Outcome.next (resendInit_of_early hone hearly _), fun hdue => ?_⟩
    exact ⟨_, congrArg Host.Outcome.next ((resendInit_of_due hone hclosed hkey hdue).trans (emitSetup_of_some hq)), rfl, rfl, rfl⟩
  case opened =>
    exact fun s site hopen => congrArg Host.Outcome.next (if_neg (by simp [hopen]))
  case timeout =>
    intro s site k hpeer hclosed hjoining
    refine congrArg Host.Outcome.next ?_
    unfold setupTimeout
    rw [failJoin_of_joining hjoining]
    simp only [hpeer, hclosed, and_true]

end Sys2Proof.Machine

namespace Sys2Proof.Machine

/-! ### SITE_JOIN (R390 to R394) -/

/-- R393, R398: the state in which SITE_JOIN has taken its descriptor and asked for its session openings. -/
def joinBegun (k : CmdRef) (d : SiteDesc) (s : State) : State :=
  let anchor := (roleCodes s (committed s) .param).map (BitVec.ofNat 16)
  let zeros := List.replicate anchor.length (0 : W16)
  let s := s.withSite { totals := s.site.totals, desc := some d, joining := some k, joinAt := s.awn.tick, anchor := anchor,
                        momentum := zeros, residual := zeros, active := (activeAtStart d).map (fun i => (i, 0)) }
  s.withSec { s.sec with
    signQueue := s.sec.signQueue ++ ((peerSites s).filter (fun i => decide (d.own < i))).map (fun i =>
      SignReq.sessionInit i (memberIndex s)) }

section Join

variable {s : State} {k : CmdRef} {c : Cmd} (hready : ready s k 0x90 = some c) (hagreed : agreedHere s c = true)
  (hjoining : s.site.joining = none)
include hready hagreed hjoining

theorem siteJoin_of_bad (hbad : siteDescBad (readBuf s (bufA c) 0 (bufA c).bytes) = true) : siteJoin k s = finish k rBadDescriptor s := by
  simp only [siteJoin, hready]
  rw [if_neg (by simp [hagreed, hjoining]), if_pos hbad]

variable (hgood : siteDescBad (readBuf s (bufA c) 0 (bufA c).bytes) = false)
include hgood

theorem siteJoin_of_no_program (hprog : s.load.prog = none) : siteJoin k s = finish k rNotLoaded s := by
  simp only [siteJoin, hready]
  rw [if_neg (by simp [hagreed, hjoining]), if_neg (by simp [hgood]), if_pos (by simp [hprog])]

variable (hprog : s.load.prog.isSome = true)
include hprog

theorem siteJoin_of_no_room (hroom : (siteFit (siteDesc (readBuf s (bufA c) 0 (bufA c).bytes)) s).available <
      (siteFit (siteDesc (readBuf s (bufA c) 0 (bufA c).bytes)) s).required) :
    siteJoin k s = finish k rRefusedFit
      (addRecords k (needRecords (memberIndex s) (siteFit (siteDesc (readBuf s (bufA c) 0 (bufA c).bytes)) s)) s) := by
  have hloaded : s.load.prog.isNone = false := Option.isNone_eq_false_iff.2 hprog
  simp only [siteJoin, hready]
  rw [if_neg (by simp [hagreed, hjoining]), if_neg (by simp [hgood]), if_neg (by simp [hloaded]), if_pos hroom]

theorem siteJoin_of_room (hroom : (siteFit (siteDesc (readBuf s (bufA c) 0 (bufA c).bytes)) s).required ≤
      (siteFit (siteDesc (readBuf s (bufA c) 0 (bufA c).bytes)) s).available) :
    siteJoin k s = joinCheck (joinBegun k (siteDesc (readBuf s (bufA c) 0 (bufA c).bytes)) s) := by
  have hloaded : s.load.prog.isNone = false := Option.isNone_eq_false_iff.2 hprog
  simp only [siteJoin, hready]
  rw [if_neg (by simp [hagreed, hjoining]), if_neg (by simp [hgood]), if_neg (by simp [hloaded]), if_neg (Nat.not_lt.2 hroom)]
  rfl

end Join

/-- R565: an event of the attestation log draws its kind, and changes a register and the log. -/
theorem extend_eq (reg : Fin 8) (d : Bytes) (s : State) : ∃ f m l o, extend reg d s =
    (s.withFree f).withSec { s.sec with meas := m, attLog := l, logOverflow := o } := ⟨_, _, _, _, rfl⟩

/-- R410: without a session no frame leaves. -/
theorem sendFrame_of_no_session {s : State} (h : s.site.sessions = []) (site shard : Nat) (f : ToSend) : sendFrame site shard f s = s := by
  have hnone : findSess s site shard = none := by
    unfold findSess
    rw [h]
    rfl
  simp only [sendFrame, hnone]

/-- R394, R421: what the check of a join with no session can do: report its progress, and complete when no other site is active. -/
theorem joinCheck_of_no_session {s : State} {k : CmdRef} {d : SiteDesc} (hjoining : s.site.joining = some k)
    (hdesc : s.site.desc = some d) (hsessions : s.site.sessions = []) :
    joinCheck s = if (∀ i ∈ activeAtStart d, i = d.own) ∧ d.own ∈ activeAtStart d then finishJoin (setProgress k (sessionsOpen s) s)
      else setProgress k (sessionsOpen s) s := by
  have hfound (i : Nat) : findSession (setProgress k (sessionsOpen s) s) i = none := by
    unfold findSession findSess
    rw [setProgress_site, hsessions]
    rfl
  have hpeers : ((activeAtStart d).filter (fun i => decide (i ≠ d.own))).all (fun i =>
      ((findSession (setProgress k (sessionsOpen s) s) i).map (·.opened)).getD false) =
      decide (∀ i ∈ activeAtStart d, i = d.own) := by
    rw [Bool.eq_iff_iff, decide_eq_true_eq, List.all_eq_true]
    constructor
    · intro hall i hi
      by_contra hne
      simpa [hfound] using hall i (List.mem_filter.2 ⟨hi, decide_eq_true hne⟩)
    · intro hall i hi
      obtain ⟨hmem, hne⟩ := List.mem_filter.1 hi
      exact absurd (hall i hmem) (of_decide_eq_true hne)
  unfold joinCheck
  rw [hjoining, hdesc]
  dsimp only
  rw [hpeers]
  by_cases hall : ∀ i ∈ activeAtStart d, i = d.own
  · rw [if_neg (by simpa using hall)]
    by_cases hown : d.own ∈ activeAtStart d
    · rw [if_pos (by simp [lateJoiner, hown]), if_pos ⟨hall, hown⟩]
    · rw [if_neg (by simp [lateJoiner, hown]), if_neg (fun h => hown h.2)]
      split
      · rw [sendFrame_of_no_session (by rw [setProgress_site, hsessions]), ite_self]
      · rfl
  · rw [if_pos (by simpa using hall), if_neg (fun h => hall h.1)]

/-- R394, R522: a join that completes: its command ends, the job is in site mode and register 7 has the descriptor's digest. -/
theorem finishJoin_eq {s : State} {k : CmdRef} {d : SiteDesc} (hjoining : s.site.joining = some k) (hdesc : s.site.desc = some d) :
    ∃ f v, v.signQueue = s.sec.signQueue ∧ finishJoin s = finish k rOK
      ((((s.withSite { s.site with joining := none }).withFree f).withSec v).withMbx { s.mbx with job := .site }) := by
  obtain ⟨f, m, l, o, hextend⟩ := extend_eq 7 d.digest (s.withSite { s.site with joining := none })
  refine ⟨f, { s.sec with meas := m, attLog := l, logOverflow := o }, rfl, ?_⟩
  unfold finishJoin
  rw [hjoining, hdesc]
  dsimp only
  rw [hextend]
  rfl

/-- R391: a descriptor that SITE_JOIN does not refuse meets its ranges. -/
theorem siteDesc_ranges {b : Bytes} (h : siteDescBad b = false) : 2 ≤ (siteDesc b).sites ∧ (siteDesc b).sites ≤ 16 ∧
    (siteDesc b).own < (siteDesc b).sites ∧ 1 ≤ (siteDesc b).s ∧ (siteDesc b).s ≤ 8 ∧ 1 ≤ (siteDesc b).h ∧ 1 ≤ (siteDesc b).k ∧
    (siteDesc b).k ≤ 32 ∧ 1 ≤ (siteDesc b).m ∧ (siteDesc b).m ≤ 16 ∧ 1 ≤ (siteDesc b).inbound ∧
    (siteDesc b).inbound ≤ (siteDesc b).s + 1 := by
  have hdefault (v dflt : Nat) (hd : 1 ≤ dflt) : 1 ≤ orElse v dflt := by
    unfold orElse
    split <;> omega
  simp only [siteDescBad, Bool.or_eq_false_iff, decide_eq_false_iff_not] at h
  have hs : 1 ≤ (siteDesc b).s := hdefault _ _ (by decide)
  have hk : 1 ≤ (siteDesc b).k := hdefault _ _ (by decide)
  have hm : 1 ≤ (siteDesc b).m := hdefault _ _ (by decide)
  have hinbound : 1 ≤ (siteDesc b).inbound := hdefault _ _ (by decide)
  omega

/-- R393, R394: after SITE_JOIN has taken its descriptor, the join waits or is complete, and the exchange begins from the anchor. -/
theorem siteJoin_begins {s : State} {k : CmdRef} {d : SiteDesc} {t : State} (ht : t = joinCheck (joinBegun k d s)) :
    t = (((((s.withFree t.free).withMbx t.mbx).withMem t.mem).withOut t.out).withSec t.sec).withSite t.site ∧
    t.site.desc = some d ∧ t.site.sessions = [] ∧
    ((∃ i ∈ activeAtStart d, i ≠ d.own) → t.site.joining = some k) ∧
    (activeAtStart d ≠ [] → (∀ i ∈ activeAtStart d, i = d.own) → t.site.joining = none ∧ t.mbx.job = .site) ∧
    t.site.anchor = (roleCodes s (committed s) .param).map (BitVec.ofNat 16) ∧
    (∀ x ∈ t.site.momentum, x = 0) ∧ (∀ x ∈ t.site.residual, x = 0) ∧ t.site.totals = s.site.totals ∧
    t.sec.signQueue = s.sec.signQueue ++
      ((List.range d.sites).filter (fun i => decide (i ≠ d.own) && decide (d.own < i))).map (fun i => SignReq.sessionInit i (memberIndex s)) := by
  have hqueue : (joinBegun k d s).sec.signQueue = s.sec.signQueue ++
      ((List.range d.sites).filter (fun i => decide (i ≠ d.own) && decide (d.own < i))).map
        (fun i => SignReq.sessionInit i (memberIndex s)) := by
    have hup : (peerSites (joinBegun k d s)).filter (fun i => decide (d.own < i)) =
        (List.range d.sites).filter (fun i => decide (i ≠ d.own) && decide (d.own < i)) := by
      change (List.filter _ (List.range d.sites)).filter _ = _
      rw [List.filter_filter]
      simp only [Bool.and_comm]
    rw [← hup]
    rfl
  have hmomentum : ∀ x ∈ (joinBegun k d s).site.momentum, x = 0 := fun x hx => List.eq_of_mem_replicate hx
  have hresidual : ∀ x ∈ (joinBegun k d s).site.residual, x = 0 := fun x hx => List.eq_of_mem_replicate hx
  rw [joinCheck_of_no_session (k := k) (d := d) rfl rfl rfl] at ht
  split at ht
  case isTrue hdone =>
    obtain ⟨f, v, hv, hfinish⟩ := finishJoin_eq (s := setProgress k (sessionsOpen (joinBegun k d s)) (joinBegun k d s)) (k := k) (d := d)
      (by rw [setProgress_site]; rfl) (by rw [setProgress_site]; rfl)
    rw [hfinish] at ht
    subst ht
    refine ⟨by apply State.eq_of_parts <;> simp [joinBegun], by simp; rfl, by simp; rfl, ?_, fun _ _ => ⟨by simp, by simp⟩,
      by simp; rfl, fun x hx => hmomentum x (by simpa using hx), fun x hx => hresidual x (by simpa using hx), by simp; rfl, ?_⟩
    · rintro ⟨i, hi, hne⟩
      exact absurd (hdone.1 i hi) hne
    · simp [hv, hqueue]
  case isFalse hwaits =>
    subst ht
    refine ⟨by apply State.eq_of_parts <;> simp [joinBegun], by simp; rfl, by simp; rfl, fun _ => by simp; rfl, fun hne hall => ?_,
      by simp; rfl, fun x hx => hmomentum x (by simpa using hx), fun x hx => hresidual x (by simpa using hx), by simp; rfl, ?_⟩
    · exact absurd ⟨hall, by
        obtain ⟨i, hi⟩ := List.exists_mem_of_ne_nil _ hne
        rwa [hall i hi] at hi⟩ hwaits
    · simp [hqueue]

/-! ### What the exchange leaves alone (R404, R406, R423) -/

/-- From s to t the exchange has at most sent, rolled and left: the job, its memory and the fabric stand, and no site became active. -/
structure Exchanged (s t : State) : Prop where
  load : t.load = s.load
  job : t.job = s.job
  slice : t.slice = s.slice
  snap : t.snap = s.snap
  ledger : t.ledger = s.ledger
  stalls : t.stalls = s.stalls
  ports : t.ports = s.ports
  awn : t.awn = s.awn
  active : ∀ a ∈ t.site.active, a ∈ s.site.active

theorem Exchanged.refl (s : State) : Exchanged s s := ⟨rfl, rfl, rfl, rfl, rfl, rfl, rfl, rfl, fun _ h => h⟩

theorem Exchanged.trans {s t u : State} (h : Exchanged s t) (h' : Exchanged t u) : Exchanged s u where
  load := h'.load.trans h.load
  job := h'.job.trans h.job
  slice := h'.slice.trans h.slice
  snap := h'.snap.trans h.snap
  ledger := h'.ledger.trans h.ledger
  stalls := h'.stalls.trans h.stalls
  ports := h'.ports.trans h.ports
  awn := h'.awn.trans h.awn
  active := fun a ha => h.active a (h'.active a ha)

theorem exchanged_foldl {α : Type} {f : State → α → State} (h : ∀ s x, Exchanged s (f s x)) (l : List α) (s : State) :
    Exchanged s (l.foldl f s) := by
  induction l generalizing s with
  | nil => exact .refl s
  | cons x l ih => exact (h s x).trans (ih (f s x))

theorem exchanged_withSite {s : State} {x : Site} (h : ∀ a ∈ x.active, a ∈ s.site.active) : Exchanged s (s.withSite x) :=
  ⟨rfl, rfl, rfl, rfl, rfl, rfl, rfl, rfl, h⟩

theorem exchanged_withSec (s : State) (v : Sec) : Exchanged s (s.withSec v) := ⟨rfl, rfl, rfl, rfl, rfl, rfl, rfl, rfl, fun _ h => h⟩

theorem exchanged_emit (o : Out) (s : State) : Exchanged s (emit o s) := ⟨rfl, rfl, rfl, rfl, rfl, rfl, rfl, rfl, fun _ h => h⟩

theorem exchanged_marked (s : State) (m : LogMarks) : Exchanged s (s.marked m) := ⟨rfl, rfl, rfl, rfl, rfl, rfl, rfl, rfl, fun _ h => h⟩

theorem exchanged_of_forgetSends {s t : State} (h : forgetSends t = forgetSends s) : Exchanged s t := by
  rw [sends_state h]
  exact ⟨rfl, rfl, rfl, rfl, rfl, rfl, rfl, rfl, fun _ h => h⟩

theorem exchanged_logSite (event site round : Nat) (more : Bytes) (s : State) : Exchanged s (logSite event site round more s) := by
  obtain ⟨m, hm⟩ := logEvent_eq 0x700 1 .barter (natLe 1 event ++ natLe 1 site ++ natLe 6 round ++ more) s
  unfold logSite
  rw [hm]
  exact exchanged_marked s m

theorem exchanged_sendFrame (site shard : Nat) (f : ToSend) (s : State) : Exchanged s (sendFrame site shard f s) :=
  exchanged_of_forgetSends (forgetSends_sendFrame site shard f s)

theorem exchanged_updSess (site shard : Nat) (f : Session → Session) (s : State) : Exchanged s (updSess site shard f s) :=
  exchanged_of_forgetSends (forgetSends_updSess site shard f s)

theorem exchanged_startKeyNext (site shard : Nat) (s : State) : Exchanged s (startKeyNext site shard s) := by
  obtain ⟨v, hforget⟩ := forgetSends_startKeyNext site shard s
  exact (exchanged_withSec s v).trans (exchanged_of_forgetSends hforget)

theorem exchanged_switchEpoch (site shard : Nat) (s : State) : Exchanged s (switchEpoch site shard s) := by
  unfold switchEpoch
  split
  · exact .refl s
  · exact (exchanged_updSess ..).trans ((exchanged_logSite ..).trans (exchanged_startKeyNext ..))

theorem exchanged_switchAtOpen (site shard : Nat) (s : State) : Exchanged s (switchAtOpen site shard s) := by
  unfold switchAtOpen
  split
  · split
    · exact exchanged_switchEpoch ..
    · exact .refl s
  · exact .refl s

theorem exchanged_sendContribution (d : SiteDesc) (site : Nat) (o : Outbound) (state : Bool) (s : State) :
    Exchanged s (sendContribution d site o state s) := by
  unfold sendContribution
  dsimp only
  split
  · exact .refl s
  · exact ((exchanged_switchAtOpen ..).trans (exchanged_sendFrame ..)).trans
      (exchanged_foldl (fun s g => exchanged_foldl (fun s i => exchanged_sendFrame ..) _ s) _ _)

theorem exchanged_sendLeave (site round : Nat) (s : State) : Exchanged s (sendLeave site round s) := by
  unfold sendLeave
  split
  · split
    · exact exchanged_sendFrame ..
    · exact .refl s
  · exact .refl s

theorem exchanged_sendWaiting (site n : Nat) (s : State) : Exchanged s (sendWaiting site n s) := by
  induction n generalizing s with
  | zero => exact .refl s
  | succ n ih =>
    unfold sendWaiting
    split
    · split
      · exact .refl s
      · dsimp only
        split
        · exact .refl s
        · generalize hv : sendContribution _ site _ false (updSess _ _ _ s) = v
          have hsent : Exchanged s v := by
            rw [← hv]
            exact (exchanged_updSess ..).trans (exchanged_sendContribution ..)
          refine .trans (.trans ?_ (exchanged_sendLeave ..)) (ih _)
          exact hsent.trans (exchanged_withSite fun _ h => h)
    · exact .refl s

theorem exchanged_sendAll (s : State) : Exchanged s (sendAll s) := exchanged_foldl (fun _ _ => exchanged_sendWaiting ..) _ s

theorem exchanged_outer {s : State} {st : Step} {tn : Tensors} {x : Site} {o : List Out} {m : LogMarks}
    (h : ∀ a ∈ x.active, a ∈ s.site.active) : Exchanged s (((((s.withStep st).withTens tn).withSite x).withOut o).marked m) where
  load := by simp [State.marked]
  job := by simp [State.marked]
  slice := by simp [State.marked]
  snap := by simp [State.marked]
  ledger := by simp [State.marked]
  stalls := by simp [State.marked]
  ports := by simp [State.marked]
  awn := by simp [State.marked]
  active := by simpa [State.marked] using h

theorem exchanged_outerUpdate (set : List SiteRound) (s : State) : Exchanged s (outerUpdate set s) := by
  by_cases h : s.site.boundary ≠ 1 ∨ s.step.run.isSome = true
  · rw [outerUpdate_of_elsewhere h]
    exact .refl s
  · rw [not_or, not_not, Bool.not_eq_true, Option.isSome_eq_false_iff, Option.isNone_iff_eq_none] at h
    rcases accept_cases (set := set) h.1 h.2 with ⟨-, hsame⟩ | ⟨d, totals, st, tn, o, m, -, hupdate, -⟩
    · rw [hsame]
      exact .refl s
    · rw [hupdate]
      exact exchanged_outer fun _ h => h

theorem exchanged_evaluateRoll (s : State) : Exchanged s (evaluateRoll s) := by
  unfold evaluateRoll
  split
  · exact .refl s
  · dsimp only
    split
    · exact exchanged_withSite fun _ h => h
    · refine .trans (.trans ?_ (exchanged_emit ..)) (exchanged_outerUpdate ..)
      exact exchanged_withSite fun _ h => h

theorem exchanged_reportHeld (s : State) : Exchanged s (reportHeld s) := by
  unfold reportHeld contributionReport
  split
  · exact .refl s
  · split
    · rw [if_neg (by simp [*])]
      refine .trans ?_ (exchanged_evaluateRoll _)
      exact exchanged_withSite fun _ h => h
    · exact exchanged_emit ..

theorem exchanged_formPhase (s : State) : Exchanged s (formPhase s) := by
  unfold formPhase
  split
  · exact .refl s
  · split
    · exact .refl s
    · split
      · exact exchanged_withSite fun _ h => h
      · refine .trans (.trans ?_ (exchanged_sendAll _)) (exchanged_reportHeld _)
        exact exchanged_withSite fun _ h => h

theorem exchanged_endSite (k : CmdRef) (result : Nat) (s : State) : Exchanged s (endSite k result s) := by
  have hgone (a : Nat × Nat) (ha : a ∈ (endSite k result s).site.active) : a ∈ s.site.active := by simp [endSite] at ha
  exact ⟨by simp [endSite], by simp [endSite], by simp [endSite], by simp [endSite], by simp [endSite], by simp [endSite],
    by simp [endSite], by simp [endSite], hgone⟩

theorem exchanged_tryLeave (s : State) : Exchanged s (tryLeave s) := by
  unfold tryLeave
  split
  · exact .refl s
  · dsimp only
    split
    · exact exchanged_endSite ..
    · exact .refl s

theorem exchanged_settlePeers (s : State) : Exchanged s (settlePeers s) := by
  have hfree : Exchanged s (freeOutbound s) := exchanged_withSite fun _ h => h
  unfold settlePeers
  dsimp only
  split
  · exact hfree.trans ((exchanged_formPhase _).trans ((exchanged_sendAll _).trans (exchanged_tryLeave _)))
  · exact hfree.trans ((exchanged_sendAll _).trans (exchanged_tryLeave _))

theorem exchanged_sendNotices (tos : List Nat) (site : Nat) (excluded : Bool) (from_ : Nat) (s : State) :
    Exchanged s (sendNotices tos site excluded from_ s) := exchanged_of_forgetSends (forgetSends_sendNotices ..)

theorem exchanged_excludeSite (site : Nat) (s : State) : Exchanged s (excludeSite site s) := by
  have hactive (s : State) (w : Option Nat) :
      Exchanged s (s.withSite { s.site with active := s.site.active.filter (fun a => a.1 ≠ site), waitingFor := w }) :=
    exchanged_withSite fun a ha => (List.mem_filter.1 ha).1
  exact (exchanged_logSite ..).trans (hactive _ _)

/-! ### Sites that leave, lag and join (R403, R404, R421 to R423) -/

/-- From s to t a roll was at most evaluated: the active sites and the last rounds stand. -/
structure Rolled (s t : State) : Prop where
  rest : t = ((((((s.withBus t.bus).withLog t.log).withOut t.out).withSaf t.saf).withSite t.site).withStep t.step).withTens t.tens
  active : t.site.active = s.site.active
  last : t.site.last = s.site.last

theorem rolled_outerUpdate {s : State} {set : List SiteRound} {w : Option Nat} (hboundary : s.site.boundary = 1)
    (hrun : s.step.run = none) (o : Out) :
    Rolled s (outerUpdate set (emit o (s.withSite { s.site with waitingFor := w }))) := by
  rcases accept_cases (set := set) (s := emit o (s.withSite { s.site with waitingFor := w })) hboundary hrun with
    ⟨-, hsame⟩ | ⟨d, totals, st, tn, o', m, -, hupdate, -⟩
  · rw [hsame]
    exact ⟨by apply State.eq_of_parts <;> simp, rfl, rfl⟩
  · rw [hupdate]
    exact ⟨by apply State.eq_of_parts <;> simp [State.marked], rfl, rfl⟩

theorem rolled_evaluateRoll (s : State) : Rolled s (evaluateRoll s) := by
  unfold evaluateRoll
  split
  · exact ⟨by simp, rfl, rfl⟩
  · next hready =>
    simp only [Bool.or_eq_true, not_or, Bool.not_eq_true, decide_eq_false_iff_not, not_not, Option.isSome_eq_false_iff,
      Option.isNone_iff_eq_none] at hready
    obtain ⟨⟨⟨-, hboundary⟩, hrun⟩, -⟩ := hready
    dsimp only
    split
    · exact ⟨by apply State.eq_of_parts <;> simp, rfl, rfl⟩
    · exact rolled_outerUpdate hboundary hrun _

theorem forgetSends_sendLeave (site round : Nat) (s : State) : forgetSends (sendLeave site round s) = forgetSends s := by
  unfold sendLeave
  split
  · split
    · exact forgetSends_sendFrame ..
    · rfl
  · rfl

section Leave

variable {s : State} {k : CmdRef} {c : Cmd} (hready : ready s k 0x91 = some c) (hagreed : agreedHere s c = true)
  (hleaving : s.site.leaving = none)
include hready hagreed hleaving

theorem siteLeave_of_excluded (hexcluded : s.site.excluded = true) : siteLeave k s = endSite k rSiteStale s := by
  simp only [siteLeave, hready]
  rw [if_neg (by simp [hagreed, hleaving]), if_pos hexcluded]

/-- R423: a site that leaves names its current round as its last; with that round not ended, it does not leave yet. -/
theorem siteLeave_of_member (hexcluded : s.site.excluded = false) : ∃ t, siteLeave k s = t ∧
    forgetSends t = forgetSends (s.withSite { s.site with leaving := some (k, s.site.round), leaveAt := s.awn.tick }) := by
  simp only [siteLeave, hready]
  rw [if_neg (by simp [hagreed, hleaving]), if_neg (by simp [hexcluded])]
  generalize hv : List.foldl _ (s.withSite _) _ = v
  have hforget : forgetSends v =
      forgetSends (s.withSite { s.site with leaving := some (k, s.site.round), leaveAt := s.awn.tick }) := by
    rw [← hv]
    exact foldl_keeps forgetSends _ (fun s i => forgetSends_sendLeave i _ s) _ _
  have hleave : v.site.leaving = some (k, s.site.round) ∧ v.site.round = s.site.round := by
    rw [sends_state hforget]
    exact ⟨rfl, rfl⟩
  refine ⟨v, ?_, hforget⟩
  unfold tryLeave
  rw [hleave.1, hleave.2]
  exact if_neg (by simp)

end Leave

/-- R404: the wait for a site has lasted SITE_WAIT. -/
theorem siteWaitExpiry_of_due {s : State} {i : Nat} {d : SiteDesc} (hwaiting : s.site.waitingFor = some i) (hlead : isLead s = true)
    (hdesc : s.site.desc = some d) (hdue : 1000000000 * d.siteWait ≤ (s.awn.tick - s.site.waitSince).toNat) :
    siteWaitExpiry s = evaluateRoll (settlePeers (sendNotices (peerSites s) i true s.site.round (excludeSite i s))) := by
  simp only [siteWaitExpiry, hwaiting, hdesc, Option.map_some, Option.getD_some]
  exact if_neg (by rw [hlead, decide_eq_false (by omega)]; decide)

theorem siteWaitExpiry_of_early {s : State} {i : Nat} {d : SiteDesc} (hwaiting : s.site.waitingFor = some i) (hdesc : s.site.desc = some d)
    (hearly : isLead s = false ∨ (s.awn.tick - s.site.waitSince).toNat < 1000000000 * d.siteWait) : siteWaitExpiry s = s := by
  simp only [siteWaitExpiry, hwaiting, hdesc, Option.map_some, Option.getD_some]
  refine if_pos ?_
  rcases hearly with hlead | hearly
  · rw [hlead]
    rfl
  · rw [decide_eq_true hearly, Bool.or_true]

/-- R404: the site state after a site is excluded. -/
theorem excludeSite_site (i : Nat) (s : State) : (excludeSite i s).site = { s.site with
    active := s.site.active.filter (fun a => a.1 ≠ i)
    waitingFor := if s.site.waitingFor = some i then none else s.site.waitingFor } := by
  simp [excludeSite]

theorem not_active_excludeSite (i : Nat) (s : State) : ∀ a ∈ (excludeSite i s).site.active, a.1 ≠ i := by
  rw [excludeSite_site]
  exact fun a ha => of_decide_eq_true (List.mem_filter.1 ha).2

/-- R404: an exclusion that settles leaves the excluded site out of the active sites. -/
theorem not_active_of_exchanged {i : Nat} {s t : State} (h : Exchanged (excludeSite i s) t) : ∀ a ∈ t.site.active, a.1 ≠ i :=
  fun a ha => not_active_excludeSite i s a (h.active a ha)

/-- R421: a donor answers JOIN_REQ: beside what it sends and records, the joiner is active from the next round. -/
theorem joinReqArrives_of_new {u : State} {h : FrameHeader} (x : Session) (hjoining : u.site.joining = none) (hjob : u.mbx.job = .site)
    (hnew : h.site ∉ u.site.joiners) : ∃ v m, forgetSends v = forgetSends u ∧ joinReqArrives h x u =
      ((addActive h.site (u.site.round + 1) v).marked m).withSite { (addActive h.site (u.site.round + 1) v).site with
        joiners := u.site.joiners ++ [h.site] } := by
  unfold joinReqArrives
  rw [if_neg (by simp [hjoining]), if_neg (by simp [hjob, hnew])]
  dsimp only
  generalize hv : sendNotices _ h.site false (u.site.round + 1) _ = v
  have hforget : forgetSends v = forgetSends u := by
    rw [← hv, forgetSends_sendNotices, forgetSends_sendFrame]
  obtain ⟨m, hm⟩ := logEvent_eq 0x700 1 .barter (natLe 1 1 ++ natLe 1 h.site ++ natLe 6 (u.site.round + 1) ++ [])
    (addActive h.site (u.site.round + 1) v)
  refine ⟨v, m, hforget, ?_⟩
  have hjoiners : v.site.joiners = u.site.joiners := by
    rw [sends_state hforget]
    rfl
  unfold logSite
  rw [hm, ← hjoiners]
  rfl

/-- R423: a site's last round is noted before the roll is evaluated again. -/
def lastNoted (h : FrameHeader) (u : State) : State :=
  (logSite 2 h.site h.round.toNat [] u).withSite { (logSite 2 h.site h.round.toNat [] u).site with
    last := (logSite 2 h.site h.round.toNat [] u).site.last.filter (fun l => l.1 ≠ h.site) ++ [(h.site, h.round.toNat)] }

theorem leaveArrives_eq (h : FrameHeader) (u : State) : leaveArrives h u = evaluateRoll (lastNoted h u) := rfl

theorem noticeArrives_of_own {u : State} {site : Nat} (r : Nat) (hown : site = ownSite u) : noticeArrives site true r u =
    logSite 0 site u.site.round [] (u.withSite { u.site with excluded := true, waitingFor := none }) := if_pos hown

theorem noticeArrives_of_other {u : State} {site : Nat} (r : Nat) (hother : site ≠ ownSite u) :
    noticeArrives site true r u = evaluateRoll (settlePeers (excludeSite site u)) := if_neg hother

/-- R422: a joiner counts as active from its round, or from the last that this site has not passed. -/
theorem noticeArrives_of_joiner (site r : Nat) (u : State) : ∃ w, r ≤ w ∧
    noticeArrives site false r u = logSite 1 site r [] (addActive site w u) := ⟨_, Nat.le_max_left r _, rfl⟩

/-- Settles O54: by the cases of SITE_JOIN and SITE_LEAVE, and by what an exclusion, a joiner and a leaver change. -/
theorem sitesEnterLeaveAndAreExcluded : Obligations.SitesEnterLeaveAndAreExcluded := by
  unfold Obligations.SitesEnterLeaveAndAreExcluded
  refine ⟨⟨?join, fun b => siteDesc_ranges, ?leave, ?leaveWait, ?noLeave, ?ended⟩, ?noWait, ?early, ?due, ?dueAlone, ?joinReq, ?left,
    ?notice, ?joined⟩
  case join =>
    intro s k c hready hagreed hjoining
    refine ⟨fun hbad => congrArg Host.Outcome.next (siteJoin_of_bad hready hagreed hjoining hbad),
      fun hgood hprog => congrArg Host.Outcome.next (siteJoin_of_no_program hready hagreed hjoining hgood hprog),
      fun hgood hprog hroom => congrArg Host.Outcome.next (siteJoin_of_no_room hready hagreed hjoining hgood hprog hroom),
      fun hgood hprog hroom => ?_⟩
    exact ⟨_, congrArg Host.Outcome.next (siteJoin_of_room hready hagreed hjoining hgood hprog hroom), siteJoin_begins rfl⟩
  case leave =>
    intro s k c hready hagreed hleaving
    refine ⟨fun hexcluded => congrArg Host.Outcome.next (siteLeave_of_excluded hready hagreed hleaving hexcluded), fun hexcluded => ?_⟩
    obtain ⟨t, ht, hforget⟩ := siteLeave_of_member hready hagreed hleaving hexcluded
    refine ⟨t, congrArg Host.Outcome.next ht, ?_⟩
    rw [sends_state hforget]
    exact ⟨by apply State.eq_of_parts <;> simp, rfl, rfl, rfl, rfl⟩
  case leaveWait =>
    intro s k w d hleaving hdesc
    refine congrArg Host.Outcome.next ?_
    simp only [leaveWaitExpiry, hleaving, hdesc, Option.map_some, Option.getD_some, ← Nat.not_le, ite_not]
  case noLeave =>
    exact fun s hleaving => congrArg Host.Outcome.next (by simp only [leaveWaitExpiry, hleaving])
  case ended =>
    intro s k r
    simp [endSite]
  case noWait =>
    exact fun s hwaiting => congrArg Host.Outcome.next (by simp only [siteWaitExpiry, hwaiting])
  case early =>
    exact fun s i d hwaiting hdesc hearly => congrArg Host.Outcome.next (siteWaitExpiry_of_early hwaiting hdesc hearly)
  case due =>
    intro s i d hwaiting hlead hdesc hdue
    have hrest : Exchanged (excludeSite i s) _ := (exchanged_sendNotices (peerSites s) i true s.site.round (excludeSite i s)).trans
      ((exchanged_settlePeers _).trans (exchanged_evaluateRoll _))
    have hall := (exchanged_excludeSite i s).trans hrest
    exact ⟨_, congrArg Host.Outcome.next (siteWaitExpiry_of_due hwaiting hlead hdesc hdue), not_active_of_exchanged hrest, hall.load,
      hall.job, hall.slice, hall.snap, hall.ledger, hall.stalls, hall.ports, hall.awn⟩
  case dueAlone =>
    intro s i d hwaiting hlead hdesc hdue hroll hform hleaving houtbound
    have hwait := siteWaitExpiry_of_due hwaiting hlead hdesc hdue
    generalize hv : sendNotices (peerSites s) i true s.site.round (excludeSite i s) = v at hwait
    have hsite : v.site = { s.site with
        active := s.site.active.filter (fun a => a.1 ≠ i), waitingFor := none, sessions := v.site.sessions,
        totals := v.site.totals } := by
      have hforget : forgetSends v = forgetSends (excludeSite i s) := by rw [← hv, forgetSends_sendNotices]
      rw [congrArg State.site (sends_state hforget), State.withOut_site, State.withSite_site, excludeSite_site, hwaiting, if_pos rfl]
    have hstill : evaluateRoll (settlePeers v) = v := by
      rw [settlePeers_of_nil v (by rw [hsite]; exact houtbound) (by rw [hsite]; exact hform) (by rw [hsite]; exact hleaving)]
      exact evaluateRoll_of_not_waiting v (by rw [hsite]; exact hroll)
    refine ⟨v, congrArg Host.Outcome.next (hwait.trans hstill), ?_⟩
    dsimp only
    rw [hsite]
    refine ⟨fun a ha => of_decide_eq_true (List.mem_filter.1 ha).2, fun a ha => ?_, rfl⟩
    simp [ha]
  case joinReq =>
    intro s h x u ha
    refine ⟨fun hjoining => congrArg Host.Outcome.next ((onFrame_of_authFrame ha).trans (if_pos hjoining)), fun hjoining hjob hnew => ?_⟩
    obtain ⟨v, m, hforget, hjoin⟩ := joinReqArrives_of_new x hjoining hjob hnew
    refine ⟨_, congrArg Host.Outcome.next ((onFrame_of_authFrame ha).trans hjoin), ?_, rfl, ?_, ?_⟩
    · obtain ⟨x0, -, -, rfl⟩ := authFrame_some ha
      rw [sends_state hforget]
      apply State.eq_of_parts <;> simp [State.marked, addActive]
    · exact List.mem_append_right _ List.mem_cons_self
    · rw [sends_state hforget]
      rfl
  case left =>
    intro s h x u ha
    have hrolled := rolled_evaluateRoll (lastNoted h u)
    refine ⟨_, congrArg Host.Outcome.next ((onFrame_of_authFrame ha).trans (leaveArrives_eq h u)), ?_, ?_, ?_, fun hroll => ?_⟩
    · obtain ⟨x0, -, -, rfl⟩ := authFrame_some ha
      conv_lhs => rw [hrolled.rest]
      apply State.eq_of_parts <;> simp [lastNoted]
    · rw [hrolled.last]
      exact List.mem_append_right _ List.mem_cons_self
    · rw [hrolled.active]
      simp [lastNoted]
    · rw [evaluateRoll_of_not_waiting _ (by simpa [lastNoted] using hroll)]
      simp [lastNoted]
  case notice =>
    intro s h x u site r ha
    refine ⟨fun hown => ?_, fun hother => ?_, fun hother hroll hform hleaving houtbound => ?_⟩
    · refine ⟨_, congrArg Host.Outcome.next ((onFrame_of_authFrame ha).trans (noticeArrives_of_own r hown)), ?_, ?_, ?_⟩ <;> simp
    · have hrest : Exchanged (excludeSite site u) _ := (exchanged_settlePeers _).trans (exchanged_evaluateRoll _)
      have hall := (exchanged_excludeSite site u).trans hrest
      refine ⟨_, congrArg Host.Outcome.next ((onFrame_of_authFrame ha).trans (noticeArrives_of_other r hother)),
        not_active_of_exchanged hrest, ?_⟩
      obtain ⟨x0, -, -, rfl⟩ := authFrame_some ha
      exact ⟨hall.load, hall.job, hall.slice, hall.snap, hall.ledger, hall.stalls⟩
    · have hsite := excludeSite_site site u
      have hstill : evaluateRoll (settlePeers (excludeSite site u)) = excludeSite site u := by
        rw [settlePeers_of_nil _ (by rw [hsite]; exact houtbound) (by rw [hsite]; exact hform) (by rw [hsite]; exact hleaving)]
        exact evaluateRoll_of_not_waiting _ (by rw [hsite]; exact hroll)
      refine ⟨_, congrArg Host.Outcome.next ((onFrame_of_authFrame ha).trans ((noticeArrives_of_other r hother).trans hstill)),
        not_active_excludeSite site u, ?_⟩
      rw [hsite]
  case joined =>
    intro s h x u site r ha
    obtain ⟨w, hw, hjoined⟩ := noticeArrives_of_joiner site r u
    refine ⟨_, congrArg Host.Outcome.next ((onFrame_of_authFrame ha).trans hjoined), by simp [addActive], w, hw, ?_⟩
    simp [addActive]

end Sys2Proof.Machine

namespace Sys2Proof.Machine

/-! ### The HOST link (R497, R501, R502, R598) -/

/-- R502, R630: the link that PERST_N takes down: the job stays, and no descriptor is taken. -/
def perstHeld (s : State) : State :=
  let s := s.withBus { s.bus with
    perst := true, trainArmed := false, linkUp := false, busMaster := false, captured := [], halves := [], cxlReturn := 0, cxlOut := [] }
  s.withMbx { s.mbx with takes := false }

theorem perstAssert_eq (s : State) :
    perstAssert true s = if exchangeOn s then resetRegisters (perstHeld s) else perstHeld s := rfl

@[simp] theorem applyModel_cap (p : Pwr) : (applyModel p).cap = p.cap := rfl

/-- R6: the registers of the reset class that PERST_N resets. -/
theorem resetRegisters_values (s : State) : (resetRegisters s).dev.scratch = 0 ∧ (resetRegisters s).tal.window = 0x0EE6B280 ∧
    (resetRegisters s).tal.select = 0 ∧ (resetRegisters s).pwr.cap = 0xFA0 := by
  refine ⟨rfl, rfl, rfl, ?_⟩
  simp only [resetRegisters, State.withDbg_pwr, State.withPwr_pwr]
  (repeat' split) <;> rfl

theorem resetRegisters_rest (s : State) : resetRegisters s = ((((s.withDbg (resetRegisters s).dbg).withDev (resetRegisters s).dev).withPwr
    (resetRegisters s).pwr).withTal (resetRegisters s).tal) := by
  apply State.eq_of_parts <;> simp [resetRegisters]

/-- R497: training at an allowed width and rate gives the link, and at any other leaves it down. -/
theorem hostTrained_of_armed {s : State} (harmed : s.bus.trainArmed = true) (lanes gts : Nat) : hostTrained lanes gts s =
    if hostWidthOk lanes gts then s.withBus { s.bus with trainArmed := false, linkUp := true, width := lanes, rate := gts }
    else s.withBus { s.bus with trainArmed := false, linkUp := false } := if_neg (by simp [harmed])

theorem hostWidthOk_iff (lanes gts : Nat) : hostWidthOk lanes gts = true ↔ lanes ∈ [1, 2, 4, 8] ∧ gts ∈ [32, 64] := by
  unfold hostWidthOk
  rw [Bool.and_eq_true, decide_eq_true_eq, decide_eq_true_eq]

/-- Settles O24: by what each event of the HOST port does to the link, and by the registers of the reset class. -/
theorem hostLinkComesUpAndGoesDown : Obligations.HostLinkComesUpAndGoesDown := by
  unfold Obligations.HostLinkComesUpAndGoesDown
  refine ⟨?assert, ?deassert, ?glitch, ?trained, ?retrain, ?down, ?master⟩
  case assert =>
    intro s
    refine ⟨_, congrArg Host.Outcome.next (perstAssert_eq s), ?_⟩
    split
    case isTrue hon =>
      have hrest := resetRegisters_rest (perstHeld s)
      have hvalues := resetRegisters_values (perstHeld s)
      generalize resetRegisters (perstHeld s) = t at hrest hvalues ⊢
      refine ⟨?_, ?_, ?_, ?_, ?_, ?_, ?_, ?_, ?_, ?_, fun _ => hvalues⟩
      · conv_lhs => rw [hrest]
        apply State.eq_of_parts <;> rw [hrest] <;> simp [perstHeld]
      all_goals rw [hrest]; rfl
    case isFalse hoff =>
      refine ⟨by apply State.eq_of_parts <;> simp [perstHeld], rfl, rfl, rfl, rfl, rfl, rfl, rfl, rfl, rfl, fun hon => absurd hon hoff⟩
  case deassert =>
    exact fun s => rfl
  case glitch =>
    exact fun s => ⟨rfl, rfl⟩
  case trained =>
    intro s lanes gts harmed
    have htrained := hostTrained_of_armed harmed lanes gts
    refine ⟨fun hok => congrArg Host.Outcome.next (htrained.trans (if_pos ((hostWidthOk_iff lanes gts).2 hok))),
      fun hbad => congrArg Host.Outcome.next (htrained.trans (if_neg fun hok => hbad ((hostWidthOk_iff lanes gts).1 hok)))⟩
  case retrain =>
    exact fun s hdown hperst hpg => congrArg Host.Outcome.next (if_pos (by simp [hdown, hperst, hpg]))
  case down =>
    exact fun s => rfl
  case master =>
    exact fun s hreach => ⟨congrArg Host.Outcome.next (if_pos hreach), congrArg Host.Outcome.next (if_pos hreach)⟩

end Sys2Proof.Machine

namespace Sys2Proof.Machine

/-! ### Register writes (R4, R540 to R553) -/

/-- R4: an aligned 32-bit write below the descriptor rings. -/
theorem registerWrite_of_aligned {s : State} {off : BitVec 21} (hreach : hostReaches s = true) (hlow : off.toNat < 0x100000)
    (haligned : off.toNat % 4 = 0) (v : W64) : registerWrite off 4 v s = write32 off.toNat (v.extractLsb' 0 32) s := by
  unfold registerWrite
  dsimp only
  rw [if_neg (by simp [hreach]), if_neg (by omega), if_pos ⟨rfl, haligned⟩]

/-- R543: a comparator after the write that enables it. -/
theorem cmpControl_of_enabling {now : W64} {v : W32} {c : Cmp} (hset : v.getLsbD 0 = true) (hoff : c.enable = false) :
    cmpControl now v c = armLate now { c with
      alertEn := v.getLsbD 1, enable := true, fired := afterW1c now c.fired (v.getLsbD 8) c.firedAt,
      late := afterW1c now c.late (v.getLsbD 9) c.lateAt, missed := 0 } := by
  unfold cmpControl
  rw [hset, hoff]
  rfl

/-- R542: the host writes the control of a comparator of its own. -/
theorem cmpControlWrite_of_host {s : State} {n : Fin 16} (hreach : hostReaches s = true) (hhost : 8 ≤ n.val) (v : W32) :
    cmpControlWrite n v s = settleAlert (s.withAwn { s.awn with cmps := s.awn.cmps.set n (cmpControl s.awn.tick v s.awn.cmps[n]) }) := by
  unfold cmpControlWrite
  exact if_neg (by rw [hreach, decide_eq_false (by omega)]; decide)

theorem cmps_set_self (l : Vector Cmp 16) (n : Fin 16) (x : Cmp) : (l.set n x)[n] = x := Vector.getElem_set_self _

theorem cmps_set_other (l : Vector Cmp 16) (n m : Fin 16) (x : Cmp) (h : m ≠ n) : (l.set n x)[m] = l[m] :=
  Vector.getElem_set_ne _ _ fun e => h (Fin.ext e.symm)

/-- R613: with the probes off or locked every pin is low. -/
theorem drivePins_of_off {s : State} (h : s.dbg.probeEn = false ∨ s.dbg.locked = true) :
    drivePins s = s.withDbg { s.dbg with pins := 0 } := by
  have hoff : (s.dbg.probeEn && !s.dbg.locked) = false := by rcases h with h | h <;> simp [h]
  simp only [drivePins, hoff]
  rfl

/-- Settles O26: by what a write of each of the registers does, an RO register's included. -/
theorem registerWritesHaveTheirEffects : Obligations.RegisterWritesHaveTheirEffects := by
  unfold Obligations.RegisterWritesHaveTheirEffects
  refine ⟨?priority, ?control, ?snap, ?idle, ?probe, ?pins, ?write⟩
  case priority =>
    exact fun s v hreach => congrArg Host.Outcome.next (if_neg (by simp [hostReaches, hreach]))
  case control =>
    intro s n v hreach hhost hset hoff
    have hwrite := cmpControlWrite_of_host (s := s) hreach hhost v
    rw [cmpControl_of_enabling hset hoff] at hwrite
    refine ⟨_, congrArg Host.Outcome.next hwrite, ?_⟩
    have hawn (x : Cmp) : (settleAlert (s.withAwn { s.awn with cmps := s.awn.cmps.set n x })).awn.cmps = s.awn.cmps.set n x := by simp
    beta_reduce
    rw [hawn, cmps_set_self]
    refine ⟨by apply State.eq_of_parts <;> simp, rfl, rfl, rfl, rfl, ?_, rfl, rfl, fun m hm => cmps_set_other _ _ _ _ hm, by simp, by simp,
      by simp⟩
    simp [armLate]
  case snap =>
    intro s v hreach hset hidle
    have hbegin : talSnap v s = s.withTal { s.tal with snapBusy := true, taking := some (s.awn.tick, s.tal.counts) } :=
      if_neg (by simp [hostReaches, hreach, hset, hidle])
    exact ⟨_, congrArg Host.Outcome.next hbegin, rfl, _, rfl, rfl⟩
  case idle =>
    intro s v h
    exact congrArg Host.Outcome.next (if_pos (by rcases h with h | h <;> rw [h] <;> simp))
  case probe =>
    intro s p v hreach
    have hprobe : (if hostReaches s then setProbe p v s else s) = setProbe p v s := if_pos hreach
    exact ⟨fun hok => congrArg Host.Outcome.next (hprobe.trans (if_pos hok)),
      fun hbad => congrArg Host.Outcome.next (hprobe.trans (if_neg (by simp [hbad])))⟩
  case pins =>
    exact fun s => drivePins_of_off
  case write =>
    intro s v hreach
    have hwrite (off : BitVec 21) (hlow : off.toNat < 0x100000) (haligned : off.toNat % 4 = 0) :
        exec (.registerWrite off 4 v) s = .next (write32 off.toNat (v.extractLsb' 0 32) s) :=
      congrArg Host.Outcome.next (registerWrite_of_aligned hreach hlow haligned v)
    exact ⟨hwrite 0x2C (by decide) (by decide), hwrite 0x40004 (by decide) (by decide), hwrite 0x0 (by decide) (by decide),
      ⟨_, hwrite 0x50054 (by decide) (by decide), rfl⟩, _, hwrite 0x10008 (by decide) (by decide), rfl⟩

end Sys2Proof.Machine

namespace Sys2Proof.Machine

/-! ### Function states (R599 to R601) -/

@[simp] theorem getFn_setFn_self (s : State) (f : Func) (x : Fn) : getFn (setFn s f x) f = x := by
  unfold getFn setFn
  exact Vector.getElem_set_self _

theorem overtake_of_no_pending {s : State} {f : Func} (hpending : (getFn s f).pending = none) : overtake f s = s := by
  simp only [overtake, hpending]

theorem funcEnable_of_legal {s : State} {k : CmdRef} {c : Cmd} {f : Func} (hready : ready s k 0x60 = some c)
    (hfunc : funcOf (field c.bytes 80 1) = some f) (hfirst : alreadyWaits s k = false) (hgood : enableBad s f c = false) :
    funcEnable k s = requestFn k f true (reachArg c) s := by
  simp only [funcEnable, hready, hfunc]
  rw [if_neg (by simp [hfirst]), if_neg (by simp [hgood])]

theorem funcDisable_of_legal {s : State} {k : CmdRef} {c : Cmd} {f : Func} (hready : ready s k 0x61 = some c)
    (hfunc : funcOf (field c.bytes 80 1) = some f) (hfirst : alreadyWaits s k = false) (hgood : disableBad s f = false) :
    funcDisable k s = requestFn k f false 0 s := by
  simp only [funcDisable, hready, hfunc]
  rw [if_neg (by simp [hfirst]), if_neg (by simp [hgood])]

/-! ### The end of a transition (R599, R600) -/

/-- R600: the waiting commands end; the function, the Halls, the stalls and the Awning stay as the transition left them. -/
theorem endJoined_keeps (f : Func) (s : State) : (endJoined f s).fns = (setFn s f { getFn s f with joined := [] }).fns ∧
    (endJoined f s).dev = s.dev ∧ (endJoined f s).stalls = s.stalls ∧ (endJoined f s).awn = s.awn := by
  unfold endJoined
  refine ⟨?_, ?_, ?_, ?_⟩
  · rw [foldl_keeps (fun t : State => t.fns) _ fun s k => finish_fns ..]
  · rw [foldl_keeps (fun t : State => t.dev) _ fun s k => finish_dev ..]
    rfl
  · rw [foldl_keeps (fun t : State => t.stalls) _ fun s k => finish_stalls ..]
    rfl
  · rw [foldl_keeps (fun t : State => t.awn) _ fun s k => finish_awn ..]
    rfl

theorem getFn_endJoined (f : Func) (s : State) : getFn (endJoined f s) f = { getFn s f with joined := [] } := by
  rw [getFn_of (endJoined_keeps f s).1, getFn_setFn_self]

theorem startPending_of_none {f : Func} {s : State} (h : (getFn s f).pending = none) : startPending f s = s := by
  simp only [startPending, h]

/-- R599, R600: a Hall's transition ends with no request pending: after its effect, the commands that waited end. -/
theorem endJoined_of_hall {h : Fin 4} {s u : State} {x : Fn} (hfns : u.fns = (setFn s (.hall h) x).fns) (hpending : x.pending = none) :
    startPending (.hall h) (endJoined (.hall h) u) = endJoined (.hall h) u ∧
    getFn (endJoined (.hall h) u) (.hall h) = { x with joined := [] } := by
  have hfn : getFn (endJoined (.hall h) u) (.hall h) = { x with joined := [] } := by
    rw [getFn_endJoined, getFn_of hfns, getFn_setFn_self]
  exact ⟨startPending_of_none (by rw [hfn]; exact hpending), hfn⟩

theorem transitionDone_of_starting {h : Fin 4} {s : State} (hstate : (getFn s (.hall h)).state = .starting) :
    transitionDone (.hall h) s = startPending (.hall h) (endJoined (.hall h) (endStart (.hall h)
      (setFn s (.hall h) { getFn s (.hall h) with state := .on }))) := by
  simp only [transitionDone, hstate]
  exact if_neg (by simp [transitionReady])

theorem transitionDone_of_stopping {h : Fin 4} {s : State} (hstate : (getFn s (.hall h)).state = .stopping) :
    transitionDone (.hall h) s = startPending (.hall h) (endJoined (.hall h) (endStop (.hall h)
      (setFn s (.hall h) { getFn s (.hall h) with state := .off }))) := by
  simp only [transitionDone, hstate]
  exact if_neg (by simp [transitionReady])

/-- Settles O18: by the function's state for each request, and by the end of each transition of a Hall. -/
theorem functionsMakeTransitions : Obligations.FunctionsMakeTransitions := by
  unfold Obligations.FunctionsMakeTransitions
  refine ⟨?enable, ?disable, ?started, ?stopped, ?lane⟩
  case enable =>
    intro s k c f hready hfunc hfirst hgood hpending
    have henable := funcEnable_of_legal hready hfunc hfirst hgood
    refine ⟨fun hstate => congrArg Host.Outcome.next ?_, fun hstate => congrArg Host.Outcome.next ?_,
      fun hstate => congrArg Host.Outcome.next ?_, fun hstate => congrArg Host.Outcome.next ?_⟩ <;>
    exact henable.trans (by simp only [requestFn, overtake_of_no_pending hpending, hstate])
  case disable =>
    intro s k c f hready hfunc hfirst hgood hpending
    have hdisable := funcDisable_of_legal hready hfunc hfirst hgood
    refine ⟨fun hstate => congrArg Host.Outcome.next ?_, fun hstate => congrArg Host.Outcome.next ?_,
      fun hstate => congrArg Host.Outcome.next ?_, fun hstate => congrArg Host.Outcome.next ?_⟩ <;>
    exact hdisable.trans (by simp only [requestFn, overtake_of_no_pending hpending, hstate])
  case started =>
    intro s h l hfn
    have hdone := transitionDone_of_starting (h := h) (s := s) (by rw [hfn])
    rw [hfn] at hdone
    obtain ⟨hstart, hget⟩ := endJoined_of_hall (h := h) (s := s) (x := { state := .on, joined := l, pending := none })
      (u := endStart (.hall h) (setFn s (.hall h) { state := .on, joined := l, pending := none })) rfl rfl
    rw [hstart] at hdone
    obtain ⟨-, hdev, hstalls, hawn⟩ := endJoined_keeps (.hall h)
      (endStart (.hall h) (setFn s (.hall h) { state := .on, joined := l, pending := none }))
    refine ⟨_, congrArg Host.Outcome.next hdone, hget, ?_, hstalls, hawn⟩
    rw [hdev]
    rfl
  case stopped =>
    intro s h l hfn
    have hdone := transitionDone_of_stopping (h := h) (s := s) (by rw [hfn])
    rw [hfn] at hdone
    obtain ⟨hstop, hget⟩ := endJoined_of_hall (h := h) (s := s) (x := { state := .off, joined := l, pending := none })
      (u := endStop (.hall h) (setFn s (.hall h) { state := .off, joined := l, pending := none })) rfl rfl
    rw [hstop] at hdone
    obtain ⟨-, hdev, hstalls, hawn⟩ := endJoined_keeps (.hall h)
      (endStop (.hall h) (setFn s (.hall h) { state := .off, joined := l, pending := none }))
    refine ⟨_, congrArg Host.Outcome.next hdone, hget, ?_, hstalls, hawn⟩
    rw [hdev]
    rfl
  case lane =>
    exact fun s e lane hon => congrArg Host.Outcome.next (if_pos hon)

end Sys2Proof.Machine

namespace Sys2Proof.Machine

/-! ### ATTEST and the leaves (R567, R568, R571, R572) -/

theorem attestWindow_of_same {s : State} (h : attWindowOf s.awn.tick = s.sec.attWindow) : attestWindow s = s := if_pos h

section Attest

variable {s : State} {k : CmdRef} {c : Cmd} (hready : ready s k 0x80 = some c) (hphase : c.phase = .queued)
  (hroom : attestBytes s ≤ (bufA c).bytes) (hwindow : attWindowOf s.awn.tick = s.sec.attWindow)
include hready hphase hroom hwindow

theorem attest_of_no_leaf (hleaf : leafCount ≤ s.sec.nextLeaf) : attest k s = finish k rAuthFail s := by
  simp only [attest, attestWindow_of_same hwindow, attestNow, hready]
  rw [if_neg (by simp [hphase]), if_neg (Nat.not_lt.2 hroom), if_pos hleaf]

variable (hleaf : s.sec.nextLeaf < leafCount)
include hleaf

theorem attest_of_allowed (hallowed : s.sec.attSigned < 16) : attest k s = admitAttest k s := by
  simp only [attest, attestWindow_of_same hwindow, attestNow, hready]
  rw [if_neg (by simp [hphase]), if_neg (Nat.not_lt.2 hroom), if_neg (Nat.not_le.2 hleaf), if_pos hallowed]

theorem attest_of_used_up (hused : 16 ≤ s.sec.attSigned) : attest k s = s := by
  simp only [attest, attestWindow_of_same hwindow, attestNow, hready]
  rw [if_neg (by simp [hphase]), if_neg (Nat.not_lt.2 hroom), if_neg (Nat.not_le.2 hleaf), if_neg (Nat.not_lt.2 hused)]

end Attest

theorem attestWindow_of_new {s : State} (hnew : attWindowOf s.awn.tick ≠ s.sec.attWindow)
    (hnone : s.mbx.cmds.filter (fun c => decide (cmdOp c = 0x80) && !c.isRepeat && decide (c.phase = .queued)) = []) :
    attestWindow s = s.withSec { s.sec with
      attWindow := attWindowOf s.awn.tick, attSigned := (s.sec.signQueue.filter isAttest).length } := by
  unfold attestWindow
  dsimp only
  rw [if_neg hnew, State.withSec_mbx, hnone]
  rfl

/-- R567: raising the reserve changes its two copies alone, and the next leaf lies below them. -/
theorem raiseLeaf_eq (s : State) : ∃ a b, raiseLeaf s = s.withSec { s.sec with leafA := a, leafB := b } ∧ s.sec.nextLeaf < max a.1 b.1 := by
  unfold raiseLeaf
  dsimp only
  split
  · next h => exact ⟨s.sec.leafA, s.sec.leafB, rfl, h⟩
  · exact ⟨_, _, rfl, by simp⟩

@[simp] theorem idxLow_sec (s : State) : (idxLow s).sec = s.sec := by
  unfold idxLow
  dsimp only
  split
  · simp
  · rfl

/-- R567, R568: using a leaf moves the next leaf and the reserve, and leaves a record's marks. -/
theorem useLeaf_eq (s : State) : ∃ a b m, useLeaf s = (s.sec.nextLeaf,
    (s.withSec { s.sec with leafA := a, leafB := b, nextLeaf := s.sec.nextLeaf + 1 }).marked m) ∧ s.sec.nextLeaf < max a.1 b.1 := by
  obtain ⟨a, b, hraise, hbelow⟩ := raiseLeaf_eq s
  have hmarks (u : State) : ∃ m, idxLow u = u.marked m := by
    unfold idxLow
    dsimp only
    split
    · exact logEvent_eq ..
    · exact marked_self u
  obtain ⟨m, hm⟩ := hmarks (s.withSec { s.sec with leafA := a, leafB := b, nextLeaf := s.sec.nextLeaf + 1 })
  refine ⟨a, b, m, ?_, hbelow⟩
  unfold useLeaf
  rw [hraise, ← hm]
  rfl

/-- R571: the signature of an ATTEST uses a leaf; what it writes and answers leaves the security state. -/
theorem finishAttest_of_leaf {s : State} {k : CmdRef} {c : Cmd} (hcmd : findCmd s k = some c) (hroom : attestBytes s ≤ (bufA c).bytes)
    (hleaf : s.sec.nextLeaf < leafCount) : ∃ b r, finishAttest k s =
      finish k rOK (addRecord k r (writeBuf (bufA c) 0 b (useLeaf s).2)) := by
  simp only [finishAttest, hcmd]
  rw [if_neg (Nat.not_lt.2 hroom), if_neg (Nat.not_le.2 hleaf)]
  exact ⟨_, _, rfl⟩

theorem signature_of_attest {s : State} {k : CmdRef} {l : List SignReq} (hqueue : s.sec.signQueue = .attest k :: l)
    (hcache : s.sec.cacheOk = true) (hclerk : s.saf.clerkFenced ≠ 3) :
    signature s = finishAttest k (s.withSec { s.sec with signQueue := l }) := by
  simp only [signature, hqueue]
  exact if_neg (not_or.2 ⟨by simp [hcache], hclerk⟩)

/-! ### KEY_INSTALL (R573 to R575) -/

section Install

variable {s : State} {k : CmdRef} {c : Cmd}

theorem membership_of_valid (hkey : keyReady s k 1 = some c) (hform : certForm 1 (package s c) = true)
    (hvalid : certValid s.awn.rtc (package s c) = true) (hown : certSubject (package s c) = Config.idkHash)
    (hserial : field (package s c) 108 8 = Config.serial.toNat) (hroom : (putCert (package s c) s.sec.memberships).length ≤ 4) :
    membership k s = finish k rOK (logSecurity 6 ((hash32 (certIssuer (package s c))).take 16)
      (extend 5 (hash32 (package s c)) (s.withSec { s.sec with memberships := putCert (package s c) s.sec.memberships }))) := by
  simp only [membership, hkey]
  rw [if_neg (by simp [hform]), if_neg (by simp [hvalid, hown, hserial]), if_neg (Nat.not_lt.2 hroom)]

/-- R573: a package whose images verify is written to the bank that was not booted. -/
theorem firmware_of_verified (hkey : keyReady s k 2 = some c) (hidle : s.sec.installing = none)
    (hform : firmwareForm (package s c) = true)
    (himages : ∀ i : Fin 3, imageOk s i.val ((packageImages (package s c)).getD i.val []) = true) :
    firmware k s = setRunning k (s.withSec { s.sec with
      installing := some k
      nor := [0, 1, 2].foldl (fun m i =>
        writeBytes m (imageBase (!s.sec.bootedB) i) ((packageImages (package s c)).getD i [])) s.sec.nor }) := by
  have h0 : imageOk s 0 ((packageImages (package s c)).getD 0 []) = true := himages 0
  have h1 : imageOk s 1 ((packageImages (package s c)).getD 1 []) = true := himages 1
  have h2 : imageOk s 2 ((packageImages (package s c)).getD 2 []) = true := himages 2
  have hbegin : firmware k s = beginInstall k c s := by
    simp only [firmware, hkey, hidle]
    rw [if_neg (by simp), if_neg (by simp)]
  rw [hbegin]
  unfold beginInstall
  dsimp only
  rw [if_neg (by simp [hform]), if_neg (by rw [h0, h1, h2]; decide)]

theorem firmware_of_written (hkey : keyReady s k 2 = some c) (hrunning : s.sec.installing = some k)
    (h0 : norFails s (!s.sec.bootedB) 0 = none) (h1 : norFails s (!s.sec.bootedB) 1 = none)
    (h2 : norFails s (!s.sec.bootedB) 2 = none) : ∃ b, firmware k s =
      finish k rOK (logSecurity 5 b (s.withSec { s.sec with installing := none, preferB := !s.sec.bootedB })) := by
  have hfails (i : Nat) : norFails (s.withSec { s.sec with installing := none }) (!s.sec.bootedB) i = norFails s (!s.sec.bootedB) i := rfl
  simp only [firmware, hkey, hrunning, if_true]
  unfold endInstall
  dsimp only
  rw [hfails, hfails, hfails, h0, h1, h2]
  exact ⟨_, rfl⟩

theorem keyRevoke_of_valid {slot : Nat} (hkey : keyReady s k 3 = some c) (hlength : (package s c).length = 4160)
    (hbytes : (parseHdr (package s c)).bytes = 64) (hslot : slot = field (package s c) 4096 1) (hfour : slot < 4)
    (hcheck : failedCheck s 4 (parseHdr (package s c)) ((package s c).drop 4096) = none)
    (hother : (parseHdr (package s c)).keySlot ≠ slot) (hlast : s.sec.revoked ||| (1 : BitVec 4) <<< slot ≠ 15) :
    keyRevoke k s = finish k rOK (logSecurity 4 [BitVec.ofNat 8 slot]
      (s.withSec { s.sec with revoked := s.sec.revoked ||| (1 : BitVec 4) <<< slot })) := by
  subst hslot
  simp only [keyRevoke, hkey]
  rw [if_neg (by simp [hlength, hbytes, Nat.not_le.2 hfour]), if_neg (by simp [hcheck, hother]), if_neg hlast]

theorem debugUnlock_of_valid (hkey : keyReady s k 4 = some c) (hlength : (package s c).length = 4160)
    (hbytes : (parseHdr (package s c)).bytes = 64)
    (hcheck : failedCheck s 5 (parseHdr (package s c)) ((package s c).drop 4096) = none)
    (hserial : field (package s c) 4096 8 = Config.serial.toNat) (hboot : field (package s c) 4104 8 = s.dev.bootId.toNat) :
    debugUnlock k s = finish k rOK (logSecurity 7 (natLe 8 s.dev.bootId.toNat) (extend 4 (hash32 ((package s c).take 4096))
      ((s.withDbg { s.dbg with locked := false }).withSec { s.sec with unlocked := true }))) := by
  simp only [debugUnlock, hkey]
  rw [if_neg (by simp [hlength, hbytes]), if_neg (by simp [hcheck, hserial, hboot])]
  rfl

end Install

/-- Settles O19: ATTEST by its window and its leaves, and each key install by the checks that its package passes. -/
theorem keysAndAttestationsAreChecked : Obligations.KeysAndAttestationsAreChecked := by
  unfold Obligations.KeysAndAttestationsAreChecked
  refine ⟨⟨?attest, ?window, ?leaf, ?sign⟩, ?member, ?firmware, ?written, ?revoke, ?unlock⟩
  case attest =>
    intro s k c hready hphase hroom hwindow
    exact ⟨fun hleaf => congrArg Host.Outcome.next (attest_of_no_leaf hready hphase hroom hwindow hleaf),
      fun hleaf hallowed => congrArg Host.Outcome.next (attest_of_allowed hready hphase hroom hwindow hleaf hallowed),
      fun hleaf hused => congrArg Host.Outcome.next (attest_of_used_up hready hphase hroom hwindow hleaf hused)⟩
  case window =>
    exact fun s hnew hnone => congrArg Host.Outcome.next (attestWindow_of_new hnew hnone)
  case leaf =>
    intro s
    obtain ⟨a, b, m, huse, hbelow⟩ := useLeaf_eq s
    rw [huse]
    exact ⟨rfl, rfl, hbelow⟩
  case sign =>
    intro s k c l hqueue hcache hclerk hcmd hroom hleaf
    obtain ⟨b, r, hfinish⟩ := finishAttest_of_leaf (s := s.withSec { s.sec with signQueue := l }) hcmd hroom hleaf
    obtain ⟨x, y, m, huse, -⟩ := useLeaf_eq (s.withSec { s.sec with signQueue := l })
    rw [huse] at hfinish
    obtain ⟨w, hw⟩ := writeBuf_eq (bufA c) 0 b
      (((s.withSec { s.sec with signQueue := l }).withSec { s.sec with
        signQueue := l, leafA := x, leafB := y, nextLeaf := s.sec.nextLeaf + 1 }).marked m)
    refine ⟨_, congrArg Host.Outcome.next ((signature_of_attest hqueue hcache hclerk).trans (hfinish.trans
      (congrArg (fun u => finish k rOK (addRecord k r u)) hw))), ?_⟩
    simp [State.marked]
  case member =>
    intro s k c b hkey hb hform hvalid hown hserial hroom
    subst hb
    exact congrArg Host.Outcome.next (membership_of_valid hkey hform hvalid hown hserial hroom)
  case firmware =>
    intro s k c hkey hidle hform himages
    refine ⟨_, congrArg Host.Outcome.next (firmware_of_verified hkey hidle hform himages), ?_, ?_, ?_, ?_, ?_⟩
    · apply State.eq_of_parts <;> simp
    all_goals simp
  case written =>
    intro s k c hkey hrunning h0 h1 h2
    obtain ⟨b, hend⟩ := firmware_of_written hkey hrunning h0 h1 h2
    refine ⟨_, congrArg Host.Outcome.next hend, ?_, ?_, ?_, ?_⟩
    · apply State.eq_of_parts <;> simp
    all_goals simp
  case revoke =>
    intro s k c b slot hkey hb hlength hbytes hslot hfour hcheck hother hlast
    subst hb
    refine ⟨_, congrArg Host.Outcome.next (keyRevoke_of_valid hkey hlength hbytes hslot hfour hcheck hother hlast), ?_, ?_, ?_, ?_, ?_⟩
    · apply State.eq_of_parts <;> simp
    all_goals simp
  case unlock =>
    intro s k c b hkey hb hlength hbytes hcheck hserial hboot
    subst hb
    obtain ⟨f, m, l, o, hextend⟩ := extend_eq 4 (hash32 ((package s c).take 4096))
      ((s.withDbg { s.dbg with locked := false }).withSec { s.sec with unlocked := true })
    have hunlock := debugUnlock_of_valid hkey hlength hbytes hcheck hserial hboot
    rw [hextend] at hunlock
    refine ⟨_, congrArg Host.Outcome.next hunlock, ?_⟩
    simp

end Sys2Proof.Machine

namespace Sys2Proof.Machine

/-! ### Pins and lost power (R586, R597, R626) -/

/-- R616, R626: driving PG changes the pin's level, and shows it unless EXTEST has the pins. -/
theorem drivePg_eq (v : Bool) (s : State) : drivePg v s = (s.withPwr { s.pwr with pg := v }).withOut
    (s.out ++ if s.pwr.pg = v ∨ s.dbg.extest = true then [] else [.pin "PG" v]) := by
  unfold drivePg sidebandPin
  split
  · next h =>
    rw [if_pos (.inl h), List.append_nil, ← h]
    rfl
  · next h =>
    rw [State.withPwr_dbg]
    split
    · next hextest =>
      rw [if_pos (.inr hextest), List.append_nil]
      rfl
    · next hextest =>
      rw [if_neg (not_or.2 ⟨h, hextest⟩)]
      rfl

section LosePower

variable (s : State)

@[simp] theorem losePower_mbx : (losePower s).mbx = {} := by simp [losePower]
@[simp] theorem losePower_awn : (losePower s).awn = s.awn := by simp [losePower]
@[simp] theorem losePower_saf : (losePower s).saf = s.saf := by simp [losePower]
@[simp] theorem losePower_log : (losePower s).log = s.log := by simp [losePower]
@[simp] theorem losePower_pwr : (losePower s).pwr = s.pwr := by simp [losePower]
@[simp] theorem losePower_dbg : (losePower s).dbg = s.dbg := by simp [losePower]
@[simp] theorem losePower_sec : (losePower s).sec = s.sec := by simp [losePower]
@[simp] theorem losePower_out : (losePower s).out = s.out := by simp [losePower]
@[simp] theorem losePower_job : (losePower s).job = {} := by simp [losePower]
@[simp] theorem losePower_load : (losePower s).load = {} := by simp [losePower]
@[simp] theorem losePower_tens : (losePower s).tens = {} := by simp [losePower]
@[simp] theorem losePower_stalls : (losePower s).stalls = [] := by simp [losePower]
@[simp] theorem losePower_fns : (losePower s).fns = Vector.replicate 14 {} := by simp [losePower]
@[simp] theorem losePower_mem : (losePower s).mem =
    { s.mem with near := [], far := [], cellars := [], nearScrub := 0, farScrub := 0 } := by simp [losePower]
@[simp] theorem losePower_snap : (losePower s).snap = { flash := s.snap.flash, stored := s.snap.stored } := by simp [losePower]

end LosePower

/-- R626: PG driven beside a change of the power block. -/
theorem drivePg_withPwr (v : Bool) (s : State) (p : Pwr) :
    ∃ o, drivePg v (s.withPwr p) = (s.withPwr { p with pg := v }).withOut (s.out ++ o) := by
  refine ⟨if p.pg = v ∨ s.dbg.extest = true then [] else [.pin "PG" v], ?_⟩
  rw [drivePg_eq, State.withPwr_pwr, State.withPwr_out]
  rfl

/-- R478, R597: the power block of the latched Standby. -/
def latchedPower (p : Pwr) : Pwr := { quietPower p with state := .latched, phase := .wait, restart := false, pg := false }

/-- R478, R597: the latched Standby: what the rails held is lost, and PG is deasserted. -/
theorem latchOff_eq (s : State) : ∃ o, latchOff s = ((losePower s).withPwr (latchedPower s.pwr)).withOut (s.out ++ o) := by
  obtain ⟨o, ho⟩ := drivePg_withPwr false (losePower s)
    { quietPower s.pwr with state := .latched, phase := .wait, restart := false }
  rw [losePower_out] at ho
  refine ⟨o, Eq.trans ?_ ho⟩
  simp only [latchOff, losePower_pwr]

/-- R597: a start-up failure loses what the rails held, and stands in the latched Standby. -/
theorem startupFailure_eq (s : State) : ∃ m o, startupFailure s = settleAlert (((losePower (s.marked m)).withPwr
    { latchedPower s.pwr with startFault := true }).withOut (s.out ++ o)) := by
  obtain ⟨m, hm⟩ := logEvent_eq 0x500 4 .none
    ([BitVec.ofNat 8 1, BitVec.ofNat 8 4, 0, 0] ++ natLe 4 s.pwr.mv.toNat ++ natLe 4 s.pwr.ma.toNat) s
  obtain ⟨o, ho⟩ := latchOff_eq (s.marked m)
  have hpwr : (latchOff (s.marked m)).pwr = latchedPower s.pwr := by
    rw [ho]
    rfl
  refine ⟨m, o, ?_⟩
  simp only [startupFailure, logPower, hm, hpwr]
  rw [ho, marked_out]
  rfl

theorem startupFailure_latched (s : State) : (startupFailure s).pwr.state = .latched ∧ (startupFailure s).pwr.startFault = true ∧
    (startupFailure s).pwr.phase = .wait ∧ (startupFailure s).mbx = {} ∧ (startupFailure s).job = {} ∧
    (startupFailure s).mem.near = [] ∧ (startupFailure s).awn = s.awn := by
  obtain ⟨m, o, h⟩ := startupFailure_eq s
  have hmem : (startupFailure s).mem = { s.mem with near := [], far := [], cellars := [], nearScrub := 0, farScrub := 0 } := by
    rw [h]
    simp [State.marked]
  rw [hmem, h]
  simp [State.marked, latchedPower]

/-! ### Verified boot (R561 to R564, R581) -/

theorem bankFails_pwr {s : State} {x : Bool × Nat × Nat} (h : s.sec.failedBank = some x) (image check : Nat) :
    (bankFails image check s).pwr = { s.pwr with phase := .recovery, phaseSince := s.awn.tick } := by
  unfold bankFails
  rw [h]
  simp [enterPhase]

/-- R565: t differs from s in the measurements, the attestation log and the free values at most. -/
def Measured (s t : State) : Prop := ∃ f a b c, t = (s.withFree f).withSec { s.sec with meas := a, attLog := b, logOverflow := c }

theorem measured_extend (reg : Fin 8) (d : Bytes) (s : State) : Measured s (extend reg d s) := extend_eq reg d s

theorem Measured.trans {s t u : State} (hst : Measured s t) (htu : Measured t u) : Measured s u := by
  obtain ⟨f, a, b, c, rfl⟩ := hst
  obtain ⟨g, x, y, z, rfl⟩ := htu
  exact ⟨g, x, y, z, rfl⟩

/-- R561, R565: three good images extend the measurements, leave a record, and begin Identity. -/
theorem firmwareVerify_of_good {s : State} (hphase : s.pwr.phase = .firmware) (hone : norFails s s.sec.bootedB 1 = none)
    (htwo : norFails s s.sec.bootedB 2 = none) : ∃ m u, Measured s u ∧
      firmwareVerify s = (enterPhase .identity u).marked m := by
  unfold firmwareVerify
  simp only [hphase, hone, htwo, ne_eq, not_true_eq_false, if_false]
  obtain ⟨m, hm⟩ := logEvent_eq 0x600 1 .none _ _
  exact ⟨m, _, ((measured_extend _ _ _).trans (measured_extend _ _ _)).trans (measured_extend _ _ _), hm⟩

/-- R564: a burn raises the fuses' version floor, under a record. -/
theorem burnSvn_eq (s : State) : ∃ n m, burnSvn s = (s.withSec { s.sec with svn := n }).marked m := by
  unfold burnSvn
  dsimp only
  split
  · obtain ⟨m, hm⟩ := logEvent_eq 0x600 1 .none _ _
    exact ⟨_, m, hm⟩
  · obtain ⟨m, hm⟩ := marked_self s
    exact ⟨s.sec.svn, m, hm⟩

/-- R536, R564, R595: start-up ends. -/
theorem readyNow_of_ready {s : State} (hphase : s.pwr.phase = .ready) : ∃ c n m, readyNow s =
    (((((s.withDev (bootDev s)).withMbx { s.mbx with ready := true }).withTal { s.tal with opened := s.awn.tick, closes := c }).withPwr
      { s.pwr with phase := .done, state := activeState s.pwr }).withSec { s.sec with svn := n }).marked m := by
  obtain ⟨n, m, hburn⟩ := burnSvn_eq
    ((((s.withDev (bootDev s)).withMbx { s.mbx with ready := true }).withTal
      { s.tal with opened := s.awn.tick, closes := BitVec.ofNat 64 (nextClose s.awn.tick.toNat s.tal.window.toNat) }).withPwr
        { s.pwr with phase := .done, state := activeState s.pwr })
  have h : readyNow s = _ := if_neg (by simp [hphase])
  exact ⟨_, n, m, h.trans hburn⟩

/-! ### The functions at start-up (R599) -/

theorem fnStarted_of_starting {f : Func} {s : State} (h : (getFn s f).state = .starting) :
    fnStarted f s = setFn s f { getFn s f with state := .on } := if_pos h

theorem fnStarted_of_not_starting {f : Func} {s : State} (h : (getFn s f).state ≠ .starting) : fnStarted f s = s := if_neg h

theorem fnStarted_eq (f : Func) (s : State) : ∃ v, fnStarted f s = s.withFns v := by
  by_cases h : (getFn s f).state = .starting
  · exact ⟨_, fnStarted_of_starting h⟩
  · exact ⟨s.fns, fnStarted_of_not_starting h⟩

theorem foldl_fnStarted_eq (l : List Func) : ∀ s : State, ∃ v, l.foldl (fun s f => fnStarted f s) s = s.withFns v := by
  induction l with
  | nil => exact fun s => ⟨s.fns, rfl⟩
  | cons f l ih =>
    intro s
    obtain ⟨v, hv⟩ := fnStarted_eq f s
    obtain ⟨w, hw⟩ := ih (fnStarted f s)
    exact ⟨w, by rw [List.foldl_cons, hw, hv]; rfl⟩

theorem fnStarted_self {s : State} {f : Func} (h : (getFn s f).state = .starting) : (getFn (fnStarted f s) f).state = .on := by
  rw [fnStarted_of_starting h, getFn_setFn_self]

/-- R599: a function that is STARTING or ON stays so while another one is started. -/
theorem getFn_fnStarted_cases (s : State) (f g : Func) : getFn (fnStarted f s) g = getFn s g ∨
    ((getFn s g).state = .starting ∧ (getFn (fnStarted f s) g).state = .on) := by
  by_cases hstate : (getFn s f).state = .starting
  · by_cases hindex : fnIndex g = fnIndex f
    · have hsame : ∀ t : State, getFn t g = getFn t f := fun t => by simp only [getFn, hindex]
      rw [hsame, hsame]
      exact .inr ⟨hstate, fnStarted_self hstate⟩
    · refine .inl ?_
      rw [fnStarted_of_starting hstate]
      simp only [getFn, setFn, State.withFns_fns]
      exact Vector.getElem_set_ne _ _ (fun h => hindex (Fin.ext h.symm))
  · exact .inl (by rw [fnStarted_of_not_starting hstate])

/-- R595: every STARTING function that is named is ON at the end. -/
theorem foldl_fnStarted_on (g : Func) (l : List Func) : ∀ s : State,
    ((getFn s g).state = .starting ∧ g ∈ l) ∨ (getFn s g).state = .on →
    (getFn (l.foldl (fun s f => fnStarted f s) s) g).state = .on := by
  induction l with
  | nil => simp
  | cons f l ih =>
    intro s h
    refine ih (fnStarted f s) ?_
    rcases getFn_fnStarted_cases s f g with hsame | ⟨-, hon⟩
    · rw [hsame]
      rcases h with ⟨hstarting, hmem⟩ | hon
      · rcases List.mem_cons.1 hmem with rfl | hmem
        · exact .inr (by rw [← hsame]; exact fnStarted_self hstarting)
        · exact .inl ⟨hstarting, hmem⟩
      · exact .inr hon
    · exact .inr hon

/-- R595, R626: every rail is in regulation. -/
theorem railsUp_eq {s : State} (halls : BitVec 4) (hphase : s.pwr.phase = .rails) (hstate : s.pwr.state = .starting)
    (hpg : s.pwr.pg = false) : railsUp halls s =
      (((((s.withPwr { s.pwr with phase := .fuses, phaseSince := s.awn.tick, pg := true }).withDev { s.dev with hallsOn := halls }).withSaf
        { s.saf with hallsLost := s.saf.hallsLost &&& ~~~halls }).withOut
          (if s.dbg.extest then s.out else s.out ++ [.pin "PG" true])).withBus
            { s.bus with trainArmed := s.bus.trainArmed || !s.bus.perst }) := by
  unfold railsUp
  rw [if_neg (by simp [hphase, hstate])]
  have hout : (s.out ++ if s.pwr.pg = true ∨ s.dbg.extest = true then [] else [.pin "PG" true]) =
      if s.dbg.extest then s.out else s.out ++ [.pin "PG" true] := by
    rw [hpg]
    cases s.dbg.extest <;> simp
  cases hperst : s.bus.perst
  · apply State.eq_of_parts <;> simp [enterPhase, drivePg_eq, hperst]
    exact hout
  · apply State.eq_of_parts <;> simp [enterPhase, drivePg_eq, hperst]
    · rw [← hperst]
    · exact hout

theorem hallsStarted_eq (s : State) : [0, 1, 2, 3].foldl (fun s h => hallStarted h s) s =
    [Func.hall 0, .hall 1, .hall 2, .hall 3].foldl (fun s f => fnStarted f s) s := rfl

/-- R595: a module with good stalls passes the start-up self-test: the Cellars are cleared and the Halls are ON. -/
theorem startupSelfTest_of_good {s : State} (hphase : s.pwr.phase = .parallel) (htest : s.pwr.parDone.2.1 = false)
    (hfar : s.pwr.parDone.1 = false) : startupSelfTest [] s =
      ([Func.hall 0, .hall 1, .hall 2, .hall 3].foldl (fun s f => fnStarted f s)
        ((s.withMem { s.mem with near := [] }).withSaf { s.saf with startTest := s.awn.tick })).withPwr
          { s.pwr with parDone := (false, true, s.pwr.parDone.2.2) } := by
  obtain ⟨v, hv⟩ := foldl_fnStarted_eq [Func.hall 0, .hall 1, .hall 2, .hall 3]
    ((s.withMem { s.mem with near := [] }).withSaf { s.saf with startTest := s.awn.tick })
  rw [hv]
  have hend : ∀ u : State, u = ((s.withMem { s.mem with near := [] }).withSaf { s.saf with startTest := s.awn.tick }).withFns v →
      parallelEnd (u.withPwr { u.pwr with parDone := (u.pwr.parDone.1, true, u.pwr.parDone.2.2) }) =
        (((s.withMem { s.mem with near := [] }).withSaf { s.saf with startTest := s.awn.tick }).withFns v).withPwr
          { s.pwr with parDone := (false, true, s.pwr.parDone.2.2) } := by
    rintro _ rfl
    simp [parallelEnd, hfar]
  have htested : startupSelfTest [] s = _ := if_neg (by simp [hphase, htest])
  exact htested.trans (hend _ ((hallsStarted_eq _).trans hv))

/-- R595: the links end as the last of the three phases that run side by side. -/
theorem startupLinks_of_last {s : State} (hphase : s.pwr.phase = .parallel) (hdone : s.pwr.parDone = (true, true, false))
    (htrained : s.ports.toList.all portTrained = true) : startupLinks s =
      ((allPorts.map Func.torus ++ [Func.countingHouse, Func.barter]).foldl (fun s f => fnStarted f s) s).withPwr
        { s.pwr with phase := .ready, parDone := (true, true, true), phaseSince := s.awn.tick } := by
  obtain ⟨v, hv⟩ := foldl_fnStarted_eq (allPorts.map Func.torus ++ [Func.countingHouse, Func.barter]) s
  unfold startupLinks
  rw [if_neg (by simp [hphase, hdone, htrained]), hv]
  simp [parallelEnd, enterPhase, hdone]

/-- R597: a phase that has passed its bound fails the start-up. -/
theorem phaseTimeout_of_late {s : State} {ph : StartPhase} (hstate : s.pwr.state = .starting) (hphase : ph = s.pwr.phase)
    (hbounded : ph ∈ [.rails, .fuses, .loader, .firmware, .identity, .parallel, .ready])
    (hlate : phaseBound s.pwr ph < (s.awn.tick - s.pwr.phaseSince).toNat) : phaseTimeout ph s = startupFailure s := by
  refine if_neg ?_
  rintro (h | h | h | h | h | h | h)
  · exact h hphase
  · exact h hstate
  iterate 4 simp [h] at hbounded
  · omega

/-- Settles O20: each phase by its equation; every function that starts is ON after its fold, and a failure is the
latched Standby. -/
theorem bootIsVerifiedAndRuns : Obligations.BootIsVerifiedAndRuns := by
  unfold Obligations.BootIsVerifiedAndRuns
  refine ⟨⟨fun s n hphase => ?_, fun s hphase => ⟨fun hgood => ?_, fun c hbad => ?_⟩, fun s hphase hone htwo => ?_,
    fun s image check hnone => ?_, fun s image check x hsome => bankFails_pwr hsome image check, fun s b hphase => ?_,
    fun s ms hcache hphase => ?_, fun s hphase => ?_⟩,
    fun s halls hphase hstate hpg => ?_, fun s hphase hdone => ?_, fun s failed hphase hdone hfailed => ⟨fun hfirst => ?_, fun hagain => ?_⟩,
    fun s hphase htest hfar => ?_, fun s hphase hdone htrained => ?_, fun s ph hphase => ?_, fun s ph hearly => ?_,
    fun s ph hstate hphase hbounded hlate => ?_⟩
  · have h : fuses n s = _ := if_neg (by simp [hphase])
    exact congrArg Host.Outcome.next h
  · have h : loader s = extend 0 (norHdr s (bootBank s) 0).digest (enterPhase .firmware (s.withSec { s.sec with bootedB := bootBank s })) := by
      simp [loader, hphase, hgood]
    exact congrArg Host.Outcome.next h
  · have h : loader s = bankFails 0 c s := by simp [loader, hphase, hbad]
    exact congrArg Host.Outcome.next h
  · obtain ⟨m, u, ⟨f, a, b, c, rfl⟩, hverify⟩ := firmwareVerify_of_good hphase hone htwo
    refine ⟨_, congrArg Host.Outcome.next hverify, ?_⟩
    refine ⟨?_, ?_, ?_, ?_, ?_, ?_, ?_, ?_⟩
    · apply State.eq_of_parts <;> simp [State.marked, enterPhase]
    all_goals simp [State.marked, enterPhase]
  · rw [bankFails, hnone]
    rfl
  · have h : bootIdentity b s = _ := if_neg (by simp [hphase])
    exact congrArg Host.Outcome.next h
  · exact congrArg Host.Outcome.next (if_neg (by simp [hcache, hphase]))
  · obtain ⟨c, n, m, hready⟩ := readyNow_of_ready hphase
    refine ⟨_, congrArg Host.Outcome.next hready, ?_, ?_, ?_, ?_, ?_, ?_, ?_, ?_⟩
    · apply State.eq_of_parts <;> simp [State.marked]
    all_goals simp [State.marked]
  · refine ⟨_, congrArg Host.Outcome.next (railsUp_eq halls hphase hstate hpg), ?_⟩
    refine ⟨?_, rfl, rfl, rfl, rfl, rfl, rfl⟩
    apply State.eq_of_parts <;> rfl
  · have h : farTraining 0 s = _ := (if_neg (by simp [hphase, hdone])).trans (if_pos rfl)
    exact congrArg Host.Outcome.next h
  · have h : farTraining failed s = _ := (if_neg (by simp [hphase, hdone])).trans ((if_neg hfailed).trans (if_neg (by simp [hfirst])))
    exact congrArg Host.Outcome.next h
  · have h : farTraining failed s = _ := (if_neg (by simp [hphase, hdone])).trans ((if_neg hfailed).trans (if_pos hagain))
    obtain ⟨hlatched, hfault, hwait, hmbx, -, hnear, hawn⟩ := startupFailure_latched s
    exact ⟨_, congrArg Host.Outcome.next h, hlatched, hfault, hwait, hmbx, hnear, hawn⟩
  · obtain ⟨v, hv⟩ := foldl_fnStarted_eq [Func.hall 0, .hall 1, .hall 2, .hall 3]
      ((s.withMem { s.mem with near := [] }).withSaf { s.saf with startTest := s.awn.tick })
    have hon := fun h : Fin 4 => foldl_fnStarted_on (.hall h) [Func.hall 0, .hall 1, .hall 2, .hall 3]
      ((s.withMem { s.mem with near := [] }).withSaf { s.saf with startTest := s.awn.tick })
    have htested := startupSelfTest_of_good hphase htest hfar
    rw [hv] at hon htested
    refine ⟨_, congrArg Host.Outcome.next htested, ?_, ?_, ?_, ?_, ?_, ?_⟩
    · apply State.eq_of_parts <;> simp
    iterate 3 simp
    · have hall : ∀ h : Fin 4, Func.hall h ∈ [Func.hall 0, .hall 1, .hall 2, .hall 3] := by decide
      exact fun h hstarting => hon h (.inl ⟨hstarting, hall h⟩)
    · simp
  · obtain ⟨v, hv⟩ := foldl_fnStarted_eq (allPorts.map Func.torus ++ [Func.countingHouse, Func.barter]) s
    have hon := fun p : Port => foldl_fnStarted_on (.torus p) (allPorts.map Func.torus ++ [Func.countingHouse, Func.barter]) s
    have hlinked := startupLinks_of_last hphase hdone htrained
    rw [hv] at hon hlinked
    refine ⟨_, congrArg Host.Outcome.next hlinked, ?_, ?_, ?_, ?_, ?_⟩
    · apply State.eq_of_parts <;> simp
    · simp
    · exact fun p hstarting => hon p (.inl ⟨hstarting, by cases p <;> decide⟩)
    iterate 2 simp
  · have h : phaseTimeout ph s = s := if_pos (.inl hphase)
    exact congrArg Host.Outcome.next h
  · have h : phaseTimeout ph s = s := if_pos (.inr (.inr (.inr (.inr (.inr (.inr hearly))))))
    exact congrArg Host.Outcome.next h
  · obtain ⟨hlatched, hfault, hwait, hmbx, hjob, -, hawn⟩ := startupFailure_latched s
    exact ⟨_, congrArg Host.Outcome.next (phaseTimeout_of_late hstate hphase hbounded hlate), hlatched, hfault, hwait, hmbx, hjob, hawn⟩

end Sys2Proof.Machine

namespace Sys2Proof.Machine

/-! ### The start and the end of power (R582, R591, R595) -/

theorem tryStart_of_waiting {s : State} (hstate : s.pwr.state = .standby ∨ s.pwr.state = .sleep) (hen : s.pwr.pwrEn = true)
    (hrange : s.pwr.inRange = true) : tryStart s = beginRails s := if_pos ⟨hstate, hen, hrange⟩

theorem tryStart_of_not_enabled {s : State} (hen : s.pwr.pwrEn = false) : tryStart s = s :=
  if_neg (fun h => by simp [hen] at h)

theorem tryStart_of_out_of_range {s : State} (hrange : s.pwr.inRange = false) : tryStart s = s :=
  if_neg (fun h => by simp [hrange] at h)

theorem tryStart_of_not_waiting {s : State} (hstate : s.pwr.state ≠ .standby ∧ s.pwr.state ≠ .sleep) : tryStart s = s :=
  if_neg (fun h => h.1.elim hstate.1 hstate.2)

theorem reported_self (s : State) :
    s = ((s.withSaf { s.saf with selfFailed := s.saf.selfFailed }).marked s.marks).withOut (s.out ++ []) := by
  apply State.eq_of_parts <;> simp [State.marked, State.marks]

/-- R436: a module that reports itself failed keeps its reason, writes a record and shows it. -/
theorem failModule_eq (reason : Nat) (s : State) : ∃ n m o, failModule reason s =
    ((s.withSaf { s.saf with selfFailed := some n }).marked m).withOut (s.out ++ o) := by
  unfold failModule
  cases hfailed : s.saf.selfFailed with
  | some n =>
    exact ⟨n, s.marks, [], (if_pos rfl).trans (hfailed ▸ reported_self s)⟩
  | none =>
    rw [if_neg (by simp)]
    obtain ⟨m, hm⟩ := logEvent_eq 0x205 4 .none _ (s.withSaf { s.saf with selfFailed := some reason })
    exact ⟨reason, m, [.selfFailed reason], congrArg (emit (.selfFailed reason)) hm⟩

theorem logPower_eq (event rail : Nat) (sev : BitVec 3) (s : State) : ∃ m, logPower event rail sev s = s.marked m :=
  logEvent_eq _ _ _ _ s

/-- R436: a member of a slice reports itself failed when it shuts down. -/
theorem shutdownReport_eq (s : State) : ∃ f m o, (if s.slice.sliceId.isSome then failModule 4 s else s) =
    ((s.withSaf { s.saf with selfFailed := f }).marked m).withOut (s.out ++ o) := by
  split
  · obtain ⟨n, m, o, h⟩ := failModule_eq 4 s
    exact ⟨some n, m, o, h⟩
  · exact ⟨s.saf.selfFailed, s.marks, [], reported_self s⟩

/-- R591: a shutdown stops the work of every stall, leaves marks and outputs, and moves the power state. -/
theorem beginShutdown_eq (event : Nat) (rangeLoss : Bool) (s : State) : ∃ f m o, beginShutdown event rangeLoss s =
    ((((s.withSaf { s.saf with selfFailed := f }).marked m).withOut (s.out ++ o)).withStalls (clearStalls s.stalls)).withPwr
      { s.pwr with state := .shutdown, rangeLoss := rangeLoss, restart := false } := by
  obtain ⟨f, m, o, hreport⟩ := shutdownReport_eq s
  obtain ⟨m', hlog⟩ := logPower_eq event 0xFF (powerSev (((s.withSaf { s.saf with selfFailed := f }).marked m).withOut (s.out ++ o)))
    (((s.withSaf { s.saf with selfFailed := f }).marked m).withOut (s.out ++ o))
  refine ⟨f, m', o, ?_⟩
  simp only [beginShutdown, hreport, hlog]
  apply State.eq_of_parts <;> simp [State.marked]

/-- R582: an input out of range for 100 us shuts the module down. -/
theorem rangeTimeout_of_late {s : State} (hrange : s.pwr.inRange = false) (hrails : railsOn s = true)
    (hlate : 100000 ≤ (s.awn.tick - s.pwr.outSince).toNat) : rangeTimeout s = beginShutdown 2 true s := by
  refine if_neg ?_
  rintro (h | h | h)
  · simp [hrange] at h
  · simp [hrails] at h
  · omega

theorem state_ne_latched_of_railsOn {s : State} (h : railsOn s = true) : s.pwr.state ≠ .latched := by
  intro hlatched
  simp [railsOn, hlatched] at h

/-- R591: PWR_EN deasserts while the rails are on. -/
theorem pwrEnDeassert_of_railsOn {s : State} (hrails : railsOn s = true) : pwrEnDeassert true s =
    beginShutdown 3 false (s.withPwr { s.pwr with pwrEn := false, restart := false }) :=
  (if_neg (by decide)).trans ((if_neg (state_ne_latched_of_railsOn hrails)).trans (if_pos hrails))

/-- R591: the module after a shutdown, with PWR_EN deasserted. -/
theorem shutdownDone_of_disabled {s : State} (hstate : s.pwr.state = .shutdown) (hen : s.pwr.pwrEn = false) : ∃ o, shutdownDone s =
    ((losePower s).withPwr { quietPower s.pwr with
      state := if s.pwr.rangeLoss then .standby else .sleep, phase := .wait, restart := false, rangeLoss := false,
      sleepSince := s.awn.tick, pg := false }).withOut (s.out ++ o) := by
  obtain ⟨o, ho⟩ := drivePg_withPwr false (losePower s) { quietPower s.pwr with
    state := if s.pwr.rangeLoss then .standby else .sleep, phase := .wait, restart := false, rangeLoss := false,
    sleepSince := s.awn.tick }
  rw [losePower_out] at ho
  refine ⟨o, ?_⟩
  have hdone : shutdownDone s = tryStart (drivePg false ((losePower s).withPwr { quietPower s.pwr with
      state := if s.pwr.rangeLoss then .standby else .sleep, phase := .wait, restart := false, rangeLoss := false,
      sleepSince := s.awn.tick })) := by
    simp [shutdownDone, hstate]
  rw [hdone, ho]
  exact tryStart_of_not_enabled (by simp [quietPower, hen])

/-! ### What the drained queue leaves unchanged (R493) -/

/-- R488: t differs from s in the marks of records at most. -/
def MarksOnly (s t : State) : Prop := ∃ m, t = s.marked m

theorem marksOnly_refl (s : State) : MarksOnly s s := marked_self s

theorem MarksOnly.trans {s t u : State} (hst : MarksOnly s t) (htu : MarksOnly t u) : MarksOnly s u := by
  obtain ⟨m, rfl⟩ := hst
  obtain ⟨m', rfl⟩ := htu
  exact ⟨m', rfl⟩

theorem marksOnly_withLog (s : State) (l : Log) : MarksOnly s (s.withLog l) := ⟨{ s.marks with log := l }, rfl⟩

theorem marksOnly_logEvent (code : W16) (sev : BitVec 3) (unit : UnitId) (detail : Bytes) (s : State) :
    MarksOnly s (logEvent code sev unit detail s) := logEvent_eq code sev unit detail s

theorem marksOnly_enterGroup (rs : List LogRec) (s : State) : MarksOnly s (enterGroup rs s) := by
  obtain ⟨d, e, q, n, hflags⟩ := flagAll_eq rs s.saf s.log.nextSeq
  unfold enterGroup
  dsimp only
  rw [hflags]
  exact ⟨⟨_, d, e, q, n, _, _⟩, rfl⟩

theorem marksOnly_admitWaiting (n : Nat) : ∀ s : State, MarksOnly s (admitWaiting n s) := by
  induction n with
  | zero => exact marksOnly_refl
  | succ n ih =>
    intro s
    unfold admitWaiting
    split
    · exact marksOnly_refl s
    · split
      · exact ((marksOnly_withLog s _).trans (marksOnly_enterGroup _ _)).trans (ih _)
      · exact marksOnly_refl s

theorem marksOnly_freezeSegment (q : Nat) (s : State) : MarksOnly s (freezeSegment q s) := by
  unfold freezeSegment
  split
  · exact marksOnly_refl s
  · split
    · exact marksOnly_logEvent _ _ _ _ s
    · exact (marksOnly_withLog s _).trans (marksOnly_logEvent _ _ _ _ _)

theorem marksOnly_fatalWritten (i : Nat) (s : State) : MarksOnly s (fatalWritten i s) := by
  unfold fatalWritten
  dsimp only
  split
  · exact marksOnly_refl s
  · split
    · exact (marksOnly_withLog s _).trans (marksOnly_freezeSegment _ _)
    · exact marksOnly_withLog s _

theorem marksOnly_endSegment (s : State) : MarksOnly s (endSegment s) := by
  unfold endSegment
  dsimp only
  split
  · exact marksOnly_refl s
  · split
    · exact ((marksOnly_withLog s _).trans (marksOnly_freezeSegment _ _)).trans (marksOnly_withLog _ _)
    · exact marksOnly_withLog s _

theorem marksOnly_reportLost (s : State) : MarksOnly s (reportLost s) := by
  unfold reportLost
  split
  · exact (marksOnly_withLog s _).trans (marksOnly_logEvent _ _ _ _ _)
  · exact marksOnly_refl s

theorem marksOnly_mramWrite (s : State) : MarksOnly s (mramWrite s) := by
  unfold mramWrite
  split
  · exact marksOnly_refl s
  · dsimp only
    refine MarksOnly.trans ?_ ((marksOnly_endSegment _).trans (marksOnly_reportLost _))
    split
    · exact (marksOnly_withLog s _).trans (marksOnly_fatalWritten _ _)
    · exact marksOnly_withLog s _

/-- R493: the drained queue changes the Logbook and its marks only. -/
theorem marksOnly_drainQueue (n : Nat) : ∀ s : State, MarksOnly s (drainQueue n s) := by
  induction n with
  | zero => exact marksOnly_refl
  | succ n ih =>
    intro s
    unfold drainQueue
    split
    · exact marksOnly_refl s
    · exact ((marksOnly_mramWrite s).trans (marksOnly_admitWaiting _ _)).trans (ih _)

/-- R493: PG deasserts: the queue is drained, and the pending freezes complete. -/
theorem pgDeassert_eq {s : State} (hpg : s.pwr.pg = true) : ∃ m, pgDeassert s =
    completeFreezes ((drivePg false s).marked m) := by
  obtain ⟨m, hlog⟩ := logPower_eq 0 0xFF (powerSev (drivePg false s)) (drivePg false s)
  have hdeassert : pgDeassert s = completeFreezes (drainQueue _ (logPower 0 0xFF (powerSev (drivePg false s)) (drivePg false s))) :=
    if_neg (by simp [hpg])
  rw [hlog] at hdeassert
  obtain ⟨m', hdrain⟩ := marksOnly_drainQueue _ ((drivePg false s).marked m)
  rw [hdrain] at hdeassert
  exact ⟨m', hdeassert⟩

/-! ### The statement -/

/-- R582, R491: the Awning powers up and waits. -/
theorem awningUp_of_waiting {s : State} {mv : Nat} (hoff : s.awn.on = false) (hmv : 40000 ≤ mv)
    (hwaits : s.pwr.pwrEn = false ∨ mv < 46000 ∨ 60000 < mv) : awningUp mv s =
      settleAlert ((((s.withAwn { on := true }).withSaf { stalls := s.saf.stalls, cellars := s.saf.cellars }).withLog (resumeLog s.log)).withPwr
        { state := .standby, phase := .wait, pwrEn := s.pwr.pwrEn, mv := BitVec.ofNat 17 mv,
          inRange := decide (46000 ≤ mv) && decide (mv ≤ 60000) }) := by
  have h : awningUp mv s = _ := if_neg (not_or.2 ⟨by omega, by simp [hoff]⟩)
  refine h.trans ?_
  rcases hwaits with hen | hlow | hhigh
  · exact tryStart_of_not_enabled (by simp [hen])
  · refine tryStart_of_out_of_range ?_
    rw [settleAlert_pwr]
    simp [show ¬ 46000 ≤ mv by omega]
  · refine tryStart_of_out_of_range ?_
    rw [settleAlert_pwr]
    simp [show ¬ mv ≤ 60000 by omega]

/-- R582: the Awning turns off. -/
theorem awningOff_of_low {s : State} {mv : Nat} (hmv : mv < 36000) : awningOff mv s =
    ((((losePower s).withAwn {}).withLog { s.log with queue := [], waiting := [] }).withPwr { pwrEn := s.pwr.pwrEn }).withDbg {} := by
  rw [awningOff, if_neg (by omega)]
  simp only [State.withAwn_log, losePower_log, State.withLog_pwr, State.withAwn_pwr, losePower_pwr]

/-- Settles O22: the waits are decided by the conditions of each clause; shutdown, power-off and PG by their equations. -/
theorem inputAndPinsDriveThePowerStates : Obligations.InputAndPinsDriveThePowerStates := by
  unfold Obligations.InputAndPinsDriveThePowerStates
  refine ⟨⟨fun s mv hoff hmv hwaits => ?_, fun s mv hmv => ?_, fun s mv hon => ⟨fun hlow => ?_, fun hhigh => ?_⟩,
      fun s mv hon hrecovered => ⟨fun hwaits => ?_, fun hen hstate => ?_⟩, fun s hrange hearly => ?_, fun s hrange hrails hlate => ?_⟩,
    fun s hstate => ⟨fun hwaits hrange => ?_, fun hrange => ?_⟩, fun s hstate => ?_, fun s => ⟨rfl, rfl⟩, fun s hstate => ?_,
    fun s hrails => ?_, fun s hstate hen => ?_, fun s hpg => ?_, fun s hstate => ?_, fun s hstate hwork => ?_, fun s hwork => ?_,
    fun s hstate => ?_⟩
  · refine ⟨_, congrArg Host.Outcome.next (awningUp_of_waiting hoff hmv hwaits), ?_⟩
    simp [resumeLog]
  · refine ⟨_, congrArg Host.Outcome.next (awningOff_of_low hmv), ?_⟩
    simp
  · have h : inputOut mv s = _ := (if_neg (by simp [hon])).trans (if_pos hlow)
    exact congrArg Host.Outcome.next h
  · have h : inputOut mv s = _ := (if_neg (by simp [hon])).trans ((if_neg (by omega)).trans (if_pos hhigh))
    exact congrArg Host.Outcome.next h
  · have h : inputIn mv s = _ := if_neg (by simp [hon, hrecovered])
    refine congrArg Host.Outcome.next (h.trans ?_)
    rcases hwaits with hen | hstate
    · exact tryStart_of_not_enabled hen
    · exact tryStart_of_not_waiting hstate
  · have h : inputIn mv s = _ := if_neg (by simp [hon, hrecovered])
    exact congrArg Host.Outcome.next (h.trans (tryStart_of_waiting hstate hen rfl))
  · have h : rangeTimeout s = s := if_pos (.inr (.inr hearly))
    exact congrArg Host.Outcome.next h
  · obtain ⟨f, m, o, hdown⟩ := beginShutdown_eq 2 true s
    refine ⟨_, congrArg Host.Outcome.next ((rangeTimeout_of_late hrange hrails hlate).trans hdown), ?_, ?_, ?_, ?_, ?_, ?_, ?_⟩
    · apply State.eq_of_parts <;> simp [State.marked]
    all_goals simp [State.marked]
  · have h : pwrEnAssert true s = _ := (if_neg (by decide)).trans (if_neg hstate)
    exact congrArg Host.Outcome.next (h.trans (tryStart_of_waiting hwaits rfl hrange))
  · have h : pwrEnAssert true s = _ := (if_neg (by decide)).trans (if_neg hstate)
    exact congrArg Host.Outcome.next (h.trans (tryStart_of_out_of_range hrange))
  · have h : pwrEnAssert true s = _ := (if_neg (by decide)).trans (if_pos hstate)
    exact congrArg Host.Outcome.next h
  · have h : pwrEnDeassert true s = _ := (if_neg (by decide)).trans (if_pos hstate)
    exact congrArg Host.Outcome.next h
  · obtain ⟨f, m, o, hdown⟩ := beginShutdown_eq 3 false (s.withPwr { s.pwr with pwrEn := false, restart := false })
    refine ⟨_, congrArg Host.Outcome.next ((pwrEnDeassert_of_railsOn hrails).trans hdown), ?_, ?_, ?_, ?_, ?_, ?_⟩
    · apply State.eq_of_parts <;> simp [State.marked]
    all_goals simp [State.marked]
  · obtain ⟨o, hdone⟩ := shutdownDone_of_disabled hstate hen
    refine ⟨_, congrArg Host.Outcome.next hdone, ?_⟩
    simp
  · obtain ⟨m, hdeassert⟩ := pgDeassert_eq hpg
    refine ⟨_, congrArg Host.Outcome.next hdeassert, ?_⟩
    rw [drivePg_eq]
    refine ⟨rfl, fun hextest => ?_, rfl, rfl⟩
    simp [hpg, hextest]
  · exact congrArg Host.Outcome.next (by simp [hstate])
  · exact congrArg Host.Outcome.next (by simp [hstate, hwork])
  · exact congrArg Host.Outcome.next (if_neg (by simp [hwork]))
  · exact congrArg Host.Outcome.next (by simp [hstate])

end Sys2Proof.Machine

namespace Sys2Proof.Machine

/-! ### Temperature (R178, R589, R590) -/

theorem driveTherm_levels (v : Bool) (s : State) : (driveTherm v s).pwr.levels = s.pwr.levels := by
  unfold driveTherm sidebandPin
  split
  · rfl
  · split <;> rfl

theorem driveTherm_mem (v : Bool) (s : State) : (driveTherm v s).mem = s.mem := by
  unfold driveTherm sidebandPin
  split
  · rfl
  · split <;> rfl

theorem settleThermal_levels (s : State) : (settleThermal s).pwr.levels = s.pwr.levels := driveTherm_levels _ _

theorem settleThermal_mem (s : State) : (settleThermal s).mem = s.mem := driveTherm_mem _ _

/-- R589: a reading enters the levels at its sensor's key. -/
theorem enterReading_levels (sensor : Sensor) (t : Int) (s : State) : (enterReading sensor t s).pwr.levels =
    sput 0 s.pwr.levels (sensorKey sensor) (levelOf [(sensorLevels (sensorKey sensor)).1, (sensorLevels (sensorKey sensor)).2.1,
      (sensorLevels (sensorKey sensor)).2.2] (sget 0 s.pwr.levels (sensorKey sensor)) t) := settleThermal_levels _

theorem enterReading_mem (sensor : Sensor) (t : Int) (s : State) : (enterReading sensor t s).mem = s.mem := settleThermal_mem _

theorem levelRecord_mem (sensor : Sensor) (old new base : Nat) (t : Int) (s : State) : (levelRecord sensor old new base t s).mem = s.mem := by
  unfold levelRecord
  split
  · rfl
  · exact logEvent_mem _ _ _ _ _

/-- R589: the levels of a die. -/
theorem sensorLevels_hallDie (h : Fin 4) (i : Fin 16) : sensorLevels (sensorKey (.hallDie h i)) = (100, 110, 118) :=
  if_pos (by simp [sensorKey]; omega)

/-- R589: a die that stays at its level is only stored. -/
theorem thermalLevel_of_same {s : State} {h : Fin 4} {i : Fin 16} {t : Int} (hwf : swf 0 s.pwr.levels = true)
    (hsame : levelOf [100, 110, 118] (sget 0 s.pwr.levels (16 * h.val + i.val)) t = sget 0 s.pwr.levels (16 * h.val + i.val)) :
    thermalLevel (.hallDie h i) t s = enterReading (.hallDie h i) t s := by
  have hnew : sget 0 (enterReading (.hallDie h i) t s).pwr.levels (sensorKey (.hallDie h i)) =
      sget 0 s.pwr.levels (sensorKey (.hallDie h i)) := by
    rw [enterReading_levels, sensorLevels_hallDie, sget_sput_self 0 _ 0 _ _ hwf]
    exact hsame
  unfold thermalLevel
  dsimp only
  rw [hnew, if_neg (fun h => Nat.lt_irrefl _ h.1)]
  exact if_pos rfl

/-- R178: a Cellar of row 0 reaches row 1 from 85 °C to 95 °C. -/
theorem cellarTemp_row {s : State} {c : Fin 1024} {t : Int} (hcellar : sget {} s.mem.cellars c.val = {}) (hlow : 85 ≤ t) (hhigh : t < 95) :
    (sget {} (cellarTemp c t s).mem.cellars c.val).row = 1 := by
  have hlevel : levelOf [85, 95, 105, 113] 0 t = 1 := by
    simp [levelOf, levelGo, hlow, show ¬ (95 : Int) ≤ t by omega]
  have hmem : (cellarTemp c t s).mem.cellars = sput {} s.mem.cellars c.val { row := 1 } := by
    have hrow : ¬ (({} : Cellar).row = 3 ∧ sget 0 s.pwr.levels (sensorKey (.cellar c)) = 3) := fun h => absurd h.1 (by decide)
    simp only [cellarTemp, hcellar, if_neg hrow, hlevel]
    rw [if_neg (by decide), levelRecord_mem, enterReading_mem]
    rfl
  rw [hmem, sget_sput_of_ne _ _ _ _ (by decide)]

/-! ### The rules of one interval (R587, R588) -/

/-- R588: an interval of a module whose rails are on. -/
theorem throttleInterval_eq {s : State} (w : Nat) (l : List Nat) (hrails : railsOn s = true) : ∃ least, throttleInterval w l s =
    (s.withPwr { s.pwr with
      halls := Vector.ofFn (hallInterval s (capInForce s.pwr) w l), quiet := (powerRule w (capInForce s.pwr) 0 s.pwr.quiet).2,
      cleared := false, watts := BitVec.ofNat 13 w, capHit := s.pwr.capHit || decide (capInForce s.pwr < w) }).withTal
        { s.tal with winEnergy := s.tal.winEnergy + w * 1000 * 100000, winPeak := max s.tal.winPeak w, winAclk := least } :=
  ⟨_, if_neg (by simp [hrails])⟩

theorem applyModel_powerMhz (p : Pwr) (h : Fin 4) : (applyModel p).halls[h].powerMhz = rung (Config.powerModel (capInForce p) h) := by
  simp [applyModel]

/-- R552: a cap outside 1,000 W to 4,000 W keeps the previous one. -/
theorem writeCap_of_illegal {v : W32} (s : State) (h : (v.extractLsb' 0 13).toNat < 1000 ∨ 4000 < (v.extractLsb' 0 13).toNat) :
    writeCap v s = s := by
  refine if_neg ?_
  rintro ⟨hlow, hhigh, -⟩
  omega

/-- R588: a legal cap is in force, with the ladder at the power model's rates where it changes. -/
theorem writeCap_of_legal {v : W32} (s : State) (hlow : 1000 ≤ (v.extractLsb' 0 13).toNat) (hhigh : (v.extractLsb' 0 13).toNat ≤ 4000) :
    (writeCap v s).pwr.cap = v.extractLsb' 0 13 ∧ writeCap v s = s.withPwr (writeCap v s).pwr ∧
    (v.extractLsb' 0 13 ≠ s.pwr.cap →
      ∀ h : Fin 4, (writeCap v s).pwr.halls[h].powerMhz = rung (Config.powerModel (capInForce (writeCap v s).pwr) h)) := by
  by_cases hsame : v.extractLsb' 0 13 = s.pwr.cap
  · have hkeep : writeCap v s = s := if_neg (fun h => h.2.2 hsame)
    rw [hkeep]
    exact ⟨hsame.symm, rfl, fun h => absurd hsame h⟩
  · have htake : writeCap v s = s.withPwr (applyModel { s.pwr with cap := v.extractLsb' 0 13 }) := if_pos ⟨hlow, hhigh, hsame⟩
    rw [htake]
    exact ⟨rfl, rfl, fun _ h => applyModel_powerMhz _ h⟩

/-- R551: a requested state other than P0 and P1 keeps the previous one. -/
theorem writeRequested_of_illegal {v : W32} (s : State) (h : 1 < (v.extractLsb' 8 3).toNat) : writeRequested v s = s := by
  refine if_neg ?_
  rintro ⟨hlegal, -⟩
  omega

/-- R551, R584: a legal requested state is taken, beside the cap. -/
theorem writeRequested_of_legal {v : W32} (s : State) (h : (v.extractLsb' 8 3).toNat ≤ 1) :
    (writeRequested v s).pwr.requestP1 = decide ((v.extractLsb' 8 3).toNat = 1) ∧
    writeRequested v s = s.withPwr (writeRequested v s).pwr ∧ (writeRequested v s).pwr.cap = s.pwr.cap := by
  by_cases hsame : decide ((v.extractLsb' 8 3).toNat = 1) = s.pwr.requestP1
  · have hkeep : writeRequested v s = s := if_neg (fun h => h.2 hsame)
    rw [hkeep]
    exact ⟨hsame.symm, rfl, rfl⟩
  · have htake : writeRequested v s = _ := if_pos ⟨h, hsame⟩
    rw [htake]
    dsimp only
    split <;> exact ⟨rfl, rfl, rfl⟩

/-! ### Loss of control (R478) -/

/-- R478: a Hall whose rails go off is OFF, and its stalls are lost. -/
theorem hallRailsOff_values (h : Fin 4) (s : State) : getFn (hallRailsOff h s) (.hall h) = { state := .off, lostOff := true } ∧
    (hallRailsOff h s).dev.hallsOn = s.dev.hallsOn &&& ~~~((1 : BitVec 4) <<< h.val) ∧
    (hallRailsOff h s).stalls = s.stalls.filter (fun p => decide (p.1 / 256 ≠ h.val)) ∧ (hallRailsOff h s).mbx = s.mbx :=
  ⟨getFn_setFn_self s (.hall h) _, rfl, rfl, rfl⟩

/-- R478: the rail of a Hall is lost. -/
theorem lossOfControl_hallRail {s : State} (h : Fin 4) (hrails : railsOn s = true) : ∃ m n m' o, lossOfControl (.hallRail h) s =
    (((hallRailsOff h (s.marked m)).withSaf { (hallRailsOff h (s.marked m)).saf with selfFailed := some n }).marked m').withOut
      ((hallRailsOff h (s.marked m)).out ++ o) := by
  obtain ⟨m, hlog⟩ := logPower_eq 1 h.val 4 s
  obtain ⟨n, m', o, hfail⟩ := failModule_eq 5 (hallRailsOff h (s.marked m))
  refine ⟨m, n, m', o, ?_⟩
  rw [← hfail, ← hlog]
  exact if_neg (by simp [hrails])

/-! ### Telemetry windows (R607) -/

/-- R607: the next close is the least multiple of the length past this one. -/
theorem nextClose_between (tick : Nat) {len : Nat} (h : 0 < len) :
    tick < nextClose tick len ∧ nextClose tick len % len = 0 ∧ nextClose tick len ≤ tick + len := by
  have hclose : nextClose tick len = (tick / len + 1) * len := if_neg (by omega)
  rw [hclose]
  refine ⟨Nat.lt_mul_of_div_lt (Nat.lt_succ_self _) h, Nat.mul_mod_left _ _, ?_⟩
  rw [Nat.add_mul, Nat.one_mul]
  exact Nat.add_le_add_right (Nat.div_mul_le_self tick len) len

/-- R608: a window that is due closes with its record, and the next one opens. -/
theorem windowClose_of_due {s : State} (hphase : s.pwr.phase = .done) (hdue : s.tal.closes.toNat ≤ s.awn.tick.toNat) : windowClose s =
    (s.withLog { s.log with lostWindow := 0 }).withTal { s.tal with
      ring := if 64 < (s.tal.ring ++ [windowRecord s]).length then (s.tal.ring ++ [windowRecord s]).tail else s.tal.ring ++ [windowRecord s],
      opened := s.tal.closes, closes := BitVec.ofNat 64 (nextClose s.tal.closes.toNat s.tal.window.toNat), winCounts := [],
      winEnergy := 0, winPeak := 0, winAclk := 3000 } :=
  if_neg (not_or.2 ⟨fun h => h hphase, by omega⟩)

/-- R590: a Hall gated for 1 s ends the run. -/
theorem thermalLimit_of_gated {s : State} {since : W64} (hgated : s.pwr.gatedSince = some since) (hrun : s.step.run.isSome = true) :
    thermalLimit s = if 1000000000 ≤ (s.awn.tick - since).toNat then emit (.thermalLimit (memberIndex s)) (endRun rThermalLimit {} s) else s := by
  unfold thermalLimit
  rw [hgated, hrun, Option.any_some, Bool.and_true]
  exact if_congr decide_eq_true_iff rfl rfl

/-- R608: the ring of a window that closes ends with its record, and holds 64 at most. -/
theorem ring_of_windowClose (ring : List WindowRec) (r : WindowRec) (next : List WindowRec)
    (hnext : next = if 64 < (ring ++ [r]).length then (ring ++ [r]).tail else ring ++ [r]) :
    next.getLast? = some r ∧ (ring.length < 64 → next = ring ++ [r]) ∧ (ring.length = 64 → next = ring.drop 1 ++ [r]) := by
  rw [List.length_append, List.length_singleton] at hnext
  by_cases hfull : 64 < ring.length + 1
  · rw [if_pos hfull] at hnext
    obtain ⟨x, l, rfl⟩ : ∃ x l, ring = x :: l := List.exists_cons_of_length_pos (by omega)
    rw [hnext]
    exact ⟨by simp, fun h => by omega, fun _ => rfl⟩
  · rw [if_neg hfull] at hnext
    rw [hnext]
    exact ⟨by simp, fun _ => rfl, fun h => by omega⟩

/-- R607: a next close that fits in 64 bits is the grid's. -/
theorem nextClose_fits {closes window : W64} (hlen : 0 < window.toNat) (hbound : closes.toNat + window.toNat < 2 ^ 64) :
    (BitVec.ofNat 64 (nextClose closes.toNat window.toNat)).toNat = nextClose closes.toNat window.toNat := by
  obtain ⟨-, -, hnear⟩ := nextClose_between closes.toNat hlen
  rw [BitVec.toNat_ofNat]
  exact Nat.mod_eq_of_lt (Nat.lt_of_le_of_lt hnear hbound)

/-- Settles O23: each clause by the equation of its command; the next close by the arithmetic of the grid. -/
theorem heatCurrentAndCapsThrottle : Obligations.HeatCurrentAndCapsThrottle := by
  unfold Obligations.HeatCurrentAndCapsThrottle
  refine ⟨⟨fun s ma hrails hma => ?_, fun s ma hma => ?_, fun s w l hrails => ?_, fun s h i t hrails hwf hsame => ?_,
      fun s since hgated hrun => ?_, fun s hgated => ?_, fun s h hrails => ?_, fun s c base top hrails => ?_,
      fun s c t hcellar hlevel hlow hhigh => cellarTemp_row hcellar hlow hhigh⟩,
    fun s v hreach => ⟨fun hbad => ?_, fun hlow hhigh => ?_, fun hbad => ?_, fun hlegal => ?_⟩, fun s cap v hreach => ?_,
    fun s hphase hdue => ?_, fun s hearly => ?_⟩
  · exact congrArg Host.Outcome.next (if_pos (by simp [hrails, hma]))
  · exact congrArg Host.Outcome.next (if_pos (by simp [hma]))
  · obtain ⟨least, hinterval⟩ := throttleInterval_eq w l hrails
    refine ⟨_, congrArg Host.Outcome.next hinterval, ?_, ?_, ?_, ?_, ?_, ?_, ?_, ?_, ?_⟩
    · apply State.eq_of_parts <;> simp
    · rfl
    · rfl
    · exact fun h => by simp
    · rfl
    · exact congrArg (s.tal.winEnergy + ·) (by omega)
    iterate 3 rfl
  · exact congrArg Host.Outcome.next ((if_pos hrails).trans (thermalLevel_of_same hwf hsame))
  · exact congrArg Host.Outcome.next (thermalLimit_of_gated hgated hrun)
  · have h : thermalLimit s = s := if_neg (by simp [hgated])
    exact congrArg Host.Outcome.next h
  · obtain ⟨m, n, m', o, hloss⟩ := lossOfControl_hallRail h hrails
    obtain ⟨hoff, hbit, hstalls, hmbx⟩ := hallRailsOff_values h (s.marked m)
    exact ⟨_, congrArg Host.Outcome.next hloss, hoff, hbit, hstalls, rfl, hmbx⟩
  · exact congrArg Host.Outcome.next (if_pos hrails)
  · have h : powerCapChange true v s = writeCap v s := if_neg (by simp [hreach])
    exact congrArg Host.Outcome.next (h.trans (writeCap_of_illegal s hbad))
  · have h : powerCapChange true v s = writeCap v s := if_neg (by simp [hreach])
    exact ⟨_, congrArg Host.Outcome.next h, writeCap_of_legal s hlow hhigh⟩
  · have h : powerCapChange false v s = writeRequested v s := if_neg (by simp [hreach])
    exact congrArg Host.Outcome.next (h.trans (writeRequested_of_illegal s hbad))
  · have h : powerCapChange false v s = writeRequested v s := if_neg (by simp [hreach])
    exact ⟨_, congrArg Host.Outcome.next h, writeRequested_of_legal s hlegal⟩
  · have h : powerCapChange cap v s = s := if_pos (by simp [hreach])
    exact congrArg Host.Outcome.next h
  · obtain ⟨hlast, hfew, hfull⟩ := ring_of_windowClose s.tal.ring (windowRecord s) _ rfl
    refine ⟨_, congrArg Host.Outcome.next (windowClose_of_due hphase hdue), rfl, hlast, rfl, hfew, hfull, rfl, rfl, rfl, rfl, rfl,
      fun hlen hbound => ?_⟩
    rw [State.withTal_tal, nextClose_fits hlen hbound]
    exact nextClose_between s.tal.closes.toNat hlen
  · have h : windowClose s = s := if_pos (.inr hearly)
    exact congrArg Host.Outcome.next h

end Sys2Proof.Machine

namespace Sys2Proof.Machine

/-! ### The TAP and the instrument network (R615, R617) -/

theorem selectIr_of_on {s : State} (i : Jtag) (hon : s.awn.on = true) : selectIr i s = s.withDbg { s.dbg with ir := i, tapActive := true } :=
  if_pos hon

theorem extest_of_noHello {s : State} (hon : s.awn.on = true) (hjob : s.mbx.job = .noHello) :
    extest s = s.withDbg { s.dbg with ir := .extest, tapActive := true, extest := true } := by
  simp only [extest, if_pos hjob, selectIr_of_on .extest hon]
  exact if_pos hon

theorem samplePreload_of_on {s : State} (p q : BitVec 64) (hon : s.awn.on = true) : samplePreload p q s =
    emit (.tdo (bytesOf 64 q 8)) (s.withDbg { s.dbg with ir := .samplePreload, tapActive := true, boundary := p }) := by
  rw [samplePreload, if_neg (by simp [hon]), selectIr_of_on .samplePreload hon]
  rfl

/-- R617: in IJTAG a powered segment follows its insertion bit, unless LOCKED keeps it closed. -/
theorem segmentInsert_of_powered {s : State} (g : Fin 5) (insert : Bool) (hir : s.dbg.ir = .ijtag) (hpowered : segmentPowered s g = true) :
    segmentInsert g insert s = s.withDbg { s.dbg with
      segments := if insert = true ∧ segmentLocked s g = false then s.dbg.segments ||| ((1 : BitVec 5) <<< g.val)
        else s.dbg.segments &&& ~~~((1 : BitVec 5) <<< g.val) } := by
  have hwrite : segmentInsert g insert s = _ := if_neg (by simp [hir, hpowered])
  rw [hwrite]
  cases insert
  · rfl
  · cases hlocked : segmentLocked s g <;> rfl

/-- Settles O21: each clause by the equation of its command under the clause's conditions. -/
theorem jtagReachesTheInstruments : Obligations.JtagReachesTheInstruments := by
  unfold Obligations.JtagReachesTheInstruments
  refine ⟨fun s hon hjob => ?_, fun s hon hjob => ?_, fun s p q hon => ?_, fun s hon => ?_, fun s hon => ?_, fun s code hon hcode => ?_,
    fun s b => rfl, fun s g hir hpowered => ⟨fun hopen => ?_, fun hlocked => ?_, ?_⟩, fun s addr hir hopen haddr => ?_,
    fun s addr haddr => if_pos haddr, fun s addr b hphase hir hopen => ?_, fun s addr b hphase => ?_⟩
  · exact congrArg Host.Outcome.next (extest_of_noHello hon hjob)
  · have h : extest s = _ := (if_neg hjob).trans (selectIr_of_on .bypass hon)
    exact congrArg Host.Outcome.next h
  · exact congrArg Host.Outcome.next (samplePreload_of_on p q hon)
  · exact congrArg Host.Outcome.next ((if_pos hon).trans (congrArg (emit _) (selectIr_of_on .idcode hon)))
  · exact congrArg Host.Outcome.next (selectIr_of_on .ijtag hon)
  · exact congrArg Host.Outcome.next ((if_neg hcode).trans (selectIr_of_on .bypass hon))
  · refine congrArg Host.Outcome.next ((segmentInsert_of_powered g true hir hpowered).trans ?_)
    rw [if_pos ⟨rfl, hopen⟩]
  · refine congrArg Host.Outcome.next ((segmentInsert_of_powered g true hir hpowered).trans ?_)
    rw [if_neg (by simp [hlocked])]
  · exact congrArg Host.Outcome.next (segmentInsert_of_powered g false hir hpowered)
  · have h : instrumentRead addr s = _ := if_pos ⟨hir, hopen⟩
    exact (if_neg (by omega)).trans (congrArg Host.Outcome.next h)
  · have h : spiNorWrite addr b s = _ := if_pos ⟨hphase, hir, hopen⟩
    exact congrArg Host.Outcome.next h
  · have h : spiNorWrite addr b s = s := if_neg (fun hall => hphase hall.1)
    exact congrArg Host.Outcome.next h

end Sys2Proof.Machine
